-- ==== Sys2Proof/Word.lean ====
section
/-! DEFINITION. The word types of the model, and the type of a sparse table. -/

-- Declarations are checked one after the other: each check that runs beside them asks for a large stack of its own.
set_option Elab.async false

namespace Sys2Proof

/-- A byte of host or device memory. -/
abbrev Byte := BitVec 8

/-- A register or table file with one entry per index: the entries that differ from the default, by rising index
(Machine/Tables.lean reads and writes it). -/
abbrev Tab (α : Type) := List (Nat × α)

/-- Host or device memory: address and byte, addresses strictly rising, no entry equal to 0. -/
abbrev Memory := Tab Byte

/-- A run of bytes, lowest address first. -/
abbrev Bytes := List Byte

end Sys2Proof
end

