-- ==== Sys2Proof/Machine/Tables.lean ====
section
/-! DEFINITION. Reading and writing sparse tables, memories, bit fields and little-endian numbers (R10). -/

namespace Sys2Proof.Machine

open Sys2Proof

/-- Entry `k` of a table whose unlisted entries are `d`. -/
def tget {α : Type} (d : α) : Tab α → Nat → α
  | [], _ => d
  | (k', v) :: r, k => if k' = k then v else tget d r k

/-- Write entry `k`; an entry equal to the default is not listed. -/
def tput {α : Type} [DecidableEq α] (d : α) : Tab α → Nat → α → Tab α
  | [], k, v => if v = d then [] else [(k, v)]
  | (k', v') :: r, k, v =>
    if k < k' then (if v = d then (k', v') :: r else (k, v) :: (k', v') :: r)
    else if k = k' then (if v = d then r else (k, v) :: r)
    else (k', v') :: tput d r k v

/-- Change entry `k` by `f`. -/
def tmod {α : Type} [DecidableEq α] (d : α) (t : Tab α) (k : Nat) (f : α → α) : Tab α :=
  tput d t k (f (tget d t k))

/-- The listed keys of a table. -/
def tkeys {α : Type} (t : Tab α) : List Nat := t.map (fun e => e.1)

/-- Keys strictly rising, and no entry at the default. -/
def twf {α : Type} [DecidableEq α] (d : α) : Tab α → Bool
  | [] => true
  | [(_, v)] => v ≠ d
  | (k, v) :: (k', v') :: r => decide (k < k') && decide (v ≠ d) && twf d ((k', v') :: r)

/-- The canonical form of a memory: an unlisted byte reads 0 (logs 5 and 6). -/
abbrev Memory.wf (m : Memory) : Bool := twf (0 : Byte) m

/-- The byte of memory at address `a`. -/
def mget (m : Memory) (a : Nat) : Byte := tget 0 m a

/-- Write the byte at address `a`. -/
def mput (m : Memory) (a : Nat) (v : Byte) : Memory := tput 0 m a v

/-- `n` bytes from address `a`, lowest first. -/
def mread (m : Memory) (a : Nat) : Nat → Bytes
  | 0 => []
  | n + 1 => mget m a :: mread m (a + 1) n

/-- Write a run of bytes from address `a`. -/
def mwrite (m : Memory) (a : Nat) : Bytes → Memory
  | [] => m
  | b :: bs => mwrite (mput m a b) (a + 1) bs

/-- Bits `[hi:lo]` of a number. -/
def bits (n hi lo : Nat) : Nat := (n >>> lo) % 2 ^ (hi + 1 - lo)

/-- Bit `i` of a number. -/
def bit (n i : Nat) : Bool := (n >>> i) % 2 == 1

/-- 1 for true. -/
def b2n (b : Bool) : Nat := if b then 1 else 0

/-- Set or clear bit `i` of a number. -/
def setBit (n i : Nat) (v : Bool) : Nat := if bit n i then (if v then n else n - 2 ^ i) else (if v then n + 2 ^ i else n)

/-- Number of set bits among the lowest `w`. -/
def popCount (n : Nat) : Nat → Nat
  | 0 => 0
  | w + 1 => b2n (bit n w) + popCount n w

/-- The set bits of `n` below `w`, rising. -/
def bitList (n w : Nat) : List Nat := (List.range w).filter (bit n)

/-- The number a list of bytes holds, little-endian (R10). -/
def leNum : Bytes → Nat
  | [] => 0
  | b :: bs => b.toNat + 256 * leNum bs

/-- `n` bytes of the number `v`, little-endian (R10). -/
def leBytes : Nat → Nat → Bytes
  | 0, _ => []
  | n + 1, v => BitVec.ofNat 8 v :: leBytes n (v / 256)

/-- The number of `n` bytes at offset `off` of a record (R10). -/
def fld (bs : Bytes) (off n : Nat) : Nat := leNum ((bs.drop off).take n)

/-- The bytes of a layout given as (width, value) pairs in order. -/
def layout (fs : List (Nat × Nat)) : Bytes := fs.flatMap (fun f => leBytes f.1 f.2)

/-- `n` zero bytes. -/
def zeros (n : Nat) : Bytes := List.replicate n 0

/-- Cut or pad a run of bytes to `n`. -/
def padTo (n : Nat) (bs : Bytes) : Bytes := (bs ++ zeros (n - bs.length)).take n

/-- Round up to a multiple of `m`. -/
def roundUp (n m : Nat) : Nat := ((n + m - 1) / m) * m

/-- A counter of `w` bits that saturates. -/
def satAdd (w a b : Nat) : Nat := min (a + b) (2 ^ w - 1)

/-- A counter of `w` bits that wraps. -/
def wrapAdd (w a b : Nat) : Nat := (a + b) % 2 ^ w

/-- Sign-extend a `w`-bit number. -/
def signed (w n : Nat) : Int := if n % 2 ^ w < 2 ^ (w - 1) then (n % 2 ^ w : Nat) else (n % 2 ^ w : Nat) - (2 ^ w : Nat)

/-- A signed number in `w` bits of two's complement. -/
def unsigned (w : Nat) (z : Int) : Nat := (z % (2 ^ w : Nat)).toNat

/-- The smallest offset among the failed entries of a list of (offset, passed): the first offending field of R278. -/
def firstBad : List (Nat × Bool) → Option Nat
  | [] => none
  | (o, ok) :: r =>
    match firstBad r with
    | none => if ok then none else some o
    | some o' => if ok then some o' else some (min o o')

/-- The first failing group of ordered checks, each group a list of (offset, passed). -/
def firstFail : List (List (Nat × Bool)) → Option Nat
  | [] => none
  | g :: r => match firstBad g with
    | some o => some o
    | none => firstFail r

/-- Split a list in runs of `n`. -/
def chunksOf {α : Type} (n : Nat) (l : List α) : List (List α) :=
  (List.range ((l.length + n - 1) / n)).map (fun i => (l.drop (i * n)).take n)

/-- Sum of a list of numbers. -/
def sumNat (l : List Nat) : Nat := l.foldl (· + ·) 0

/-- Insert into a rising list of numbers. -/
def insertNat (x : Nat) : List Nat → List Nat
  | [] => [x]
  | y :: r => if x ≤ y then x :: y :: r else y :: insertNat x r

/-- Sort numbers rising. -/
def sortNat (l : List Nat) : List Nat := l.foldr insertNat []

/-- Insert into a list ordered by a measure, equal measures in order of arrival. -/
def insertBy {α : Type} (m : α → Nat) (x : α) : List α → List α
  | [] => [x]
  | y :: r => if m x < m y then x :: y :: r else y :: insertBy m x r

/-- Sort by a measure, rising; equal measures keep their order. -/
def sortBy {α : Type} (m : α → Nat) (l : List α) : List α := l.foldl (fun acc x => insertBy m x acc) []

/-- Change the elements of a list that meet a condition. -/
def updWhere {α : Type} (p : α → Bool) (f : α → α) (l : List α) : List α := l.map (fun x => if p x then f x else x)

end Sys2Proof.Machine
end

