-- ==== Sys2Proof/Syntax.lean ====
section
/-! DEFINITION. The commands of the module: one constructor per row of the command table, in the table's order. The
operands of an Enrel command are the fields of its packet (R279); those of every other row are what arrives with the
event: a register value, a received record, a sensor reading, a choice the spec leaves to the outside. -/

namespace Sys2Proof

/-- The common fields of a command packet (R272, R273) and the queue it came from. -/
structure Hdr where
  q : Nat := 0
  irq : Bool := false
  fence : Bool := false
  jobFence : Bool := false
  seq : Nat := 0
  job : Nat := 0xFFFF
  deriving DecidableEq, Repr

/-- A position of a device granule: job, declaration handle, 4 KiB granule of the byte image. -/
structure Gran where
  job : Nat
  handle : Nat
  g : Nat
  deriving DecidableEq, Repr

/-- Calibration result of one cell (R44): fail taps at 0.60 V and 0.85 V (0 if none), rate in the first window. -/
structure Cal where
  fail60 : Nat := 0
  fail85 : Nat := 0
  rate : Nat := 0
  deriving DecidableEq, Repr

/-- One power and temperature sample (R500): latest input power, 1 ms mean, input voltage, junctions in tenths of a
degree (dies 0-3, then hub), coolant inlet and outlet. -/
structure Sample where
  psW : Nat
  pmW : Nat
  inMv : Nat
  tj : List Nat
  hub : Nat
  inlet : Nat
  outlet : Nat
  deriving DecidableEq, Repr

/-- Where an access to a unit comes from (R64): the host, firmware on a control core, or another unit. -/
inductive Access where
  | hostRead
  | hostWrite
  | firmware (core : Nat)
  | fromUnit
  deriving DecidableEq, Repr

/-- What a scrub found at one place (R484, R485). -/
inductive Scrub where
  /-- A cell-store word: die, cell, word; true: uncorrectable. -/
  | cell (d c word : Nat) (ue : Bool)
  /-- A word of a cell's figure store: die, cell, word; true: uncorrectable. -/
  | figure (d c word : Nat) (ue : Bool)
  /-- A hub memory word: memory number, word; true: uncorrectable. -/
  | hub (mem word : Nat) (ue : Bool)
  /-- A tier-1 granule: pseudo-channel, granule, lane, and the declaration granule it holds. -/
  | tier1 (p g lane : Nat) (pos : Gran) (ue : Bool)
  /-- A tier-2 granule: package, sub-channel, granule, and the declaration granule it holds. -/
  | tier2 (pkg sub g : Nat) (pos : Gran) (ue : Bool)
  deriving DecidableEq, Repr

/-- The commands, in the order of the command table; each docstring is the row's mnemonic and rule. -/
inductive Instr where
  /-- NOP (R279). -/
  | nop (h : Hdr)
  /-- FENCE (R275). -/
  | fence (h : Hdr) (scope : Nat)
  /-- JOB_CREATE (R294). -/
  | jobCreate (h : Hdr) (job pasid flags : Nat)
  /-- JOB_DESTROY (R293). -/
  | jobDestroy (h : Hdr)
  /-- JOB_PREEMPT (R318). -/
  | jobPreempt (h : Hdr)
  /-- PREEMPT_BOUNDARY_REACHED (R318). -/
  | preemptBoundaryReached (job : Nat)
  /-- PREEMPT_SAVE_DONE (R319). -/
  | preemptSaveDone (job : Nat)
  /-- JOB_RESUME (R321). -/
  | jobResume (h : Hdr)
  /-- RESUME_RESTORE_DONE (R321). -/
  | resumeRestoreDone (job : Nat)
  /-- MEM_MAP (R296). -/
  | memMap (h : Hdr) (dva len host page access demand : Nat)
  /-- MEM_UNMAP (R297). -/
  | memUnmap (h : Hdr) (dva len : Nat)
  /-- DMA_COPY (R306). -/
  | dmaCopy (h : Hdr) (src dst len srcH dstH : Nat)
  /-- DMA_GRANULE_DONE (R308): channel, granule number of the stream. -/
  | dmaGranuleDone (ch granule : Nat)
  /-- STREAM_PARK (R309): channel, granule, fault kind of R313. -/
  | streamPark (ch granule kind : Nat)
  /-- TENSOR_DECLARE (R183). -/
  | tensorDeclare (h : Hdr) (addr : Nat)
  /-- PLACE_SET (R201). -/
  | placeSet (h : Hdr) (addr : Nat)
  /-- PLACEMENT_REPORT (R204). -/
  | placementReport (h : Hdr) (buf len which : Nat)
  /-- SET_LOAD (R119). -/
  | setLoad (h : Hdr) (addr len : Nat)
  /-- STEP_RUN (R281). -/
  | stepRun (h : Hdr) (step seed list entries flags report : Nat)
  /-- STEP_ABORT (R282). -/
  | stepAbort (h : Hdr)
  /-- MODE_PREPARE (R177). -/
  | modePrepare (h : Hdr) (epoch : Nat)
  /-- MODE_COMMIT (R178). -/
  | modeCommit (h : Hdr) (epoch step : Nat)
  /-- COLL_COMPRESS (R371). -/
  | collCompress (h : Hdr) (tensor mode k block : Nat)
  /-- COLL_RUN (R383). -/
  | collRun (h : Hdr) (addr : Nat)
  /-- CKPT_WRITE (R445). -/
  | ckptWrite (h : Hdr) (addr gen : Nat)
  /-- CKPT_COMMIT_NOTICE (R449): the packet of CKPT_WRITE whose descriptor has op 1. -/
  | ckptCommitNotice (h : Hdr) (addr gen : Nat)
  /-- CKPT_RESTORE (R452). -/
  | ckptRestore (h : Hdr) (addr gen : Nat)
  /-- MIRROR_BIND (R420). -/
  | mirrorBind (h : Hdr) (node role : Nat)
  /-- BENCH_CALL (R434). -/
  | benchCall (h : Hdr) (failed partner : Nat)
  /-- HUDDLE (R431). -/
  | huddle (h : Hdr) (reason boundary : Nat)
  /-- UMPIRE_CONFIG (R390). -/
  | umpireConfig (h : Hdr) (k table : Nat)
  /-- LET_REPLAY (R413). -/
  | letReplay (h : Hdr) (step : Nat)
  /-- SELFTEST (R405). -/
  | selftest (h : Hdr) (scope set : Nat)
  /-- DRILL_LOAD (R404). -/
  | drillLoad (h : Hdr) (addr len : Nat)
  /-- LINK_DISCOVER (R344). -/
  | linkDiscover (h : Hdr) (mask : Nat)
  /-- TOPOLOGY_PLAN (R339). -/
  | topologyPlan (h : Hdr) (addr len : Nat)
  /-- FOUL_ARM (R354). -/
  | foulArm (h : Hdr) (mask action rate ms : Nat)
  /-- HEALTH_READ (R285). -/
  | healthRead (h : Hdr) (buf len what : Nat)
  /-- POWER_SET (R509). -/
  | powerSet (h : Hdr) (cap state : Nat)
  /-- RESET_MODULE (R284). -/
  | resetModule (h : Hdr) (kind : Nat)
  /-- REINSTATE (R473). -/
  | reinstate (h : Hdr) (addr len : Nat)
  /-- DIAG_SNAPSHOT (R285). -/
  | diagSnapshot (h : Hdr) (buf len unit : Nat)
  /-- DIAG_TRACE (R279). -/
  | diagTrace (h : Hdr) (unit on buf len : Nat)
  /-- QUEUE_ENABLE (R265): the value written to QC_CFG. -/
  | queueEnable (q value : Nat)
  /-- QUEUE_DISABLE (R266): the value written to QC_CFG. -/
  | queueDisable (q value : Nat)
  /-- DB_CMD_TAIL (R268). -/
  | dbCmdTail (q tail : Nat)
  /-- DB_RPL_HEAD (R268). -/
  | dbRplHead (q head : Nat)
  /-- QUEUE_FETCH (R269). -/
  | queueFetch
  /-- COALESCE_TIMER (R291). -/
  | coalesceTimer (q : Nat)
  /-- EVENT_RING_ENABLE (R289): the value written to EV_CFG. -/
  | eventRingEnable (value : Nat)
  /-- UNIT_EN_WRITE (R63): register number 0-3 and value. -/
  | unitEnWrite (k value : Nat)
  /-- DISABLED_UNIT_ACCESS (R64): the unit, and where the access comes from. -/
  | disabledUnitAccess (unit : Nat) (access : Access)
  /-- REGISTER_WRITE (R564): BAR0 offset, width in bytes, value. -/
  | registerWrite (off width value : Nat)
  /-- APERTURE_ACCESS (R302): write or read, aperture, offset in the window, length, data of a write. -/
  | apertureAccess (write : Bool) (ap off len : Nat) (data : Bytes)
  /-- STK_RETRAIN (R226): stack and value written. -/
  | stkRetrain (stack value : Nat)
  /-- LK_CMD_RETRAIN (R334). -/
  | lkCmdRetrain (link : Nat)
  /-- TP_PORT_DETOUR_WRITE (R348): port and value written. -/
  | tpPortDetourWrite (port value : Nat)
  /-- RET_GO_ADD (R491). -/
  | retGoAdd
  /-- RET_GO_CLEAR (R494). -/
  | retGoClear
  /-- ERR_GO_ARM (R496). -/
  | errGoArm
  /-- ATS_TRANSLATION_COMPLETION (R298): job, host address, size, physical address, access bits, present. -/
  | atsTranslationCompletion (job host size phys access : Nat) (present : Bool)
  /-- ATS_INVALIDATION (R299). -/
  | atsInvalidation (job host size : Nat)
  /-- PRG_RESPONSE (R300): job, host address, response code 0 Success, 1 Invalid Request, 2 Response Failure. -/
  | prgResponse (job host code : Nat)
  /-- PRI_TIMEOUT (R300). -/
  | priTimeout (job host : Nat)
  /-- POWER_APPLIED (R551): the straps. -/
  | powerApplied (clkSettle cxlSplit smbAddr : Nat) (slMode : Bool) (rsvd : Nat)
  /-- PWR_EN_LOW (R552). -/
  | pwrEnLow
  /-- UNDER_VOLTAGE (R507). -/
  | underVoltage
  /-- OVER_VOLTAGE (R507). -/
  | overVoltage
  /-- REFCLK_DETECT (R51). -/
  | refclkDetect
  /-- SETTLE_DONE (R53). -/
  | settleDone
  /-- PLL_LOCK (R53). -/
  | pllLock
  /-- CALIBRATION_DONE (R44): what every cell but the exceptions measured, and the tier-3 devices that trained: device,
  width, speed, 256 B flits, capacity in GiB. -/
  | calibrationDone (common : Cal) (exceptions : List (Nat × Cal)) (cxl : List (Nat × Nat × Nat × Bool × Nat))
  /-- REFCLK_LOSS (R54): a PLL lost lock, or no edge arrived for 100 ns. -/
  | refclkLoss (lock : Bool)
  /-- PERST_ASSERT (R555). -/
  | perstAssert
  /-- PERST_RELEASE (R555). -/
  | perstRelease
  /-- WARM_RESET (R460): cause, unit and detail of the trigger. -/
  | warmReset (cause unit detail : Nat)
  /-- FLUSH_TIMEOUT (R460). -/
  | flushTimeout (g : Gran)
  /-- HEARTBEAT_WATCHDOG (R469). -/
  | heartbeatWatchdog (core : Nat)
  /-- STAGE_WATCHDOG (R469): unit, and die and cell where it is a cell. -/
  | stageWatchdog (unit die cell : Nat)
  /-- LINK_WATCHDOG (R469). -/
  | linkWatchdog (link : Nat)
  /-- QUEUE_WATCHDOG (R469). -/
  | queueWatchdog (job : Nat)
  /-- RATE_WINDOW_END (R41): die and the handshakes each cell counted. -/
  | rateWindowEnd (die : Nat) (counts : List Nat)
  /-- VISIT_START (R168). -/
  | visitStart (job pos : Nat)
  /-- STREAM_ITEM (R129): job, stream, micro-batch, item index; bits flipped in transit in payload and sideband. -/
  | streamItem (job strm mb idx flips side : Nat)
  /-- RESIDUE_MISMATCH (R389): job, stage end, product, micro-batch, tile. -/
  | residueMismatch (job st prod mb tile : Nat)
  /-- TILE_READOUT (R111): job, stage end, product, micro-batch, tile; the physical cell (144 d + c) that worked on it,
  and the output codes it got wrong: (index, flipped bits). -/
  | tileReadout (job st prod mb tile cell : Nat) (err : List (Nat × Nat))
  /-- SAMPLE_COMPARE (R395): job, stage end, product, micro-batch, tile, and what the checker got wrong. -/
  | sampleCompare (job st prod mb tile : Nat) (err : List (Nat × Nat))
  /-- THIRD_COMPUTATION_DONE (R397). -/
  | thirdComputationDone (job st prod mb tile : Nat) (err : List (Nat × Nat))
  /-- LOOKUP_BAG (R241): job, stage, micro-batch, bag. -/
  | lookupBag (job st mb bag : Nat)
  /-- SCATTER_ROW (R251). -/
  | scatterRow (job st mb row : Nat)
  /-- STEP_BOUNDARY (R172). -/
  | stepBoundary (job : Nat)
  /-- UPDATE_STAGE_START (R409). -/
  | updateStageStart (job st : Nat)
  /-- ROW_OPTIMIZER_UPDATE (R254). -/
  | rowOptimizerUpdate (job : Nat)
  /-- BOUNDARY_PLACEMENT (R198): job, cells whose margin or patterns failed in their slot, and fresh calibration of cells. -/
  | boundaryPlacement (job : Nat) (failed : List Nat) (cals : List (Nat × Cal))
  /-- MODE_APPLY (R178): job and a unit that cannot apply, 0xFF for none. -/
  | modeApply (job unit : Nat)
  /-- STEP_BARRIER_ENTRY (R377). -/
  | stepBarrierEntry (job : Nat)
  /-- STEP_BARRIER_EXIT (R377). -/
  | stepBarrierExit (job : Nat)
  /-- STEP_BARRIER_SLOW (R377). -/
  | stepBarrierSlow (job : Nat)
  /-- STEP_CALLED_GOOD (R408). -/
  | stepCalledGood (job step : Nat)
  /-- STEP_BARRIER_UP (R379): job, member it came from, step, outcome, failed flag, called-good step, members, last. -/
  | stepBarrierUp (job src step : Nat) (applied failed : Bool) (good count node : Nat)
  /-- STEP_BARRIER_DOWN (R379). -/
  | stepBarrierDown (job step : Nat) (applied failed : Bool) (good count node : Nat)
  /-- CALLED_GOOD_UPDATE (R377). -/
  | calledGoodUpdate (job src good : Nat)
  /-- HUDDLE_REQUEST (R378). -/
  | huddleRequest (job src reason boundary good : Nat)
  /-- HUDDLE_UP (R379). -/
  | huddleUp (job src boundary count : Nat)
  /-- HUDDLE_DOWN (R378). -/
  | huddleDown (job boundary count : Nat)
  /-- HUDDLE_TIMEOUT (R378). -/
  | huddleTimeout (job : Nat)
  /-- PREEMPTION_NOTICE (R318): job, node, front. -/
  | preemptionNotice (job node front : Nat)
  /-- LOST_NOTICE (R350). -/
  | lostNotice (node : Nat)
  /-- SUBSTITUTE_NOTICE (R347): node and place index. -/
  | substituteNotice (node place : Nat)
  /-- REEL_DATA_RECEIVE (R380): job, stage, micro-batch, serial, descriptor CRC, pass, first unit, units, wire format,
  compressed, sender rank, data. -/
  | reelDataReceive (job stage mb serial crc pass first units fmt : Nat) (comp : Bool) (rank : Nat) (data : Bytes)
  /-- MIRROR_DELTA_RECEIVE (R424): job, step, kind of R428, tensor, items, offset or row, sender's good step, data. -/
  | mirrorDeltaReceive (job step kind tensor items off good : Nat) (data : Bytes)
  /-- MIRROR_END_OF_STEP (R424). -/
  | mirrorEndOfStep (job step good : Nat)
  /-- MIRROR_ACK (R424): job, step, no room. -/
  | mirrorAck (job step : Nat) (noRoom : Bool)
  /-- MIRROR_ANCHOR (R427). -/
  | mirrorAnchor (job cut : Nat)
  /-- MIRROR_SEED (R421): job, kind, tensor, offset, data; last part of the seed. -/
  | mirrorSeed (job kind tensor off : Nat) (data : Bytes) (last : Bool)
  /-- HOT_STATE_PULL_REQUEST (R435): job, requesting node, recovery step. -/
  | hotStatePullRequest (job node step : Nat)
  /-- HOT_STATE_PULL_DATA (R435): job, kind, section, tensor, items, first item, recovery step, data. -/
  | hotStatePullData (job kind section_ tensor items first step : Nat) (data : Bytes)
  /-- LAZY_RESTORE_BLOCK (R436): job, table, block, from the checkpoint, its digest and frame checks passed, content. -/
  | lazyRestoreBlock (job tensor block : Nat) (ckpt ok : Bool) (data : Bytes)
  /-- PROMENADE_CHUNK (R445): job, chunk. -/
  | promenadeChunk (job chunk : Nat)
  /-- COPY_BEFORE_WRITE (R446): job, handle, 64 KiB granule, waiting time in µs. -/
  | copyBeforeWrite (job handle granule us : Nat)
  /-- MESSAGE_ACK (R332): source, class, highest sequence acknowledged and the others in a bit map above it. -/
  | messageAck (src cls seq map : Nat)
  /-- ACK_DELAY_TIMER (R332). -/
  | ackDelayTimer (src : Nat)
  /-- MESSAGE_RESEND_TIMER (R332): destination, class, sequence. -/
  | messageResendTimer (dst cls seq : Nat)
  /-- LINK_SIGNAL_DETECT (R334). -/
  | linkSignalDetect (link : Nat)
  /-- LINK_TRAINED (R334): link, trained or failed, measured offset in tenths of ppm. -/
  | linkTrained (link : Nat) (ok : Bool) (ppmTenths : Int)
  /-- LINK_IDENTITY (R342): link and the 64 B identity. -/
  | linkIdentity (link : Nat) (ident : Bytes)
  /-- FRAME_RECEIVE (R330): link, 2,560 B of data and 10 B of control, symbols corrected, lanes whose codeword is
  uncorrectable (mask). -/
  | frameReceive (link : Nat) (frame : Bytes) (corrected bad : Nat)
  /-- LINK_DEAD_TIMER (R334). -/
  | linkDeadTimer (link : Nat)
  /-- LINK_RETRY_WINDOW (R336). -/
  | linkRetryWindow (link : Nat)
  /-- PEER_LOST_TIMER (R350). -/
  | peerLostTimer (node : Nat)
  /-- TIME_SYNC_REQUEST (R352). -/
  | timeSyncRequest
  /-- TIME_SYNC_REPLY (R352): T1 to T4 and the peer's hop count and adjustment. -/
  | timeSyncReply (t1 t2 t3 t4 hops : Nat) (adj : Int)
  /-- TIME_SYNC_LOSS (R353). -/
  | timeSyncLoss
  /-- FOUL_DURATION_EXPIRY (R354). -/
  | foulDurationExpiry
  /-- FOUL_AUTH_EXPIRY (R539). -/
  | foulAuthExpiry
  /-- STACK_TEMP_SAMPLE (R221): stack and tenths of a degree of its hottest DRAM die. -/
  | stackTempSample (stack tenths : Nat)
  /-- STACK_TRIP (R223). -/
  | stackTrip (stack : Nat)
  /-- STACK_HOT_2S (R224). -/
  | stackHot2s (stack : Nat)
  /-- PHASE_SIGNAL (R375): phases in flight. -/
  | phaseSignal (count : Nat)
  /-- PC_RETRAIN_DONE (R228): stack, pseudo-channel, lanes measured above the limit. -/
  | pcRetrainDone (stack pc : Nat) (ok : Bool) (badLanes : List Nat)
  /-- LPDDR_TRIP (R505): package 0-23. -/
  | lpddrTrip (pkg : Nat)
  /-- LPDDR_TRIP_EXIT (R505). -/
  | lpddrTripExit (pkg : Nat)
  /-- CXL_TIMEOUT (R236): device and the granule accessed. -/
  | cxlTimeout (dev : Nat) (g : Gran)
  /-- CXL_LINK_DOWN (R237). -/
  | cxlLinkDown (dev : Nat)
  /-- POWER_SAMPLE (R500). -/
  | powerSample (sample : Sample)
  /-- CAP_NOT_HELD (R502). -/
  | capNotHeld
  /-- DIE_TRIP (R504): dies 0-3, 4 the hub. -/
  | dieTrip (die : Nat)
  /-- THERMAL_SITOUT_TIMER (R504): a die is still at 105 °C. -/
  | thermalSitoutTimer (still : Bool)
  /-- SIT_OUT_ENTRY (R509). -/
  | sitOutEntry
  /-- BENCH_SIGNAL_DETECT (R510). -/
  | benchSignalDetect
  /-- SIT_OUT_EXIT (R511). -/
  | sitOutExit
  /-- PATROL_SCRUB (R484): what the pass found. -/
  | patrolScrub (found : List Scrub)
  /-- DEMAND_SCRUB (R484). -/
  | demandScrub (found : Scrub)
  /-- SIDELINE_HEARTBEAT (R531). -/
  | sidelineHeartbeat
  /-- SIDELINE_RESEND (R532). -/
  | sidelineResend (seq : Nat)
  /-- SIDELINE_ACK (R532). -/
  | sidelineAck (seq : Nat)
  /-- SIDELINE_DRILL_CHUNK (R533). -/
  | sidelineDrillChunk (seq : Nat) (payload : Bytes)
  /-- SIDELINE_FIRMWARE_CHUNK (R533). -/
  | sidelineFirmwareChunk (seq : Nat) (payload : Bytes)
  /-- AUTH_REINSTATE (R537): sideline sequence and the authorisation record. -/
  | authReinstate (seq : Nat) (record : Bytes)
  /-- AUTH_FOUL (R537). -/
  | authFoul (seq : Nat) (record : Bytes)
  /-- AUTH_END_EXCLUSION (R537). -/
  | authEndExclusion (seq : Nat) (record : Bytes)
  /-- AUTH_RESET (R537). -/
  | authReset (seq : Nat) (record : Bytes)
  /-- AUTH_WAKE (R537). -/
  | authWake (seq : Nat) (record : Bytes)
  /-- AUTH_ENROL (R529). -/
  | authEnrol (seq : Nat) (record : Bytes)
  /-- AUTH_PROVISION (R538). -/
  | authProvision (seq : Nat) (record : Bytes)
  /-- AUTH_SEND_OFF (R537). -/
  | authSendOff (seq : Nat) (record : Bytes)
  /-- SET_ENDPOINT_ID (R524): operation and endpoint. -/
  | setEndpointId (op eid : Nat)
  /-- GET_ENDPOINT_ID (R524). -/
  | getEndpointId
  /-- GET_MCTP_VERSION_SUPPORT (R524): message type asked. -/
  | getMctpVersionSupport (typ : Nat)
  /-- GET_MESSAGE_TYPE_SUPPORT (R524). -/
  | getMessageTypeSupport
  /-- GET_VERSION (R525). -/
  | getVersion
  /-- GET_CAPABILITIES (R525). -/
  | getCapabilities
  /-- NEGOTIATE_ALGORITHMS (R525): base asymmetric and hash algorithm masks offered. -/
  | negotiateAlgorithms (asym hash : Nat)
  /-- GET_DIGESTS (R525). -/
  | getDigests
  /-- GET_CERTIFICATE (R525): slot, offset, length. -/
  | getCertificate (slot off len : Nat)
  /-- CHALLENGE (R525): slot and nonce. -/
  | challenge (slot : Nat) (nonce : Bytes)
  /-- GET_MEASUREMENTS (R526): block asked (0 count, 0xFF all), signature wanted, nonce. -/
  | getMeasurements (index : Nat) (signed : Bool) (nonce : Bytes)
  /-- WAKE_RELEASE (R556). -/
  | wakeRelease
  /-- PRI_CAPABILITY_ENABLE_WRITE (R300): the enable bit written. -/
  | priCapabilityEnableWrite (en : Bool)
  /-- PACKAGE_TEMPERATURE_REPORT (R233): package and degrees. -/
  | packageTemperatureReport (pkg c : Nat)
  /-- SIDELINE_LINK_CHANGE (R541). -/
  | sidelineLinkChange (up : Bool)
  /-- DHCPV4_ADDRESS (R528). -/
  | dhcpv4Address (addr mask gateway : Nat)
  /-- SELFTEST_COMPLETE (R405): failing cells, failing links, the hot corner was reached. -/
  | selftestComplete (cells links : List Nat) (hot : Bool)
  deriving DecidableEq, Repr

end Sys2Proof
end

