-- ==== Sys2Proof/WellFormed.lean ====
section
/-! DEFINITION. Which commands are well-formed: every operand fits the field, table or device that it names. -/

namespace Sys2Proof

/-- A number fits `n` bytes. -/
def fits (n v : Nat) : Bool := decide (v < 256 ^ n)

/-- The common fields fit their widths, and the queue exists (R263, R272). -/
def Hdr.ok (h : Hdr) : Bool := decide (h.q < 8192) && fits 4 h.seq && fits 2 h.job

def jobOk (j : Nat) : Bool := decide (j < 64)
def linkOk (l : Nat) : Bool := decide (l < 24)
def stackOk (s : Nat) : Bool := decide (s < 12)
def queueOk (q : Nat) : Bool := decide (q < 8192)
def nodeOk (n : Nat) : Bool := decide (n < 65536)
def cellOk (k : Nat) : Bool := decide (k < 576)
def granOk (g : Gran) : Bool := jobOk g.job && fits 4 g.handle
/-- A cell of a scrub finding, a memory, a package exist. -/
def Scrub.ok : Scrub → Bool
  | .cell d c w _ => decide (d < 4) && decide (c < 144) && decide (w < 262144)
  | .figure d c w _ => decide (d < 4) && decide (c < 144) && decide (w < 8192)
  | .hub m w _ => fits 1 m && fits 4 w
  | .tier1 p g l pos _ => decide (p < 768) && decide (g < 327680 * 64) && decide (l < 72) && granOk pos
  | .tier2 k s g pos _ => decide (k < 24) && decide (s < 4) && fits 4 g && granOk pos
/-- An output code of a tile and the bits it got wrong. -/
def errOk (l : List (Nat × Nat)) : Bool := l.all (fun e => decide (e.1 < 4096))

/-- Well-formed commands. -/
def WellFormed (i : Instr) : Bool :=
  match i with
  | .nop h => h.ok
  | .fence h scope => h.ok && fits 1 scope
  | .jobCreate h job pasid flags => h.ok && fits 1 job && fits 4 pasid && fits 1 flags
  | .jobDestroy h => h.ok
  | .jobPreempt h => h.ok
  | .jobResume h => h.ok
  | .memMap h dva len host page access demand => h.ok && fits 8 dva && fits 8 len && fits 8 host && fits 1 page && fits 1 access && fits 1 demand
  | .memUnmap h dva len => h.ok && fits 8 dva && fits 8 len
  | .dmaCopy h src dst len srcH dstH => h.ok && fits 8 src && fits 8 dst && fits 8 len && fits 4 srcH && fits 4 dstH
  | .tensorDeclare h addr => h.ok && fits 8 addr
  | .placeSet h addr => h.ok && fits 8 addr
  | .placementReport h buf len which => h.ok && fits 8 buf && fits 4 len && fits 1 which
  | .setLoad h addr len => h.ok && fits 8 addr && fits 4 len
  | .stepRun h step seed list entries flags report => h.ok && fits 8 step && fits 8 seed && fits 8 list && fits 2 entries && fits 2 flags && fits 8 report
  | .stepAbort h => h.ok
  | .modePrepare h epoch => h.ok && fits 4 epoch
  | .modeCommit h epoch step => h.ok && fits 4 epoch && fits 8 step
  | .collCompress h tensor mode k block => h.ok && fits 2 tensor && fits 1 mode && fits 1 k && fits 2 block
  | .collRun h addr => h.ok && fits 8 addr
  | .ckptWrite h addr gen => h.ok && fits 8 addr && fits 4 gen
  | .ckptCommitNotice h addr gen => h.ok && fits 8 addr && fits 4 gen
  | .ckptRestore h addr gen => h.ok && fits 8 addr && fits 4 gen
  | .mirrorBind h node role => h.ok && fits 2 node && fits 1 role
  | .benchCall h failed partner => h.ok && fits 2 failed && fits 2 partner
  | .huddle h reason boundary => h.ok && fits 1 reason && fits 8 boundary
  | .umpireConfig h k table => h.ok && fits 1 k && fits 8 table
  | .letReplay h step => h.ok && fits 8 step
  | .selftest h scope set => h.ok && fits 1 scope && fits 1 set
  | .drillLoad h addr len => h.ok && fits 8 addr && fits 4 len
  | .linkDiscover h mask => h.ok && fits 2 mask
  | .topologyPlan h addr len => h.ok && fits 8 addr && fits 4 len
  | .foulArm h mask action rate ms => h.ok && fits 4 mask && fits 1 action && fits 1 rate && fits 4 ms
  | .healthRead h buf len what => h.ok && fits 8 buf && fits 4 len && fits 1 what
  | .powerSet h cap state => h.ok && fits 2 cap && fits 1 state
  | .resetModule h kind => h.ok && fits 1 kind
  | .reinstate h addr len => h.ok && fits 8 addr && fits 4 len
  | .diagSnapshot h buf len unit => h.ok && fits 8 buf && fits 4 len && fits 1 unit
  | .diagTrace h unit on buf len => h.ok && fits 1 unit && fits 1 on && fits 8 buf && fits 4 len
  | .preemptBoundaryReached job => jobOk job
  | .preemptSaveDone job => jobOk job
  | .resumeRestoreDone job => jobOk job
  | .dmaGranuleDone ch _ => decide (ch < 128)
  | .streamPark ch _ kind => decide (ch < 128) && decide (1 ≤ kind) && decide (kind ≤ 5)
  | .queueEnable q value => queueOk q && fits 8 value
  | .queueDisable q value => queueOk q && fits 8 value
  | .dbCmdTail q tail => queueOk q && fits 4 tail
  | .dbRplHead q head => queueOk q && fits 4 head
  | .queueFetch => true
  | .coalesceTimer q => queueOk q
  | .eventRingEnable value => fits 4 value
  | .unitEnWrite k value => decide (k < 4) && fits 4 value
  | .disabledUnitAccess unit access => fits 1 unit && (match access with | .firmware core => decide (core < 4) | _ => true)
  | .registerWrite off width value => decide (off < 0x01100000) && (width = 4 || width = 8) && fits width value && off % width == 0
  | .apertureAccess _ ap _ len _ => decide (ap < 16) && decide (1 ≤ len) && decide (len ≤ 4096)
  | .stkRetrain stack value => stackOk stack && fits 4 value
  | .lkCmdRetrain link => linkOk link
  | .tpPortDetourWrite port value => decide (port < 12) && fits 8 value
  | .retGoAdd => true
  | .retGoClear => true
  | .errGoArm => true
  | .atsTranslationCompletion job host size phys access _ => jobOk job && fits 8 host && decide (4096 ≤ size) && fits 8 phys && fits 1 access
  | .atsInvalidation job host size => jobOk job && fits 8 host && decide (4096 ≤ size)
  | .prgResponse job host code => jobOk job && fits 8 host && decide (code ≤ 2)
  | .priTimeout job host => jobOk job && fits 8 host
  | .powerApplied clkSettle cxlSplit smbAddr _ rsvd => decide (clkSettle < 4) && decide (cxlSplit < 4) && decide (smbAddr < 8) && decide (rsvd < 16)
  | .pwrEnLow => true
  | .underVoltage => true
  | .overVoltage => true
  | .refclkDetect => true
  | .settleDone => true
  | .pllLock => true
  | .calibrationDone _ exceptions cxl => exceptions.all (fun e => cellOk e.1) && cxl.all (fun d => decide (d.1 < 4))
  | .refclkLoss _ => true
  | .perstAssert => true
  | .perstRelease => true
  | .warmReset cause unit detail => decide (2 ≤ cause) && decide (cause ≤ 9) && fits 1 unit && fits 4 detail
  | .flushTimeout g => granOk g
  | .heartbeatWatchdog core => decide (core < 4)
  | .stageWatchdog unit die cell => fits 1 unit && decide (die < 4) && decide (cell < 144)
  | .linkWatchdog link => linkOk link
  | .queueWatchdog job => jobOk job
  | .rateWindowEnd die counts => decide (die < 4) && counts.length == 144
  | .visitStart job pos => jobOk job && decide (pos < 128)
  | .streamItem job strm mb _ _ _ => jobOk job && decide (strm < 6144) && decide (mb < 4096)
  | .residueMismatch job st prod mb _ => jobOk job && fits 2 st && decide (prod < 2) && decide (mb < 4096)
  | .tileReadout job st prod mb _ cell err => jobOk job && fits 2 st && decide (prod < 2) && decide (mb < 4096) && cellOk cell && errOk err
  | .sampleCompare job st prod mb _ err => jobOk job && fits 2 st && decide (prod < 2) && decide (mb < 4096) && errOk err
  | .thirdComputationDone job st prod mb _ err => jobOk job && fits 2 st && decide (prod < 2) && decide (mb < 4096) && errOk err
  | .lookupBag job st mb _ => jobOk job && decide (st < 1024) && decide (mb < 4096)
  | .scatterRow job st mb _ => jobOk job && decide (st < 1024) && decide (mb < 4096)
  | .stepBoundary job => jobOk job
  | .updateStageStart job st => jobOk job && decide (st < 1024)
  | .rowOptimizerUpdate job => jobOk job
  | .boundaryPlacement job failed cals => jobOk job && failed.all cellOk && cals.all (fun e => cellOk e.1)
  | .modeApply job unit => jobOk job && fits 1 unit
  | .stepBarrierEntry job => jobOk job
  | .stepBarrierExit job => jobOk job
  | .stepBarrierSlow job => jobOk job
  | .stepCalledGood job step => jobOk job && fits 8 step
  | .stepBarrierUp job src step _ _ good count node => jobOk job && nodeOk src && fits 8 step && fits 8 good && fits 4 count && nodeOk node
  | .stepBarrierDown job step _ _ good count node => jobOk job && fits 8 step && fits 8 good && fits 4 count && nodeOk node
  | .calledGoodUpdate job src good => jobOk job && nodeOk src && fits 8 good
  | .huddleRequest job src reason boundary good => jobOk job && nodeOk src && fits 1 reason && fits 8 boundary && fits 8 good
  | .huddleUp job src boundary count => jobOk job && nodeOk src && fits 8 boundary && fits 4 count
  | .huddleDown job boundary count => jobOk job && fits 8 boundary && fits 4 count
  | .huddleTimeout job => jobOk job
  | .preemptionNotice job node front => jobOk job && nodeOk node && fits 2 front
  | .lostNotice node => nodeOk node
  | .substituteNotice node place => nodeOk node && fits 8 place
  | .reelDataReceive job stage mb serial crc pass _ _ fmt _ rank _ => jobOk job && fits 2 stage && fits 2 mb && fits 4 serial && fits 4 crc && decide (pass ≤ 6) && fits 1 fmt && fits 2 rank
  | .mirrorDeltaReceive job step kind tensor items off good _ => jobOk job && fits 8 step && decide (1 ≤ kind) && decide (kind ≤ 5) && fits 2 tensor && fits 4 items && fits 8 off && fits 8 good
  | .mirrorEndOfStep job step good => jobOk job && fits 8 step && fits 8 good
  | .mirrorAck job step _ => jobOk job && fits 8 step
  | .mirrorAnchor job cut => jobOk job && fits 8 cut
  | .mirrorSeed job kind tensor off _ _ => jobOk job && decide (1 ≤ kind) && decide (kind ≤ 9) && fits 2 tensor && fits 8 off
  | .hotStatePullRequest job node step => jobOk job && nodeOk node && fits 8 step
  | .hotStatePullData job kind section_ tensor items first step _ => jobOk job && decide (2 ≤ kind) && decide (kind ≤ 3) && decide (1 ≤ section_) && decide (section_ ≤ 4) && fits 2 tensor && fits 4 items && fits 8 first && fits 8 step
  | .lazyRestoreBlock job tensor _ _ _ _ => jobOk job && fits 2 tensor
  | .promenadeChunk job _ => jobOk job
  | .copyBeforeWrite job handle _ us => jobOk job && fits 4 handle && fits 2 us
  | .messageAck src cls seq _ => nodeOk src && fits 1 cls && fits 4 seq
  | .ackDelayTimer src => nodeOk src
  | .messageResendTimer dst cls seq => nodeOk dst && fits 1 cls && fits 4 seq
  | .linkSignalDetect link => linkOk link
  | .linkTrained link _ _ => linkOk link
  | .linkIdentity link ident => linkOk link && ident.length == 64
  | .frameReceive link frame _ bad => linkOk link && frame.length == 2570 && decide (bad < 16)
  | .linkDeadTimer link => linkOk link
  | .linkRetryWindow link => linkOk link
  | .peerLostTimer node => nodeOk node
  | .timeSyncRequest => true
  | .timeSyncReply t1 t2 t3 t4 hops _ => fits 8 t1 && fits 8 t2 && fits 8 t3 && fits 8 t4 && fits 1 hops
  | .timeSyncLoss => true
  | .foulDurationExpiry => true
  | .foulAuthExpiry => true
  | .stackTempSample stack tenths => stackOk stack && decide (tenths < 4096)
  | .stackTrip stack => stackOk stack
  | .stackHot2s stack => stackOk stack
  | .phaseSignal _ => true
  | .pcRetrainDone stack pc _ badLanes => stackOk stack && decide (pc < 64) && badLanes.all (fun l => decide (l < 40))
  | .lpddrTrip pkg => decide (pkg < 24)
  | .lpddrTripExit pkg => decide (pkg < 24)
  | .cxlTimeout dev g => decide (dev < 4) && granOk g
  | .cxlLinkDown dev => decide (dev < 4)
  | .powerSample s => s.tj.length == 4
  | .capNotHeld => true
  | .dieTrip die => decide (die ≤ 4)
  | .thermalSitoutTimer _ => true
  | .sitOutEntry => true
  | .benchSignalDetect => true
  | .sitOutExit => true
  | .patrolScrub found => found.all Scrub.ok
  | .demandScrub found => found.ok
  | .sidelineHeartbeat => true
  | .sidelineResend seq => fits 4 seq
  | .sidelineAck seq => fits 4 seq
  | .sidelineDrillChunk seq _ => fits 4 seq
  | .sidelineFirmwareChunk seq _ => fits 4 seq
  | .authReinstate seq record => fits 4 seq && record.length == 256
  | .authFoul seq record => fits 4 seq && record.length == 256
  | .authEndExclusion seq record => fits 4 seq && record.length == 256
  | .authReset seq record => fits 4 seq && record.length == 256
  | .authWake seq record => fits 4 seq && record.length == 256
  | .authEnrol seq record => fits 4 seq && record.length == 256
  | .authProvision seq record => fits 4 seq && record.length == 256
  | .authSendOff seq record => fits 4 seq && record.length == 256
  | .setEndpointId op eid => fits 1 op && fits 1 eid
  | .getEndpointId => true
  | .getMctpVersionSupport typ => fits 1 typ
  | .getMessageTypeSupport => true
  | .getVersion => true
  | .getCapabilities => true
  | .negotiateAlgorithms asym hash => fits 4 asym && fits 4 hash
  | .getDigests => true
  | .getCertificate slot off len => fits 1 slot && fits 2 off && fits 2 len
  | .challenge slot nonce => fits 1 slot && nonce.length == 32
  | .getMeasurements index _ nonce => fits 1 index && nonce.length == 32
  | .wakeRelease => true
  | .priCapabilityEnableWrite _ => true
  | .packageTemperatureReport pkg c => decide (pkg < 24) && decide (c < 256)
  | .sidelineLinkChange _ => true
  | .dhcpv4Address addr mask gateway => fits 4 addr && fits 4 mask && fits 4 gateway
  | .selftestComplete cells links _ => cells.all cellOk && links.all linkOk

end Sys2Proof
end

