-- ==== Sys2Proof/Decode.lean ====
section
/-! DEFINITION. The command packets of R272, R273 and R279 read and written, and the host's word interface: no row of
the command table has bits, so no word spells a command. -/

namespace Sys2Proof

open Sys2Proof.Machine

/-- The command a word of the command table spells: no row of the table gives bits. -/
def decodeTableWord (_nbits _w : Nat) : Option Instr := none

/-- The common fields of a packet fetched from queue `q` (R272, R273); reserved bits are ignored (R11). -/
def packetHdr (q : Nat) (bs : Bytes) : Hdr :=
  { q := q, irq := bit (fld bs 2 2) 0, fence := bit (fld bs 2 2) 1, jobFence := bit (fld bs 2 2) 2, seq := fld bs 4 4, job := fld bs 8 2 }

/-- The 16 bytes that open a packet (R272). -/
def hdrBytes (op : Nat) (h : Hdr) : Bytes :=
  layout [(2, op), (2, b2n h.irq + 2 * b2n h.fence + 4 * b2n h.jobFence), (4, h.seq), (2, h.job), (6, 0)]

/-- A packet of 64 bytes: the common fields, then the parameters as (width, value), padded with zeros. -/
def packet (op : Nat) (h : Hdr) (ps : List (Nat × Nat)) : Bytes := padTo 64 (hdrBytes op h ++ layout ps)

/-- The command of opcode `op` in a packet (R279): none for an unknown opcode. -/
def decodeOp (op : Nat) (h : Hdr) (bs : Bytes) : Option Instr :=
  match op with
  | 0x0001 => some (.nop h)
  | 0x0002 => some (.fence h (fld bs 16 1))
  | 0x0101 => some (.jobCreate h (fld bs 16 1) (fld bs 20 4) (fld bs 24 1))
  | 0x0102 => some (.jobDestroy h)
  | 0x0103 => some (.jobPreempt h)
  | 0x0104 => some (.jobResume h)
  | 0x0201 => some (.memMap h (fld bs 16 8) (fld bs 24 8) (fld bs 32 8) (fld bs 40 1) (fld bs 41 1) (fld bs 42 1))
  | 0x0202 => some (.memUnmap h (fld bs 16 8) (fld bs 24 8))
  | 0x0203 => some (.dmaCopy h (fld bs 16 8) (fld bs 24 8) (fld bs 32 8) (fld bs 40 4) (fld bs 44 4))
  | 0x0204 => some (.tensorDeclare h (fld bs 16 8))
  | 0x0205 => some (.placeSet h (fld bs 16 8))
  | 0x0206 => some (.placementReport h (fld bs 16 8) (fld bs 24 4) (fld bs 28 1))
  | 0x0301 => some (.setLoad h (fld bs 16 8) (fld bs 24 4))
  | 0x0302 => some (.stepRun h (fld bs 16 8) (fld bs 24 8) (fld bs 32 8) (fld bs 40 2) (fld bs 42 2) (fld bs 48 8))
  | 0x0303 => some (.stepAbort h)
  | 0x0304 => some (.modePrepare h (fld bs 16 4))
  | 0x0305 => some (.modeCommit h (fld bs 16 4) (fld bs 24 8))
  | 0x0401 => some (.collCompress h (fld bs 16 2) (fld bs 18 1) (fld bs 19 1) (fld bs 20 2))
  | 0x0402 => some (.collRun h (fld bs 16 8))
  | 0x0501 => some (.ckptWrite h (fld bs 16 8) (fld bs 24 4))
  | 0x0502 => some (.ckptRestore h (fld bs 16 8) (fld bs 24 4))
  | 0x0503 => some (.mirrorBind h (fld bs 16 2) (fld bs 18 1))
  | 0x0504 => some (.benchCall h (fld bs 16 2) (fld bs 18 2))
  | 0x0505 => some (.huddle h (fld bs 16 1) (fld bs 24 8))
  | 0x0601 => some (.umpireConfig h (fld bs 16 1) (fld bs 24 8))
  | 0x0602 => some (.letReplay h (fld bs 16 8))
  | 0x0603 => some (.selftest h (fld bs 16 1) (fld bs 17 1))
  | 0x0604 => some (.drillLoad h (fld bs 16 8) (fld bs 24 4))
  | 0x0701 => some (.linkDiscover h (fld bs 16 2))
  | 0x0702 => some (.topologyPlan h (fld bs 16 8) (fld bs 24 4))
  | 0x0703 => some (.foulArm h (fld bs 16 4) (fld bs 20 1) (fld bs 21 1) (fld bs 24 4))
  | 0x0801 => some (.healthRead h (fld bs 16 8) (fld bs 24 4) (fld bs 28 1))
  | 0x0802 => some (.powerSet h (fld bs 16 2) (fld bs 18 1))
  | 0x0803 => some (.resetModule h (fld bs 16 1))
  | 0x0804 => some (.reinstate h (fld bs 16 8) (fld bs 24 4))
  | 0x0F01 => some (.diagSnapshot h (fld bs 16 8) (fld bs 24 4) (fld bs 28 1))
  | 0x0F02 => some (.diagTrace h (fld bs 16 1) (fld bs 17 1) (fld bs 24 8) (fld bs 32 4))
  | _ => none

/-- The command a packet holds (R272, R279). -/
def decodePacket (q : Nat) (bs : Bytes) : Option Instr := decodeOp (fld bs 0 2) (packetHdr q bs) bs

/-- The packet of an Enrel command (R279); none for a row that arrives in no packet. A commit notice is the packet of
CKPT_WRITE (R449). -/
def encodePacket (i : Instr) : Option Bytes :=
  match i with
  | .nop h => some (packet 0x0001 h [])
  | .fence h scope => some (packet 0x0002 h [(1, scope)])
  | .jobCreate h job pasid flags => some (packet 0x0101 h [(1, job), (3, 0), (4, pasid), (1, flags)])
  | .jobDestroy h => some (packet 0x0102 h [])
  | .jobPreempt h => some (packet 0x0103 h [])
  | .jobResume h => some (packet 0x0104 h [])
  | .memMap h dva len host page access demand => some (packet 0x0201 h [(8, dva), (8, len), (8, host), (1, page), (1, access), (1, demand)])
  | .memUnmap h dva len => some (packet 0x0202 h [(8, dva), (8, len)])
  | .dmaCopy h src dst len srcH dstH => some (packet 0x0203 h [(8, src), (8, dst), (8, len), (4, srcH), (4, dstH)])
  | .tensorDeclare h addr => some (packet 0x0204 h [(8, addr)])
  | .placeSet h addr => some (packet 0x0205 h [(8, addr)])
  | .placementReport h buf len which => some (packet 0x0206 h [(8, buf), (4, len), (1, which)])
  | .setLoad h addr len => some (packet 0x0301 h [(8, addr), (4, len)])
  | .stepRun h step seed list entries flags report => some (packet 0x0302 h [(8, step), (8, seed), (8, list), (2, entries), (2, flags), (4, 0), (8, report)])
  | .stepAbort h => some (packet 0x0303 h [])
  | .modePrepare h epoch => some (packet 0x0304 h [(4, epoch)])
  | .modeCommit h epoch step => some (packet 0x0305 h [(4, epoch), (4, 0), (8, step)])
  | .collCompress h tensor mode k block => some (packet 0x0401 h [(2, tensor), (1, mode), (1, k), (2, block)])
  | .collRun h addr => some (packet 0x0402 h [(8, addr)])
  | .ckptWrite h addr gen => some (packet 0x0501 h [(8, addr), (4, gen)])
  | .ckptCommitNotice h addr gen => some (packet 0x0501 h [(8, addr), (4, gen)])
  | .ckptRestore h addr gen => some (packet 0x0502 h [(8, addr), (4, gen)])
  | .mirrorBind h node role => some (packet 0x0503 h [(2, node), (1, role)])
  | .benchCall h failed partner => some (packet 0x0504 h [(2, failed), (2, partner)])
  | .huddle h reason boundary => some (packet 0x0505 h [(1, reason), (7, 0), (8, boundary)])
  | .umpireConfig h k table => some (packet 0x0601 h [(1, k), (7, 0), (8, table)])
  | .letReplay h step => some (packet 0x0602 h [(8, step)])
  | .selftest h scope set => some (packet 0x0603 h [(1, scope), (1, set)])
  | .drillLoad h addr len => some (packet 0x0604 h [(8, addr), (4, len)])
  | .linkDiscover h mask => some (packet 0x0701 h [(2, mask)])
  | .topologyPlan h addr len => some (packet 0x0702 h [(8, addr), (4, len)])
  | .foulArm h mask action rate ms => some (packet 0x0703 h [(4, mask), (1, action), (1, rate), (2, 0), (4, ms)])
  | .healthRead h buf len what => some (packet 0x0801 h [(8, buf), (4, len), (1, what)])
  | .powerSet h cap state => some (packet 0x0802 h [(2, cap), (1, state)])
  | .resetModule h kind => some (packet 0x0803 h [(1, kind)])
  | .reinstate h addr len => some (packet 0x0804 h [(8, addr), (4, len)])
  | .diagSnapshot h buf len unit => some (packet 0x0F01 h [(8, buf), (4, len), (1, unit)])
  | .diagTrace h unit on buf len => some (packet 0x0F02 h [(1, unit), (1, on), (6, 0), (8, buf), (4, len)])
  | _ => none

end Sys2Proof
end

