-- ==== Sys2Proof/Config.lean ====
section
/-! DEFINITION. What the spec leaves open: constants with no body, so that nothing can be proved of their values. -/

namespace Sys2Proof

/-- A free value for each draw of the counter `State.free` (log 8). -/
opaque Config.freeValue : Nat → Nat

/-- The event-specific value of a fault-log location (R487) for the events whose rules state none, by event class (log 25). -/
opaque Config.eventValue : Nat → BitVec 32

/-- The word index of a cell's fault-log location (R487) for the events that concern no word, by event class (log 25). -/
opaque Config.eventWord : Nat → BitVec 32

/-- Which of the values within 1 ulp the function unit returns for EXP2, LOG2 and RSQRT (R89, log 12): a choice per
function code and operand. -/
opaque Config.fnChoice : Nat → Nat → Nat

/-- The order in which the checkpoint engine's compressor may choose among conforming Zstandard frames (R447, log 14):
the frame for a chunk, as bytes, by chunk content digest. -/
opaque Config.zstdFrame : Nat → Bytes

/-- What a Zstandard frame decodes to: none where it is no frame with the properties of R447 (log 14). -/
opaque Config.zstdContent : Bytes → Option Bytes

/-- SHA-384 of the boot ROM (R526), fixed at manufacture (log 4). -/
opaque Config.romDigest : BitVec 384

/-- Firmware version (0) and security version (1) of the image the module was shipped with (log 4). -/
opaque Config.factory : Nat → Nat

/-- Signatures by the device key, which never leaves the package (R525), by the digest signed (log 4). -/
opaque Config.deviceSign : Nat → BitVec 768

/-- The slot 0 certificate chain (R525), fixed at manufacture (log 4). -/
opaque Config.certChain : Bytes

/-- Digest of a measurement block whose bytes the spec names and does not lay out (R526): block and content. -/
opaque Config.measured : Nat → Nat → Nat

/-- Whether the signature block of a drill image verifies (R404): the spec gives neither its layout nor its key. By the
image's digest; odd for yes. -/
opaque Config.drillSigned : Nat → Nat

/-- What a decoder returns for a stored pattern with six or more symbols in error (R211, log 13). -/
opaque Config.rsOutcome : Nat → Nat

end Sys2Proof
end

