-- ==== Sys2Proof/Machine/Float.lean ====
section
/-! DEFINITION. The numbers of the cells (03, 04): exact values of the formats of R73, one rounding function, the FP32
operations of R70, R88 and R89, conversions (R76, R79, R80-R84), Philox (R81), the adder tree and level stack
(R101-R106), and the vector reductions of R90. Codes are the bit patterns as numbers. -/

namespace Sys2Proof.Machine

open Sys2Proof

/-- A floating format (R73): exponent bits, fraction bits, bias, and specials: 0 Inf and NaN, 1 E4M3, 2 none. -/
structure FF where
  eb : Nat
  mb : Nat
  bias : Nat
  spec : Nat
  deriving DecidableEq, Repr

def ff32 : FF := ⟨8, 23, 127, 0⟩
def ffBf16 : FF := ⟨8, 7, 127, 0⟩
def ffFp16 : FF := ⟨5, 10, 15, 0⟩
def ffE4m3 : FF := ⟨4, 3, 7, 1⟩
def ffE5m2 : FF := ⟨5, 2, 15, 0⟩
def ffE3m2 : FF := ⟨3, 2, 3, 2⟩
def ffE2m3 : FF := ⟨2, 3, 1, 2⟩
def ffE2m1 : FF := ⟨2, 1, 1, 2⟩
/-- OCP MX element types inside MX blocks carry E4M3 and E5M2 with their own specials. -/
def ffOf (fmt : Nat) : Option FF :=
  if fmt == 0x01 || fmt == 0x20 then some ff32 else if fmt == 0x02 then some ffBf16 else if fmt == 0x03 then some ffFp16
  else if fmt == 0x04 || fmt == 0x08 then some ffE4m3 else if fmt == 0x05 || fmt == 0x09 then some ffE5m2
  else if fmt == 0x0A then some ffE3m2 else if fmt == 0x0B then some ffE2m3 else if fmt == 0x0C then some ffE2m1 else none

/-- A value: not a number, an infinity, or (-1)^neg m 2^e. -/
inductive FVal where
  | nan
  | inf (neg : Bool)
  | fin (neg : Bool) (m : Nat) (e : Int)
  deriving DecidableEq, Repr

/-- Largest finite code (R73). -/
def FF.maxCode (f : FF) : Nat :=
  if f.spec == 0 then (2 ^ f.eb - 1) * 2 ^ f.mb - 1 else if f.spec == 1 then 2 ^ (f.eb + f.mb) - 2 else 2 ^ (f.eb + f.mb) - 1

/-- Code of +Inf where the format has one. -/
def FF.infCode (f : FF) : Nat := (2 ^ f.eb - 1) * 2 ^ f.mb

/-- The canonical NaN (R75). -/
def FF.nanCode (f : FF) : Nat := if f.spec == 1 then 0x7F else (2 ^ f.eb - 1) * 2 ^ f.mb + 2 ^ (f.mb - 1)

/-- The value of a code (R73, R74). -/
def FF.decode (f : FF) (c : Nat) : FVal :=
  let neg := bit c (f.eb + f.mb)
  let e := bits c (f.eb + f.mb - 1) f.mb
  let m := c % 2 ^ f.mb
  if f.spec == 0 && e == 2 ^ f.eb - 1 then (if m == 0 then .inf neg else .nan)
  else if f.spec == 1 && e == 2 ^ f.eb - 1 && m == 2 ^ f.mb - 1 then .nan
  else if e == 0 then .fin neg m (1 - (f.bias : Int) - f.mb)
  else .fin neg (m + 2 ^ f.mb) ((e : Int) - f.bias - f.mb)

/-- How a conversion rounds: to nearest even, or stochastically with the random value r (R82). -/
inductive Rnd where
  | rne
  | sr (r : Nat)
  deriving DecidableEq, Repr

/-- Magnitude code of m 2^e rounded into a format, not limited to its largest finite code. -/
def FF.round (f : FF) (md : Rnd) (m : Nat) (e : Int) : Nat :=
  if m == 0 then 0 else
  let emin : Int := 1 - (f.bias : Int)
  let top : Int := (Nat.log2 m : Int) + e
  let ex : Int := max top emin
  let q : Int := ex - f.mb
  let n :=
    if q ≤ e then m * 2 ^ (e - q).toNat
    else
      let s := (q - e).toNat
      let n := m / 2 ^ s
      let rem := m % 2 ^ s
      match md with
      | .rne => if 2 * rem > 2 ^ s || (2 * rem == 2 ^ s && n % 2 == 1) then n + 1 else n
      | .sr r => let d := if 16 ≤ s then rem / 2 ^ (s - 16) else rem * 2 ^ (16 - s)
        if 65536 ≤ d + r then n + 1 else n
  (ex - emin).toNat * 2 ^ f.mb + n

/-- Put a sign on a magnitude code. -/
def FF.sign (f : FF) (neg : Bool) (c : Nat) : Nat := if neg then c + 2 ^ (f.eb + f.mb) else c

/-- Encode a value; overflow gives Inf where the format has it, as IEEE 754 does. -/
def FF.encode (f : FF) (v : FVal) : Nat :=
  match v with
  | .nan => f.nanCode
  | .inf n => f.sign n f.infCode
  | .fin n m e => let c := f.round .rne m e; f.sign n (if f.maxCode < c then f.infCode else c)

abbrev dec32 (c : Nat) : FVal := ff32.decode c
abbrev enc32 (v : FVal) : Nat := ff32.encode v

def nan32 : Nat := 0x7FC00000
def one32 : Nat := 0x3F800000

/-- Exact sum of two values with the zero rule of R75. -/
def vAdd (a b : FVal) : FVal :=
  match a, b with
  | .nan, _ => .nan
  | _, .nan => .nan
  | .inf x, .inf y => if x == y then .inf x else .nan
  | .inf x, _ => .inf x
  | _, .inf y => .inf y
  | .fin nx mx ex, .fin ny my ey =>
    let e := min ex ey
    let ix : Int := (if nx then -1 else 1) * ((mx * 2 ^ (ex - e).toNat : Nat) : Int)
    let iy : Int := (if ny then -1 else 1) * ((my * 2 ^ (ey - e).toNat : Nat) : Int)
    let z := ix + iy
    if z == 0 then .fin (nx && ny && mx == 0 && my == 0) 0 e else .fin (decide (z < 0)) z.natAbs e

/-- Exact product (R70, R75). DESIGN CHOICE (log 169): a zero product of integer operands takes the exclusive or of their signs as well, where
R70 gives it no sign. -/
def vMul (a b : FVal) : FVal :=
  match a, b with
  | .nan, _ => .nan
  | _, .nan => .nan
  | .inf x, .inf y => .inf (x != y)
  | .inf x, .fin y m _ => if m == 0 then .nan else .inf (x != y)
  | .fin x m _, .inf y => if m == 0 then .nan else .inf (x != y)
  | .fin nx mx ex, .fin ny my ey => .fin (nx != ny) (mx * my) (ex + ey)

def vNeg : FVal → FVal
  | .nan => .nan
  | .inf n => .inf (!n)
  | .fin n m e => .fin (!n) m e

/-- a < b. -/
def vLt (a b : FVal) : Bool :=
  match a, b with
  | .nan, _ => false
  | _, .nan => false
  | .inf x, .inf y => x && !y
  | .inf x, _ => x
  | _, .inf y => !y
  | .fin nx mx ex, .fin ny my ey =>
    let e := min ex ey
    let ix : Int := (if nx then -1 else 1) * ((mx * 2 ^ (ex - e).toNat : Nat) : Int)
    let iy : Int := (if ny then -1 else 1) * ((my * 2 ^ (ey - e).toNat : Nat) : Int)
    decide (ix < iy)

/-- FP32 operations, one rounding to nearest even (R88, R100). -/
def fAdd (a b : Nat) : Nat := enc32 (vAdd (dec32 a) (dec32 b))
def fSub (a b : Nat) : Nat := enc32 (vAdd (dec32 a) (vNeg (dec32 b)))
def fMul (a b : Nat) : Nat := enc32 (vMul (dec32 a) (dec32 b))
def fFma (a b c : Nat) : Nat := enc32 (vAdd (vMul (dec32 a) (dec32 b)) (dec32 c))

def isNan32 (a : Nat) : Bool := dec32 a == .nan
def isFinite32 (a : Nat) : Bool := match dec32 a with | .fin _ _ _ => true | _ => false
def isZero32 (a : Nat) : Bool := match dec32 a with | .fin _ 0 _ => true | _ => false
def neg32 (a : Nat) : Bool := bit a 31

/-- MIN, MAX (R138): canonical NaN if either is NaN; -0 below +0. -/
def fMin (a b : Nat) : Nat :=
  if isNan32 a || isNan32 b then nan32 else if vLt (dec32 a) (dec32 b) then a else if vLt (dec32 b) (dec32 a) then b
  else if neg32 a then a else b
def fMax (a b : Nat) : Nat :=
  if isNan32 a || isNan32 b then nan32 else if vLt (dec32 a) (dec32 b) then b else if vLt (dec32 b) (dec32 a) then a
  else if neg32 a then b else a
def fAbs (a : Nat) : Nat := if isNan32 a then nan32 else a % 2 ^ 31
def fNeg (a : Nat) : Nat := if isNan32 a then nan32 else if neg32 a then a - 2 ^ 31 else a + 2 ^ 31

/-- Reciprocal, correctly rounded (R89): a quotient of 64 extra bits and a sticky bit. -/
def fRcp (a : Nat) : Nat :=
  match dec32 a with
  | .nan => nan32
  | .inf n => ff32.sign n 0
  | .fin n m e =>
    if m == 0 then ff32.sign n ff32.infCode
    else
      let k := Nat.log2 m + 64
      let q := 2 ^ k / m
      enc32 (.fin n (2 * q + b2n (2 ^ k % m != 0)) (-e - k - 1))

/-- Integer square root of `x` by bits from `2^b` down. -/
def isqrt : Nat → Nat → Nat → Nat
  | 0, _, r => r
  | b + 1, x, r => let t := r + 2 ^ b; isqrt b x (if t * t ≤ x then t else r)

/-- Bring m 2^e to an even exponent with at least 128 bits of m: (m', e'). -/
def evenUp (m : Nat) (e : Int) : Nat × Int :=
  let s := 130 - min 129 (Nat.log2 m)
  let s := if (e - s) % 2 == 0 then s else s + 1
  (m * 2 ^ s, e - s)

/-- Square root, correctly rounded (R89). -/
def fSqrt (a : Nat) : Nat :=
  match dec32 a with
  | .nan => nan32
  | .inf n => if n then nan32 else a
  | .fin n m e =>
    if m == 0 then a else if n then nan32
    else
      let x := evenUp m e
      let r := isqrt 70 x.1 0
      enc32 (.fin false (2 * r + b2n (r * r != x.1)) (x.2 / 2 - 1))

/-- The FP32 value at or below a positive value m 2^e (truncation), as a code. -/
def floor32 (m : Nat) (e : Int) : Nat :=
  if m == 0 then 0 else
  let emin : Int := -126
  let ex : Int := max ((Nat.log2 m : Int) + e) emin
  let q : Int := ex - 23
  let n := if q ≤ e then m * 2 ^ (e - q).toNat else m / 2 ^ (q - e).toNat
  (ex - emin).toNat * 2 ^ 23 + n

/-- One of the FP32 values within 1 ulp of a positive value whose truncation is `f` (R89, log 12): `f` or the next one;
where the value is exactly `f`, also the one below. Beyond the largest finite the next one is +Inf. -/
def within1 (op x f : Nat) (exact : Bool) : Nat :=
  let c := Config.fnChoice op x
  if exact then (if f == 0 then c % 2 else if c % 3 == 0 then f - 1 else if c % 3 == 1 then f else f + 1)
  else min (f + c % 2) ff32.infCode

/-- Reciprocal square root within 1 ulp (R89). -/
def fRsqrt (a : Nat) : Nat :=
  match dec32 a with
  | .nan => nan32
  | .inf n => if n then nan32 else 0
  | .fin n m e =>
    if m == 0 then ff32.sign n ff32.infCode else if n then nan32
    else
      -- 1 / sqrt(m 2^e) = sqrt(2^k / m) 2^(-(e+k)/2) with k + e even
      let k0 := Nat.log2 m + 130
      let k := if ((k0 : Int) + e) % 2 == 0 then k0 else k0 + 1
      let q := 2 ^ k / m
      let r := isqrt 70 q 0
      within1 0x14 a (floor32 r (-(e + k) / 2)) (r * r * m == 2 ^ k)

/-- 2^(2^-i) as a fixed-point number with 128 fraction bits: repeated square roots of 2. -/
def root2 : Nat → Nat
  | 0 => 2 * 2 ^ 128
  | i + 1 => isqrt 130 (root2 i * 2 ^ 128) 0

/-- Product of the roots that the fraction bits of `f` (of `n` bits, most significant first) select. -/
def expFrac (n f : Nat) : Nat → Nat → Nat → Nat
  | 0, _, acc => acc
  | k + 1, root, acc =>
    let i := n - k
    let root' := isqrt 130 (root * 2 ^ 128) 0
    expFrac n f k root' (if bit f (n - i) then acc * root' / 2 ^ 128 else acc)

/-- exp2 within 1 ulp (R89). -/
def fExp2 (a : Nat) : Nat :=
  match dec32 a with
  | .nan => nan32
  | .inf n => if n then 0 else a
  | .fin n m e =>
    if m == 0 then within1 0x10 a one32 true
    else if decide ((Nat.log2 m : Int) + e ≥ 9) then
      -- at or beyond 2^512: overflow, or below half the smallest subnormal
      (if n then within1 0x10 a 0 false else ff32.infCode)
    else if decide ((Nat.log2 m : Int) + e < -40) then within1 0x10 a (if n then one32 - 1 else one32) false
    else
      -- fixed point with 64 fraction bits: x = i + f / 2^64
      let fx : Int := (if n then -1 else 1) * (if 0 ≤ e + 64 then ((m * 2 ^ (e + 64).toNat : Nat) : Int) else ((m / 2 ^ (-(e + 64)).toNat : Nat) : Int))
      let i := fx / 2 ^ 64
      let f := (fx % 2 ^ 64).toNat
      if decide (128 ≤ i) then ff32.infCode
      else within1 0x10 a (floor32 (expFrac 64 f 64 (2 * 2 ^ 128) (2 ^ 128)) (i - 128)) (f == 0)

/-- Fraction bits of log2 of y in [1,2) (fixed point, 200 fraction bits) by repeated squaring. -/
def logBits : Nat → Nat → Nat → Nat
  | 0, _, acc => acc
  | k + 1, y, acc =>
    let y2 := y * y / 2 ^ 200
    if 2 * 2 ^ 200 ≤ y2 then logBits k (y2 / 2) (2 * acc + 1) else logBits k y2 (2 * acc)

/-- log2 within 1 ulp (R89). -/
def fLog2 (a : Nat) : Nat :=
  match dec32 a with
  | .nan => nan32
  | .inf n => if n then nan32 else a
  | .fin n m e =>
    if m == 0 then ff32.sign true ff32.infCode else if n then nan32
    else
      let l := Nat.log2 m
      let ex : Int := (l : Int) + e
      let fr := logBits 72 (m * 2 ^ (200 - l)) 0
      let z : Int := ex * 2 ^ 72 + fr
      let exact := m == 2 ^ l
      if z == 0 then within1 0x11 a 0 true
      else if decide (0 < z) then within1 0x11 a (floor32 z.natAbs (-72)) exact
      else
        let c := within1 0x11 a (floor32 z.natAbs (-72)) exact
        ff32.sign true c

/-! ### Random bits (R81) -/

/-- One Philox-4x32 round on counter (c0, c1, c2, c3) with key (k0, k1). -/
def philoxRound (c : Nat × Nat × Nat × Nat) (k : Nat × Nat) : Nat × Nat × Nat × Nat :=
  let p0 := 0xD2511F53 * c.1
  let p1 := 0xCD9E8D57 * c.2.2.1
  ((p1 / 2 ^ 32).xor (c.2.1.xor k.1), p1 % 2 ^ 32, (p0 / 2 ^ 32).xor (c.2.2.2.xor k.2), p0 % 2 ^ 32)

def philoxN : Nat → (Nat × Nat × Nat × Nat) → (Nat × Nat) → (Nat × Nat × Nat × Nat)
  | 0, c, _ => c
  | n + 1, c, k => philoxN n (philoxRound c k) ((k.1 + 0x9E3779B9) % 2 ^ 32, (k.2 + 0xBB67AE85) % 2 ^ 32)

/-- The 16-bit random value of an element (R81): seed, step, tensor ID, purpose, element index. -/
def srBits (seed step tensor purpose e : Nat) : Nat :=
  let o := philoxN 10 ((e / 8) % 2 ^ 32, tensor % 65536 + purpose * 65536, step % 2 ^ 32, (step / 2 ^ 32) % 2 ^ 32)
    (seed % 2 ^ 32, (seed / 2 ^ 32) % 2 ^ 32)
  let w := [o.1, o.2.1, o.2.2.1, o.2.2.2].getD (bits e 2 1) 0
  if bit e 0 then w / 65536 else w % 65536

/-! ### Conversions -/

/-- Counts a conversion adds to a stage report (R143): NaN written, Inf written, saturations. -/
structure Counts where
  nans : Nat := 0
  infs : Nat := 0
  sats : Nat := 0
  deriving DecidableEq, Repr

def Counts.add (a b : Counts) : Counts := ⟨a.nans + b.nans, a.infs + b.infs, a.sats + b.sats⟩

/-- FP32 code to a narrower floating format (R76, R80): code and counts. -/
def toFloat (fmt : Nat) (f : FF) (sat : Bool) (md : Rnd) (x : Nat) : Nat × Counts :=
  match dec32 x with
  | .nan => (f.nanCode, { nans := 1 })
  | .inf n =>
    if f.spec == 1 then (f.nanCode, { nans := 1 }) else (f.sign n f.infCode, { infs := 1 })
  | .fin n m e =>
    let c := f.round md m e
    if c ≤ f.maxCode then (f.sign n c, {})
    else if (fmt == 0x04 || fmt == 0x05) && sat then (f.sign n f.maxCode, { sats := 1 })
    else if f.spec == 1 then (f.nanCode, { nans := 1 })
    else (f.sign n f.infCode, { infs := 1 })

/-- Integer part of m 2^e rounded to nearest even. -/
def rneInt (m : Nat) (e : Int) : Nat :=
  if 0 ≤ e then m * 2 ^ e.toNat
  else
    let s := (-e).toNat
    let n := m / 2 ^ s
    let rem := m % 2 ^ s
    if 2 * rem > 2 ^ s || (2 * rem == 2 ^ s && n % 2 == 1) then n + 1 else n

/-- FP32 code to INT8 or INT4 of `w` bits (R79). -/
def toInt (w : Nat) (x : Nat) : Nat × Counts :=
  let hi : Int := 2 ^ (w - 1) - 1
  let lo : Int := -(2 ^ (w - 1))
  match dec32 x with
  | .nan => (0, { sats := 1 })
  | .inf n => (unsigned w (if n then lo else hi), { sats := 1 })
  | .fin n m e =>
    let z : Int := (if n then -1 else 1) * (rneInt m e : Int)
    if decide (hi < z) then (unsigned w hi, { sats := 1 }) else if decide (z < lo) then (unsigned w lo, { sats := 1 })
    else (unsigned w z, {})

/-- FP32 code to any element format but MX (R76, R79, R80). -/
def fromFp32 (fmt : Nat) (sat : Bool) (md : Rnd) (x : Nat) : Nat × Counts :=
  if fmt == 0x01 || fmt == 0x20 then
    (match dec32 x with
     | .nan => (nan32, { nans := 1 })
     | .inf _ => (x, { infs := 1 })
     | .fin _ _ _ => (x, {}))
  else if fmt == 0x10 then toInt 8 x
  else if fmt == 0x11 then toInt 4 x
  else match ffOf fmt with
    | some f => toFloat fmt f sat md x
    | none => (x, {})

/-- emax of an MX element type (R77). -/
def mxEmax (fmt : Nat) : Int :=
  if fmt == 0x08 then 8 else if fmt == 0x09 then 15 else if fmt == 0x0A then 4 else 2

def isMx (fmt : Nat) : Bool := decide (0x08 ≤ fmt) && decide (fmt ≤ 0x0C)

/-- An MX block of at most 32 FP32 codes (R77): scale code, element codes, counts. -/
def mxBlock (fmt : Nat) (xs : List Nat) : Nat × List Nat × Counts :=
  match ffOf fmt with
  | none => (0, xs, {})
  | some f =>
    if xs.any (fun x => !isFinite32 x) then (0xFF, xs.map (fun _ => 0), { nans := xs.length })
    else
      let mags := xs.map (fun x => x % 2 ^ 31)
      let amax := mags.foldl max 0
      if amax == 0 then (0, xs.map (fun _ => 0), {})
      else match dec32 amax with
        | .fin _ m e =>
          let ex : Int := max (-127) (min 127 ((Nat.log2 m : Int) + e - mxEmax fmt))
          let es := xs.map (fun x => match dec32 x with
            | .fin n m e =>
              let c := f.round .rne m (e - ex)
              if c ≤ f.maxCode then (f.sign n c, 0) else (f.sign n f.maxCode, 1)
            | _ => (0, 0))
          ((ex + 127).toNat, es.map (fun p => p.1), { sats := sumNat (es.map (fun p => p.2)) })
        | _ => (0, xs, {})

/-- The value of an element code under a scale code (R73, R78): scale 127 stands for 1. -/
def elemVal (fmt scale code : Nat) : FVal :=
  if fmt == 0x10 then let z := signed 8 code; .fin (decide (z < 0)) z.natAbs 0
  else if fmt == 0x11 then let z := signed 4 code; .fin (decide (z < 0)) z.natAbs 0
  else match ffOf fmt with
    | some f =>
      if isMx fmt then
        if scale == 0xFF then .nan
        else match f.decode code with
          | .fin n m e => .fin n m (e + (scale : Int) - 127)
          | v => v
      else f.decode code
    | none => .fin false 0 0

/-- An element code as FP32 (R88). -/
def toFp32 (fmt scale code : Nat) : Nat := enc32 (elemVal fmt scale code)

/-- Expanded weight (R83, R84): q - z times s rounded into BF16, or into E4M3 saturating; a table entry as stored. -/
def expandWeight (tgt q : Nat) (z : Int) (s : Nat) : Nat :=
  let d : Int := (signed 8 q) - z
  let v := vMul (.fin (decide (d < 0)) d.natAbs 0) (ffBf16.decode s)
  if tgt == 0x02 then ffBf16.encode v
  else match v with
    | .nan => 0x7F
    | .inf _ => 0x7F
    | .fin n m e => let c := ffE4m3.round .rne m e; ffE4m3.sign n (if ffE4m3.maxCode < c then ffE4m3.maxCode else c)

/-! ### Accumulation (04) -/

/-- Pair addition (R106). -/
def pairAdd (a b : Nat × Nat) : Nat × Nat :=
  let s := fAdd a.1 b.1
  if !isFinite32 s then (s, 0)
  else
    let v := fSub s a.1
    let e := fAdd (fSub a.1 (fSub s v)) (fSub b.1 v)
    (s, fAdd (fAdd a.2 b.2) e)

/-- The addition of an accumulation: plain FP32 in the first component, or the pair rule (R100, R106). -/
def accAdd (comp : Bool) (a b : Nat × Nat) : Nat × Nat := if comp then pairAdd a b else (fAdd a.1 b.1, 0)

/-- One level of the adder tree; a last node with one input passes it (R102). -/
def treeLevel (comp : Bool) : List (Nat × Nat) → List (Nat × Nat)
  | a :: b :: r => accAdd comp a b :: treeLevel comp r
  | l => l

/-- The sum of one chunk of at most 16 products (R102). -/
def chunkSum (comp : Bool) (l : List (Nat × Nat)) : Option (Nat × Nat) :=
  (treeLevel comp (treeLevel comp (treeLevel comp (treeLevel comp l)))).head?

/-- A level stack: occupied slots, lowest level first (R104). -/
abbrev LevelStack := List (Nat × Nat × Nat)

/-- Push a value by the binary-counter rule (R104). -/
def levelPush (comp : Bool) : LevelStack → Nat → Nat × Nat → LevelStack
  | [], l, c => [(l, c)]
  | (l', v) :: r, l, c => if l' == l then levelPush comp r (l + 1) (accAdd comp v c) else (l, c) :: (l', v) :: r

/-- Combine the occupied levels from the lowest upward (R105); an empty stack gives +0. -/
def levelFinish (comp : Bool) : LevelStack → Nat × Nat
  | [] => (0, 0)
  | (_, v) :: r => r.foldl (fun acc h => accAdd comp h.2 acc) v

/-- Push the chunks of a list of products. -/
def pushChunks (comp : Bool) (st : LevelStack) (ps : List (Nat × Nat)) : LevelStack :=
  (chunksOf 16 ps).foldl (fun s c => match chunkSum comp c with | some v => levelPush comp s 0 v | none => s) st

/-- The raw value of a sum of products in logical order (R101-R105). -/
def accSum (comp : Bool) (ps : List (Nat × Nat)) : Nat × Nat := levelFinish comp (pushChunks comp [] ps)

/-- A pairwise sum of FP32 codes in logical order (R90). -/
def sum32 (xs : List Nat) : Nat := (accSum false (xs.map (fun x => (x, 0)))).1

/-- The lane product of two element values (R70, R78). -/
def laneProduct (a b : FVal) : Nat := enc32 (vMul a b)

/-- Split of an FP32 operand into BF16 halves, as FP32 codes (R86). -/
def pairSplit (x : Nat) : Nat × Nat :=
  let h := (toFloat 0x02 ffBf16 false .rne x).1
  let h32 := enc32 (ffBf16.decode h)
  if isFinite32 h32 then (h32, enc32 (ffBf16.decode ((toFloat 0x02 ffBf16 false .rne (fSub x h32)).1))) else (h32, 0)

/-- Products of one K index: one, or the three of a pair (R86, R107). -/
def kProducts (split : Bool) (a b : FVal) : List (Nat × Nat) :=
  if split then
    let x := pairSplit (enc32 a)
    let y := pairSplit (enc32 b)
    [(fMul x.1 y.1, 0), (fMul x.1 y.2, 0), (fMul x.2 y.1, 0)]
  else [(laneProduct a b, 0)]

/-- The raw value of one output of a matrix product (R101, R107); `split`: operands of format 0x20. -/
def dotRaw (split comp : Bool) (as bs : List FVal) : Nat × Nat :=
  accSum comp ((as.zip bs).flatMap (fun p => kProducts split p.1 p.2))

/-- The raw values of the K-parts of one output, each of 2^l chunks but the last (R108). -/
def dotParts (split comp : Bool) (l : Nat) (as bs : List FVal) : List (Nat × Nat) :=
  (chunksOf (16 * 2 ^ l) ((as.zip bs).flatMap (fun p => kProducts split p.1 p.2))).map (accSum comp)

/-- The parts' results pushed as items in part order and combined (R108). -/
def joinParts (comp : Bool) (ps : List (Nat × Nat)) : Nat × Nat :=
  levelFinish comp (ps.foldl (fun st v => levelPush comp st 0 v) [])

/-- Read out a raw value as an FP32 code: fl(hi + lo) in compensated mode (R106). -/
def rawToFp32 (comp : Bool) (v : Nat × Nat) : Nat := if comp then fAdd v.1 v.2 else v.1

/-! ### Conditions on formats (R72, R92, R110) -/

/-- Lane format of an operand pair: none where R72 does not list it. Expanded weights take the activation's target. -/
def pairOk (a w : Nat) : Bool :=
  let expanded := w == 0x18 || w == 0x19 || w == 0x1A
  if a == 0x01 then w == 0x01 else if a == 0x02 then w == 0x02 || expanded else if a == 0x03 then w == 0x03
  else if a == 0x04 || a == 0x05 then w == 0x04 || w == 0x05 || expanded
  else if isMx a then isMx w else if a == 0x10 then w == 0x10 else if a == 0x11 then w == 0x11
  else if a == 0x20 then w == 0x20 else false

/-- K depth per cycle and width factor of an operand pair (R69, R141). -/
def pairRate (a w : Nat) : Nat × Nat :=
  if a == 0x01 then (16, 2) else if a == 0x20 then (16, 3) else if a == 0x02 || a == 0x03 then (16, 1)
  else if (a == 0x0C && w == 0x0C) || a == 0x11 then (64, 1) else (32, 1)

/-- Formats the transposed-read port takes (R85, R92). -/
def transposable (f : Nat) : Bool := [0x01, 0x02, 0x03, 0x04, 0x05, 0x10, 0x20].contains f

/-- ACC_CTL of a host-written figure (R110). -/
def accCtlOk (acc aFmt bFmt : Nat) : Bool :=
  let out := bits acc 15 8
  (!bit acc 0 || (aFmt == 0x20 && bFmt == 0x20)) && [0x01, 0x02, 0x03, 0x04, 0x05].contains out &&
  (!bit acc 0 || out == 0x01) && (!bit acc 1 || out != 0x01) && (!bit acc 3 || (bit acc 0 && out == 0x01)) && !bit acc 4

end Sys2Proof.Machine
end

