-- ==== Sys2Proof/Machine/State.lean ====
section
/-! DEFINITION. The whole state of the module as plain data, and the state right after reset. Each field's default is
its reset value: the value the spec gives, or the one the assumption log names. The structures stand in the order of
the spec's files; a comment at a field names its register where the name differs. -/

namespace Sys2Proof.Machine

open Sys2Proof

/-! ## Settings that host software writes (registers with access RW and no other writer) -/

/-- Rate measurement settings of one array die (R40). -/
structure DieCfg where
  run : Bool := true
  driftEn : Bool := true
  floorEn : Bool := true
  windowUs : Nat := 1000
  driftTenths : Nat := 30
  persist : Nat := 10
  deriving DecidableEq, Repr

/-- Settings of one stack (R230). -/
structure StkCfg where
  keepWays : Nat := 12
  laneThr : Nat := 64
  warmC : Nat := 85
  hotC : Nat := 95
  critC : Nat := 100
  deriving DecidableEq, Repr

/-- Settings of one link (R356). -/
structure LkCfg where
  retryThr : Nat := 1000
  trainFail : Nat := 3
  deriving DecidableEq, Repr

/-- The settings registers. Only a register write, a reset, a provisioning record and the sit-out restore change them. -/
structure Cfg where
  /-- HL_ESC (R464). -/
  escLimit : Nat := 3
  escWindowS : Nat := 900
  /-- HL_QWD[j].budget_ms (R464), default 5,000. -/
  qwdBudget : Tab Nat := []
  /-- REFCLK_SETTLE (R52); the strap value 00 (log 3). -/
  settleUs : Nat := 1000
  /-- RATE_CTL, RATE_WINDOW, RATE_DRIFT of each die (R40). -/
  die : Tab DieCfg := []
  /-- Stack settings (R230). -/
  stk : Tab StkCfg := []
  /-- Link settings (R356). -/
  lk : Tab LkCfg := []
  /-- TP_LOST, TP_DEAD (R357). -/
  lostMs : Nat := 20
  deadUs : Nat := 100
  /-- RL_HUDDLE, RL_SLOW (R385). -/
  huddleMs : Nat := 500
  slowMs : Nat := 100
  /-- UMPIRE settings (R416). -/
  rotPeriod : Nat := 64
  depth : Nat := 4
  /-- CK advice settings (R454) and MIRROR settings (R455). -/
  ckCeThr : Nat := 10000
  ckWindowMin : Nat := 10
  ckTjMarginC : Nat := 5
  mrWarn : Nat := 80
  mrPendGib : Nat := 16
  /-- Undo warning level of each stack engine (R260), default 75. -/
  seWarn : Tab Nat := []
  /-- FLOG_WIN.base and FLOG_CFG.side_sev (R489). -/
  flogBase : Nat := 0
  sideSev : Nat := 1
  /-- FLOG_CFG.side_sev of the provisioning record in the keep store (R538). -/
  provSev : Nat := 1
  /-- SCRUB_CTL periods (R484); the spec gives the register no address. -/
  csPeriodS : Nat := 1
  stkPeriodH : Nat := 24
  lpPeriodH : Nat := 24
  /-- EV_MASK (R288). -/
  evMask : Nat := 0
  /-- QARB_WEIGHT (R269). -/
  w0 : Nat := 8
  w1 : Nat := 4
  w2 : Nat := 2
  w3 : Nat := 1
  /-- MMU_CTL.pri_timeout_ms (R303). -/
  priTimeoutMs : Nat := 5000
  /-- PW_CORE.target_mv, PW_THERM.tj_limit_c, PW_STATE.wake_bench (R513). -/
  targetMv : Nat := 750
  tjLimitC : Nat := 100
  wakeBench : Bool := false
  deriving DecidableEq, Repr

/-! ## Power, clock, enables, health, identity -/

/-- Where the module stands between power-off and service (R53, R55, R508, R511, R551). -/
inductive Phase where
  /-- All rails off. -/
  | off
  /-- Rails good, no REFCLK detect yet. -/
  | waitRefclk
  /-- Counting the settle delay (R53 beat 3). -/
  | settling
  /-- PLLs locking (R53 beat 4). -/
  | locking
  /-- Cells calibrating (R53 beat 6). -/
  | calibrating
  /-- In service. -/
  | run
  /-- Sit-out or thermal sit-out (R508). -/
  | sitOut
  deriving DecidableEq, Repr

/-- What the clock bring-up in progress leads to. -/
inductive Bringup where
  /-- Cold reset (R53). -/
  | cold
  /-- A warm reset of cause 6 after REFCLK returned (R55). -/
  | refclkReturn
  /-- Sit-out goes on after REFCLK returned (R507). -/
  | sitOutReturn
  deriving DecidableEq, Repr

/-- The strap pins (R548). Straps tied to ground; STRAP_RSVD open (log 3). -/
structure Straps where
  clkSettle : Nat := 0
  cxlSplit : Nat := 0
  smbAddr : Nat := 0
  slMode : Bool := false
  rsvd : Nat := 15
  deriving DecidableEq, Repr

/-- What the retention store holds of the settings (R509 beat 4). -/
structure Retention where
  capW : Nat
  targetMv : Nat
  tjLimitC : Nat
  deriving DecidableEq, Repr

/-- The power controller (R500-R513). -/
structure Power where
  phase : Phase := .waitRefclk
  bringup : Bringup := .cold
  straps : Straps := {}
  /-- PW_CAP.cap_w. -/
  capW : Nat := 1200
  /-- PW_CORE. -/
  nowMv : Nat := 0
  gate : Nat := 16
  stkCap : Bool := false
  limited : Bool := false
  /-- PW_IN. -/
  inMv : Nat := 0
  inW : Nat := 0
  energyKj : Nat := 0
  /-- PW_TJ. -/
  hubTenths : Nat := 0
  arrTenths : Nat := 0
  hottest : Nat := 0
  /-- PW_THERM.trip_c. -/
  tripC : Nat := 105
  /-- PW_COOL. -/
  inletTenths : Nat := 0
  outletTenths : Nat := 0
  /-- PW_STATE. -/
  thermSit : Bool := false
  lastWake : Nat := 0
  /-- A die has tripped and not yet cooled (R504); whether every die stands below 85 °C (R510). -/
  dieTripped : Bool := false
  diesBelow85 : Bool := true
  /-- POWER_SET has accepted sit-out and entry is due (R509 beat 1). -/
  sitPending : Bool := false
  /-- A wake came during entry (R512). -/
  wakePending : Nat := 0
  /-- PWR_OK released (R551), WAKE# driven low (R556), PERST# asserted (R555), host port trained. -/
  pwrOk : Bool := true
  wakeLow : Bool := false
  perst : Bool := false
  hostPortUp : Bool := false
  /-- Queue 0 can be enabled (R53, R460, R555); whether it has been so since the cold reset. -/
  ready : Bool := false
  reached : Bool := false
  /-- Junctions of the array dies in the last sample; input energy below a kJ, in µJ. -/
  dieTenths : List Nat := [0, 0, 0, 0]
  energyRest : Nat := 0
  retention : Option Retention := none
  /-- Every stack and LPDDR5X package stands in self-refresh (R54, R459, R509); no calibration has ended since the cold reset. -/
  selfRef : Bool := false
  uncal : Bool := true
  /-- A die read below 10 °C in the last sample of the bring-up: calibration waits (R503). -/
  coldDies : Bool := false
  /-- Advanced error reporting: Completer Aborts recorded for dropped host writes (R64). -/
  aerAborts : Nat := 0
  deriving DecidableEq, Repr

/-- CLOCKREF (R52) and time synchronisation (R352). -/
structure Clk where
  locked : Bool := false
  lost : Bool := false
  lossCount : Nat := 0
  /-- TK_NOW. -/
  ns : Nat := 0
  running : Bool := false
  synced : Bool := false
  /-- The crossings stand frozen or uninitialised (R57, R58). -/
  frozen : Bool := true
  /-- Consecutive exchanges with an offset below 20 ns (R352). -/
  good : Nat := 0
  /-- The timekeeper counts at half rate, its module ahead of the master (R352). -/
  slew : Bool := false
  /-- Time of the last completed exchange (R353). -/
  lastSyncNs : Nat := 0
  deriving DecidableEq, Repr

/-- HEALTH (R464), the escalation window (R472). -/
structure Health where
  warmTotal : Nat := 0
  inWindow : Nat := 0
  lastCause : Nat := 1
  sentOff : Bool := false
  recordValid : Bool := false
  flushTimeout : Bool := false
  stale : Bool := false
  lastNs : Nat := 0
  alive : Nat := 0
  misses : Nat := 0
  /-- Times of the warm resets that count, newest first (R472); a cold reset carries their ages over. -/
  stamps : List Int := []
  /-- HL_QWD[j].tripped and idle_ms. -/
  tripped : Tab Bool := []
  idleMs : Tab Nat := []
  /-- A warm reset is due: its cause (R284, R473, R537). -/
  resetDue : Nat := 0
  /-- What the flush of the next warm reset has met: 0 nothing, 1 a timeout, 2 REFCLK loss (R460 beat 2). -/
  flushMiss : Nat := 0
  /-- Granules have gone stale since the last warm reset (R466). -/
  freshStale : Bool := false
  deriving DecidableEq, Repr

/-- A job entry of the survival record (R463). -/
structure SurvJob where
  job : Nat := 0
  flags : Nat := 0
  pasid : Nat := 0
  lastGood : Nat := 0
  stepInFlight : Nat := 0
  setEpoch : Nat := 0
  modeEpoch : Nat := 0
  digest : Nat := 0
  ckptGen : Nat := 0
  ckptChunks : Nat := 0
  cut : Nat := 0
  boundary : Nat := 0
  saveKib : Nat := 0
  /-- Re-adopted or released since; the model's own note. -/
  taken : Bool := false
  deriving DecidableEq, Repr

/-- The survival record (R463). -/
structure Survival where
  cause : Nat := 0
  flush : Nat := 0
  ns : Nat := 0
  causeDetail : Nat := 0
  faultIdx : Nat := 0
  warmInWindow : Nat := 0
  wholeStacks : Nat := 0
  retiredPcs : List Nat := []
  jobs : List SurvJob := []
  /-- Stale granules of declarations: job, handle, granule. -/
  stale : List (Nat × Nat × Nat) := []
  /-- The stuck cell of a cause 5 has taken its strike (R469); the model's own note. -/
  struck : Bool := false
  deriving DecidableEq, Repr

/-- The content of a flash slot (R520): the image the module was shipped with, which passes R521 (log 4), or bytes written since. -/
inductive Flash where
  | factory
  | held (img : Bytes)
  deriving DecidableEq, Repr

/-- Identity, flash and fuses (R515, R520). Fuse and flash contents: log 4. -/
structure Ident where
  /-- ID_MAGIC, ID_VER, ID_STEP, ID_PART and ID_CAP: the same on every module of this part and stepping (R1, R515). -/
  magic : Nat := 0x4C45524B
  layoutVer : Nat := 1
  stepping : Nat := 0xB0
  part : List Nat := [0x4B, 0x47, 0x4E, 0x2D, 0x47, 0x31, 0x2D, 0x34, 0x35, 0x34, 0x34]
  capHead : Nat := 0x100
  serial : Nat := 0
  mac : Nat := 0
  fwVer : Nat := 0
  svn : Nat := 0
  slot : Bool := false
  fallback : Bool := false
  failed : Bool := false
  svnFloor : Nat := 0
  /-- Fused SHA-384 of the firmware keys and their revocation bits; fused digest of the enrolment key. -/
  keyDigests : List Nat := []
  revoked : Nat := 0
  enrolDigest : Nat := 0
  /-- Krelen's enrolment key, which the fused digest names: x, y. -/
  enrolKey : Option (Nat × Nat) := none
  /-- Flash slots and the slot record (false: A). -/
  slotA : Flash := .factory
  slotB : Flash := .held []
  active : Bool := false
  deriving DecidableEq, Repr

/-- MCTP and SPDM (R524, R525). -/
structure Mctp where
  eid : Nat := 0
  /-- SPDM: 0 nothing, 1 version given, 2 capabilities given, 3 algorithms settled. -/
  spdm : Nat := 0
  version : Nat := 0
  deriving DecidableEq, Repr

/-- Control state: everything about the module's own standing. -/
structure Ctl where
  power : Power := {}
  clk : Clk := {}
  health : Health := {}
  surv : Survival := {}
  /-- UNIT_EN0 to UNIT_EN3 as one number: bit n enables unit n (R61). -/
  unitEn : Nat := 0
  ident : Ident := {}
  mctp : Mctp := {}
  /-- Trap record of each control core: the unit ID of its last bus-error trap, plus 1 (R64). -/
  traps : Tab Nat := []
  deriving DecidableEq, Repr

/-! ## Fault log, events, sideline (11, 18, 20) -/

/-- A location of a fault-log record (R487): kind, the 15 bytes of its kind as a number, handle, offset, value. -/
structure Loc where
  kind : Nat := 0
  body : Nat := 0
  /-- Word index of a cell's location, where the event concerns a word. -/
  word : Option Nat := none
  handle : Nat := 0
  off : Nat := 0
  /-- Event-specific value, where the event's rule states one. -/
  value : Option Nat := none
  deriving DecidableEq, Repr

/-- A fault-log record (R486). -/
structure FRec where
  ns : Nat := 0
  cls : Nat := 0
  unit : Nat := 0xFF
  sev : Nat := 1
  job : Nat := 0xFF
  old : Bool := false
  sideSent : Bool := false
  step : Nat := 0
  idx : Nat := 0
  occ : Nat := 1
  loc : Loc := {}
  deriving DecidableEq, Repr

/-- The fault log (R488, R489): records newest first; records below index `kept` came back at the cold reset, under the
timekeeper before it, and take no merge (log 83). -/
structure Flog where
  head : Nat := 0
  kept : Nat := 0
  merged : Nat := 0
  recs : List FRec := []
  deriving DecidableEq, Repr

/-- The event ring (R288). -/
structure Ev where
  base : Nat := 0
  log2 : Nat := 0
  en : Bool := false
  err : Nat := 0
  vector : Nat := 0
  tail : Nat := 0
  head : Nat := 0
  lost : Nat := 0
  deriving DecidableEq, Repr

/-- An entry of the MSI-X table (R291). Reset unmasked (log 9). -/
structure Msix where
  addr : Nat := 0
  data : Nat := 0
  masked : Bool := false
  pending : Bool := false
  deriving DecidableEq, Repr

/-- An outgoing sideline record held for resend (R532). -/
structure SlRec where
  seq : Nat := 0
  kind : Nat := 0
  sev : Nat := 0
  /-- Fault-log index of a type 0x02 record, else 2^32. -/
  idx : Nat := 0
  payload : Bytes := []
  resends : Nat := 0
  deriving DecidableEq, Repr

/-- An open incoming transfer (R533): the bytes present by offset. -/
structure Xfer where
  id : Nat := 0
  total : Nat := 0
  data : Memory := []
  got : List (Nat × Nat) := []
  deriving DecidableEq, Repr

/-- The sideline (R528-R540). -/
structure Sl where
  link : Bool := false
  mode : Bool := false
  addrOk : Bool := false
  collector : Bool := false
  addr : Nat := 0
  coll : Nat := 0
  port : Nat := 19271
  dhcp : Bool := true
  prov : Bool := false
  /-- When the last acknowledgement arrived (R540). -/
  lastAckNs : Nat := 0
  netmask : Nat := 0
  gateway : Nat := 0
  sent : Nat := 0
  dropped : Nat := 0
  /-- Fleet key x, y (R529). -/
  fleetKey : Option (Nat × Nat) := none
  authSeq : Nat := 0
  foulAuth : Bool := false
  foulLeftS : Nat := 0
  nextSeq : Nat := 0
  held : List SlRec := []
  /-- Incoming sequences handled, with their status. -/
  handled : List (Nat × Nat) := []
  drill : Option Xfer := none
  fw : Option Xfer := none
  /-- CPER records sent and not acknowledged whole: record ID, bytes, sequences of its chunks still held (R534). -/
  outX : List (Nat × Bytes × List Nat) := []
  deriving DecidableEq, Repr

/-! ## Queues (11) -/

/-- A packet fetched and not yet started (R272). -/
structure Pkt where
  hdr : Hdr
  op : Nat
  cmd : Option Instr
  /-- Order of fetching, among all queues and the orders of acceptance. -/
  ord : Nat := 0
  deriving DecidableEq, Repr

/-- A queue context (R264) and what the controller keeps for it. -/
structure Queue where
  cmdBase : Nat := 0
  rplBase : Nat := 0
  cmdLog2 : Nat := 0
  rplLog2 : Nat := 0
  cls : Nat := 0
  job : Nat := 0
  addrHost : Bool := false
  en : Bool := false
  vector : Nat := 0
  coalCount : Nat := 0
  coalUs : Nat := 0
  state : Nat := 0
  err : Nat := 0
  done : Nat := 0
  cmdTail : Nat := 0
  cmdHead : Nat := 0
  rplTail : Nat := 0
  rplHead : Nat := 0
  lastSeq : Nat := 0
  inflight : Nat := 0
  fetched : List Pkt := []
  /-- Replies since the last interrupt (R291). -/
  unsig : Nat := 0
  /-- A fetch is parked at the packet cmd_head; replies parked on a reply-page fault, oldest first (R271). -/
  fetchParked : Bool := false
  parked : List (Hdr × Bytes) := []
  deriving DecidableEq, Repr

/-- The arbiter (R269): class credit left in the round, class served, last queue served per class, drops. -/
structure Qarb where
  dropped : Nat := 0
  cls : Nat := 0
  credit : Nat := 8
  last : Tab Nat := []
  deriving DecidableEq, Repr

/-- A command accepted and not yet replied to (R275). -/
structure Run where
  hdr : Hdr
  op : Nat
  /-- Order of acceptance. -/
  ord : Nat := 0
  /-- What the command works on: a step, an epoch, a generation, a channel, a mask. -/
  a : Nat := 0
  b : Nat := 0
  deriving DecidableEq, Repr

/-! ## Address translation, DMA (12) -/

/-- A mapping of a job (R296). -/
structure Mapping where
  job : Nat
  dva : Nat
  len : Nat
  host : Nat
  page : Nat
  access : Nat
  demand : Bool
  deriving DecidableEq, Repr

/-- A cached translation (R298): job, host address, size, physical address, access bits. -/
structure Atc where
  job : Nat
  host : Nat
  size : Nat
  phys : Nat
  access : Nat
  deriving DecidableEq, Repr

/-- A BAR4 aperture (R303). -/
structure Ap where
  handle : Nat := 0
  job : Nat := 0
  en : Bool := false
  offset : Nat := 0
  deriving DecidableEq, Repr

/-- The MMU (R303). -/
structure Mmu where
  ap : Tab Ap := []
  invDone : Nat := 0
  maps : List Mapping := []
  atc : List Atc := []
  /-- Outstanding Page Requests: job and host page; Page Requests stopped by a Response Failure (R300). -/
  priOut : List (Nat × Nat) := []
  priStopped : Bool := false
  /-- Outstanding requests the host allocated (log 10). -/
  priAlloc : Nat := 2048
  deriving DecidableEq, Repr

/-- One side of a stream: a job address or a declaration and offset. -/
structure Side where
  handle : Nat := 0
  pos : Nat := 0
  deriving DecidableEq, Repr

/-- A DMA channel (R307) and its stream. -/
structure Chan where
  state : Nat := 0
  user : Nat := 0
  job : Nat := 0
  queue : Nat := 0xFFFF
  done : Nat := 0
  total : Nat := 0
  parkAt : Nat := 0
  kind : Nat := 0
  src : Side := {}
  dst : Side := {}
  len : Nat := 0
  seq : Nat := 0
  /-- Granules above the done count that have completed (R308). -/
  above : List Nat := []
  deriving DecidableEq, Repr

/-! ## Sets, declarations, placement (05-08) -/

/-- A declaration (R181). `buf` names the buffer of a double-buffered tensor that the step reads. -/
structure Decl where
  kind : Nat := 0
  fmt : Nat := 0
  count : Nat := 0
  rowLen : Nat := 1
  style : Nat := 0
  pin : Nat := 0
  group : Nat := 0
  kAxis : Nat := 0
  reps : Nat := 1
  dbl : Bool := false
  noMigrate : Bool := false
  rowState : Nat := 0
  t1Min : Nat := 0
  buf : Nat := 0
  /-- Home while no current set names it (R183, R184): the tier of a dense tensor; row blocks outside tier 2 of a table. -/
  tier : Nat := 2
  blocks : List (Nat × Nat) := []
  /-- Pseudo-channels that were not live when it was placed (R191). -/
  gone : List Nat := []
  deriving DecidableEq, Repr

/-- A stage record (R121, R122): the common fields and its 48 type-specific bytes. -/
structure Stage where
  idx : Nat := 0
  typ : Nat := 0
  flags : Nat := 0
  fig : Nat := 0
  layer : Nat := 0
  chk : Nat := 0xFFFF
  tied : Nat := 0xFFFF
  pin : Nat := 0
  par : Bytes := []
  deriving DecidableEq, Repr

/-- A stream record (R126). -/
structure Strm where
  idx : Nat := 0
  src : Nat := 0xFFFF
  srcPort : Nat := 0
  dstPort : Nat := 0
  dst : Nat := 0xFFFF
  tensor : Nat := 0
  fmt : Nat := 0
  flags : Nat := 0
  rows : Nat := 0
  len : Nat := 0
  depth : Nat := 0
  deriving DecidableEq, Repr

/-- A tensor record (R124). -/
structure Tens where
  id : Nat := 0
  role : Nat := 0
  fmt : Nat := 0
  handle : Nat := 0
  count : Nat := 0
  deriving DecidableEq, Repr

/-- A figure record (R133) with its body. -/
structure Fig where
  idx : Nat := 0
  kind : Nat := 0
  len : Nat := 64
  nops : Nat := 0
  acc : Nat := 0
  aFmt : Nat := 0
  bFmt : Nat := 0
  oFmt : Nat := 0
  nconst : Nat := 0
  body : Bytes := []
  deriving DecidableEq, Repr

/-- A set (R117): the header's fields, the parsed tables and the image, whose descriptors are read at their offsets. -/
structure SetImg where
  img : Bytes := []
  digest : Nat := 0
  setId : Nat := 0
  mb : Nat := 1
  maxVirtual : Nat := 0
  train : Bool := false
  stepConst : Nat := 0
  migBudget : Nat := 0
  chkOff : Nat := 0
  planOff : Nat := 0
  stages : List Stage := []
  streams : List Strm := []
  tensors : List Tens := []
  figs : List Fig := []
  deriving DecidableEq, Repr

/-- The share of a stage over its cells (R190): split axis of R205, K-part sizes of the forward product and of dX (0xFF: not
split along K), the heaviest forward and return work of a cell (R141), the row blocks of the two return figures (R147), and the
cells: array-plane key 16 × plane row + logical column, first unit, units. -/
structure Division where
  stage : Nat
  axis : Nat
  kpart : Nat := 0xFF
  share : Nat := 0
  backPart : Nat := 0xFF
  backShare : Nat := 0
  rbX : Nat := 0
  rbW : Nat := 0
  at_ : List (Nat × Nat × Nat) := []
  deriving DecidableEq, Repr

/-- An item that the Caller homes (R193): kind 0 a tensor, else a region kind of R205; the tensor ID or owning stage; bytes;
priority of tier 1; may it lie in tiers 1 and 3; the tier a pin demands, then the tier given. -/
structure HomeItem where
  kind : Nat := 0
  id : Nat := 0
  bytes : Nat := 0
  prio : Nat := 0
  fast : Bool := true
  deep : Bool := false
  tier : Nat := 0
  deriving DecidableEq, Repr

/-- A placement of a set (R164-R190, R193). -/
structure Place where
  p : Nat := 1
  v : Nat := 1
  /-- W (R169), the rate class of its cell, and the period in cycles at class 100 (R142); work of all visits. -/
  w : Nat := 0
  heavy : Nat := 0
  period : Nat := 0
  total : Nat := 0
  rows : List Nat := []
  /-- Layers of the forward half (R164), and those of each chunk in order. -/
  chunks : List (List Nat) := []
  div : List Division := []
  cause : Nat := 0
  fromStep : Nat := 0
  /-- Digest of the inputs (R186); rate classes used, by plane key (R199), the unlisted being 100; short rows. -/
  inputs : Nat := 0
  classes : Tab Nat := []
  short : Nat := 0
  /-- Work and resident figures of each cell that holds stages, by plane key (R95, R141). -/
  load : Tab Nat := []
  figs : Tab Nat := []
  /-- Depths of the streams in items, the default 8 unlisted; streams that pass through a ring in tier 1 (R130). -/
  depths : Tab Nat := []
  rings : List Nat := []
  /-- Retained streams kept in cell store, in the order of R157; spilled bytes per micro-batch. -/
  kept : List Nat := []
  spill : Nat := 0
  /-- Stages whose weight shares, and plane keys of the cells whose part stacks, lie in cell store (R154, R193). -/
  held : List Nat := []
  partCells : List Nat := []
  /-- Bytes that a cell-store pin holds, by tensor ID. -/
  pinned : Tab Nat := []
  /-- Homes of tensors and regions, and the capacities placed into (R193, R204). -/
  homes : List HomeItem := []
  caps : List Nat := []
  /-- Expected peak bridge loads in MB/s (R21, R204). -/
  bridge : List Nat := []
  deriving DecidableEq, Repr

/-! ## A running step (05, 06, 07, 15) -/

/-- An item of a stream (R128) as held: stream, micro-batch, item index, epoch tag, payload, the scale of each element (MX), poisoned. -/
structure Item where
  strm : Nat := 0
  mb : Nat := 0
  idx : Nat := 0
  tag : Nat := 0
  payload : Bytes := []
  scales : List Nat := []
  poison : Bool := false
  /-- A retained item whose last consumer has read it (R158): its payload is gone. -/
  freed : Bool := false
  deriving DecidableEq, Repr

/-- A row a stage has put on an output port: element codes, the scale of each element (MX), poison (R128, R481). -/
structure Row where
  vals : List Nat := []
  scales : List Nat := []
  poison : Bool := false
  deriving DecidableEq, Repr

/-- A tile of a product (R94, R111, R389): stage end (a return stage is s + 0x8000), product (0 the forward or dX
product, 1 the dW product), micro-batch and tile index; how often it was recomputed, the cell key 144 d + c that read it
out, and its output codes once read out. -/
structure Tile where
  st : Nat := 0
  prod : Nat := 0
  mb : Nat := 0
  tile : Nat := 0
  redo : Nat := 0
  cell : Nat := 0
  done : Bool := false
  out : List Nat := []
  poison : Bool := false
  deriving DecidableEq, Repr

/-- A sample the Umpire follows (R394-R397): the tile, its cells, the working cell's result, the fault-free result and the
checker's result; state 0 before the comparison, 1 before the third computation. -/
structure Samp where
  step : Nat := 0
  st : Nat := 0
  prod : Nat := 0
  mb : Nat := 0
  tile : Nat := 0
  work : Nat := 0
  checker : Nat := 0
  third : Nat := 0
  res : List Nat := []
  truth : List Nat := []
  got : List Nat := []
  state : Nat := 0
  /-- For a capture (R400, R401): ACC_CTL, A and B formats, rows, K, chunks in the window; operands; the window's part result. -/
  info : List Nat := []
  ops : Bytes := []
  part : List Nat := []
  deriving DecidableEq, Repr

/-- Counts for a stage report (R143) and for the plausibility checks (R391): largest finite magnitude as an FP32 code, sum of
squares in units of 2^-298. -/
structure Rep where
  nans : Nat := 0
  infs : Nat := 0
  sats : Nat := 0
  redone : Bool := false
  amax : Nat := 0
  ss : Nat := 0
  deriving DecidableEq, Repr

/-- How a step failed: status, detail, unit, stage. -/
structure Fail where
  status : Nat := 0
  detail : Nat := 0
  unit : Nat := 0xFF
  stage : Nat := 0xFFFF
  deriving DecidableEq, Repr

/-- Where a running step stands. -/
inductive SPhase where
  /-- Visits run. -/
  | run
  /-- Boundary beats 2 to 5 (R172). -/
  | beats (n : Nat)
  /-- In the step barrier (R377). -/
  | barrier
  deriving DecidableEq, Repr

/-- The running step of a job. -/
structure StepRun where
  step : Nat := 0
  seed : Nat := 0
  conservative : Bool := false
  replay : Bool := false
  startNs : Nat := 0
  report : Nat := 0
  phase : SPhase := .run
  /-- Step constants s0-s7 (R131). -/
  sc : List Nat := []
  /-- Visits started per position (R168), and micro-batches admitted (R171). -/
  visits : Tab Nat := []
  admitted : Nat := 0
  /-- Drain bound: no F visit of this micro-batch or later is admitted (R171, R318); none. -/
  cut : Option Nat := none
  /-- Micro-batch boundaries agreed on for this step, rising: the visits below one come before those above it (R171). -/
  parts_ : List Nat := []
  /-- Items accepted, held on epoch mismatch, and streams whose last item failed parity once (R129, R132, R179). -/
  items : List Item := []
  held : List Item := []
  resent : List (Nat × Nat × Nat) := []
  /-- Rows put on output ports: (stage end, port, micro-batch, row). -/
  rows : List (Nat × Nat × Nat × Nat × Row) := []
  tiles : List Tile := []
  /-- Bytes the step has written to role 4 and role 6 tensors, visible after beat 3 (R131); 256: not written. -/
  laid : Tab Nat := []
  /-- Part stacks (R109): stage end, element, level stack. -/
  parts : List (Nat × Nat × List (Nat × Nat × Nat)) := []
  /-- Gradient tensors finished: stage ends whose part stacks were read out (R155). -/
  graded : List Nat := []
  /-- Contributions of a tied weight pushed into its buffer, by weight tensor; those complete and not pushed are parked (R113). -/
  pushed : Tab Nat := []
  /-- Collectives of the step that have completed, and UPDATE stages run (R172). -/
  exchanged : List Nat := []
  updated : List Nat := []
  rowsDone : Bool := false
  /-- Stochastically rounded outputs by cell (R97). -/
  srs : Tab Nat := []
  reports : Tab Rep := []
  fail : Option Fail := none
  /-- A STEP_ABORT drains the step to its next micro-batch boundary; it stands there (R282). -/
  abort : Bool := false
  aborted : Bool := false
  /-- A needed port was partly up when the job started with this step (R343). -/
  partly : Bool := false
  /-- Outcome of beat 5, and the unit that could not apply (R178). -/
  applyOk : Option Bool := none
  failUnit : Nat := 0xFF
  deriving DecidableEq, Repr

/-- A journal entry (R406). -/
structure Jrn where
  step : Nat := 0
  seed : Nat := 0
  setEpoch : Nat := 0
  modeEpoch : Nat := 0
  conservative : Bool := false
  /-- State bits of R406: barrier passed, plausibility passed, partner acknowledged, called good, failed; let replay. -/
  ended : Bool := false
  plaus : Bool := true
  acked : Bool := false
  good : Bool := false
  failed : Bool := false
  replay : Bool := false
  /-- Dense buffer read, replays of the step, why it failed, cells and stage the failure names (R413). -/
  buf : Nat := 0
  replays : Nat := 0
  fail : Fail := {}
  cells : List Nat := []
  /-- Norm of each stage end (R391). -/
  norms : List (Nat × Nat) := []
  /-- Declarations whose buffers the step has switched (R131); bytes of role 4 and 6 tensors before its boundary, by key. -/
  flip : List Nat := []
  saved : Tab Nat := []
  flags : Nat := 0
  nInputs : Nat := 0
  inputAddr : Nat := 0
  inputs : List (Nat × Nat × Nat) := []
  report : Nat := 0
  startNs : Nat := 0
  endNs : Nat := 0
  deriving DecidableEq, Repr

/-- An accumulator entry (R252): stage, row, contributions, flags (an element list, or all), sums. -/
structure Acc where
  stage : Nat := 0
  table : Nat := 0
  row : Nat := 0
  count : Nat := 0
  flags : List Nat := []
  allFlag : Bool := false
  sums : List Int := []
  deriving DecidableEq, Repr

/-- An undo entry (R256): step, table tensor ID, handle, row, image. -/
structure Undo where
  step : Nat := 0
  table : Nat := 0
  handle : Nat := 0
  row : Nat := 0
  image : Bytes := []
  deriving DecidableEq, Repr

/-- PLACE_SET settings of a job (R201): 0xFF and 0xFFFF stand for the defaults in force. -/
structure PSet where
  freeze : Bool := false
  migBudget : Nat := 0xFFFF
  deriving DecidableEq, Repr

/-- A whole mode as a unit keeps it (R176, R177): the settings in force under an epoch. -/
structure ModeRec where
  epoch : Nat := 0
  setEpoch : Nat := 0
  set : Option SetImg := none
  place : Place := {}
  k : Nat := 5
  chk : Bytes := []
  compress : List (Nat × Nat × Nat × Nat) := []
  forced : Bool := false
  norms : List (Nat × List Nat) := []
  setSteps : Nat := 0
  /-- What goes back with a mode: places of row blocks, the migration budget in force, the first step run under the epoch. -/
  tiers : List (Nat × Nat × Nat) := []
  migBudget : Nat := 0xFFFF
  first : Option Nat := none
  deriving DecidableEq, Repr

/-- A staged mode (R176, R177): its epoch, and the settings it changes (each absent when it keeps the current one). -/
structure Mode where
  epoch : Nat := 0
  set : Option SetImg := none
  place : Option Place := none
  k : Option Nat := none
  chk : Option Bytes := none
  compress : List (Nat × Nat × Nat × Nat) := []
  forced : Option Bool := none
  deriving DecidableEq, Repr

/-- A residual buffer of compressed exchange (R372): tensor, three buffers of FP32 codes, the one in force. -/
structure Resid where
  tensor : Nat := 0
  bufs : List (List Nat) := []
  cur : Nat := 0
  deriving DecidableEq, Repr

/-- A job context and everything the module keeps for the job. -/
structure Job where
  live : Bool := false
  /-- MMU_JOB (R303). -/
  pasid : Nat := 0
  ats : Bool := false
  pri : Bool := false
  saveDva : Nat := 0
  faults : Nat := 0
  parked : Nat := 0
  lastFault : Nat := 0
  pstate : Nat := 0
  boundary : Nat := 0
  saveKib : Nat := 0
  /-- Step of the last pre-emption; fronts contributed and agreed (R318). -/
  preStep : Nat := 0
  fronts : List (Nat × Nat) := []
  /-- Sets (R120), placements, epochs (R176). -/
  cur : Option SetImg := none
  staged : Option SetImg := none
  place : Place := {}
  stagedPlace : Place := {}
  setEpoch : Nat := 0
  modeEpoch : Nat := 1
  /-- The mode before the current one (R177), and the first step run under the current epoch. -/
  prev : Option ModeRec := none
  epochFirst : Option Nat := none
  /-- The previous mode that beat 5 of the present boundary replaced (R178). -/
  prevOld : Option ModeRec := none
  stagedMode : Option Mode := none
  lastPrepared : Nat := 1
  /-- The step a pending commit names (R178). -/
  commit : Option Nat := none
  /-- A commit applied and not yet called good, kept for a replay (R180): its step and mode. -/
  applied : Option (Nat × Mode) := none
  /-- The last MODE_COMMIT that ended, for its repeats (R180): epoch, step, status, unit. -/
  lastCommit : Option (Nat × Nat × Nat × Nat) := none
  /-- Settings staged by their own commands, waiting for MODE_PREPARE (R176). -/
  stK : Option Nat := none
  stChk : Option Bytes := none
  stCompress : List (Nat × Nat × Nat × Nat) := []
  stForced : Option Bool := none
  /-- Settings in force. -/
  k : Nat := 5
  chk : Bytes := []
  compress : List (Nat × Nat × Nat × Nat) := []
  forced : Bool := false
  /-- PLACE_SET records that take effect at the next boundary (R201). -/
  psPending : List Bytes := []
  pset : PSet := {}
  decls : Tab Decl := []
  nextHandle : Nat := 1
  /-- Steps (R281): next step when fixed, last good step, last started. -/
  nextStep : Option Nat := none
  lastGood : Option Nat := none
  lastStarted : Option Nat := none
  run : Option StepRun := none
  /-- Accepted STEP_RUN and LET_REPLAY commands that have not started, oldest first, with their input lists (tensor, source,
  bytes): behind a running step, for a page or for JOB_RESUME (R281). -/
  waiting : List (Instr × List (Nat × Nat × Nat)) := []
  /-- Called-good step on every module, as the last barrier exit combined it (R173, R377); duration of the last step. -/
  jobGood : Nat := 0
  /-- Called-good steps heard from the members it combines, and the value last sent up (R377). -/
  kidGood : List (Nat × Nat) := []
  sentGood : Nat := 0
  lastDur : Nat := 0
  jrn : List Jrn := []
  samps : List Samp := []
  /-- The next step is to run in conservative backward (R160). -/
  consNext : Bool := true
  /-- Conservative from a switch-in until a step that started after it, this one or later, is called good (R160). -/
  consTillGood : Bool := false
  consFrom : Nat := 0
  /-- Norm window of each stage: norms of called-good steps, newest first (R391); steps run under the current set. -/
  norms : List (Nat × List Nat) := []
  setSteps : Nat := 0
  accs : List Acc := []
  undo : List Undo := []
  /-- Gather counts of row blocks by stack controller: (controller, table, block); scores: (table, block) (R196); places of blocks
  outside tier 2: 1, or 3 + the tier-3 device (R195, R236). -/
  counts : List (Nat × Nat × Nat × Nat) := []
  scores : List (Nat × Nat × Nat) := []
  tiers : List (Nat × Nat × Nat) := []
  /-- Read replicas in force (R200): table, block, copies with the first. -/
  replicas : List (Nat × Nat × Nat) := []
  /-- Last boundary: blocks moved, time used in µs, budget in µs, moves not executed, moves parked (R204). -/
  moves : List Nat := [0, 0, 0, 0, 0]
  resid : List Resid := []
  /-- Return copies of weights (R152): tensor, buffer, element codes in the copy's format. -/
  copies : List (Nat × Nat × List Nat) := []
  /-- dY and dX items of conservative steps not yet called good (R159): step, items. -/
  consKept : List (Nat × List Item) := []
  collSerial : Nat := 0
  /-- A step is blocked by lost room: STEP_RUN completes with NO_RESOURCE (R192, R199, R492). -/
  noRoom : Bool := false
  /-- The next STEP_RUN starts the job: its ports are checked (R343). -/
  topoDue : Bool := true
  bagErr : Bool := false
  deriving DecidableEq, Repr

/-- A line of a memory-side cache (R214): its number (64 B of a declaration), newer than its DRAM copy, protected. -/
structure Line where
  key : Nat := 0
  dirty : Bool := false
  prot : Bool := false
  deriving DecidableEq, Repr

/-! ## Cells (02, 03, 15) -/

/-- One physical cell, key 144 d + c (R40, R97, R416, R490). -/
structure Cell where
  rateMhz : Nat := 0
  belowFloor : Bool := false
  drift : Bool := false
  retired : Bool := false
  baseRel : Nat := 0
  tap : Nat := 0
  failTap : Nat := 0
  margin : Nat := 0
  state : Nat := 0
  logical : Nat := 0
  srCount : Nat := 0
  driftRun : Nat := 0
  /-- Recalibrated: base_rel is due from the first complete window (R44). -/
  fresh : Bool := false
  floorRun : Bool := false
  /-- To be retired at the next step boundary (R43, R398). -/
  due : Bool := false
  ce : Nat := 0
  ue : Nat := 0
  poisoned : Bool := false
  /-- An uncorrectable word lies in the figure store (R479). -/
  figBad : Bool := false
  strikeLo : Nat := 0
  strikes : Nat := 0
  excluded : Bool := false
  exclGood : Nat := 0
  /-- Bit cells of the store that errors or injections have flipped: word index and flip mask. -/
  flips : List (Nat × Nat) := []
  /-- Times of the corrected words of the last second (R490). -/
  ceWin : List Nat := []
  deriving DecidableEq, Repr

/-- Sensors of one die (R40). -/
structure DieSense where
  coreMv : Nat := 0
  tjTenths : Nat := 0
  deriving DecidableEq, Repr

/-! ## Retirement, injector (18) -/

/-- RET_CMD, RET_STAT and the table (R494): entries (tier, bank, where, index). -/
structure Ret where
  tier : Nat := 0
  bank : Bool := false
  place : Nat := 0
  index : Nat := 0
  entries : List (Nat × Nat × Nat × Nat) := []
  /-- Entries whose moves wait for a boundary. -/
  due : List (Nat × Nat × Nat × Nat) := []
  refused : Bool := false
  reason : Nat := 0
  pages : Nat := 0
  deriving DecidableEq, Repr

/-- The checker injector (R497). -/
structure Err where
  target : Nat := 0
  mode : Nat := 0
  job : Nat := 0
  c : Nat := 0
  die : Nat := 0
  handleOrWord : Nat := 0
  offset : Nat := 0
  mask : Nat := 0
  pat : Nat := 0xFF
  check : Nat := 0
  state : Nat := 0
  reason : Nat := 0
  /-- Tier of the armed code word's home; the model's own note. -/
  tier : Nat := 0
  deriving DecidableEq, Repr

/-! ## Memory tiers (09, 10) -/

/-- A stack controller (R230). -/
structure Stk where
  tempTenths : Nat := 0
  level : Nat := 0
  phase : Bool := false
  deferred : Bool := false
  hotMs : Nat := 0
  /-- Samples in a row at or above hot_c; the trip exit's retraining is under way (R223). -/
  hotRun : Nat := 0
  waves : Bool := false
  /-- Temperature at the bring-up training, from the first sample after it (R226). -/
  refTenths : Option Nat := none
  rdGbs : Nat := 0
  wrGbs : Nat := 0
  ce : Nat := 0
  ue : Nat := 0
  tripped : Bool := false
  deriving DecidableEq, Repr

/-- A pseudo-channel (R230), its hold queue depth, when it was last trained (R226), and the lanes marked failed (R212). -/
structure Pc where
  state : Nat := 0
  retrains : Nat := 0
  hold : Nat := 0
  ce1s : Nat := 0
  worstLane : Nat := 0
  worstCount : Nat := 0
  requested : Bool := false
  /-- The request is exempt from the 100 ms limit (R226). -/
  exempt : Bool := false
  trainTenths : Nat := 0
  trainNs : Nat := 0
  trained : Bool := false
  failLanes : List Nat := []
  /-- Degraded before the hold under way; corrected symbols of the last second: lane and time (R212). -/
  deg : Bool := false
  ceWin : List (Nat × Nat) := []
  deriving DecidableEq, Repr

/-- The spare lanes of a channel (R213, R230); failed lanes left in service. -/
structure Lane where
  spare0 : Nat := 0x7F
  spare1 : Nat := 0x7F
  failed : Nat := 0
  left : List Nat := []
  deriving DecidableEq, Repr

/-- An LPDDR5X controller (R234); packages held after a trip (R505). -/
structure Lp where
  up : Nat := 0
  hot : Nat := 0
  ce : Nat := 0
  ue : Nat := 0
  held : Nat := 0
  temps : List Nat := [0, 0, 0, 0, 0, 0]
  /-- Corrected granules of the last second: package 0-5 and time (R239). -/
  ceWin : List (Nat × Nat) := []
  deriving DecidableEq, Repr

/-- A tier-3 device (R238). -/
structure Cxl where
  present : Bool := false
  linkUp : Bool := false
  width : Nat := 0
  speed : Nat := 0
  flit256 : Bool := false
  mapped : Nat := 0
  unmapped : Nat := 0
  poison : Nat := 0
  deriving DecidableEq, Repr

/-- A stack engine (R260). -/
structure Se where
  busy : Bool := false
  update : Bool := false
  overflow : Bool := false
  bufBytes : Nat := 0
  gathered : Nat := 0
  rowsK : Nat := 0
  rows : Nat := 0
  nanBags : Nat := 0
  excTerms : Nat := 0
  /-- Bags in error and flagged terms of the step in flight. -/
  nanRun : Nat := 0
  excRun : Nat := 0
  undoBytes : Nat := 0
  undoSteps : Nat := 0
  deriving DecidableEq, Repr

/-! ## Links and topology (13) -/

/-- A frame kept in the replay buffer (R330): sequence, virtual channel, first and last flags, message key, resends. -/
structure Frm where
  seq : Nat := 0
  vc : Nat := 0
  first : Bool := false
  last : Bool := false
  epoch : Nat := 0
  src : Nat := 0
  dst : Nat := 0
  cls : Nat := 0
  mseq : Nat := 0
  part : Nat := 0
  data : Bytes := []
  resends : Nat := 0
  /-- Detour bits of its control (R327): stage, dimension, direction, orthogonal dimension, direction. -/
  det : Nat := 0
  deriving DecidableEq, Repr

/-- A virtual channel of a link (R356). -/
structure Vc where
  credits : Nat := 0
  queued : Nat := 0
  deriving DecidableEq, Repr

/-- A link engine (R356) and its hop state (R325-R336). -/
structure Lk where
  state : Nat := 0
  port : Nat := 0xF
  sig : Bool := false
  lock : Bool := false
  trains : Nat := 0
  peerNode : Nat := 0xFFFF
  peerLink : Nat := 0xFF
  peerPort : Nat := 0xF
  peerKind : Nat := 0
  serial : Nat := 0
  ppmTenths : Int := 0
  ppmOver : Bool := false
  resent : Nat := 0
  naks : Nat := 0
  corr : Nat := 0
  uncorr : Nat := 0
  frames : Nat := 0
  vc : Tab Vc := []
  /-- Next sequence to send, last good sequence received, a bad frame awaits its resend (R330). -/
  txSeq : Nat := 0
  rxSeq : Nat := 0xFFF
  rxBad : Bool := false
  badRun : List Nat := [0, 0, 0, 0]
  replay : List Frm := []
  /-- Frames waiting for a credit or for room in the replay buffer; bytes of the message arriving on each channel. -/
  txq : List Frm := []
  rx : List (Nat × Bytes) := []
  /-- The channel each level sent last, and the slots each level has waited (R328); a frame the foul injector holds back for the
  next to pass (R354). -/
  lastVc : Tab Nat := []
  waited : Tab Nat := []
  swap : Option Frm := none
  fails : Nat := 0
  downs : List Nat := []
  retryWin : Nat := 0
  winBase : Nat := 0
  /-- Peer met before, whose return needs no new discovery (R334); peer's hop count (R352). -/
  accepted : Bool := false
  /-- The held link has been judged (R342), and how: 0 up, 1 substitute, 2 extra, 3 wrong peer, 4 a bench link. -/
  judged : Bool := false
  verdict : Nat := 0
  peerHops : Nat := 255
  peerDigest : Nat := 0
  peerRole : Nat := 0
  lastValid : Nat := 0
  deriving DecidableEq, Repr

/-- A logical port (R357). -/
structure Port where
  links : Nat := 0
  role : Nat := 0
  pstate : Nat := 0
  up : Nat := 0
  via : Nat := 0
  dvalid : Bool := false
  host : Bool := false
  peer : Nat := 0xFFFF
  deriving DecidableEq, Repr

/-- A place of a job plan (R338). -/
structure PlaceEnt where
  node : Nat := 0
  x : Nat := 0
  y : Nat := 0
  z : Nat := 0
  partner : Nat := 0xFFFF
  subst : Nat := 0xFFFF
  deriving DecidableEq, Repr

/-- A port entry of a plan (R338). -/
structure PortEnt where
  port : Nat := 0
  role : Nat := 0
  mask : Nat := 0
  peer : Nat := 0xFFFF
  deriving DecidableEq, Repr

/-- A plan image (R338). -/
structure Plan where
  kind : Nat := 0
  shape : Nat := 0
  node : Nat := 0
  master : Nat := 0xFFFF
  ex : Nat := 0
  ey : Nat := 0
  ez : Nat := 0
  wrap : Nat := 0
  upPorts : Nat := 0
  ports : List PortEnt := []
  places : List PlaceEnt := []
  img : Bytes := []
  deriving DecidableEq, Repr

/-- TOPO (R357) and what discovery keeps. -/
structure Topo where
  node : Nat := 0xFFFF
  plan : Option Plan := none
  jobPlan : Option Plan := none
  upLink : Nat := 0x1F
  hops : Nat := 255
  offsetNs : Int := 0
  adj : Int := 0
  lost : List Nat := []
  undeliv : Nat := 0
  ports : Tab Port := []
  /-- Accepted substitutes: node and the node it replaces (R347). -/
  subs : List (Nat × Nat) := []
  t1 : Nat := 0
  deriving DecidableEq, Repr

/-- A message (R331): header fields, class-specific bytes 24-63 and data. -/
structure Msg where
  src : Nat := 0
  dst : Nat := 0
  job : Nat := 0xFF
  cls : Nat := 0
  seq : Nat := 0
  step : Nat := 0
  spec : Bytes := []
  data : Bytes := []
  /-- Unanswered resends (R332). -/
  resends : Nat := 0
  deriving DecidableEq, Repr

/-- Messages (R331, R332). -/
structure Msgs where
  /-- Sent and not acknowledged. -/
  kept : List Msg := []
  /-- Next sequence per (destination, class). -/
  seqs : List (Nat × Nat × Nat) := []
  /-- Complete messages received, (source, class, sequence): the newest 4,096; those not yet acknowledged. -/
  seen : List (Nat × Nat × Nat) := []
  unacked : List (Nat × Nat × Nat) := []
  /-- Job messages held because their epoch tag differs (R179): tag and message. -/
  held : List (Nat × Msg) := []
  deriving DecidableEq, Repr

/-- The foul injector (R358). -/
structure Foul where
  armed : Nat := 0
  action : Nat := 0
  rate : Nat := 0
  ms : Nat := 0
  hits : Nat := 0
  deriving DecidableEq, Repr

/-! ## Collectives and barriers (14) -/

/-- An entry into a barrier (R377, R379): the member it came from, step or cut, apply outcome, failed flag, called-good
step, members counted, last member. -/
structure Ent where
  src : Nat := 0xFFFF
  step : Nat := 0
  applied : Bool := true
  failed : Bool := false
  good : Nat := 0
  count : Nat := 1
  node : Nat := 0xFFFF
  deriving DecidableEq, Repr

/-- A step barrier of a job as this module sees it (R377): its own entry, the entries of the members it combines, and
the combined value that flowed back. -/
structure Bar where
  job : Nat := 0
  own : Option Ent := none
  kids : List Ent := []
  sentUp : Bool := false
  exit : Option Ent := none
  entryNs : Nat := 0
  deriving DecidableEq, Repr

/-- A huddle of a job (R378, R431, R432): reasons and boundaries requested, the cut, entries, the recovery step. -/
structure Hud where
  job : Nat := 0
  reason : Nat := 6
  reqs : List (Nat × Nat × Nat) := []
  cut : Option Nat := none
  entered : Bool := false
  kids : List Ent := []
  sentUp : Bool := false
  exited : Bool := false
  timedOut : Bool := false
  deriving DecidableEq, Repr

/-- A collective invocation (R361-R376): who runs it, its descriptor; the value each unit holds for its next pass
(unit, passes done, FP32 codes); data that came before it could be used (pass, unit, sender rank, codes); finished units as
element codes; decoded records of a compressed exchange (block, rank, values); segments and members heard. -/
structure Inv where
  job : Nat := 0
  stage : Nat := 0xFFFF
  mb : Nat := 0xFFFF
  serial : Nat := 0
  op : Nat := 0
  desc : Bytes := []
  comp : Bool := false
  started : Bool := false
  vals : List (Nat × Nat × List Nat) := []
  held : List (Nat × Nat × Nat × List Nat) := []
  done : List (Nat × List Nat) := []
  recs : List (Nat × Nat × List Nat) := []
  segs : List (Nat × Bytes) := []
  heard : List Nat := []
  /-- Poisoned units of 64 elements, by number (R367, R480). -/
  bad : List Nat := []
  deriving DecidableEq, Repr

/-- The Reel engine (R385). -/
structure Reel where
  bytes : Nat := 0
  waitUs : Nat := 0
  last : Nat := 0xFFFF
  blocks : Nat := 0
  phases : Nat := 0
  bars : List Bar := []
  huds : List Hud := []
  invs : List Inv := []
  deriving DecidableEq, Repr

/-! ## Umpire, checkpoint, mirror (15, 16) -/

/-- A drill set (R403). -/
structure Drill where
  num : Nat := 0
  img : Bytes := []
  deriving DecidableEq, Repr

/-- The Umpire (R416): `caps` holds the capture records of slots 0-7, `cand` the next rotation candidate of each die,
`rotOut` the cell each die has rotated out, `slotSteps` steps since the last rotation. -/
structure Ump where
  noBench : Bool := false
  load : Nat := 0
  samples : Nat := 0
  disagree : Nat := 0
  detect : Nat := 0
  newest : Nat := 0
  caps : Tab Bytes := []
  capDue : List (Nat × Samp) := []
  cand : Tab Nat := []
  rotOut : Tab Nat := []
  slotSteps : Nat := 0
  /-- Journal depth in force (R407). -/
  depth : Nat := 4
  rrChecker : Nat := 0
  drills : List Drill := []
  deriving DecidableEq, Repr

/-- A section of a shard (R441): tensor, kind, format, device key of its first byte, bytes, offset in the stream; for a residual
section its content at the cut. -/
structure Sect where
  tensor : Nat := 0
  kind : Nat := 1
  fmt : Nat := 0
  key : Nat := 0
  bytes : Nat := 0
  off : Nat := 4096
  data : Bytes := []
  deriving DecidableEq, Repr

/-- The checkpoint engine (R441-R454). -/
structure Ck where
  state : Nat := 0
  chunks : Nat := 0
  cut : Nat := 0
  gen : Nat := 0
  anchored : Nat := 0
  stageMib : Nat := 0
  stallMax : Nat := 0
  job : Nat := 0xFF
  desc : Bytes := []
  /-- Copy-before-write is armed (R446). -/
  armed : Bool := false
  header : Bytes := []
  /-- Sections of the shard at the cut; whether chunks are stored as frames; dedupe group size and rank (R447, R448). -/
  srcs : List Sect := []
  comp : Bool := false
  group : Nat := 1
  rank : Nat := 0
  /-- The write goes on after a reset or a fault: chunks whose record matches are skipped (R450). -/
  again : Bool := false
  /-- Chunks done, written here and skipped, their leaf digests, bytes stored. -/
  done : List Nat := []
  wrote : Nat := 0
  skipped : Nat := 0
  leaves : List (Nat × Bytes) := []
  stored : Nat := 0
  /-- Granules (64 KiB) of the sources already copied, staged copies by granule, and those of them that hold poison. -/
  copied : List Nat := []
  staged : List (Nat × Bytes) := []
  stagedBad : List Nat := []
  /-- Shard digests computed, by generation. -/
  digests : List (Nat × Bytes) := []
  /-- Corrected errors and when they were counted (R451). -/
  ceTimes : List (Nat × Nat) := []
  /-- Job and generation last abandoned because its cut was rolled back (R450, R475). -/
  lost : Option (Nat × Nat) := none
  deriving DecidableEq, Repr

/-- A block slot of a mirror (R423): table (65,536 × job + tensor ID), block, step of the last write, hot reservation, image. -/
structure Slot where
  tensor : Nat := 0
  block : Nat := 0
  step : Nat := 0
  hot : Bool := false
  image : Bytes := []
  deriving DecidableEq, Repr

/-- A delta held for a step not yet good (R424): step, kind (R428), tensor (65,536 × job + ID), offset or row, content. -/
structure Delta where
  step : Nat := 0
  kind : Nat := 0
  tensor : Nat := 0
  off : Nat := 0
  data : Bytes := []
  /-- A block image: the block lay in tier 1 (R423). -/
  hot : Bool := false
  deriving DecidableEq, Repr

/-- The partner mirror (R419-R438, R455). -/
structure Mr where
  /-- MR_CTL.bench. -/
  bench : Bool := false
  out : Nat := 0
  inn : Nat := 0
  anchored : Bool := false
  exposed : Bool := false
  outNode : Nat := 0xFFFF
  inNode : Nat := 0xFFFF
  acked : Nat := 0
  good : Nat := 0
  doneMib : Nat := 0
  totalMib : Nat := 0
  parked : Nat := 0
  /-- Role 0: blocks mirrored since the anchor, with their last step (R423), tables as 65,536 × job + tensor ID, and whether a
  cut exists. -/
  sent : List (Nat × Nat × Nat) := []
  cutKnown : Bool := false
  /-- Role 1: the held image: context parts by (job, kind, step), good dense content by (tensor, offset), slots, pending
  deltas; tensors as 65,536 × job + ID. -/
  ctx : List (Nat × Nat × Nat × Bytes) := []
  dense : List (Nat × Nat × Bytes) := []
  slots : List Slot := []
  pend : List Delta := []
  inSeeded : Bool := false
  inAnchored : Bool := false
  /-- Steps whose deltas found no room (R426): job and step. -/
  noRoom : List (Nat × Nat) := []
  /-- Whose mirror the held image is; the model's own note, kept over a warm reset (R461). -/
  owner : Nat := 0xFFFF
  /-- The role 1 reservations are held (R421, R461). -/
  resv : Bool := false
  /-- Bytes pulled so far; the model's own count behind MR_PULL.done_mib. -/
  doneB : Nat := 0
  /-- Pending log size in force (GiB), applied at a bind. -/
  pendGib : Nat := 16
  /-- Bench call: job, recovery step, blocks not yet resident, items pulled (section, tensor, first). -/
  callJob : Nat := 0xFF
  callStart : Nat := 0
  recovery : Nat := 0
  missing : List (Nat × Nat) := []
  pulled : List (Nat × Nat × Nat) := []
  /-- The hot state is in; blocks that lazy restore cannot make present (R437). -/
  hotIn : Bool := false
  gone : List (Nat × Nat) := []
  /-- Blocks whose cold slots the partner still holds (R436). -/
  cold : List (Nat × Nat) := []
  deriving DecidableEq, Repr

/-! ## What the module puts out -/

/-- Something the module has sent to the outside. -/
inductive Out where
  /-- An MSI-X write of a vector (R291). -/
  | msix (vector addr data : Nat)
  /-- A completion of a host read: status (0 successful, 1 Completer Abort, 2 Unsupported Request, 3 poisoned), data. -/
  | completion (status : Nat) (data : Bytes)
  /-- An ATS Translation Request, a Page Request, an Invalidation Completion (R298-R300): job, host address. -/
  | ats (kind job host : Nat)
  /-- A Terler message (R331). -/
  | msg (m : Msg)
  /-- A frame on a link, or a hop acknowledgement (kind 1) or refusal (kind 2) of a sequence (R330). -/
  | frame (link : Nat) (f : Frm)
  /-- A frame whose lane 0 codeword the foul injector has inverted beyond correction (R354). -/
  | fouled (link : Nat) (f : Frm)
  | hop (link kind seq : Nat)
  /-- A sideline record (R530): sequence, type, severity, the datagram with its header. -/
  | sideline (seq kind sev : Nat) (payload : Bytes)
  /-- An answer over MCTP (R524, R525). -/
  | mctp (data : Bytes)
  /-- A time-sync request or reply (R352): link, T1, T2, T3. -/
  | time (link t1 t2 t3 : Nat)
  deriving DecidableEq, Repr

/-! ## Crossings (02) -/

/-- A crossing between self-timed and clocked logic (R56-R60): the write and read pointers of its 32-entry queue (modulo 64),
the commands whose entries stand in it, oldest first, the event count of the sending side and the value the receiving side
last saw (16 bits), and the shadow copy of pointers and counts that both sides last acknowledged. -/
structure Xing where
  wr : Nat := 0
  rd : Nat := 0
  held : List Instr := []
  count : Nat := 0
  seen : Nat := 0
  shadow : List Nat := [0, 0, 0, 0]
  deriving DecidableEq, Repr

/-! ## The machine -/

/-- A command whose record or buffer meets a page that a Page Request has been sent for (R314): it waits. -/
structure Wait where
  cmd : Instr
  hdr : Hdr
  op : Nat := 0
  page : Nat := 0
  off : Nat := 0
  /-- The DVA whose page it waits for. -/
  dva : Nat := 0
  ready : Bool := false
  /-- Its order of acceptance. -/
  ord : Nat := 0
  deriving DecidableEq, Repr

/-- An access through an aperture (R302). -/
structure ApAcc where
  write : Bool
  job : Nat
  handle : Nat
  off : Nat
  len : Nat
  data : Bytes
  deriving DecidableEq, Repr

/-- All state of the units, memories and links. -/
structure World where
  /-- Draws made from the free values (log 8); the model's own field. -/
  free : Nat := 0
  /-- Key and time (+1) of what is done at most once per 60 s (R451, R502, R507, R514, R532). -/
  last60 : Tab Nat := []
  out : List Out := []
  flog : Flog := {}
  ev : Ev := {}
  msix : Tab Msix := []
  sl : Sl := {}
  queues : Tab Queue := []
  qarb : Qarb := {}
  inflight : List Run := []
  ordNext : Nat := 0
  waits : List Wait := []
  host : Memory := []
  hostAbsent : List Nat := []
  hostPoison : List Nat := []
  mmu : Mmu := {}
  dma : Tab Chan := []
  /-- Accepted DMA_COPY commands with no channel yet, oldest first, by order of acceptance; the job served last (R305). -/
  dmaWait : List (Nat × Chan) := []
  dmaLast : Nat := 63
  jobs : Tab Job := []
  holder : Option Nat := none
  dev : Memory := []
  /-- Poisoned units of device memory (R480): key of the first byte, bytes. -/
  poison : List (Nat × Nat) := []
  stale : List Gran := []
  /-- Stored code words with symbols in error (R495): key of the first byte, bytes, (symbol, error byte). -/
  inject : List (Nat × Nat × List (Nat × Nat)) := []
  /-- Aperture accesses that wait for a block on a bench module (R302): write, handle's job, handle, offset, length, data. -/
  apWait : List ApAcc := []
  cells : Tab Cell := []
  dieSense : Tab DieSense := []
  /-- Mesh paths the Caller avoids: source and sink cell of a stream whose resend failed (R132). -/
  badPaths : List (Nat × Nat) := []
  /-- Lines in the memory-side cache of each pseudo-channel's slice, most recently used first (R214-R216). -/
  cache : Tab (List Line) := []
  stk : Tab Stk := []
  pcs : Tab Pc := []
  lanes : Tab Lane := []
  reloc : List (Nat × Nat × Nat × Nat) := []
  lp : Tab Lp := []
  cxl : Tab Cxl := []
  /-- Corrected words of hub memories in the last second: memory and time (0x1905). -/
  hubCe : List (Nat × Nat) := []
  se : Tab Se := []
  lk : Tab Lk := []
  topo : Topo := {}
  msgs : Msgs := {}
  foul : Foul := {}
  reel : Reel := {}
  ump : Ump := {}
  ck : Ck := {}
  mr : Mr := {}
  ret : Ret := {}
  err : Err := {}
  /-- Units traced into a buffer (DIAG_TRACE, R279): unit, address, length. -/
  traces : List (Nat × Nat × Nat) := []
  /-- Crossings (R56): 0-11 stacks, 12-15 LPDDR5X controllers, 16-39 links, 40 host port, 41 CXL port, 42 sideline, 43
  timekeeper; self-timed work that stands still behind a stopped crossing (R34, R58). -/
  xings : Tab Xing := []
  stalled : List Instr := []
  deriving DecidableEq, Repr

/-- Nothing in the spec stops the module (INVENTORY.md, Faults): no fault exists. -/
inductive Fault where
  deriving DecidableEq, Repr

/-- Why the model refuses a command. -/
inductive Refusal where
  /-- Raised by an arm of exec whose command has no meaning yet; safe. -/
  | notModelled (mnemonic : String)
  deriving DecidableEq, Repr

/-- The state of the block: the commands waiting, the settings, the control state, the rest. -/
structure State where
  pending : List Instr := []
  cfg : Cfg := {}
  ctl : Ctl := {}
  w : World := {}
  deriving DecidableEq, Repr

/-- The module right after reset: every field at its default. -/
def State.reset : State := {}

end Sys2Proof.Machine
end

