-- ==== Sys2Proof/Machine/SetImage.lean ====
section
/-! DEFINITION. Reading a set image (R117, R121, R124, R126, R133) and the checks of R119 that need the image alone:
checks 2, 4 and 7. Every check is a list of (byte offset in the image, passed), so that the first offending field of
R278 is the lowest failing offset. -/

namespace Sys2Proof.Machine

open Sys2Proof

/-- A stage record of 64 B (R121). -/
def parseStage (b : Bytes) : Stage :=
  { idx := fld b 0 2, typ := fld b 2 1, flags := fld b 3 1, fig := fld b 4 2, layer := fld b 6 2, chk := fld b 8 2,
    tied := fld b 10 2, pin := fld b 12 4, par := (b.drop 16).take 48 }

/-- A stream record of 32 B (R126). -/
def parseStrm (b : Bytes) : Strm :=
  { idx := fld b 0 2, src := fld b 2 2, srcPort := fld b 4 1, dstPort := fld b 5 1, dst := fld b 6 2, tensor := fld b 8 2,
    fmt := fld b 10 1, flags := fld b 11 1, rows := fld b 12 4, len := fld b 16 4, depth := fld b 20 2 }

/-- A tensor record of 16 B (R124). -/
def parseTens (b : Bytes) : Tens :=
  { id := fld b 0 2, role := fld b 2 1, fmt := fld b 3 1, handle := fld b 4 4, count := fld b 8 8 }

/-- A figure record (R133). -/
def parseFig (b : Bytes) : Fig :=
  { idx := fld b 0 2, kind := fld b 2 1, len := fld b 4 2, nops := fld b 6 2, acc := fld b 8 4, aFmt := fld b 12 1,
    bFmt := fld b 13 1, oFmt := fld b 14 1, nconst := fld b 15 1, body := (b.drop 32).take (fld b 4 2 - 32) }

/-- A record length that R133 allows. -/
def figLenOk (n : Nat) : Bool := decide (64 ≤ n) && decide (n ≤ 8192) && n % 8 == 0

/-- The figure area: each record with its offset; a record of a length R133 forbids ends the walk. -/
def figWalk : Nat → Nat → Bytes → List (Nat × Fig)
  | 0, _, _ => []
  | n + 1, off, b =>
    let f := parseFig b
    if figLenOk f.len then (off, f) :: figWalk n (off + f.len) (b.drop f.len) else [(off, f)]

/-- The records of `n` slots of `w` bytes at offset `off`. -/
def slots (img : Bytes) (off w n : Nat) : List Bytes := (List.range n).map (fun i => (img.drop (off + w * i)).take w)

/-- The set an image holds; meaningful once the header checks of R117 pass. -/
def parseSet (img : Bytes) : SetImg :=
  { img := img, digest := fld img 64 32, setId := fld img 12 4, mb := fld img 48 2, maxVirtual := fld img 50 1,
    train := bit (fld img 51 1) 0, stepConst := fld img 52 2, migBudget := fld img 54 2, chkOff := fld img 40 4,
    planOff := fld img 44 4,
    stages := (slots img (fld img 24 4) 64 (fld img 16 2)).map parseStage,
    streams := (slots img (fld img 28 4) 32 (fld img 18 2)).map parseStrm,
    tensors := (slots img (fld img 32 4) 16 (fld img 20 2)).map parseTens,
    figs := (figWalk (fld img 22 2) (fld img 36 4) (img.drop (fld img 36 4))).map (fun e => e.2) }

/-- A field of the type-specific bytes of a stage, at its offset from the record's start. -/
def Stage.par? (s : Stage) (off n : Nat) : Nat := fld s.par (off - 16) n

/-- Stage types of R122. -/
def isProduct (s : Stage) : Bool := s.typ == 0x01
def isVector (s : Stage) : Bool := s.typ == 0x10
def isLookup (s : Stage) : Bool := s.typ == 0x20
def isScatter (s : Stage) : Bool := s.typ == 0x21
def isExchange (s : Stage) : Bool := s.typ == 0x30
def isUpdate (s : Stage) : Bool := s.typ == 0x40

/-- Flags of R123. -/
def Stage.grad (s : Stage) : Bool := bit s.flags 0
def Stage.frozen (s : Stage) : Bool := bit s.flags 1
def Stage.pinned (s : Stage) : Bool := bit s.flags 2

/-- A pinned stage's plane rows and columns (R121). -/
def pinRect (s : Stage) : Nat × Nat × Nat × Nat := (8 * bits s.pin 1 0 + bits s.pin 4 2, bits s.pin 7 5 + 1, bits s.pin 11 8, bits s.pin 15 12 + 1)

/-- PRODUCT parameters (R122). -/
def Stage.m (s : Stage) : Nat := s.par? 16 4
def Stage.n (s : Stage) : Nat := s.par? 20 4
def Stage.k (s : Stage) : Nat := s.par? 24 4
def Stage.g (s : Stage) : Nat := s.par? 28 4
def Stage.weight (s : Stage) : Nat := s.par? 32 2

/-- VECTOR parameters (R122). -/
def Stage.rowsMb (s : Stage) : Nat := s.par? 16 4
def Stage.rowLen (s : Stage) : Nat := s.par? 20 4
def Stage.aux (s : Stage) : List Nat := [s.par? 24 2, s.par? 26 2, s.par? 28 2, s.par? 30 2]

/-- LOOKUP and SCATTER parameters (R122): table, bags, pooled length, descriptor offset. -/
def Stage.table (s : Stage) : Nat := s.par? 16 2
def Stage.bags (s : Stage) : Nat := s.par? 20 4
def Stage.pooled (s : Stage) : Nat := s.par? 24 4
def Stage.desc (s : Stage) : Nat := if isLookup s then s.par? 28 4 else if isScatter s then s.par? 20 4 else s.par? 16 4

/-- UPDATE parameters (R122). -/
def Stage.upParam (s : Stage) : Nat := s.par? 16 2
def Stage.upGrad (s : Stage) : Nat := s.par? 18 2
def Stage.upStates (s : Stage) : List Nat := [s.par? 20 2, s.par? 22 2]
def Stage.upCount (s : Stage) : Nat := s.par? 24 8

/-- Product figure body (R134). -/
def Fig.aPort (f : Fig) : Nat := fld f.body 0 1
def Fig.bSrc (f : Fig) : Nat := fld f.body 1 1
def Fig.bPort (f : Fig) : Nat := fld f.body 2 1
def Fig.outPort (f : Fig) : Nat := fld f.body 3 1
def Fig.rb (f : Fig) : Nat := fld f.body 4 1
def Fig.tr (f : Fig) : Nat := fld f.body 5 1

/-- Endpoint figure body (R565). -/
def Fig.port (f : Fig) : Nat := fld f.body 0 1
def Fig.dir (f : Fig) : Nat := fld f.body 1 1

/-- An op word of a vector figure (R137). -/
structure VOp where
  op : Nat
  dst : Nat
  a : Nat
  b : Nat
  c : Nat
  sr : Bool
  sat : Bool
  port : Nat
  deriving DecidableEq, Repr

def parseOp (w : Nat) : VOp :=
  ⟨bits w 7 0, bits w 13 8, bits w 19 14, bits w 25 20, bits w 31 26, bit w 32, bit w 33, bits w 35 34⟩

/-- Constants c0... of a vector figure, and its op words (R137). -/
def Fig.consts (f : Fig) : List Nat := (List.range f.nconst).map (fun i => fld f.body (4 * i) 4)
def Fig.ops (f : Fig) : List VOp := (List.range f.nops).map (fun i => parseOp (fld f.body (4 * f.nconst + 8 * i) 8))

/-- Source and destination of the collective descriptor of an EXCHANGE. -/
def exchEnds (t : SetImg) (s : Stage) : Nat × Nat := (fld t.img (s.desc + 4) 4, fld t.img (s.desc + 8) 4)

/-- Find a stage, a figure, a tensor record. -/
def SetImg.stage? (t : SetImg) (i : Nat) : Option Stage := t.stages[i]?
def SetImg.fig? (t : SetImg) (s : Stage) : Option Fig := t.figs[s.fig]?
def SetImg.tens? (t : SetImg) (id : Nat) : Option Tens := t.tensors.find? (fun r => r.id == id)
def SetImg.role? (t : SetImg) (id : Nat) : Nat := match t.tens? id with | some r => r.role | none => 0xFF

/-- Stream flags (R126). -/
def Strm.hint (r : Strm) : Nat := bits r.flags 1 0
def Strm.retain (r : Strm) : Bool := bit r.flags 2

/-- The stage a stream end names: the forward stage, or the return stage of R144 (index + 0x8000). -/
def endOk (t : SetImg) (e : Nat) : Bool :=
  if e < 0x8000 then e < t.stages.length
  else match t.stage? (e - 0x8000) with
    | some s => isProduct s && s.grad
    | none => false

/-- Streams into, and out of, a stage end. -/
def SetImg.ins (t : SetImg) (e : Nat) : List Strm := t.streams.filter (fun r => r.dst == e)
def SetImg.outs (t : SetImg) (e : Nat) : List Strm := t.streams.filter (fun r => r.src == e)
def SetImg.in? (t : SetImg) (e port : Nat) : Option Strm := t.streams.find? (fun r => r.dst == e && r.dstPort == port)
def SetImg.out? (t : SetImg) (e port : Nat) : Option Strm := t.streams.find? (fun r => r.src == e && r.srcPort == port)

/-! ### Check 2: the header (R117) -/

/-- Two byte ranges are disjoint. -/
def apart (a b : Nat × Nat) : Bool := decide (a.1 + a.2 ≤ b.1) || decide (b.1 + b.2 ≤ a.1)

/-- The tables of a set: (header field, (offset, length)); `cl` and `pl` are the lengths of check table and plan. -/
def setTables (img : Bytes) (cl pl : Nat) : List (Nat × Nat × Nat) :=
  let figs := figWalk (fld img 22 2) (fld img 36 4) (img.drop (fld img 36 4))
  [(0, 0, 128), (24, fld img 24 4, 64 * fld img 16 2), (28, fld img 28 4, 32 * fld img 18 2),
   (32, fld img 32 4, 16 * fld img 20 2), (36, fld img 36 4, sumNat (figs.map (fun e => e.2.len)))] ++
  (if fld img 40 4 = 0 then [] else [(40, fld img 40 4, cl)]) ++
  (if fld img 44 4 = 0 then [] else [(44, fld img 44 4, pl)])

/-- Check 2 of R119. -/
def headerChecks (img : Bytes) (cl pl : Nat) : List (Nat × Bool) :=
  let ln := fld img 8 4
  let ts := setTables img cl pl
  [(0, fld img 0 4 == 0x47544553), (4, fld img 4 2 == 1), (6, fld img 6 2 == 128),
   (8, ln % 64 == 0 && decide (ln ≤ 16777216) && decide (128 ≤ ln)),
   (16, decide (1 ≤ fld img 16 2) && decide (fld img 16 2 ≤ 1024)),
   (18, decide (1 ≤ fld img 18 2) && decide (fld img 18 2 ≤ 4096)),
   (20, decide (1 ≤ fld img 20 2) && decide (fld img 20 2 ≤ 4096)),
   (22, decide (1 ≤ fld img 22 2) && decide (fld img 22 2 ≤ 1024)),
   (48, decide (1 ≤ fld img 48 2) && decide (fld img 48 2 ≤ 4096)),
   (50, decide (fld img 50 1 ≤ 8)), (54, decide (fld img 54 2 ≤ 200))] ++
  (ts.filter (fun t => t.1 != 0)).map (fun t =>
    (t.1, t.2.1 % 64 == 0 && decide (t.2.1 < ln) && decide (t.2.1 + t.2.2 ≤ ln) &&
      ts.all (fun u => u.1 == t.1 || apart (t.2.1, t.2.2) (u.2.1, u.2.2))))

/-! ### Check 4: the records -/

/-- The digest with its own field as zero (R117, R118). -/
def digestInput (img : Bytes) : Bytes := img.take 64 ++ zeros 32 ++ img.drop 96

/-- Kind of figure a stage type takes (R122). -/
def figKind (s : Stage) : Nat := if isProduct s then 1 else if isVector s || isUpdate s then 2 else 3

/-- Which input ports a vector figure reads, and which output ports it writes (R137, R138). -/
def opSources (o : VOp) : List Nat :=
  if o.op == 0x31 then []
  else if [0x01, 0x02, 0x03, 0x05, 0x06, 0x07].contains o.op then [o.a, o.b]
  else if o.op == 0x04 || o.op == 0x08 || o.op == 0x0D then [o.a, o.b, o.c]
  else [o.a]

def figReads (f : Fig) : List Nat :=
  ((f.ops.flatMap opSources).filter (fun x => decide (16 ≤ x) && decide (x ≤ 19))).map (fun x => x - 16)
def figWrites (f : Fig) : List Nat := (f.ops.filter (fun o => o.op == 0x30)).map (fun o => o.port)

/-- Op codes of R138. -/
def opKnown (op : Nat) : Bool :=
  [0x01, 0x02, 0x03, 0x04, 0x05, 0x06, 0x07, 0x08, 0x09, 0x0A, 0x0C, 0x0D, 0x10, 0x11, 0x12, 0x13, 0x14, 0x20, 0x21, 0x22,
   0x30, 0x31, 0x33].contains op

/-- A selector that is one value per element, and one that is a row scalar (R137). -/
def perElem (x : Nat) : Bool := decide (x < 24)
/-- An operand selector that is a row scalar: an OUT of it writes one element per row, where an OUT of a constant writes the constant across the row (R137, R138). -/
def rowScal (x : Nat) : Bool := decide (24 ≤ x) && decide (x ≤ 31)

/-- The destination rule of R137. DESIGN CHOICE (log 173): EQIDX (op 0x0C), which reads row scalars only and answers per element (R138), writes a
temporary, and a row scalar there is refused. -/
def dstOk (o : VOp) : Bool :=
  if o.op == 0x30 || o.op == 0x31 then true
  else if o.op == 0x33 then decide (16 ≤ o.dst) && decide (o.dst ≤ 19)
  else if o.op == 0x20 || o.op == 0x21 || o.op == 0x22 then rowScal o.dst
  else if o.op == 0x0C then decide (o.dst < 16)
  else if (opSources o).any perElem then decide (o.dst < 16)
  else rowScal o.dst

/-- A format that weights alone take (R71). -/
def weightOnly (f : Nat) : Bool := f == 0x18 || f == 0x19 || f == 0x1A

/-- Checks of one figure record at offset `off` (R71, R133, R134, R137, R565), `crc` its computed CRC-32. The bodies of product and
endpoint figures are 32 B. -/
def figChecks (t : SetImg) (k off : Nat) (f : Fig) (crc : Nat) (fmtOk : Nat → Bool) : List (Nat × Bool) :=
  let v := f.kind == 2
  [(off, f.idx == k), (off + 2, f.kind == 1 || f.kind == 2 || f.kind == 3), (off + 3, fld t.img (off + 3) 1 == 1),
   (off + 4, figLenOk f.len && (if v then decide (32 + 4 * f.nconst + 8 * f.nops ≤ f.len) else f.len == 64)),
   (off + 6, if v then decide (1 ≤ f.nops) && decide (f.nops ≤ 256) else f.nops == 0),
   (off + 8, f.kind == 1 || f.acc == 0), (off + 12, fmtOk f.aFmt && !weightOnly f.aFmt || (f.kind == 3 && f.aFmt == 0)),
   (off + 13, if f.kind == 1 then fmtOk f.bFmt && (f.bSrc == 0 || !weightOnly f.bFmt) else f.bFmt == 0),
   (off + 14, if f.kind == 1 then f.oFmt == 0 else fmtOk f.oFmt && !weightOnly f.oFmt),
   (off + 15, if v then decide (f.nconst ≤ 24) else f.nconst == 0),
   (off + 16, fld t.img (off + 16) 4 == crc)] ++
  (if f.kind == 1 then
    [(off + 32, decide (f.aPort ≤ 3)), (off + 33, decide (f.bSrc ≤ 1)), (off + 34, f.bSrc == 0 || decide (f.bPort ≤ 3)),
     (off + 35, decide (f.outPort ≤ 3)), (off + 36, decide (8 ≤ f.rb) && decide (f.rb ≤ 64) && f.rb % 8 == 0)]
   else if f.kind == 3 then [(off + 32, f.dir == 3 || decide (f.port ≤ 3)), (off + 33, decide (f.dir ≤ 3))]
   else
    (List.range f.nops).map (fun i =>
      let o := parseOp (fld f.body (4 * f.nconst + 8 * i) 8)
      (off + 32 + 4 * f.nconst + 8 * i,
        opKnown o.op && dstOk o &&
        (opSources o).all (fun x => !(decide (32 ≤ x) && decide (x ≤ 55)) || decide (x < 32 + f.nconst)) &&
        (t.stepConst != 0 || (opSources o).all (fun x => decide (x < 56))) &&
        (if o.op == 0x0C then rowScal o.a else true) &&
        (o.op != 0x30 || ((f.ops.take i).filter (fun q => q.op == 0x30 && q.port == o.port)).isEmpty))))

/-- Tensor IDs a stage record names (R122, R124). -/
def stageTensors (s : Stage) : List (Nat × Nat) :=
  (if isProduct s then [(32, s.weight)] else if isVector s then [(24, s.par? 24 2), (26, s.par? 26 2), (28, s.par? 28 2), (30, s.par? 30 2)]
   else if isLookup s || isScatter s then [(16, s.table)]
   else if isUpdate s then [(16, s.upParam), (18, s.upGrad), (20, s.par? 20 2), (22, s.par? 22 2)] else [])

/-- The role a tensor named at a field of a stage has to have (R122, R124, R140). -/
def roleOk (s : Stage) (off role : Nat) : Bool :=
  if isProduct s then role == 1 || role == 2
  else if isVector s then role == 2 || role == 1
  else if isLookup s || isScatter s then role == 5
  else if off == 16 then role == 1 else role == 6

/-- A tensor field of a stage that may be 0 (R122, R124). -/
def mayBeNone (s : Stage) (off : Nat) : Bool := isProduct s || isVector s || (isUpdate s && decide (20 ≤ off))

/-- Direction of an endpoint figure (R565); `cd` gives (source, destination) of a collective descriptor. -/
def endpointDir (s : Stage) (cd : Nat × Nat) : Nat :=
  if isLookup s then 1 else if isScatter s then 0
  else if cd.1 == 0 && cd.2 != 0 then 0 else if cd.1 != 0 && cd.2 == 0 then 1 else if cd.1 == 0 then 2 else 3

/-- Input ports a stage's figure reads, and output ports it writes. -/
def stageIns (s : Stage) (f : Fig) : List Nat :=
  if isProduct s then f.aPort :: (if f.bSrc == 1 then [f.bPort] else [])
  else if isVector s then figReads f
  else if f.kind == 3 && (f.dir == 0 || f.dir == 2) then [f.port] else []
def stageOuts (s : Stage) (f : Fig) : List Nat :=
  if isProduct s then [f.outPort] else if isVector s then figWrites f
  else if f.kind == 3 && (f.dir == 1 || f.dir == 2) then [f.port] else []

/-- Checks of stage record `i` on its own fields (R121-R123); `nchk` check records, `descOk` judges its descriptor. -/
def stageChecks (t : SetImg) (so i : Nat) (s : Stage) (nchk : Nat) (descOk : Bool) : List (Nat × Bool) :=
  let off := so + 64 * i
  let f := t.fig? s
  let pinOk := decide (bits s.pin 4 2 + bits s.pin 7 5 ≤ 7) && decide (bits s.pin 11 8 + bits s.pin 15 12 ≤ 15)
  [(off, s.idx == i), (off + 2, [0x01, 0x10, 0x20, 0x21, 0x30, 0x40].contains s.typ),
   (off + 3, (!s.grad || (isProduct s && s.weight != 0 && t.train)) && (!s.frozen || s.grad)),
   (off + 4, f.isSome),
   (off + 6, decide (s.layer ≤ 4095)), (off + 8, s.chk == 0xFFFF || decide (s.chk < nchk)), (off + 12, !s.pinned || pinOk)] ++
  (stageTensors s).map (fun e => (off + e.1, mayBeNone s e.1 && e.2 == 0 || (t.tens? e.2).isSome)) ++
  (if isProduct s then
    [(off + 28, decide (1 ≤ s.g) && decide (s.g ≤ 65536))]
   else if isVector s then [(off + 20, decide (1 ≤ s.rowLen) && decide (s.rowLen ≤ 16384))]
   else if isLookup s then [(off + 28, descOk)]
   else if isScatter s then [(off + 20, descOk && t.stepConst != 0)]
   else if isExchange s then [(off + 16, descOk)]
   else [])

/-- Checks of stage record `i` against the streams and tensors it meets: ports wired as its figure says, tensors in their roles
(R124, R140, R565). -/
def stageWiring (t : SetImg) (so i : Nat) (s : Stage) (cd : Nat × Nat) : List (Nat × Bool) :=
  let off := so + 64 * i
  (off + 4, match t.fig? s with
     | none => false
     | some f => f.kind == figKind s && (f.kind != 3 || f.dir == endpointDir s cd) &&
        (stageIns s f).all (fun p => (t.in? i p).isSome) &&
        ((t.ins i).all (fun r => (stageIns s f).contains r.dstPort)) &&
        ((t.outs i).all (fun r => (stageOuts s f).contains r.srcPort)) &&
        (!isProduct s || (f.bSrc == 1) == (s.weight == 0))) ::
  (stageTensors s).map (fun e => (off + e.1, mayBeNone s e.1 && e.2 == 0 ||
    (roleOk s e.1 (t.role? e.2) && (isProduct s || !((t.tens? e.2).any (fun r => weightOnly r.fmt))))))

/-- Elements a stage end takes or gives per micro-batch at a port, if the records fix it. -/
def portElems (t : SetImg) (e port : Nat) (isIn : Bool) : Option Nat :=
  if e < 0x8000 then
    match t.stage? e with
    | none => none
    | some s => match t.fig? s with
      | none => none
      | some f =>
        if isProduct s then
          if isIn then (if port == f.aPort then some (s.g * s.m * s.k) else some (s.g * s.k * s.n))
          else some ((if bit f.acc 3 then 2 else 1) * (s.g * s.m * s.n))
        else if isVector s then
          if isIn then some (s.rowsMb * s.rowLen)
          else if (f.ops.any (fun o => o.op == 0x30 && o.port == port && rowScal o.a)) then some s.rowsMb
          else some (s.rowsMb * s.rowLen)
        else if isLookup s then some (s.bags * s.pooled) else none
  else match t.stage? (e - 0x8000) with
    | none => none
    | some s =>
      if isIn then (if port == 0 then some (s.g * s.m * s.n) else some (s.g * s.m * s.k))
      else if port == 0 then some (s.g * s.m * s.k) else some (s.g * s.k * s.n)

/-- The block axis that the sink of a role 3 MX stream asks for (R77): 0 along the row, 1 across rows; none where it feeds no
product. A return stage takes X, the forward A operand (R145), along the axis the forward product reads it (DEDUCED, log 149). -/
def wantedAxis (t : SetImg) (r : Strm) : Option Nat :=
  if r.dst = 0xFFFF then none else
  match t.stage? (r.dst % 0x8000) with
  | none => none
  | some s => match t.fig? s with
    | none => none
    | some f =>
      if !isProduct s then none
      else if 0x8000 ≤ r.dst then (if r.dstPort = 1 then some (b2n (bit f.tr 0)) else none)
      else if r.dstPort = f.aPort then some (b2n (bit f.tr 0))
      else some (1 - b2n (bit f.tr 1))

/-- The format a stage end fixes at a port: A and B operands, vector input, output (R133, R134, R147). -/
def portFmt (t : SetImg) (e port : Nat) (isIn : Bool) : Option Nat :=
  if e < 0x8000 then
    match t.stage? e with
    | none => none
    | some s => match t.fig? s with
      | none => none
      | some f =>
        if isProduct s then
          if isIn then (if port == f.aPort then some f.aFmt else some f.bFmt)
          else if accCtlOk f.acc f.aFmt f.bFmt then some (bits f.acc 15 8) else none
        else if isIn then (if isVector s || f.aFmt == 0 then none else some f.aFmt) else some f.oFmt
  else none

/-- Checks of stream record `i` on its own fields (R126, R127). -/
def strmChecks (t : SetImg) (so i : Nat) (r : Strm) : List (Nat × Bool) :=
  let off := so + 32 * i
  [(off, r.idx == i), (off + 2, r.src == 0xFFFF || endOk t r.src),
   (off + 4, decide (r.srcPort ≤ 3) && (r.src == 0xFFFF ||
      decide (((t.streams.take i).filter (fun q => q.src == r.src && q.srcPort == r.srcPort)).length < 8))),
   (off + 5, decide (r.dstPort ≤ 3) && (r.dst == 0xFFFF ||
      ((t.streams.take i).filter (fun q => q.dst == r.dst && q.dstPort == r.dstPort)).isEmpty)),
   (off + 6, (r.dst == 0xFFFF || endOk t r.dst) && !(r.src == 0xFFFF && r.dst == 0xFFFF)),
   (off + 8, (t.tens? r.tensor).isSome), (off + 10, !weightOnly r.fmt), (off + 11, decide (r.hint ≤ 2)), (off + 20, r.depth == 0 || (decide (2 ≤ r.depth) && decide (r.depth ≤ 64)))]

/-- Checks of stream record `i` against its tensor and the stages at its ends (R131, R133, R134, R140, R144). -/
def strmWiring (t : SetImg) (so i : Nat) (r : Strm) : List (Nat × Bool) :=
  let off := so + 32 * i
  let role := t.role? r.tensor
  let sized (n : Option Nat) : Bool := match n with | some n => n == r.rows * r.len | none => true
  let fmtd (f : Option Nat) : Bool := match f with | some f => f == r.fmt | none => true
  [(off + 8, if r.dst == 0xFFFF then role == 4 || role == 6
      else if r.src == 0xFFFF then role == 0 || role == 1 || role == 2 || role == 6 || role == 7 else true),
   (off + 10, fmtd ((t.tens? r.tensor).map (fun q => q.fmt)) && fmtd (portFmt t r.src r.srcPort false) &&
      fmtd (portFmt t r.dst r.dstPort true)),
   (off + 12, sized (portElems t r.src r.srcPort false) && sized (portElems t r.dst r.dstPort true))]

/-- Checks of tensor record `i` (R124, R125). -/
def tensChecks (t : SetImg) (so i : Nat) (r : Tens) (fmtOk : Nat → Bool) : List (Nat × Bool) :=
  let off := so + 16 * i
  [(off, decide (1 ≤ r.id) && (t.tensors.take i).all (fun q => q.id != r.id)), (off + 2, decide (r.role ≤ 7)),
   (off + 3, fmtOk r.fmt && (!weightOnly r.fmt || r.role == 1 || r.role == 2)), (off + 4, (r.role == 3) == (r.handle == 0))]

/-- The ports of a return stage (R145), reported at the stage's flags. -/
def returnOk (t : SetImg) (s : Stage) : Bool :=
  let e := s.idx + 0x8000
  if !(isProduct s && s.grad) then true
  else
    (t.in? e 0).isSome && (t.ins e).all (fun r => decide (r.dstPort ≤ (if s.frozen then 0 else 1))) &&
    (s.frozen || (match t.in? e 1 with | some r => r.retain | none => false)) &&
    (t.outs e).all (fun r => decide (r.srcPort ≤ (if s.frozen then 0 else 1))) &&
    (s.frozen || (t.out? e 1).isSome) &&
    (t.outs e).all (fun r => r.srcPort != 1 || (r.dst == 0xFFFF && t.role? r.tensor == 6))

/-! ### Check 7 and the backward half (R150) -/

/-- One round of "reached by a stream from": the ends of `l` and the sinks of their streams. -/
def spread (t : SetImg) (l : List Nat) : List Nat :=
  t.streams.foldl (fun acc r => if acc.contains r.src && r.dst != 0xFFFF && !acc.contains r.dst then acc ++ [r.dst] else acc) l

def spreadN (t : SetImg) : Nat → List Nat → List Nat
  | 0, l => l
  | n + 1, l => let l' := spread t l; if l'.length == l.length then l else spreadN t n l'

/-- The backward half of a set: return stages, sinks of retained streams, and what streams reach from them (R150). -/
def backHalf (t : SetImg) : List Nat :=
  let seed := ((t.stages.filter (fun s => isProduct s && s.grad)).map (fun s => s.idx + 0x8000)) ++
    ((t.streams.filter (fun r => r.retain && r.dst != 0xFFFF)).map (fun r => r.dst))
  spreadN t (2 * t.stages.length + 2) seed.eraseDups

/-- Remove, round by round, the ends no remaining stream enters; what stays lies on a cycle. -/
def peel (t : SetImg) : Nat → List Nat → List Nat
  | 0, l => l
  | n + 1, l =>
    let l' := l.filter (fun e => t.streams.any (fun r => r.dst == e && l.contains r.src))
    if l'.length == l.length then l else peel t n l'

/-- All stage ends of a set: stages and return stages. -/
def allEnds (t : SetImg) : List Nat :=
  t.stages.map (fun s => s.idx) ++ (t.stages.filter (fun s => isProduct s && s.grad)).map (fun s => s.idx + 0x8000)

/-- Check 7 of R119: the stream graph has no cycle, and no stream runs from the backward into the forward half. -/
def graphChecks (t : SetImg) (so : Nat) : List (Nat × Bool) :=
  let back := backHalf t
  let cyc := peel t (2 * t.stages.length + 2) (allEnds t)
  t.streams.map (fun r => (so + 32 * r.idx,
    !(cyc.contains r.src && cyc.contains r.dst) &&
    !(back.contains r.src && r.dst != 0xFFFF && !back.contains r.dst)))

/-- The refusals of R150 that belong to check 4: a retained stream from the backward half, and a gradient of a backward product. -/
def halfChecks (t : SetImg) (stOff smOff : Nat) : List (Nat × Bool) :=
  let back := backHalf t
  (t.streams.map (fun r => (smOff + 32 * r.idx + 11, !(r.retain && back.contains r.src)))) ++
  (t.stages.map (fun s => (stOff + 64 * s.idx + 3, !(isProduct s && s.grad && back.contains s.idx) && returnOk t s)))

/-- The set names format 0x20 (R99). -/
def namesPair (t : SetImg) : Bool :=
  t.tensors.any (fun r => r.fmt == 0x20) || t.streams.any (fun r => r.fmt == 0x20) ||
    t.figs.any (fun f => f.aFmt == 0x20 || f.bFmt == 0x20 || f.oFmt == 0x20)

end Sys2Proof.Machine
end

