-- ==== Sys2Proof/Machine/Placement.lean ====
section
/-! DEFINITION. The Caller's arithmetic: chunks, positions, visit orders, work and predictions (R136, R141, R149, R164-R170, R188,
R189, R191, R194). -/

namespace Sys2Proof.Machine

open Sys2Proof

/-- Layers of the forward half: distinct layers of its PRODUCT and VECTOR stages, rising (R164). -/
def fwdLayers (t : SetImg) : List Nat :=
  let back := backHalf t
  sortNat (((t.stages.filter (fun s => (isProduct s || isVector s) && !back.contains s.idx)).map (fun s => s.layer)).eraseDups)

/-- Cut the layers into `n` chunks of equal numbers, the larger first (R164). -/
def cutChunks (l : List Nat) (n : Nat) : List (List Nat) :=
  let q := l.length / n
  let r := l.length % n
  (List.range n).map (fun c => (l.drop (c * q + min c r)).take (q + (if c < r then 1 else 0)))

/-- Rows of plane per position, or bands: (first row, rows, first column, columns) of position `i` (R189). -/
def positionRect (rf p i : Nat) : Nat × Nat × Nat × Nat :=
  if p ≤ rf then (i * (rf / p), rf / p, 0, 16)
  else
    let k := (p + rf - 1) / rf
    (i / k, 1, (i % k) * (16 / k), 16 / k)

/-- `p` positions fit `rf` full rows (R189). -/
def positionsFit (rf p : Nat) : Bool := decide (1 ≤ p) && decide (1 ≤ rf) && decide (p ≤ 16 * rf)

/-- The pairs (p, v) R164-R166 allow for a layer count, a micro-batch count, a cap and the full rows. -/
def pvOk (layers b cap rf p v : Nat) : Bool :=
  decide (1 ≤ v) && decide (v ≤ 8) && (cap == 0 || decide (v ≤ cap)) && positionsFit rf p &&
  (v == 1 || (b % p == 0 && decide (p * v ≤ layers))) && decide (p * v ≤ max layers 1)

/-- A visit: forward or return, micro-batch, chunk. -/
structure Visit where
  fwd : Bool
  mb : Nat
  chunk : Nat
  deriving DecidableEq, Repr

/-- The order of visits of position `i` (R167). -/
def visitOrder (b p v i : Nat) : List Visit :=
  let q := if v > 1 then p else b
  let groups := List.range (b / q)
  let f := groups.flatMap (fun g => (List.range v).flatMap (fun k => (List.range q).map (fun j => (⟨true, g * q + j, k * p + i⟩ : Visit))))
  let r := groups.flatMap (fun g => (List.range v).reverse.flatMap (fun k => (List.range q).map (fun j => (⟨false, g * q + j, k * p + i⟩ : Visit))))
  let w0 := if v == 1 then p - 1 - i else 2 * (p - 1 - i) + (v - 1) * p
  let w := min w0 f.length
  f.take w ++ (List.range (f.length - w)).flatMap (fun j =>
    (match f[w + j]? with | some x => [x] | none => []) ++ (match r[j]? with | some x => [x] | none => [])) ++ r.drop (f.length - w)

/-- The chunk of a stage of layer `ly`: the one that holds the largest forward layer not above it, else chunk 0 (R164). -/
def chunkOf (chunks : List (List Nat)) (ly : Nat) : Nat :=
  let best := (chunks.flatten.filter (fun x => decide (x ≤ ly))).foldl max 0
  match chunks.findIdx? (fun c => c.contains best) with | some i => i | none => 0

/-- An endpoint stage (R164): it belongs to the chunk of the stages it feeds or is fed by. -/
def isEndpoint (s : Stage) : Bool := isLookup s || isScatter s || isExchange s

/-- Stages next to a stage: at the other ends of its streams, and for an EXCHANGE of tensors those that write its source or
read its destination (R140). -/
def nextTo (t : SetImg) (s : Stage) : List Nat :=
  let e := s.idx
  let str := t.streams.filterMap (fun q =>
    if q.src == e && q.dst != 0xFFFF then some (q.dst % 0x8000) else if q.dst == e && q.src != 0xFFFF then some (q.src % 0x8000) else none)
  if isExchange s then
    let x := exchEnds t s
    str ++ (t.streams.filter (fun q => x.1 != 0 && q.dst == 0xFFFF && q.tensor == x.1)).map (fun q => q.src % 0x8000) ++
      (t.stages.filter (fun u => x.2 != 0 && isUpdate u && (u.upGrad :: u.upStates).contains x.2)).map (fun u => u.idx)
  else str

/-- The chunk of the nearest stage that is no endpoint, going outward from a list of stages. -/
def chunkVia (t : SetImg) (chunks : List (List Nat)) : Nat → List Nat → Nat
  | 0, _ => 0
  | n + 1, l =>
    let ss := l.filterMap t.stage?
    match ss.find? (fun x => !isEndpoint x) with
    | some x => chunkOf chunks x.layer
    | none => chunkVia t chunks n (l ++ ss.flatMap (nextTo t)).eraseDups

/-- Chunk of a stage end (R164). -/
def endChunk (t : SetImg) (chunks : List (List Nat)) (e : Nat) : Nat :=
  match t.stage? (e % 0x8000) with
  | none => 0
  | some st => if isEndpoint st then chunkVia t chunks (t.stages.length + 1) (nextTo t st) else chunkOf chunks st.layer

/-- Per-row cost of one vector op, (per 32 elements, per row) (R138). -/
def opCost (o : VOp) : Nat × Nat :=
  if o.op == 0x30 || o.op == 0x31 || o.op == 0x33 then (0, 0)
  else if o.op == 0x20 || o.op == 0x21 || o.op == 0x22 then (1, 0)
  else if (opSources o).any perElem || o.op == 0x0C then (if decide (0x10 ≤ o.op) && decide (o.op ≤ 0x14) then (4, 0) else (1, 0))
  else (0, 1)

/-- Costs of a vector figure (R138). -/
def figCost (f : Fig) : Nat × Nat :=
  f.ops.foldl (fun acc o => (acc.1 + (opCost o).1, acc.2 + (opCost o).2)) (0, 0)

/-- The division of `a` by `b`, rounded up. -/
def ceilDiv (a b : Nat) : Nat := (a + b - 1) / b

/-- Rows of the row blocks `first` to `first + n - 1` of `m` rows cut at `rb`, each counted as 8 at least (R135, R141). -/
def blockRows (m rb first n : Nat) : Nat := sumNat ((List.range n).map (fun i => max (min rb (m - (first + i) * rb)) 8))

/-- Readout stall of one row block over one N-tile (R136). -/
def stallPer (rb : Nat) (comp : Bool) : Nat :=
  if comp then (if 17 ≤ rb then 32 * ceilDiv rb 16 else 0) else if 49 ≤ rb then 16 * ceilDiv rb 16 else 0

/-- How a product runs on the lanes: K depth per cycle and width factor (R69), compensated or not. -/
structure LaneUse where
  kd : Nat := 16
  w : Nat := 1
  comp : Bool := false

/-- Work of a product of `g` products, `nt` N-tiles, depth `k` and the row blocks given, stalls included (R136, R141). -/
def prodWork (u : LaneUse) (rb g nt k m first nb : Nat) : Nat :=
  g * nt * (ceilDiv k u.kd * u.w) * blockRows m rb first nb + g * nt * nb * stallPer rb u.comp

/-- Work of a vector stage (R141). -/
def vectorWork (rows len : Nat) (f : Fig) : Nat := rows * ((figCost f).1 * ((len + 31) / 32) + (figCost f).2)

/-- Predicted pipeline time in µs (R169): (B + (p - 1) / v) W / r, `r` in cycles per µs. -/
def tPipe (b p v w r : Nat) : Nat := if v * r = 0 then 0 else ((b * v + (p - 1)) * w) / (v * r)

/-- Bubble fraction in units of 1/10,000 (R169). -/
def bubble (b p v : Nat) : Nat := if v * b = 0 then 0 else (p - 1) * 10000 / (v * b)

/-- Most micro-batches in flight at any chunk of position `i` (R170). -/
def inFlightBound (b p v i : Nat) : Nat := if v == 1 then min b (p - i) else min b ((v + 1) * p - 1)

/-- The largest count of finished F visits of a chunk whose R visit has not started, along an order (R170). -/
def inFlightMax (ord : List Visit) (c : Nat) : Nat :=
  (ord.foldl (fun (acc : Nat × Nat) x =>
    if x.chunk != c then acc
    else if x.fwd then (acc.1 + 1, max acc.2 (acc.1 + 1)) else (acc.1 - 1, acc.2)) (0, 0)).2

/-- Home pseudo-channel of granule `g` of tensor `id` over the live list (R191). -/
def granulePc (live : List Nat) (id g : Nat) : Nat :=
  if live.length = 0 then 0 else live.getD ((g + (37 * id) % live.length) % live.length) 0

/-- Bits of an element code in memory (R71). -/
def elemBits (fmt : Nat) : Nat :=
  if fmt == 0x01 || fmt == 0x20 then 32
  else if fmt == 0x02 || fmt == 0x03 then 16
  else if fmt == 0x0A || fmt == 0x0B then 6
  else if fmt == 0x0C || fmt == 0x11 || fmt == 0x19 || fmt == 0x1A then 4
  else 8

/-- A format code of R71. -/
def fmtKnown (f : Nat) : Bool :=
  [0x01, 0x02, 0x03, 0x04, 0x05, 0x08, 0x09, 0x0A, 0x0B, 0x0C, 0x10, 0x11, 0x18, 0x19, 0x1A, 0x20].contains f

end Sys2Proof.Machine
end

