-- ==== Sys2Proof/Machine/Crypto.lean ====
section
/-! DEFINITION. The checksums and public standards the spec names: CRC-32 (R117, R380, R530), CRC-16 (R327), SHA-256 and
SHA-384 (R118, R442, R520), and ECDSA P-384 verification (R520, R535). The spec names the standards and not their
tables: PRESUMED from FIPS 180-4, FIPS 186-5 and IEEE 802.3 (log 16). -/

namespace Sys2Proof.Machine

open Sys2Proof

/-- `n` shift steps of a reflected CRC of polynomial `p`. -/
def crcSteps (p : Nat) : Nat → Nat → Nat
  | 0, c => c
  | n + 1, c => crcSteps p n (if c % 2 == 1 then (c / 2).xor p else c / 2)

/-- CRC-32 of IEEE 802.3. -/
def crc32 (bs : Bytes) : Nat :=
  (bs.foldl (fun c b => crcSteps 0xEDB88320 8 (c.xor b.toNat)) 0xFFFFFFFF).xor 0xFFFFFFFF

/-- One bit into a CRC-16 of polynomial 0x8BB7, most significant bit first (R327). -/
def crc16Bit (c : Nat) (b : Bool) : Nat :=
  let top := bit c 15 != b
  let c' := (c * 2) % 65536
  if top then c'.xor 0x8BB7 else c'

/-- CRC-16 over bytes, most significant bit of each byte first, then the `n` low bits of `ctl`, lowest first. -/
def crc16 (bs : Bytes) (ctl n : Nat) : Nat :=
  let c := bs.foldl (fun c b => (List.range 8).foldl (fun c i => crc16Bit c (bit b.toNat (7 - i))) c) 0
  (List.range n).foldl (fun c i => crc16Bit c (bit ctl i)) c

/-- The number a list of bytes holds, big-endian. -/
def beNum (bs : Bytes) : Nat := bs.foldl (fun acc b => acc * 256 + b.toNat) 0

/-- `n` bytes of `v`, big-endian. -/
def beBytes (n v : Nat) : Bytes := (leBytes n v).reverse

/-! ### SHA-2, with word size `w` -/

def rotr (w x n : Nat) : Nat := (x / 2 ^ n + x * 2 ^ (w - n)) % 2 ^ w
def xor3 (a b c : Nat) : Nat := (a.xor b).xor c

/-- The parameters of a SHA-2 function: word size and the rotation counts of Σ0, Σ1, σ0, σ1. -/
structure Sha where
  w : Nat
  S0 : Nat × Nat × Nat
  S1 : Nat × Nat × Nat
  s0 : Nat × Nat × Nat
  s1 : Nat × Nat × Nat
  k : List Nat

def Sha.big (h : Sha) (r : Nat × Nat × Nat) (x : Nat) : Nat := xor3 (rotr h.w x r.1) (rotr h.w x r.2.1) (rotr h.w x r.2.2)
def Sha.small (h : Sha) (r : Nat × Nat × Nat) (x : Nat) : Nat := xor3 (rotr h.w x r.1) (rotr h.w x r.2.1) (x / 2 ^ r.2.2)

/-- The message schedule, newest word first: `n` more words. -/
def Sha.sched (h : Sha) : Nat → List Nat → List Nat
  | 0, l => l
  | n + 1, l =>
    h.sched n (((h.small h.s1 (l.getD 1 0)) + l.getD 6 0 + (h.small h.s0 (l.getD 14 0)) + l.getD 15 0) % 2 ^ h.w :: l)

/-- One round on (a, b, c, d, e, f, g, h). -/
def Sha.round (h : Sha) (v : List Nat) (kw : Nat × Nat) : List Nat :=
  match v with
  | [a, b, c, d, e, f, g, hh] =>
    let ch := (e.land f).xor ((2 ^ h.w - 1 - e).land g)
    let t1 := hh + h.big h.S1 e + ch + kw.1 + kw.2
    let t2 := h.big h.S0 a + xor3 (a.land b) (a.land c) (b.land c)
    [(t1 + t2) % 2 ^ h.w, a, b, c, (d + t1) % 2 ^ h.w, e, f, g]
  | _ => v

/-- Compress one block of 16 words. -/
def Sha.block (h : Sha) (st : List Nat) (m : List Nat) : List Nat :=
  let ws := (h.sched (h.k.length - 16) m.reverse).reverse
  let v := (h.k.zip ws).foldl h.round st
  (st.zip v).map (fun p => (p.1 + p.2) % 2 ^ h.w)

/-- Padding: bit 1, zeros, the bit length in two words. -/
def Sha.pad (h : Sha) (bs : Bytes) : Bytes :=
  let blk := 2 * h.w
  let lenB := h.w / 4
  let z := (2 * blk - (bs.length + 1 + lenB) % blk) % blk
  bs ++ [0x80] ++ zeros z ++ beBytes lenB (8 * bs.length)

def Sha.run (h : Sha) (st : List Nat) (bs : Bytes) : List Nat :=
  (chunksOf (2 * h.w) (h.pad bs)).foldl (fun st b => h.block st ((chunksOf (h.w / 8) b).map beNum)) st

def primeK : List Nat :=
  [2, 3, 5, 7, 11, 13, 17, 19, 23, 29, 31, 37, 41, 43, 47, 53, 59, 61, 67, 71, 73, 79, 83, 89, 97, 101, 103, 107, 109, 113, 127,
   131, 137, 139, 149, 151, 157, 163, 167, 173, 179, 181, 191, 193, 197, 199, 211, 223, 227, 229, 233, 239, 241, 251, 257, 263,
   269, 271, 277, 281, 283, 293, 307, 311, 313, 317, 331, 337, 347, 349, 353, 359, 367, 373, 379, 383, 389, 397, 401, 409]

/-- Integer cube root of `x` by bits from `2^b` down. -/
def icbrt : Nat → Nat → Nat → Nat
  | 0, _, r => r
  | b + 1, x, r => let t := r + 2 ^ b; icbrt b x (if t * t * t ≤ x then t else r)

/-- Integer square root of `x` by bits from `2^b` down. -/
def isqrtN : Nat → Nat → Nat → Nat
  | 0, _, r => r
  | b + 1, x, r => let t := r + 2 ^ b; isqrtN b x (if t * t ≤ x then t else r)

/-- First `w` fraction bits of the cube root, and of the square root, of a prime (FIPS 180-4). -/
def cbrtFrac (w p : Nat) : Nat := icbrt (w + 4) (p * 2 ^ (3 * w)) 0 % 2 ^ w
def sqrtFrac (w p : Nat) : Nat := isqrtN (w + 6) (p * 2 ^ (2 * w)) 0 % 2 ^ w

def sha256H : Sha := ⟨32, (2, 13, 22), (6, 11, 25), (7, 18, 3), (17, 19, 10), (primeK.take 64).map (cbrtFrac 32)⟩
def sha512H : Sha := ⟨64, (28, 34, 39), (14, 18, 41), (1, 8, 7), (19, 61, 6), primeK.map (cbrtFrac 64)⟩

/-- SHA-256 digest of bytes. -/
def sha256 (bs : Bytes) : Bytes := ((sha256H.run ((primeK.take 8).map (sqrtFrac 32)) bs).flatMap (beBytes 4))

/-- SHA-384 digest of bytes. -/
def sha384 (bs : Bytes) : Bytes :=
  (((sha512H.run (((primeK.drop 8).take 8).map (sqrtFrac 64)) bs).take 6).flatMap (beBytes 8))

/-! ### ECDSA P-384 -/

def p384P : Nat := 2 ^ 384 - 2 ^ 128 - 2 ^ 96 + 2 ^ 32 - 1
def p384N : Nat := 0xFFFFFFFFFFFFFFFFFFFFFFFFFFFFFFFFFFFFFFFFFFFFFFFFC7634D81F4372DDF581A0DB248B0A77AECEC196ACCC52973
def p384B : Nat := 0xB3312FA7E23EE7E4988E056BE3F82D19181D9C6EFE8141120314088F5013875AC656398D8A2ED19D2A85C8EDD3EC2AEF
def p384G : Nat × Nat :=
  (0xAA87CA22BE8B05378EB1C71EF320AD746E1D3B628BA79B9859F741E082542A385502F25DBF55296C3A545E3872760AB7,
   0x3617DE4A96262C6F5D9E98BF9292DC29F8F41DBD289A147CE9DA3113B5F0B8C00A60B1CE1D7E819D7A431D7C90EA0E5F)

/-- Modular power by the bits of the exponent, highest of `n` bits first. -/
def modPow (m b e : Nat) : Nat → Nat → Nat
  | 0, acc => acc
  | n + 1, acc => let a := acc * acc % m; modPow m b e n (if bit e n then a * b % m else a)

def modInv (m a : Nat) : Nat := modPow m (a % m) (m - 2) 384 1

/-- Addition of affine points; none is the point at infinity. -/
def ecAdd (a b : Option (Nat × Nat)) : Option (Nat × Nat) :=
  match a, b with
  | none, b => b
  | a, none => a
  | some (x1, y1), some (x2, y2) =>
    let p := p384P
    if x1 == x2 && (y1 + y2) % p == 0 then none
    else
      let l := if x1 == x2 then (3 * x1 * x1 + (p - 3)) * modInv p (2 * y1) % p
        else (y2 + (p - y1)) * modInv p (x2 + (p - x1)) % p
      let x3 := (l * l + (p - x1) + (p - x2)) % p
      some (x3, (l * (x1 + (p - x3)) + (p - y1)) % p)

/-- Scalar multiple by the bits of `k`, highest of `n` bits first. -/
def ecMul (k : Nat) (pt : Option (Nat × Nat)) : Nat → Option (Nat × Nat) → Option (Nat × Nat)
  | 0, acc => acc
  | n + 1, acc => let a := ecAdd acc acc; ecMul k pt n (if bit k n then ecAdd a pt else a)

/-- ECDSA P-384 verification of a SHA-384 digest (FIPS 186-5): public key x then y, signature r then s, big-endian. -/
def ecdsaOk (key sig digest : Bytes) : Bool :=
  let x := beNum (key.take 48)
  let y := beNum ((key.drop 48).take 48)
  let r := beNum (sig.take 48)
  let t := beNum ((sig.drop 48).take 48)
  let p := p384P
  let n := p384N
  if !(decide (x < p) && decide (y < p) && decide (0 < r) && decide (r < n) && decide (0 < t) && decide (t < n)) then false
  else if y * y % p != (x * x * x + (p - 3) * x + p384B) % p then false
  else
    let w := modInv n t
    let u1 := beNum digest * w % n
    let u2 := r * w % n
    match ecAdd (ecMul u1 (some p384G) 384 none) (ecMul u2 (some (x, y)) 384 none) with
    | none => false
    | some q => q.1 % n == r

end Sys2Proof.Machine
end

