-- ==== Sys2Proof/Machine/Ops.lean ====
section
/-! DEFINITION. The named operations every meaning is written over: reading and changing the state, the fault log
(R486-R489), the sideline's outgoing records (R530-R532), events and interrupts (R288-R291), and host memory as a job or
the module reaches it (R271, R295-R300, R314). -/

namespace Sys2Proof.Machine

open Sys2Proof

/-! ### Masks: what a meaning may change -/

abbrev Res := Host.Outcome State Fault Refusal

/-- A meaning that changes only the world. -/
def onWorld (f : State → State) (s : State) : Res := .next { s with w := (f s).w }

/-- A meaning that changes the world and the control state; the settings and the queue of commands stand. -/
def onCore (f : State → State) (s : State) : Res := .next { s with ctl := (f s).ctl, w := (f s).w }

/-- A meaning that may change the settings too. -/
def onAll (f : State → State) (s : State) : Res := .next { s with cfg := (f s).cfg, ctl := (f s).ctl, w := (f s).w }

/-- A change of the world alone, inside a meaning that may change more. -/
def worldOnly (f : State → State) (s : State) : State := { s with w := (f s).w }

/-- A field with a range: a value outside it leaves the field as it was (R564). -/
def pick (lo hi v old : Nat) : Nat := if lo ≤ v && v ≤ hi then v else old

/-! ### Access to the state -/

def State.onW (s : State) (f : World → World) : State := { s with w := f s.w }
def State.now (s : State) : Nat := s.ctl.clk.ns
/-- UNIT_EN bit of a unit (R61). -/
def State.unitOn (s : State) (u : Nat) : Bool := bit s.ctl.unitEn u

def State.job (s : State) (j : Nat) : Job := tget {} s.w.jobs j
def State.setJob (s : State) (j : Nat) (v : Job) : State := s.onW (fun w => { w with jobs := tput {} w.jobs j v })
def State.modJob (s : State) (j : Nat) (f : Job → Job) : State := s.setJob j (f (s.job j))
def State.live (s : State) (j : Nat) : Bool := decide (j < 64) && (s.job j).live

def State.queue (s : State) (q : Nat) : Queue := tget {} s.w.queues q
def State.setQueue (s : State) (q : Nat) (v : Queue) : State := s.onW (fun w => { w with queues := tput {} w.queues q v })
def State.modQueue (s : State) (q : Nat) (f : Queue → Queue) : State := s.setQueue q (f (s.queue q))

def State.chan (s : State) (c : Nat) : Chan := tget {} s.w.dma c
def State.setChan (s : State) (c : Nat) (v : Chan) : State := s.onW (fun w => { w with dma := tput {} w.dma c v })

/-- A cell nothing has written: columns 0-15 of each row are active, 16 and 17 are bench cells (R97, R45). -/
def cellDefault (k : Nat) : Cell := { state := if k % 18 < 16 then 0 else 1, logical := if k % 18 < 16 then k % 18 else 0 }
def State.cell (s : State) (k : Nat) : Cell := tget (cellDefault k) s.w.cells k
def State.setCell (s : State) (k : Nat) (v : Cell) : State := s.onW (fun w => { w with cells := tput (cellDefault k) w.cells k v })
def State.modCell (s : State) (k : Nat) (f : Cell → Cell) : State := s.setCell k (f (s.cell k))
/-- Row key of a cell: 8 d + row. -/
def cellRow (k : Nat) : Nat := k / 18

def State.stack (s : State) (i : Nat) : Stk := tget {} s.w.stk i
def State.modStack (s : State) (i : Nat) (f : Stk → Stk) : State := s.onW (fun w => { w with stk := tmod {} w.stk i f })
def State.pc (s : State) (p : Nat) : Pc := tget {} s.w.pcs p
def State.modPc (s : State) (p : Nat) (f : Pc → Pc) : State := s.onW (fun w => { w with pcs := tmod {} w.pcs p f })
def State.link (s : State) (l : Nat) : Lk := tget {} s.w.lk l
def State.modLink (s : State) (l : Nat) (f : Lk → Lk) : State := s.onW (fun w => { w with lk := tmod {} w.lk l f })
def State.port (s : State) (k : Nat) : Port := tget {} s.w.topo.ports k
def State.engine (s : State) (i : Nat) : Se := tget {} s.w.se i
def State.modEngine (s : State) (i : Nat) (f : Se → Se) : State := s.onW (fun w => { w with se := tmod {} w.se i f })

def State.emit (s : State) (o : Out) : State := s.onW (fun w => { w with out := o :: w.out })

/-- Draw a free value (log 8). -/
def State.draw (s : State) : Nat × State :=
  (Config.freeValue s.w.free, s.onW (fun w => { w with free := w.free + 1 }))

/-- Run a change for each element of a list. -/
def forAll {α : Type} (l : List α) (f : α → State → State) (s : State) : State := l.foldl (fun s x => f x s) s

/-- Once per 60 s for a key (R451, R502, R507, R514, R532): whether it may be done now, and the state that remembers it. -/
def State.once60 (s : State) (key : Nat) : Bool × State :=
  let t := tget 0 s.w.last60 key
  if t = 0 || t - 1 + 60000000000 ≤ s.now then (true, s.onW (fun w => { w with last60 := tput 0 w.last60 key (s.now + 1) }))
  else (false, s)

/-! ### Severities of the fault-log classes -/

def noteClasses : List Nat :=
  [0x1201, 0x1202, 0x1301, 0x1701, 0x1801, 0x1903, 0x1909, 0x190B, 0x2201, 0x2509, 0x2510, 0x3101, 0x3203, 0x3205, 0x3302,
   0x3501, 0x4101, 0x4102, 0x4201, 0x4501, 0x4502, 0x5402, 0x5405, 0x5502, 0x6101, 0x6105, 0x6201, 0x6202, 0x6203, 0x6301,
   0x6302, 0x6303, 0x6401, 0x6501, 0x7101, 0x7104, 0x7201, 0x7204, 0x7301, 0x7403]
def errorClasses : List Nat :=
  [0x1102, 0x1203, 0x1205, 0x1304, 0x1305, 0x1403, 0x1502, 0x1601, 0x1602, 0x1603, 0x1705, 0x1706, 0x1804, 0x1902, 0x1904,
   0x1906, 0x1907, 0x190A, 0x2102, 0x2103, 0x2202, 0x2301, 0x2302, 0x2402, 0x2501, 0x2503, 0x2505, 0x2507, 0x2508, 0x250A,
   0x3103, 0x3201, 0x3301, 0x3601, 0x3603, 0x4104, 0x4202, 0x4203, 0x4204, 0x4303, 0x4304, 0x4401, 0x4503, 0x5101, 0x5202,
   0x5203, 0x5301, 0x5302, 0x5403, 0x5501, 0x6103, 0x6204, 0x6502, 0x7103]
/-- Severity of a class: 1 note, 2 warning, 3 error (the event tables of every chapter, R566). -/
def sevOf (cls : Nat) : Nat := if noteClasses.contains cls then 1 else if errorClasses.contains cls then 3 else 2

/-! ### Records as bytes -/

/-- A location (R487). -/
def Loc.bytes (cls : Nat) (l : Loc) : Bytes :=
  layout [(1, l.kind), (15, if l.kind = 1 then l.body + 2 ^ 24 * l.word.getD (Config.eventWord cls).toNat else l.body), (4, l.handle), (8, l.off),
    (4, l.value.getD (Config.eventValue cls).toNat)]

/-- A fault-log record (R486). -/
def FRec.bytes (r : FRec) : Bytes :=
  layout [(8, r.ns), (2, r.cls), (1, r.unit), (1, r.sev), (1, r.job), (1, b2n r.old + 2 * b2n r.sideSent), (2, 0), (8, r.step),
    (4, r.idx), (4, r.occ)] ++ r.loc.bytes r.cls

/-- Locations of the kinds of R487. -/
def locNone : Loc := {}
def locCell (k : Nat) : Loc := { kind := 1, body := k / 144 + 256 * (k % 144 / 18) + 65536 * (k % 18) }
def locWord (k word : Nat) : Loc := { locCell k with word := some word }
def locPc (p g lane : Nat) : Loc := { kind := 2, body := p + 65536 * g + 2 ^ 48 * lane }
def locStack (st value : Nat) : Loc := { locPc (64 * st) 0xFFFFFFFF 0xFF with value := some value }
def locTier2 (pkg sub g : Nat) : Loc := { kind := 3, body := pkg + 256 * sub + 65536 * g }
def locPkg (pkg value : Nat) : Loc := { locTier2 pkg 0xFF 0xFFFFFFFF with value := some value }
def locCxl (dev page : Nat) : Loc := { kind := 4, body := dev + 256 * page }
def locLink (link port node cause : Nat) : Loc := { kind := 5, body := link + 256 * port + 65536 * node + 2 ^ 32 * cause }
def locDma (ch kind addr : Nat) : Loc := { kind := 6, body := ch + 256 * kind + 65536 * addr }
def locHub (mem word : Nat) : Loc := { kind := 7, body := mem + 256 * word }
def locCause (cause unit : Nat) : Loc := { kind := 8, body := cause + 256 * unit }

/-! ### The sideline's outgoing records (R530-R532) -/

/-- Whether the sideline sends now: its link is up, the module is powered, and REFCLK clocks it (R48, R54, R528, R541). -/
def State.slUp (s : State) : Bool := s.w.sl.link && s.ctl.power.phase != .off && s.ctl.clk.running

/-- A record as its datagram carries it: the 32 B header, then the payload (R530). -/
def slDatagram (s : State) (kind seq : Nat) (payload : Bytes) : Bytes :=
  layout [(2, 0x4C53), (1, 1), (1, kind), (8, s.ctl.ident.serial), (4, seq), (8, s.now), (2, payload.length), (2, 0), (4, crc32 payload)] ++ payload

/-- Send a record that is not resent (heartbeat, acknowledgement). -/
def slOnce (kind sev : Nat) (payload : Bytes) (s : State) : State :=
  if s.slUp then
    (s.onW (fun w => { w with sl := { w.sl with nextSeq := wrapAdd 32 w.sl.nextSeq 1, sent := wrapAdd 32 w.sl.sent 1 } })).emit
      (.sideline s.w.sl.nextSeq kind sev (slDatagram s kind s.w.sl.nextSeq payload))
  else s

/-- The position of the oldest held record of the lowest severity; records stand oldest first. -/
def lowestHeld (l : List SlRec) : Option SlRec :=
  match l with
  | [] => none
  | r :: t => match lowestHeld t with
    | none => some r
    | some q => if q.sev < r.sev then some q else some r

/-- Hold a record for resend and send it when the link is up (R532). -/
def slSend (kind sev idx : Nat) (payload : Bytes) (s : State) : State :=
  let sl := s.w.sl
  let r : SlRec := { seq := sl.nextSeq, kind := kind, sev := sev, idx := idx, payload := payload }
  let drop (sl : Sl) : Sl := { sl with dropped := satAdd 32 sl.dropped 1 }
  let sl1 : Option Sl :=
    if sl.held.length < 1024 then some { sl with held := sl.held ++ [r] }
    else match lowestHeld sl.held with
      | some q => if q.sev < sev then some (drop { sl with held := sl.held.filter (fun x => x.seq != q.seq) ++ [r] }) else none
      | none => none
  match sl1 with
  | none => s.onW (fun w => { w with sl := drop w.sl })
  | some sl1 =>
    let sl2 := { sl1 with nextSeq := wrapAdd 32 sl1.nextSeq 1 }
    if s.slUp then
      (s.onW (fun w => { w with sl := { sl2 with sent := wrapAdd 32 sl2.sent 1 } })).emit (.sideline r.seq kind sev (slDatagram s kind r.seq payload))
    else s.onW (fun w => { w with sl := sl2 })

/-! ### Crossings (R56-R60) -/

/-- Numbers of the crossings of a stack, an LPDDR5X controller, a link and the host port. -/
def xStack (i : Nat) : Nat := i
def xLpddr (i : Nat) : Nat := 12 + i
def xLink (l : Nat) : Nat := 16 + l
def xHost : Nat := 40

def State.xing (s : State) (k : Nat) : Xing := tget {} s.w.xings k
def State.modXing (s : State) (k : Nat) (f : Xing → Xing) : State := s.onW (fun w => { w with xings := tmod {} w.xings k f })

/-- Both sides have acknowledged what stands: the shadow copy follows (R60). -/
def Xing.settle (x : Xing) : Xing := { x with shadow := [x.wr, x.rd, x.count, x.seen] }

/-- `n` items pass: written on one side and read on the other. -/
def Xing.pass (n : Nat) (x : Xing) : Xing := { x with wr := (x.wr + n) % 64, rd := (x.rd + n) % 64 }.settle

/-- An event is counted on the sending side; the receiving side samples the count and has then seen it (R59). -/
def Xing.event (x : Xing) : Xing := { x with count := wrapAdd 16 x.count 1, seen := wrapAdd 16 x.count 1 }.settle

/-- One side resets alone: its pointer and counts come back from the shadow copy; entries stay (R60). -/
def Xing.localReset (x : Xing) : Xing :=
  { x with wr := (x.shadow.getD 1 0 + x.held.length) % 64, rd := x.shadow.getD 1 0, count := x.shadow.getD 2 0, seen := x.shadow.getD 3 0 }

/-- The clocked side stands still: an entry is kept while the queue of 32 has room, else its sender waits (R58). -/
def State.holdAt (s : State) (k : Nat) (c : Instr) : State :=
  let x := s.xing k
  if x.held.length < 32 then s.modXing k (fun x => { x with wr := (x.wr + 1) % 64, held := x.held ++ [c] })
  else s.onW (fun w => { w with stalled := w.stalled ++ [c] })

/-- A command whose item passes crossing `k`: it runs, or its entry is kept while the crossings stand frozen (R54, R58). -/
def through (k : Nat) (c : Instr) (f : State → State) (s : State) : State :=
  if s.ctl.clk.frozen then s.holdAt k c else f (s.modXing k (Xing.pass 1))

/-- Self-timed work: it stalls while the crossings stand frozen (R54). -/
def fabric (c : Instr) (f : State → State) (s : State) : State :=
  if s.ctl.clk.frozen then s.onW (fun w => { w with stalled := w.stalled ++ [c] }) else f s

/-- An event crosses `k` as a count and acts on the receiving side (R59). -/
def signal (k : Nat) (f : State → State) (s : State) : State := f (s.modXing k Xing.event)

/-- Every crossing sets its pointers to empty; what stood in or behind one is gone (R53 beat 5, R60). -/
def emptyXings (s : State) : State := s.onW (fun w => { w with xings := [], stalled := [] })

/-! ### Interrupts and events (R288-R291) -/

/-- Fire an MSI-X vector: write, or mark pending while masked. The interrupt crosses the host port as a count (R59). -/
def fireVector (v : Nat) (s : State) : State :=
  let e := tget {} s.w.msix v
  signal xHost (fun s =>
    if e.masked then s.onW (fun w => { w with msix := tput {} w.msix v { e with pending := true } })
    else s.emit (.msix v e.addr e.data)) s

/-- The 4 KiB pages that `n` bytes from `a` touch. -/
def pagesOf (a n : Nat) : List Nat :=
  if n = 0 then [] else (List.range ((a + n - 1) / 4096 + 1 - a / 4096)).map (fun i => a / 4096 + i)

/-- A host bus access completes: no page of it is absent. -/
def State.hostOk (s : State) (a n : Nat) : Bool := (pagesOf a n).all (fun p => !s.w.hostAbsent.contains p)
/-- A host read returns poison. -/
def State.hostBad (s : State) (a n : Nat) : Bool := (pagesOf a n).any (fun p => s.w.hostPoison.contains p)

/-- Write host memory. -/
def State.hostPut (s : State) (a : Nat) (bs : Bytes) : State := s.onW (fun w => { w with host := mwrite w.host a bs })

/-- Put a record in the ring; 0x0001 for a record of severity 2 or 3 is the caller's. Merge under R488. -/
def logAdd (cls unit job step : Nat) (loc : Loc) (s : State) : State × Bool :=
  let f := s.w.flog
  let prev := f.recs.find? (fun r => r.cls == cls)
  let same := match prev with
    | some r => r.unit == unit && r.loc == loc && decide (f.kept ≤ r.idx) && decide (s.now < r.ns + 1000000000)
    | none => false
  if same then
    match prev with
    | some r =>
      (s.onW (fun w => { w with flog := { w.flog with
        merged := satAdd 32 w.flog.merged 1
        recs := w.flog.recs.map (fun x => if x == r then { x with occ := x.occ + 1 } else x) } }), false)
    | none => (s, false)
  else
    let r : FRec := { ns := s.now, cls := cls, unit := unit, sev := sevOf cls, job := job, step := step, idx := f.head, loc := loc }
    let s1 := s.onW (fun w => { w with flog := { w.flog with head := wrapAdd 32 w.flog.head 1, recs := (r :: w.flog.recs).take 4096 } })
    (if s.cfg.sideSev ≤ r.sev then slSend 0x02 r.sev r.idx r.bytes s1 else s1, true)

/-- Write one event record (R289); a failed write disables the ring and logs 0x5203. -/
def event (code unit job step data : Nat) (s : State) : State :=
  let e := s.w.ev
  if !e.en || bit s.cfg.evMask code then s
  else if 2 ^ e.log2 ≤ (e.tail + 65536 - e.head) % 65536 then
    s.onW (fun w => { w with ev := { w.ev with lost := satAdd 32 w.ev.lost 1 } })
  else
    let a := e.base + 32 * (e.tail % 2 ^ e.log2)
    if s.hostOk a 32 && !s.hostBad a 32 then
      let phase := 1 - (e.tail / 2 ^ e.log2) % 2
      let rec_ := layout [(8, s.now), (2, code), (1, unit), (1, phase), (2, job), (2, 0), (8, step), (8, data)]
      fireVector e.vector ((s.hostPut a rec_).onW (fun w => { w with ev := { w.ev with tail := wrapAdd 16 w.ev.tail 1 } }))
    else
      (logAdd 0x5203 0xFF 0xFF 0 locNone
        (s.onW (fun w => { w with ev := { w.ev with en := false, err := 2, lost := satAdd 32 w.ev.lost 1 } }))).1

/-- Event 0x0001 of a record (R290). -/
def logEvent (cls unit job step idx : Nat) (s : State) : State :=
  if sevOf cls < 2 then s
  else event 0x0001 unit (if job = 0xFF then 0xFFFF else job) step (cls + 65536 * sevOf cls + 2 ^ 32 * idx) s

/-- A fault-log record and its event 0x0001 (R289, R486). -/
def logBoth (cls unit job step : Nat) (loc : Loc) (s : State) : State :=
  let r := logAdd cls unit job step loc s
  if r.2 then logEvent cls unit job step s.w.flog.head r.1 else r.1

/-- Sideline records have been dropped since the count stood at `n`: 0x7401, at most once per 60 s (R532). -/
def dropNote (n : Nat) (s : State) : State :=
  if n = s.w.sl.dropped then s
  else (let o := s.once60 0x7401; if o.1 then logBoth 0x7401 0x09 0xFF 0 locNone o.2 else s)

/-- A fault-log event: record, sideline, event 0x0001, and the note of dropped sideline records. -/
def flt (cls unit job step : Nat) (loc : Loc) (s : State) : State := dropNote s.w.sl.dropped (logBoth cls unit job step loc s)

/-- A fault without a location. -/
def flt0 (cls unit job step : Nat) (s : State) : State := flt cls unit job step locNone s

/-- Checkpoint advice of a reason, once per 60 s (R451). -/
def ckptAdvice (reason : Nat) (s : State) : State :=
  let o := s.once60 (0x640100 + reason)
  if o.1 then event 0x0002 0x07 0xFFFF 0 reason (flt 0x6401 0x07 0xFF 0 locNone o.2) else s

/-- Bench-swap advice of a unit class (R290). -/
def benchAdvice (cls unit : Nat) (s : State) : State := event 0x0003 unit 0xFFFF 0 cls s

/-! ### A job's address space (R294-R300) -/

/-- Page size of a MEM_MAP code (R279). -/
def pageBytes (code : Nat) : Nat := if code = 0 then 65536 else if code = 1 then 2097152 else 1073741824

/-- Where a DVA leads: a fault kind of R313, the host page concerned and the DVA, or the host address. -/
inductive Xl where
  | at_ (host : Nat)
  | fault (kind page dva : Nat)
  deriving DecidableEq, Repr

/-- Translate one DVA for an access (R294, R298, R300, R313). -/
def xlate (s : State) (j dva : Nat) (write : Bool) : Xl :=
  match s.w.mmu.maps.find? (fun m => m.job == j && decide (m.dva ≤ dva) && decide (dva < m.dva + m.len)) with
  | none => .fault 1 0 dva
  | some m =>
    if !bit m.access (if write then 1 else 0) then .fault 5 0 dva
    else
      let h := m.host + (dva - m.dva)
      if s.w.hostAbsent.contains (h / 4096) then
        (if (s.job j).ats && (s.job j).pri && m.demand && !s.w.mmu.priStopped then .fault 2 (h / 4096) dva else .fault 4 (h / 4096) dva)
      else .at_ h

/-- Outcome of reading or writing host memory for a command. -/
inductive Rd where
  | ok (bs : Bytes)
  | fault (kind page dva : Nat)
  | poison
  deriving DecidableEq, Repr

/-- The pieces of `n` bytes from `a` that lie within one 4 KiB page each: (address, length). -/
def pieces : Nat → Nat → Nat → List (Nat × Nat)
  | 0, _, _ => []
  | k + 1, a, n =>
    if n = 0 then [] else let l := min n (4096 - a % 4096); (a, l) :: pieces k (a + l) (n - l)
def piecesOf (a n : Nat) : List (Nat × Nat) := pieces (n / 4096 + 2) a n

/-- Read `n` bytes of a job's address space. -/
def jobRead (s : State) (j dva n : Nat) : Rd :=
  (piecesOf dva n).foldl (fun acc p => match acc with
    | .ok bs => (match xlate s j p.1 false with
      | .fault k g a => .fault k g a
      | .at_ h => if s.hostBad h p.2 then .poison else .ok (bs ++ mread s.w.host h p.2))
    | e => e) (.ok [])

/-- Write bytes into a job's address space; on a fault the bytes before it may be written. -/
def jobWrite (s : State) (j dva : Nat) (bs : Bytes) : Option (Nat × Nat × Nat) × State :=
  (piecesOf dva bs.length).foldl (fun acc p => match acc with
    | (none, s) => (match xlate s j p.1 true with
      | .fault k g a => (some (k, g, a), s)
      | .at_ h => (none, s.hostPut h ((bs.drop (p.1 - dva)).take p.2)))
    | e => e) (none, s)

/-- Read `n` bytes at a host bus address. -/
def busRead (s : State) (a n : Nat) : Rd :=
  if !s.hostOk a n then .fault 4 (a / 4096) a else if s.hostBad a n then .poison else .ok (mread s.w.host a n)

/-- Read at an address of a packet: the job's space, or on queue 0 with no job a host bus address (log 17). -/
def pktRead (s : State) (j a n : Nat) : Rd := if j = 0xFFFF then busRead s a n else jobRead s j a n
def pktWrite (s : State) (j a : Nat) (bs : Bytes) : Option (Nat × Nat × Nat) × State :=
  if j = 0xFFFF then (if s.hostOk a bs.length then (none, s.hostPut a bs) else (some (4, a / 4096, a), s)) else jobWrite s j a bs

/-- A fault of R313 parks what met it: event 0x1801 gives channel, kind and address, and the job counts it (R303, R312).
Channel 0xFF: an access that runs on no channel. -/
def notePark (ch j kind a : Nat) (s : State) : State :=
  flt 0x1801 0x03 (if j < 64 then j else 0xFF) 0 (locDma ch kind a)
    (if j < 64 then s.modJob j (fun b => { b with faults := satAdd 32 b.faults 1, lastFault := a }) else s)

/-- The page of a command that waits for something else than a page. -/
def noPage : Nat := 2 ^ 64

/-- Send a Page Request for a host page of a job, within the allocation (R300). -/
def pageRequest (j page : Nat) (s : State) : State :=
  if page = noPage || s.w.mmu.priStopped || s.w.mmu.priOut.contains (j, page) || min s.w.mmu.priAlloc 2048 ≤ s.w.mmu.priOut.length then s
  else (s.onW (fun w => { w with mmu := { w.mmu with priOut := w.mmu.priOut ++ [(j, page)] } })).emit (.ats 2 j (page * 4096))

/-! ### Device memory (R301) -/

/-- Key of a byte of a declaration: job, handle, buffer, offset. -/
def devKey (j h buf off : Nat) : Nat := ((j * 2 ^ 32 + h) * 2 + buf) * 2 ^ 48 + off
def devRead (s : State) (j h buf off n : Nat) : Bytes := mread s.w.dev (devKey j h buf off) n
def devWrite (j h buf off : Nat) (bs : Bytes) (s : State) : State :=
  s.onW (fun w => { w with dev := mwrite w.dev (devKey j h buf off) bs })

/-- A poisoned unit of device memory shares a byte with a range (R480). -/
def State.badAt (s : State) (key n : Nat) : Bool := s.w.poison.any (fun u => decide (u.1 < key + n) && decide (key < u.1 + u.2))
/-- Mark a unit of device memory poisoned. -/
def State.poisonUnit (s : State) (key n : Nat) : State := s.onW (fun w => { w with poison := ((key, n) :: w.poison).eraseDups })
/-- Units that a write of `n` bytes at a key covers whole lose their poison. -/
def State.clearBad (s : State) (key n : Nat) : State :=
  s.onW (fun w => { w with poison := w.poison.filter (fun u => !(decide (key ≤ u.1) && decide (u.1 + u.2 ≤ key + n))) })

/-- The buffer of a declaration that the running step reads. -/
def State.decl (s : State) (j h : Nat) : Option Decl := ((s.job j).decls.find? (fun e => e.1 == h)).map (fun e => e.2)

/-- The last good step of a job, 0 where none (event and record step fields). -/
def State.stepOf (s : State) (j : Nat) : Nat := match (s.job j).run with | some r => r.step | none => 0

end Sys2Proof.Machine
end

