-- ==== Sys2Proof/Machine/Inject.lean ====
section
/-! DEFINITION. The checker injector's effect on stored code words (R210, R211, R231, R479, R495, R497). -/

namespace Sys2Proof.Machine

open Sys2Proof

/-- Add error bytes to a pattern by symbol; a byte that comes to 0 is no error. -/
def mixSyms (a b : List (Nat × Nat)) : List (Nat × Nat) :=
  b.foldl (fun l e => match l.find? (fun x => x.1 == e.1) with
    | some x => l.filter (fun y => y.1 != e.1) ++ (if x.2.xor e.2 = 0 then [] else [(e.1, x.2.xor e.2)])
    | none => if e.2 = 0 then l else l ++ [e]) a

/-- Symbols of a code word of a tier: data and check. -/
def tierSyms (tier : Nat) : Nat × Nat := if tier = 1 then (64, 8) else (32, 4)

/-- The error an injection puts into a code word (R495): the mask's symbols, or nonzero check bytes for a split write. -/
def errSyms (e : Err) : List (Nat × Nat) :=
  let d := tierSyms e.tier
  if e.mode = 3 then (List.range d.2).filterMap (fun i => let b := bits e.check (8 * i + 7) (8 * i); if b = 0 then none else some (d.1 + i, b))
  else if e.pat = 0 then [] else ((List.range (d.1 + d.2)).filter (bit e.mask)).map (fun i => (i, e.pat))

/-- Errors corrected and errors detected in a code word of a tier (R211, R231). -/
def tierLimits (tier : Nat) : Nat × Nat := if tier = 1 then (3, 5) else (1, 3)

/-- What a stored pattern reads as: 0 clean, 1 corrected, 2 uncorrectable, 3 open (R211; log 13). -/
def synClass (tier : Nat) (syms : List (Nat × Nat)) : Nat :=
  if syms.isEmpty then 0 else if syms.length ≤ (tierLimits tier).1 then 1 else if syms.length ≤ (tierLimits tier).2 then 2 else 3

/-- A number that names a stored pattern, for the decoder's open outcome (log 13). -/
def synCode (key : Nat) (syms : List (Nat × Nat)) : Nat := syms.foldl (fun a e => a * 65536 + e.1 * 256 + e.2) key

/-- Store a pattern of errors in the code word at a byte key: an uncorrectable one reads as poison; an open one is
corrected wrongly, delivered wrongly as clean, or reported, as the code's generator has it. -/
def storeSyms (key tier : Nat) (syms : List (Nat × Nat)) (s : State) : State :=
  let n := (tierSyms tier).1
  let rest := s.w.inject.filter (fun x => x.1 != key)
  let put (s : State) : State := s.onW (fun w => { w with inject := if syms.isEmpty then rest else rest ++ [(key, n, syms)] })
  let poison (s : State) : State := s.poisonUnit key n
  let code := synCode key syms
  let wrong (s : State) : State := s.onW (fun w => { w with dev := mwrite w.dev key (leBytes n (Config.rsOutcome (2 * code + 1))) })
  match synClass tier syms with
  | 2 => poison (put s)
  | 3 => if Config.rsOutcome (2 * code) % 3 = 0 then poison (put s) else if Config.rsOutcome (2 * code) % 3 = 1 then wrong (put s)
    else wrong (s.onW (fun w => { w with inject := rest }))
  | _ => put s

/-- A write has covered bytes of device memory: a code word written afresh holds no error any more, and an armed
flip-next-write or split write fires on its target (R495, R496). -/
def afterWrite (key n : Nat) (s : State) : State :=
  let s1 := if s.w.inject.isEmpty then s
    else s.onW (fun w => { w with inject := w.inject.filter (fun x => !(decide (x.1 < key + n) && decide (key < x.1 + x.2.1)) || s.badAt x.1 x.2.1) })
  let e := s1.w.err
  if e.state = 1 && e.target = 2 && (e.mode = 1 || e.mode = 3) then
    let sz := (tierSyms e.tier).1
    let buf := match s1.decl e.job e.handleOrWord with | some d => d.buf | none => 0
    let k := devKey e.job e.handleOrWord buf e.offset
    if k < key + n && key < k + sz then
      storeSyms k e.tier (errSyms e) (flt 0x190B 0xFF e.job 0 { handle := e.handleOrWord, off := e.offset } (s1.onW (fun w => { w with err := { w.err with state := 2 } })))
    else s1
  else s1

end Sys2Proof.Machine
end

