-- ==== Sys2Proof/Machine/Enrel.lean ====
section
/-! DEFINITION. How every Enrel command starts, is checked (R274, R280), is replied to (R276-R278, R291), waits (R275,
R314) and completes. A meaning of a command gives only its own checks and effect, as a value of `Cmd`. -/

namespace Sys2Proof.Machine

open Sys2Proof

/-- What the own part of a command answers: a reply now, acceptance with a reply later, or a wait for a host page that a
Page Request asks for (R314). -/
inductive Cmd where
  | done (s : State) (status detail unit : Nat) (result : Bytes)
  | later (s : State) (a b : Nat)
  | wait (s : State) (page off : Nat)

def okC (s : State) (result : Bytes := []) : Cmd := .done s 0x00 0 0xFF result
def noteC (s : State) (n : Nat) (result : Bytes := []) : Cmd := .done s 0x01 n 0xFF result
def badC (s : State) (off : Nat) : Cmd := .done s 0x11 off 0xFF []
/-- An offset in the record or image the packet names (R278). -/
def badRec (s : State) (off : Nat) : Cmd := .done s 0x11 (2 ^ 31 + off) 0xFF []
def failC (s : State) (status : Nat) (detail : Nat := 0) (unit : Nat := 0xFF) (result : Bytes := []) : Cmd := .done s status detail unit result

/-! ### Halting a queue, writing replies -/

/-- The job a queue's records name: 0xFF for queue 0. -/
def queueJob (s : State) (q : Nat) : Nat := if q = 0 then 0xFF else (s.queue q).job

/-- Halt a queue (R268, R271). -/
def haltQueue (q err : Nat) (s : State) : State :=
  let j := queueJob s q
  event 0x0008 0x01 (if j = 0xFF then 0xFFFF else j) 0 (q + 65536 * err)
    (flt 0x5201 0x01 j 0 (locCause err 0x01)
      (s.modQueue q (fun c => { c with
        state := 2, err := err, fetchParked := false
        inflight := if err = 7 then c.inflight - c.parked.length else c.inflight
        parked := if err = 7 then [] else c.parked })))

/-- Access at a ring address of a queue (R264 addr_host, R271). -/
def ringWrite (q a : Nat) (bs : Bytes) (s : State) : Option (Nat × Nat × Nat) × State :=
  if (s.queue q).addrHost then (if s.hostOk a bs.length then (none, s.hostPut a bs) else (some (4, a / 4096, a), s))
  else jobWrite s (s.queue q).job a bs
def ringRead (q a n : Nat) (s : State) : Rd :=
  if (s.queue q).addrHost then busRead s a n else jobRead s (s.queue q).job a n

/-- Set the phase bit of a reply (R276). -/
def withPhase (bs : Bytes) (p : Nat) : Bytes := bs.take 7 ++ [BitVec.ofNat 8 p] ++ bs.drop 8

/-- A draining queue with nothing left goes to state 0 (R266). -/
def drainDone (q : Nat) (s : State) : State :=
  let c := s.queue q
  if c.state = 3 && c.inflight = 0 && c.fetched.isEmpty then s.setQueue q { c with state := 0 } else s

/-- Whether the queue's vector fires after this reply (R291). -/
def interrupts (c : Queue) (irq : Bool) : Bool :=
  irq || (decide (0 < c.coalCount) && decide (c.coalCount ≤ c.unsig)) || (c.coalCount = 0 && c.coalUs = 0)

/-- Count a reply that has been written. -/
def countReply (h : Hdr) (s : State) : State :=
  let s1 := s.modQueue h.q (fun c => { c with
    rplTail := wrapAdd 16 c.rplTail 1, done := wrapAdd 32 c.done 1, lastSeq := h.seq, inflight := c.inflight - 1, unsig := c.unsig + 1 })
  let s2 := if interrupts (s1.queue h.q) h.irq then fireVector (s1.queue h.q).vector (s1.modQueue h.q (fun c => { c with unsig := 0 })) else s1
  drainDone h.q s2

/-- Write a reply to its slot; a fault of kind 2 parks it, any other halts the queue (R271); a queue that is not running
or draining loses it (R271, R293). -/
def putReply (h : Hdr) (bs : Bytes) (s : State) : State :=
  let c := s.queue h.q
  if c.state = 1 || c.state = 3 then
    if !c.parked.isEmpty then s.modQueue h.q (fun c => { c with parked := c.parked ++ [(h, bs)] })
    else
      match ringWrite h.q (c.rplBase + 32 * (c.rplTail % 2 ^ c.rplLog2)) (withPhase bs (1 - (c.rplTail / 2 ^ c.rplLog2) % 2)) s with
      | (none, s1) => countReply h s1
      | (some (k, g, a), _) =>
        let s0 := notePark 0xFF (queueJob s h.q) k a s
        if k = 2 then pageRequest c.job g (s0.modQueue h.q (fun c => { c with parked := [(h, bs)] }))
        else haltQueue h.q 7 (s0.modQueue h.q (fun c => { c with inflight := c.inflight - 1 }))
  else drainDone h.q (s.modQueue h.q (fun c => { c with inflight := c.inflight - 1 }))

/-- A reply of 32 B without its phase (R276). -/
def replyBytes (h : Hdr) (op status detail unit : Nat) (result : Bytes) : Bytes :=
  layout [(4, h.seq), (2, op), (1, status), (1, 0), (2, h.q), (1, unit), (1, 0), (4, detail)] ++ padTo 16 result

/-- Everything earlier in the scope of a FENCE has completed (R275). -/
def fenceFree (s : State) (r : Run) : Bool :=
  s.w.inflight.all (fun x => decide (r.ord ≤ x.ord) ||
    (if r.a = 0 then x.hdr.q != r.hdr.q else if r.a = 1 then x.hdr.job != r.hdr.job else false))

/-- Reply to the FENCE commands that nothing holds any more. -/
def settleFences : Nat → State → State
  | 0, s => s
  | n + 1, s =>
    match s.w.inflight.find? (fun r => r.op = 0x0002 && fenceFree s r) with
    | none => s
    | some r =>
      settleFences n (putReply r.hdr (replyBytes r.hdr 0x0002 0 0 0xFF [])
        (s.onW (fun w => { w with inflight := w.inflight.filter (fun x => x.ord != r.ord) })))

/-- Complete a command in flight: its reply is written (R276) and waiting fences are settled. -/
def complete (r : Run) (status detail unit : Nat) (result : Bytes) (s : State) : State :=
  let s1 := putReply r.hdr (replyBytes r.hdr r.op status detail unit result)
    (s.onW (fun w => { w with inflight := w.inflight.filter (fun x => x.ord != r.ord) }))
  settleFences s1.w.inflight.length s1

/-- Complete every command in flight that a test selects. -/
def completeAll (p : Run → Bool) (status detail unit : Nat) (result : Run → Bytes) (s : State) : State :=
  forAll (s.w.inflight.filter p) (fun r s => complete r status detail unit (result r) s) s

/-! ### The common checks (R280) -/

/-- Column Q of R279: 0 administrative, 1 job, 2 both. -/
def opQ (op : Nat) : Nat :=
  if [0x0001, 0x0002, 0x0801].contains op then 2
  else if [0x0101, 0x0102, 0x0103, 0x0104, 0x0503, 0x0504, 0x0603, 0x0604, 0x0701, 0x0702, 0x0703, 0x0802, 0x0803, 0x0804,
    0x0F01, 0x0F02].contains op then 0 else 1

/-- Marked A in R279: the next packet of its queue starts at once (R275). -/
def opAsync (op : Nat) : Bool :=
  [0x0102, 0x0103, 0x0104, 0x0203, 0x0206, 0x0301, 0x0302, 0x0303, 0x0305, 0x0402, 0x0501, 0x0502, 0x0503, 0x0504, 0x0505, 0x0602,
   0x0603, 0x0604, 0x0701, 0x0F01].contains op

/-- The stage types a job's current set holds. -/
def setHas (s : State) (j typ : Nat) : Bool :=
  match (s.job j).cur with | some t => t.stages.any (fun x => x.typ == typ) | none => false

/-- The units a command needs (R64, R280 check 5; the spec does not table them: log 18). -/
def opUnits (s : State) (op j : Nat) : List Nat :=
  let engines := if setHas s j 0x20 || setHas s j 0x21 then (List.range 12).map (fun i => 0x60 + i) else []
  let reel := if setHas s j 0x30 then [0x06] else []
  let arrays := [0x50, 0x51, 0x52, 0x53]
  if [0x0101, 0x0102, 0x0201, 0x0202].contains op then [0x02]
  else if op = 0x0203 then [0x02, 0x03]
  else if op = 0x0103 || op = 0x0104 then [0x03]
  else if [0x0204, 0x0205, 0x0206, 0x0301].contains op then [0x04]
  else if op = 0x0302 || op = 0x0602 then [0x03, 0x05] ++ reel ++ arrays ++ engines
  else if op = 0x0401 || op = 0x0402 || op = 0x0505 then [0x06]
  else if op = 0x0501 || op = 0x0502 then [0x07]
  else if op = 0x0503 || op = 0x0504 then [0x08]
  else if [0x0601, 0x0603, 0x0604].contains op then [0x05]
  else if op = 0x0703 then [0x0A]
  else if op = 0x0804 then [0x09]
  else []

/-- Commands that need the job their packet names to exist (R274). -/
def opNeedsJob (op : Nat) : Bool := opQ op = 1 || op = 0x0103 || op = 0x0104

/-- The job rule of R274. -/
def jobRule (s : State) (op : Nat) (h : Hdr) : Bool :=
  (if h.q = 0 then h.job = 0xFFFF || decide (h.job < 64) else h.job = (s.queue h.q).job) &&
  (!opNeedsJob op || s.live h.job) && (op != 0x0102 || h.job != 0xFFFF)

/-- Checks 1 to 6 of R280: none, or status, detail, unit. -/
def commonFail (s : State) (op : Nat) (h : Hdr) : Option (Nat × Nat × Nat) :=
  if s.ctl.health.sentOff && !(h.q = 0 && (op = 0x0801 || op = 0x0804)) then some (0x90, 0, 0xFF)
  else if h.q != 0 && opQ op = 0 then some (0x10, 1, 0xFF)
  else if h.q = 0 && opQ op = 1 && h.job = 0xFFFF then some (0x10, 2, 0xFF)
  else if !jobRule s op h then some (0x11, 8, 0xFF)
  else match (opUnits s op h.job).find? (fun u => !s.unitOn u) with
    | some u => some (0x13, 0, u)
    | none =>
      if [0x0301, 0x0602, 0x0402, 0x0505, 0x0501, 0x0502].contains op && (s.job h.job).pstate != 0 then some (0x31, 0, 0xFF)
      else none

/-- Start a command: count it in its queue, check it under R280, run its own part, and reply, keep or park it. -/
def startCmd (cmd : Instr) (op : Nat) (h : Hdr) (own : State → Cmd) (s0 : State) : State :=
  let ord := s0.w.ordNext
  let s := (s0.modQueue h.q (fun c => { c with inflight := c.inflight + 1 })).onW (fun w => { w with ordNext := ord + 1 })
  let r : Run := { hdr := h, op := op, ord := ord }
  match commonFail s op h with
  | some (st, d, u) =>
    let s1 := if st = 0x13 then flt 0x5110 u 0xFF 0 (locCause 4 u) s else s
    complete r st d u [] s1
  | none =>
    match own s with
    | .done s1 st d u res => complete r st d u res s1
    | .later s1 a b => s1.onW (fun w => { w with inflight := w.inflight ++ [{ r with a := a, b := b }] })
    | .wait s1 page off =>
      pageRequest h.job page (s1.onW (fun w => { w with
        inflight := w.inflight ++ [{ r with a := off }]
        waits := w.waits ++ [{ cmd := cmd, hdr := h, op := op, page := page, off := off, dva := (s1.job h.job).lastFault, ord := ord }] }))

/-- A record or buffer cannot be reached (R314): the page may come, or the command completes with FAULT_PARKED. -/
def faultC (s : State) (j kind page dva off : Nat) : Cmd :=
  let s1 := notePark 0xFF j kind dva s
  if kind = 2 then .wait s1 page off
  else failC (flt 0x1802 0x03 (if j < 64 then j else 0xFF) 0 (locDma 0xFF kind dva) s1) 0x40 off 0x02

/-- A command met poison in data it loads (R481, R482). -/
def poisonC (s : State) (j : Nat) : Cmd := failC (flt 0x1907 0x00 (if j < 64 then j else 0xFF) 0 locNone s) 0x50 (7 * 256) 0x00

/-- Read the bytes a packet's parameter at `off` names, then go on. -/
def withRead (s : State) (j a n off : Nat) (k : Bytes → Cmd) : Cmd :=
  match pktRead s j a n with
  | .ok bs => k bs
  | .poison => poisonC s j
  | .fault kind page dva => faultC s j kind page dva off

/-- Write a buffer that a packet's parameter at `off` names, then go on. -/
def withWrite (s : State) (j a : Nat) (bs : Bytes) (off : Nat) (k : State → Cmd) : Cmd :=
  match pktWrite s j a bs with
  | (none, s1) => k s1
  | (some (kind, page, dva), s1) => faultC s1 j kind page dva off

/-- Data written only whole (R285). -/
def wholeWrite (s : State) (j buf len : Nat) (bs : Bytes) : Cmd :=
  if len < bs.length then failC s 0x20 0 0xFF (leBytes 4 bs.length)
  else withWrite s j buf bs 16 (fun s => okC s (leBytes 4 bs.length))

/-- A refusal of a check list, or go on. -/
def checkRec (s : State) (l : List (Nat × Bool)) (k : Cmd) : Cmd :=
  match firstBad l with
  | some o => badRec s o
  | none => k
def checkPkt (s : State) (l : List (Nat × Bool)) (k : Cmd) : Cmd :=
  match firstBad l with
  | some o => badC s o
  | none => k

end Sys2Proof.Machine
end

