-- ==== Sys2Proof/Machine/Net.lean ====
section
/-! DEFINITION. Plans (R338, R339), logical ports (R337, R343), discovery (R340-R342), messages and frames (R326-R332),
routing (R345-R349), links going down (R334). -/

namespace Sys2Proof.Machine

open Sys2Proof

/-! ### Plan images -/

def parsePortEnt (b : Bytes) : PortEnt := ⟨fld b 0 1, fld b 1 1, bits (fld b 4 4) 23 0, fld b 8 2⟩
def parsePlaceEnt (b : Bytes) : PlaceEnt := ⟨fld b 0 2, fld b 2 1, fld b 3 1, fld b 4 1, fld b 6 2, fld b 8 2⟩

/-- A plan image (R338). -/
def parsePlan (b : Bytes) : Plan :=
  let np := fld b 12 2
  let nl := fld b 14 2
  { kind := fld b 6 1, shape := fld b 7 1, node := fld b 16 2, master := fld b 18 2, ex := fld b 20 1, ey := fld b 21 1,
    ez := fld b 22 1, wrap := fld b 23 1, upPorts := fld b 24 2,
    ports := (List.range np).map (fun i => parsePortEnt (b.drop (64 + 16 * i))),
    places := (List.range nl).map (fun i => parsePlaceEnt (b.drop (64 + 16 * np + 16 * i))),
    img := b.take (64 + 16 * (np + nl)) }

/-- The checks of R338 and R339 of a plan of kind `kind`, offsets from `off`. -/
def planChecks (b : Bytes) (kind off : Nat) : List (Nat × Bool) :=
  let p := parsePlan b
  let np := fld b 12 2
  let nl := fld b 14 2
  let job := kind = 1
  let po (i : Nat) : Nat := off + 64 + 16 * i
  let lo (i : Nat) : Nat := off + 64 + 16 * np + 16 * i
  [(off, fld b 0 4 == 0x4E414C50), (off + 4, fld b 4 2 == 1), (off + 6, p.kind == kind),
   (off + 7, if job then decide (p.shape ≤ 1) else p.shape == 0), (off + 8, fld b 8 4 == 64 + 16 * (np + nl)),
   (off + 12, decide (np ≤ 12)), (off + 14, if job then nl == p.ex * p.ey * p.ez else nl == 0),
   (off + 16, if job then p.node == 0 else decide (p.node ≤ 0xFFEF)), (off + 18, !job || p.master == 0),
   (off + 20, !job || (decide (1 ≤ p.ex) && decide (p.ex ≤ 16))), (off + 21, !job || (decide (1 ≤ p.ey) && decide (p.ey ≤ 16))),
   (off + 22, !job || (decide (1 ≤ p.ez) && decide (p.ez ≤ 16)))] ++
  (if 12 < np || 4096 < nl then [] else
    (List.range np).flatMap (fun i =>
      match p.ports[i]? with
      | none => []
      | some e =>
        let before := p.ports.take i
        [(po i, decide (e.port ≤ 11) && before.all (fun q => q.port != e.port)),
         (po i + 1, decide (e.role ≤ 9) && (e.role == 9 || before.all (fun q => q.role != e.role))),
         (po i + 4, decide (1 ≤ popCount e.mask 24) && decide (popCount e.mask 24 ≤ 8) && fld b (64 + 16 * i + 4) 4 == e.mask &&
            before.all (fun q => q.mask.land e.mask == 0))]) ++
    (List.range nl).flatMap (fun i =>
      match p.places[i]? with
      | none => []
      | some e =>
        let before := p.places.take i
        [(lo i, before.all (fun q => q.node != e.node)),
         (lo i + 2, decide (e.x < p.ex) && decide (e.y < p.ey) && decide (e.z < p.ez) &&
            before.all (fun q => q.x != e.x || q.y != e.y || q.z != e.z)),
         (lo i + 8, e.subst == 0xFFFF || p.places.all (fun q => q.node != e.subst))]))

/-- The grouping of links with no plan (R23). -/
def defaultPorts : List PortEnt :=
  [⟨0, 1, 0x7, 0xFFFF⟩, ⟨1, 2, 0x38, 0xFFFF⟩, ⟨2, 3, 0x1C0, 0xFFFF⟩, ⟨3, 4, 0xE00, 0xFFFF⟩, ⟨4, 5, 0x7000, 0xFFFF⟩,
   ⟨5, 6, 0x38000, 0xFFFF⟩, ⟨6, 7, 0x3C0000, 0xFFFF⟩, ⟨7, 8, 0xC00000, 0xFFFF⟩]

/-- The port entries of a plan, or another grouping where it has none. -/
def portsOr (p : Option Plan) (other : List PortEnt) : List PortEnt :=
  match p with
  | some p => if p.ports.isEmpty then other else p.ports
  | none => other

/-- The port entries in force: those of the job plan, else of the module plan, else the grouping of R23 (R337, R339). -/
def portEnts (s : State) : List PortEnt := portsOr s.w.topo.jobPlan (portsOr s.w.topo.plan defaultPorts)

/-- The port entry that groups a link. -/
def portOfLink (s : State) (l : Nat) : Option PortEnt := (portEnts s).find? (fun e => bit e.mask l)

/-! ### Places -/

/-- The node that stands at a place: its accepted substitute or the node listed (R347). -/
def standing (s : State) (node : Nat) : Nat :=
  match s.w.topo.subs.find? (fun e => e.2 == node) with | some e => e.1 | none => node
/-- The place entry of a node: its own, or the one it substitutes. -/
def placeOf (s : State) (p : Plan) (node : Nat) : Option PlaceEnt :=
  match p.places.find? (fun e => e.node == node) with
  | some e => some e
  | none => match s.w.topo.subs.find? (fun e => e.1 == node) with
    | some x => p.places.find? (fun e => e.node == x.2)
    | none => p.places.find? (fun e => e.subst == node)
def placeAt (p : Plan) (x y z : Nat) : Option PlaceEnt := p.places.find? (fun e => e.x == x && e.y == y && e.z == z)
/-- This module's own place in the job plan in force. -/
def myPlace (s : State) : Option PlaceEnt := match s.w.topo.jobPlan with | some p => placeOf s p s.w.topo.node | none => none
/-- Index of a place in the plan's order (R449). -/
def placeIndex (p : Plan) (e : PlaceEnt) : Nat := (p.places.findIdx? (fun q => q == e)).getD 0

/-- Dimension 0-2 and direction (true: +) of a torus role (R338). -/
def roleDim (role : Nat) : Option (Nat × Bool) :=
  if 1 ≤ role && role ≤ 6 then some ((role - 1) / 2, role % 2 = 1) else none
def roleOf (d : Nat) (plus : Bool) : Nat := 2 * d + (if plus then 1 else 2)
def extent (p : Plan) (d : Nat) : Nat := if d = 0 then p.ex else if d = 1 then p.ey else p.ez
def coord (e : PlaceEnt) (d : Nat) : Nat := if d = 0 then e.x else if d = 1 then e.y else e.z
def withCoord (e : PlaceEnt) (d c : Nat) : Nat × Nat × Nat :=
  (if d = 0 then c else e.x, if d = 1 then c else e.y, if d = 2 then c else e.z)

/-- The neighbour along a dimension: none at an unwrapped edge (R341). -/
def neighbour (p : Plan) (e : PlaceEnt) (d : Nat) (plus : Bool) : Option PlaceEnt :=
  let n := extent p d
  let c := coord e d
  if plus then
    (if c + 1 < n then let q := withCoord e d (c + 1); placeAt p q.1 q.2.1 q.2.2
     else if bit p.wrap d then let q := withCoord e d 0; placeAt p q.1 q.2.1 q.2.2 else none)
  else if 0 < c then let q := withCoord e d (c - 1); placeAt p q.1 q.2.1 q.2.2
  else if bit p.wrap d then let q := withCoord e d (n - 1); placeAt p q.1 q.2.1 q.2.2 else none

/-- What discovery expects at a port (R341): nothing, any switch tray, or a node with the role its port carries and the
node allowed in its place. -/
inductive Expect where
  | nobody
  | tray
  | node (n role subst : Nat)
  deriving DecidableEq, Repr

def expectPeer (s : State) (e : PortEnt) : Expect :=
  if e.role = 0 || e.role = 8 then .nobody
  else if e.role = 9 then (if e.peer = 0xFFFF then .tray else .node e.peer 9 0xFFFF)
  else
    let back := match roleDim e.role with | some (d, plus) => roleOf d (!plus) | none => 7
    let subst (n : Nat) : Nat := match s.w.topo.jobPlan.bind (fun p => p.places.find? (fun q => q.node == n)) with
      | some q => q.subst
      | none => 0xFFFF
    if e.peer != 0xFFFF then .node e.peer back (subst e.peer)
    else match s.w.topo.jobPlan, myPlace s with
      | some p, some me =>
        if e.role = 7 then
          (if me.partner = 0xFFFF then .nobody
           else .node me.partner 7 (subst me.partner))
        else match roleDim e.role with
          | some (d, plus) => (match neighbour p me d plus with
            | some q => if q.node = me.node && extent p d = 1 then .nobody else .node q.node back q.subst
            | none => .nobody)
          | none => .nobody
      | _, _ => .nobody

/-- Whether the plans need a port (R341, R343). -/
def portNeeded (s : State) (e : PortEnt) : Bool := expectPeer s e != .nobody
/-- The peer a port expects, 0xFFFF for none. -/
def portPeer (s : State) (e : PortEnt) : Nat := match expectPeer s e with | .node n _ _ => standing s n | _ => 0xFFFF

/-- Links up of a port entry. -/
def linksUp (s : State) (e : PortEnt) : Nat := ((bitList e.mask 24).filter (fun l => (s.link l).state = 3)).length

/-- Recompute TP_PORT and LK_STATUS.port from the plan in force (R337, R343, R357); events 0x3201 and 0x3202 when a
needed port newly is absent or partly up. -/
def refreshPorts (s : State) : State :=
  let ents := portEnts s
  let s1 := forAll (List.range 12) (fun k s =>
    let old := s.port k
    let new : Port := match ents.find? (fun e => e.port == k) with
      | none => {}
      | some e =>
        let up := linksUp s e
        { links := e.mask, role := e.role, up := up, via := old.via, dvalid := old.dvalid, host := old.host, peer := portPeer s e,
          pstate := if !portNeeded s e then 0 else if up = 0 then 1 else if up < popCount e.mask 24 then 2 else 3 }
    let s2 := s.onW (fun w => { w with topo := { w.topo with ports := tput {} w.topo.ports k new } })
    if new.pstate = 1 && old.pstate != 1 && old.pstate != 0 then flt 0x3201 0xFF 0xFF 0 (locLink 0xFF k new.peer 0) s2
    else if new.pstate = 2 && old.pstate != 2 then flt 0x3202 0xFF 0xFF 0 (locLink 0xFF k new.peer 0) s2
    else s2) s
  forAll (List.range 24) (fun l s => s.modLink l (fun k => { k with port := match portOfLink s l with | some e => e.port | none => 0xF })) s1

/-- Digest of the job plan in force, zeros with none (R340). -/
def planDigest (s : State) : Bytes := match s.w.topo.jobPlan with | some p => sha256 p.img | none => zeros 32

/-! ### Frames and messages -/

/-- Receive buffer of a virtual channel (R328). -/
def vcBuffer (v : Nat) : Nat := if v = 7 then 4 else if v = 2 || v = 3 then 8 else 28

/-- Level of a virtual channel (R328): 1 is served first. -/
def vcLevel (v : Nat) : Nat := if v = 7 then 1 else if v = 2 || v = 3 then 2 else if v = 4 then 3 else 4

/-- Channels of a link with a frame ready and credit for it (R328, R329); a held link sends link control alone (R334). -/
def vcReady (k : Lk) : List Nat :=
  (List.range 8).filter (fun v => (k.state = 3 || (k.state = 2 && v = 7)) && 0 < (tget {} k.vc v).credits && k.txq.any (fun f => f.vc == v))

/-- The channel that sends in the next frame slot (R328): a level that has waited 15 slots, else the highest level ready; within
a level the channels take turns. -/
def nextVc (k : Lk) : Option Nat :=
  let ready := vcReady k
  let levels := [1, 2, 3, 4].filter (fun q => ready.any (fun v => vcLevel v == q))
  match (levels.find? (fun q => decide (15 ≤ tget 0 k.waited q))).or levels.head? with
  | none => none
  | some q =>
    let vs := ready.filter (fun v => vcLevel v == q)
    (vs.find? (fun v => decide (tget 8 k.lastVc q < v))).or vs.head?

/-- The link after its slot has gone to channel `v`: the other levels that are ready have waited one slot more (R328). -/
def Lk.slotUsed (k : Lk) (v : Nat) : Lk :=
  let ready := vcReady k
  { k with
    lastVc := tput 8 k.lastVc (vcLevel v) v
    waited := [1, 2, 3, 4].foldl (fun t q => tput 0 t q (if q != vcLevel v && ready.any (fun u => vcLevel u == q) then tget 0 k.waited q + 1 else 0)) [] }

/-- The foul injector has affected a frame. -/
def foulHit (s : State) : State := s.onW (fun w => { w with foul := { w.foul with hits := satAdd 32 w.foul.hits 1 } })

/-- The foul injector acts on a link's frames (R354). -/
def foulOn (s : State) (l : Nat) : Bool := s.w.foul.action != 0 && bit s.w.foul.armed l
/-- It lets no frame of the link pass. -/
def foulAll (s : State) (l : Nat) : Bool := foulOn s l && s.w.foul.rate == 0

/-- A frame leaves on a link. An armed foul action (R354) meets the frames that a free value selects, one in 2^n: drop sends an
idle frame in its place, corrupt spoils it, reorder holds it until the next has gone. -/
def sendFrame (l : Nat) (f : Frm) (s : State) : State :=
  match (s.link l).swap with
  | some g => ((foulHit (s.modLink l (fun k => { k with swap := none }))).emit (.frame l f)).emit (.frame l g)
  | none =>
    if !foulOn s l then s.emit (.frame l f)
    else
      let d := s.draw
      if d.1 % 2 ^ s.w.foul.rate != 0 then d.2.emit (.frame l f)
      else if s.w.foul.action = 1 || s.w.foul.rate = 0 then foulHit d.2
      else if s.w.foul.action = 2 then (foulHit d.2).emit (.fouled l f)
      else (foulHit d.2).modLink l (fun k => { k with swap := some f })

/-- Send what waits on a link, slot by slot, while credits and room in the replay buffer are there (R328-R330). The frames of a
channel go in the order they were queued, so that it carries one message at a time. -/
def drainTx : Nat → Nat → State → State
  | 0, _, s => s
  | n + 1, l, s =>
    let k := s.link l
    match (if k.replay.length < 64 then nextVc k else none) with
    | none => s
    | some v =>
      match k.txq.find? (fun f => f.vc == v) with
      | none => s
      | some f =>
        let c := tget {} k.vc v
        let f1 := { f with seq := k.txSeq }
        let t := tput {} k.vc v { credits := c.credits - 1, queued := c.queued - 1 }
        drainTx n l (sendFrame l f1 (s.modLink l (fun k => { k.slotUsed v with
          txq := k.txq.erase f, txSeq := (k.txSeq + 1) % 4096, replay := k.replay ++ [f1], vc := t })))

/-- Queue frames on a link and send what can go. -/
def queueFrames (l : Nat) (fs : List Frm) (s : State) : State :=
  let s1 := s.modLink l (fun k => { k with
    txq := k.txq ++ fs
    vc := fs.foldl (fun t f => tmod {} t f.vc (fun v => { v with queued := satAdd 8 v.queued 1 })) k.vc })
  drainTx (s1.link l).txq.length l s1

/-- The link of a port with the fewest frames queued, lower number on a tie (R337). -/
def pickLink (s : State) (e : PortEnt) : Option Nat :=
  ((bitList e.mask 24).filter (fun l => (s.link l).state = 3)).foldl (fun acc l =>
    match acc with
    | none => some l
    | some b => if (s.link l).txq.length < (s.link b).txq.length then some l else some b) none

/-- Direction along a dimension from coordinate `a` to `b` (R345): the shorter way when wrapped, + on a tie. -/
def dirPlus (p : Plan) (d a b : Nat) : Bool :=
  let n := extent p d
  if bit p.wrap d then decide ((b + n - a) % n ≤ (a + n - b) % n) else decide (a < b)

/-- First dimension on which two places differ, and the direction there (R345). -/
def nextHop (p : Plan) (me goal : PlaceEnt) : Option (Nat × Bool) :=
  ((List.range 3).find? (fun d => coord me d != coord goal d)).map (fun d => (d, dirPlus p d (coord me d) (coord goal d)))

/-- Whether a hop crosses the dateline of its axis (R346). -/
def datelined (p : Plan) (me : PlaceEnt) (d : Nat) (plus : Bool) : Bool :=
  bit p.wrap d && (if plus then coord me d + 1 = extent p d else coord me d = 0)

/-- Detour bits (R327): stage, dimension and direction of the failed hop, dimension and direction gone out along. -/
def detBits (stage d : Nat) (plus : Bool) (t : Nat) (tplus : Bool) : Nat := stage + 4 * d + 16 * b2n (!plus) + 32 * t + 128 * b2n (!tplus)

/-- The channel of a hop (R346): a message enters each dimension on the lower channel of its pair and crosses to the upper one at
the dateline; `come` is the dimension it has come along. -/
def hopVc (p : Plan) (me : PlaceEnt) (base vc : Nat) (come : Option Nat) (d : Nat) (plus : Bool) : Nat :=
  if datelined p me d plus then base + 1 else if come = some d && vc = base + 1 then base + 1 else base

/-- A hop along a direction, when its port has a link up. -/
def hopTo (s : State) (p : Plan) (me : PlaceEnt) (base vc : Nat) (come : Option Nat) (d : Nat) (plus : Bool) (det : Nat) : Option (PortEnt × Nat × Nat) :=
  match (portEnts s).find? (fun e => e.role = roleOf d plus && 0 < linksUp s e) with
  | some e => some (e, hopVc p me base vc come d plus, det)
  | none => none

/-- How a message leaves this module: port entry, virtual channel, detour bits (R345-R349); `vc` the channel and `come` the
dimension it arrived by, 0xFF and none at its source; control messages use channels 2 and 3. -/
def route (s : State) (dst cls vc : Nat) (come : Option Nat) (det : Nat) : Option (PortEnt × Nat × Nat) :=
  let ents := portEnts s
  if cls = 3 || cls = 4 then
    (ents.find? (fun e => (e.role = 7 || e.role = 8) && portPeer s e = dst && 0 < linksUp s e)).map (fun e => (e, 4, 0))
  else match s.w.topo.jobPlan with
    | none => none
    | some p =>
      let plain := if cls = 1 then 0 else 2
      if p.shape = 1 then
        match ents.find? (fun e => portPeer s e = dst && 0 < linksUp s e) with
        | some e => some (e, plain, 0)
        | none =>
          let ups := (List.range 12).flatMap (fun i => ents.filter (fun e => e.port == i && (e.role = 9 || bit p.upPorts i) && 0 < linksUp s e))
          (ups[dst % max ups.length 1]?).map (fun e => (e, plain, 0))
      else match placeOf s p s.w.topo.node, placeOf s p dst with
        | some me, some goal =>
          let stage := det % 4
          let d := bits det 3 2
          let plus := !bit det 4
          let t := bits det 6 5
          let tplus := !bit det 7
          let along (n : Nat) := hopTo s p me 5 vc come d plus (detBits n d plus t tplus)
          if stage = 1 then along 2
          else if stage = 2 then
            let back := match neighbour p me t (!tplus) with
              | some q => !s.w.topo.lost.contains (standing s q.node)
              | none => false
            (if back then match hopTo s p me 5 vc come t (!tplus) (detBits 3 d plus t tplus) with
              | some x => some x
              | none => along 2
             else along 2)
          else match nextHop p me goal with
            | none => none
            | some (d, plus) =>
              match hopTo s p me (if stage = 3 then 5 else plain) vc come d plus det with
              | some x => some x
              | none =>
                if stage = 3 then none
                else match ents.find? (fun e => e.role = roleOf d plus) with
                  | none => none
                  | some e =>
                    if !(s.port e.port).dvalid then none
                    else match ents.find? (fun q => q.port = (s.port e.port).via && 0 < linksUp s q) with
                      | some q => (match roleDim q.role with
                        | some (t, tplus) => some (q, hopVc p me 5 0xFF none t tplus, detBits 1 d plus t tplus)
                        | none => none)
                      | none => none
        | _, _ => none

/-- The frames of a message: its 64 B header and its data, 2,560 B a frame (R326, R331). -/
def msgFrames (m : Msg) (vc epoch det : Nat) : List Frm :=
  let n := (64 + m.data.length + 2559) / 2560
  let hdr := layout [(2, m.src), (2, m.dst), (1, m.job), (1, m.cls), (2, n), (4, m.data.length), (4, m.seq), (8, m.step)] ++ padTo 40 m.spec
  let all := hdr ++ m.data
  (List.range n).map (fun i => 
    { vc := vc, first := i == 0, last := i + 1 == n, epoch := epoch, src := m.src, dst := m.dst, cls := m.cls, mseq := m.seq, part := i, det := det
      data := padTo 2560 ((all.drop (2560 * i)).take 2560) })

/-- The epoch tag of a job's messages (R179, R327). -/
def epochTag (s : State) (j : Nat) : Nat := if j < 64 then (s.job j).modeEpoch % 256 else 0

/-- Put a message on the links; one with no way out is undeliverable (R348) and waits for its resend (R332). -/
def launch (m : Msg) (vc : Nat) (s : State) : State :=
  let s0 := s.emit (.msg m)
  match route s m.dst m.cls vc none 0 with
  | some (e, v, det) => (match pickLink s e with
    | some l => queueFrames l (msgFrames m v (epochTag s m.job) det) s0
    | none => s0)
  | none => s0

/-- Next sequence for a destination and class (R331). -/
def nextSeq (s : State) (dst cls : Nat) : Nat :=
  match s.w.msgs.seqs.find? (fun e => e.1 == dst && e.2.1 == cls) with | some e => e.2.2 | none => 0

/-- Originate a message: its sequence, kept until acknowledged (R332), discarded for a lost node (R347, R350). -/
def sendMsg (dst job cls step : Nat) (spec data : Bytes) (s : State) : State :=
  if s.w.topo.lost.contains dst then s
  else
    let q := nextSeq s dst cls
    let m : Msg := { src := s.w.topo.node, dst := dst, job := job, cls := cls, seq := q, step := step, spec := padTo 40 spec, data := data }
    launch m 0xFF (s.onW (fun w => { w with msgs := { w.msgs with
      kept := if cls = 6 then w.msgs.kept else w.msgs.kept ++ [m]
      seqs := w.msgs.seqs.filter (fun e => !(e.1 == dst && e.2.1 == cls)) ++ [(dst, cls, wrapAdd 32 q 1)] } }))

/-- Acknowledge everything received from a source and not yet acknowledged (R332): one class 6 message. -/
def sendAck (src : Nat) (s : State) : State :=
  let l := (s.w.msgs.unacked.filter (fun e => e.1 == src)).take 312
  if l.isEmpty then s
  else
    sendMsg src 0xFF 6 0 [] (l.flatMap (fun e => layout [(1, e.2.1), (3, 0), (4, e.2.2)]))
      (s.onW (fun w => { w with msgs := { w.msgs with unacked := w.msgs.unacked.filter (fun e => !l.contains e) } }))

/-- The destination takes a message (R332): a duplicate is acknowledged again and discarded. -/
def acceptMsg (m : Msg) (s : State) : State :=
  let key := (m.src, m.cls, m.seq)
  let s1 := s.onW (fun w => { w with msgs := { w.msgs with
    seen := if w.msgs.seen.contains key then w.msgs.seen else (key :: w.msgs.seen).take 4096
    unacked := if w.msgs.unacked.contains key then w.msgs.unacked else w.msgs.unacked ++ [key] } })
  if 8 ≤ (s1.w.msgs.unacked.filter (fun e => e.1 == m.src)).length then sendAck m.src s1 else s1

/-- The job's epoch has come to equal a tag: the messages held for it are taken (R179). -/
def releaseMsgs (j : Nat) (s : State) : State :=
  let mine (e : Nat × Msg) : Bool := e.2.job == j && e.1 == epochTag s j
  forAll ((s.w.msgs.held.filter mine).map (fun e => e.2)) acceptMsg
    (s.onW (fun w => { w with msgs := { w.msgs with held := w.msgs.held.filter (fun e => !mine e) } }))

/-! ### The members of a job -/

/-- Nodes of a job: those of its plan as they stand; this module alone with no plan (R339). -/
def members (s : State) (j : Nat) : List Nat :=
  match (s.job j).cur, s.w.topo.jobPlan with
  | some _, some p => if s.w.holder = some j then p.places.map (fun e => standing s e.node) else [s.w.topo.node]
  | _, _ => [s.w.topo.node]
/-- Members not lost (R377). -/
def liveMembers (s : State) (j : Nat) : List Nat := (members s j).filter (fun n => !s.w.topo.lost.contains n)

/-- A control message of kind `kind` (R379) to one node. -/
def control (dst job step kind flags node epoch a b count : Nat) (s : State) : State :=
  sendMsg dst job 2 step (layout [(1, kind), (1, flags), (2, node), (4, epoch), (8, a), (8, b), (4, count)]) [] s

/-- A control message to every other member of a job. -/
def controlAll (j step kind flags node epoch a b count : Nat) (s : State) : State :=
  forAll ((liveMembers s j).filter (fun n => n != s.w.topo.node)) (fun n s => control n j step kind flags node epoch a b count s) s

/-! ### Links going down (R334) -/

/-- The detour of a port: the first up port of the next two dimensions, + before - (R348). -/
def detourFor (s : State) (role : Nat) : Option PortEnt :=
  match roleDim role with
  | none => none
  | some (d, _) =>
    [roleOf ((d + 1) % 3) true, roleOf ((d + 1) % 3) false, roleOf ((d + 2) % 3) true, roleOf ((d + 2) % 3) false].findSome? (fun r =>
      (portEnts s).find? (fun e => e.role = r && 0 < linksUp s e))

/-- Install or remove the module's own detours (R348). -/
def refreshDetours (s : State) : State :=
  forAll (List.range 12) (fun k s =>
    let p := s.port k
    if p.host || (roleDim p.role).isNone then s
    else if p.pstate = 1 && !s.w.topo.lost.contains p.peer then
      (match detourFor s p.role with
       | some e => if p.dvalid && p.via = e.port then s
         else flt 0x3302 0xFF 0xFF 0 (locLink 0xFF k p.peer e.port)
           (s.onW (fun w => { w with topo := { w.topo with ports := tput {} w.topo.ports k { p with via := e.port, dvalid := true } } }))
       | none => s)
    else if p.dvalid then
      flt 0x3302 0xFF 0xFF 0 (locLink 0xFF k p.peer 0xFF)
        (s.onW (fun w => { w with topo := { w.topo with ports := tput {} w.topo.ports k { p with via := 0, dvalid := false } } }))
    else s) s

/-- After any change of link states. -/
def relink (s : State) : State := refreshDetours (refreshPorts s)

/-- Training of a link starts (R334). -/
def startTraining (l : Nat) (s : State) : State :=
  s.modLink l (fun k => { k with state := 1, lock := false, judged := false })

/-- A link may be in service: its unit is enabled and a port groups it. -/
def linkUsable (s : State) (l : Nat) : Bool := decide (l < 24) && s.unitOn (0x30 + l) && (portOfLink s l).isSome

/-- Links that are off with signal on all lanes, and may now be in service, train (R334). -/
def wakeLinks (s : State) : State :=
  forAll (List.range 24) (fun l s => if (s.link l).state = 0 && (s.link l).sig && linkUsable s l then startTraining l s else s) s

/-- After a plan has come into force or gone (R334, R337, R342): links that a port now groups train, and an up link that no port
groups any more is held as extra. -/
def replan (s : State) : State :=
  relink (wakeLinks (forAll (List.range 24) (fun l s =>
    if (s.link l).state = 3 && (portOfLink s l).isNone then
      flt 0x3203 (0x30 + l) 0xFF 0 (locLink l 0xF (s.link l).peerNode 0) (s.modLink l (fun k => { k with state := 2, judged := true, verdict := 2, accepted := false }))
    else s) s))

/-- A link goes down for a cause: 1 dead timer, 2 lock lost, 3 retry limit, 4 training failed, 5 progress watchdog,
6 ordered, 7 reset or unit off. -/
def linkDown (l cause : Nat) (s : State) : State :=
  let k := s.link l
  let hour := k.downs.filter (fun t => decide (s.now < t + 3600000000000))
  let downs := s.now :: hour
  let s1 := s.modLink l (fun k => { k with
    state := 4, lock := false, judged := false, replay := [], txq := [], rx := [], rxBad := false, badRun := [0, 0, 0, 0]
    txSeq := 0, rxSeq := 0xFFF, vc := [], lastVc := [], waited := [], swap := none, downs := downs })
  let s2 := flt 0x3102 (0x30 + l) 0xFF 0 (locLink l k.port k.peerNode cause) s1
  relink (if downs.length = 3 then benchAdvice 3 (0x30 + l) s2 else s2)

end Sys2Proof.Machine
end

