-- ==== Sys2Proof/Machine/Engine.lean ====
section
/-! DEFINITION. The arithmetic of the stack engines (R246, R247, R251, R254, R255), the layout of rows (R194, R242), and
the checks of gather, row-optimizer and check-table records (R245, R253, R390). -/

namespace Sys2Proof.Machine

open Sys2Proof

/-- A gather descriptor (R245). -/
structure Gather where
  mode : Nat
  qexp : Int
  offsets : Nat
  indices : Nat
  weights : Nat
  deriving DecidableEq, Repr

def parseGather (b : Bytes) : Gather := ⟨fld b 2 1, signed 8 (fld b 3 1), fld b 4 2, fld b 6 2, fld b 8 2⟩

/-- Quantum exponents lie in -96..16 (R245, R253). -/
def qOk (n : Nat) : Bool := decide (-96 ≤ signed 8 n) && decide (signed 8 n ≤ 16)

/-- Checks of a gather descriptor at image offset `off` (R245). -/
def gatherChecks (b : Bytes) (off : Nat) (tensorOk : Nat → Bool) : List (Nat × Bool) :=
  [(off, fld b 0 2 == 1), (off + 2, decide (fld b 2 1 ≤ 3)), (off + 3, qOk (fld b 3 1)), (off + 4, tensorOk (fld b 4 2)),
   (off + 6, tensorOk (fld b 6 2)), (off + 8, if fld b 2 1 == 3 then tensorOk (fld b 8 2) else fld b 8 2 == 0)]

/-- A row-optimizer record (R253). -/
structure RowOpt where
  opt : Nat
  sr : Bool
  sat : Bool
  lookup : Nat
  qg : Int
  lr : Nat
  b1 : Nat
  b2 : Nat
  eps : Nat
  lam : Nat
  gscale : Nat
  combine : Nat
  overflowRows : Nat
  undoGib : Nat
  deriving DecidableEq, Repr

def parseRowOpt (b : Bytes) : RowOpt :=
  { opt := fld b 2 1, sr := bit (fld b 3 1) 0, sat := bit (fld b 3 1) 1, lookup := fld b 4 2, qg := signed 8 (fld b 6 1),
    lr := fld b 7 1, b1 := fld b 8 4, b2 := fld b 12 4, eps := fld b 16 4, lam := fld b 20 4, gscale := fld b 24 4,
    combine := fld b 28 4, overflowRows := fld b 32 4, undoGib := fld b 36 2 }

/-- A value in [0, 1). -/
def unitOk (x : Nat) : Bool := isFinite32 x && !vLt (dec32 x) (dec32 0) && vLt (dec32 x) (dec32 one32)

/-- Checks of a row-optimizer record at image offset `off` (R253); `lookupOk` judges the paired stage (R251). -/
def rowOptChecks (b : Bytes) (off : Nat) (lookupOk combineOk : Nat → Bool) : List (Nat × Bool) :=
  [(off, fld b 0 2 == 1), (off + 2, decide (1 ≤ fld b 2 1) && decide (fld b 2 1 ≤ 4)), (off + 4, lookupOk (fld b 4 2)),
   (off + 6, qOk (fld b 6 1)), (off + 7, decide (fld b 7 1 ≤ 7)), (off + 8, unitOk (fld b 8 4)), (off + 12, unitOk (fld b 12 4)),
   (off + 16, isFinite32 (fld b 16 4) && vLt (dec32 0) (dec32 (fld b 16 4))), (off + 20, isFinite32 (fld b 20 4)),
   (off + 24, isFinite32 (fld b 24 4)), (off + 28, fld b 28 4 == 0 || combineOk (fld b 28 4))]

/-- Row-state bytes an optimizer needs (R253): element width `w` bytes, `len` elements. -/
def stateNeed (opt w len : Nat) : Nat := if opt == 2 then w * len else if opt == 3 then 8 else if opt == 4 then w * len + 8 else 0

/-- Element bytes of a table format (R242). -/
def elemBytes (fmt : Nat) : Nat := if fmt == 0x01 then 4 else if fmt == 0x02 || fmt == 0x03 then 2 else 1

/-- Bytes of a row (R194). -/
def rowBytes (d : Decl) : Nat := roundUp (d.rowLen * elemBytes d.fmt + d.rowState) 64

/-- Rows of a row block, and blocks of a table (R194). -/
def rowsPerBlock (d : Decl) : Nat := 65536 / rowBytes d
def tableBlocks (d : Decl) : Nat := if rowsPerBlock d = 0 then 0 else (d.count + rowsPerBlock d - 1) / rowsPerBlock d

/-- The elements of a stored row as FP32 codes. -/
def rowElems (d : Decl) (b : Bytes) : List Nat :=
  (List.range d.rowLen).map (fun e => toFp32 d.fmt 127 (fld b (e * elemBytes d.fmt) (elemBytes d.fmt)))

/-- v 2^-q as an integer rounded to nearest even; none where the value is special or reaches 2^(lim + q) (R246, R251). -/
def quantize (lim : Nat) (q : Int) (x : Nat) : Option Int :=
  match dec32 x with
  | .fin n m e =>
    if m != 0 && decide ((lim : Int) + q ≤ (Nat.log2 m : Int) + e) then none
    else some ((if n then -1 else 1) * (rneInt m (e - q) : Int))
  | _ => none

/-- An integer times 2^q, rounded once to FP32 (R247, R254). -/
def unquantize (t q : Int) : Nat := if t == 0 then 0 else enc32 (.fin (decide (t < 0)) t.natAbs q)

/-- One pooled element over a bag's rows (R246, R247): element values and position weights, as FP32 codes. -/
def poolElem (g : Gather) (vs ws : List Nat) : Nat :=
  if g.mode == 2 then (match vs with | [] => 0 | v :: r => r.foldl fMax (if isNan32 v then nan32 else v))
  else
    let terms := (vs.zip ws).map (fun p => quantize 47 g.qexp (if g.mode == 3 then fMul p.1 p.2 else p.1))
    if terms.any (fun t => t.isNone) then nan32
    else
      let t := terms.foldl (fun (acc : Int) t => acc + t.getD 0) 0
      let s := unquantize t g.qexp
      if g.mode == 1 then (if vs.isEmpty then 0 else fMul s (fRcp (enc32 (.fin false vs.length 0)))) else s

/-- The scatter contribution of one element (R251): none sets the exception flag. -/
def scatterTerm (g : Gather) (qg : Int) (n w x : Nat) : Option Int :=
  let f := if g.mode == 3 then w else if g.mode == 1 then fRcp (enc32 (.fin false n 0)) else one32
  quantize 39 qg (fMul f x)

/-- Add a contribution row to an accumulator (R251). -/
def Acc.add (a : Acc) (len : Nat) (us : List (Option Int)) : Acc :=
  let past := decide (2 ^ 24 ≤ a.count)
  let sums0 := if a.sums.isEmpty then List.replicate len 0 else a.sums
  { a with
    count := a.count + 1
    allFlag := a.allFlag || past
    flags := (a.flags ++ (List.range len).filter (fun e => match us[e]? with | some none => true | _ => false)).eraseDups
    sums := if past then sums0 else (sums0.zip us).map (fun p => signed 64 (unsigned 64 (p.1 + p.2.getD 0))) }

/-- An accumulator with an exception flag leaves its row unchanged (R255). -/
def Acc.flagged (a : Acc) : Bool := a.allFlag || !a.flags.isEmpty

/-- The new elements, state m, G or v, and t of a row (R254). `w` and `m` are FP32 codes, `gv` is G or v, `t` the count. -/
def rowUpdate (o : RowOpt) (lr : Nat) (acc : List Int) (w m : List Nat) (gv t : Nat) : List Nat × List Nat × Nat × Nat :=
  let g0 := acc.map (fun a => fMul (unquantize a o.qg) o.gscale)
  let g := if isZero32 o.lam then g0 else (g0.zip w).map (fun p => fFma o.lam p.2 p.1)
  let num (n : Nat) : Nat := enc32 (.fin false n 0)
  let sumsq := sum32 (g.map (fun x => fMul x x))
  let q := fMul sumsq (fRcp (num g.length))
  if o.opt == 1 then ((g.zip w).map (fun p => fFma (fNeg lr) p.1 p.2), m, gv, t)
  else if o.opt == 2 then
    let m' := (m.zip g).map (fun p => fFma o.b1 p.1 p.2)
    ((m'.zip w).map (fun p => fFma (fNeg lr) p.1 p.2), m', gv, t)
  else if o.opt == 3 then
    let gs := fAdd gv q
    let a := fMul lr (fRsqrt (fAdd gs o.eps))
    ((g.zip w).map (fun p => fFma (fNeg a) p.1 p.2), m, gs, (t + 1) % 2 ^ 32)
  else
    let t' := (t + 1) % 2 ^ 32
    let m' := (m.zip g).map (fun p => fFma o.b1 p.1 (fMul (fSub one32 o.b1) p.2))
    let v := fFma o.b2 gv (fMul (fSub one32 o.b2) q)
    let c1 := fSub one32 (fExp2 (fMul (num t') (fLog2 o.b1)))
    let c2 := fSub one32 (fExp2 (fMul (num t') (fLog2 o.b2)))
    let a := fMul (fMul lr (fRcp c1)) (fRsqrt (fAdd (fMul v (fRcp c2)) o.eps))
    ((m'.zip w).map (fun p => fFma (fNeg a) p.1 p.2), m', v, t')

/-- The row image after an update (R242, R255): seed, step, table ID, declaration, row, old image. -/
def newRow (o : RowOpt) (lr seed step table : Nat) (d : Decl) (a : Acc) (old : Bytes) : Bytes :=
  let eb := elemBytes d.fmt
  let st := d.rowLen * eb
  let w := rowElems d old
  let m := (List.range d.rowLen).map (fun e => toFp32 d.fmt 127 (fld old (st + e * eb) eb))
  let gOff := if o.opt == 4 then st + st else st
  let r := rowUpdate o lr a.sums w m (fld old gOff 4) (fld old (gOff + 4) 4)
  let put (md : Rnd) (x : Nat) : Nat := (fromFp32 d.fmt o.sat md x).1
  let el := (List.range d.rowLen).zip r.1
  let wB := el.flatMap (fun p => leBytes eb (put (if o.sr && d.fmt != 0x01 then .sr (srBits seed step table 1 (a.row * d.rowLen + p.1)) else .rne) p.2))
  let mB := if o.opt == 2 || o.opt == 4 then r.2.1.flatMap (fun x => leBytes eb (put .rne x)) else []
  let tB := if o.opt == 3 || o.opt == 4 then leBytes 4 r.2.2.1 ++ leBytes 4 r.2.2.2 else []
  let upd := wB ++ mB ++ tB
  upd ++ old.drop upd.length

/-- A check record (R390). -/
structure Chk where
  flags : Nat := 1
  window : Nat := 1
  warmup : Nat := 0
  absBound : Nat := 0
  normLo : Nat := 0
  normHi : Nat := one32
  deriving DecidableEq, Repr

def parseChk (b : Bytes) : Chk := ⟨fld b 0 1, fld b 1 1, fld b 2 2, fld b 4 4, fld b 8 4, fld b 12 4⟩

/-- The length of a check table, and its checks at offset `off` of what holds it (R390). -/
def chkTableLen (b : Bytes) : Nat := 16 + 32 * fld b 2 2
def chkChecks (b : Bytes) (off : Nat) : List (Nat × Bool) :=
  let n := fld b 2 2
  [(off, fld b 0 2 == 1), (off + 2, decide (1 ≤ n) && decide (n ≤ 1024)), (off + 4, fld b 4 2 == 0xFFFF || decide (fld b 4 2 < n))] ++
  (List.range n).flatMap (fun i =>
    let r := b.drop (16 + 32 * i)
    let o := off + 16 + 32 * i
    [(o + 1, decide (1 ≤ fld r 1 1) && decide (fld r 1 1 ≤ 64)),
     (o + 4, isFinite32 (fld r 4 4) && vLt (dec32 0) (dec32 (fld r 4 4))),
     (o + 8, isFinite32 (fld r 8 4) && !vLt (dec32 (fld r 8 4)) (dec32 0) && !vLt (dec32 one32) (dec32 (fld r 8 4))),
     (o + 12, isFinite32 (fld r 12 4) && !vLt (dec32 (fld r 12 4)) (dec32 one32))])

/-- The check record of a stage (R390): its own, the table's default, or the built-in default. -/
def chkFor (tab : Bytes) (i : Nat) : Chk :=
  if tab.isEmpty then {}
  else
    let j := if i == 0xFFFF then fld tab 4 2 else i
    if j == 0xFFFF || fld tab 2 2 ≤ j then {} else parseChk (tab.drop (16 + 32 * j))

end Sys2Proof.Machine
end

