-- ==== Sys2Proof/Machine/Tensor.lean ====
section
/-! DEFINITION. The byte image of a declaration (R301), its elements as values, the items of a stream (R128), vector
figures (R137, R138) and the readout of a product (R110). -/

namespace Sys2Proof.Machine

open Sys2Proof

/-! ### The byte image (R301) -/

/-- Rows of a declaration. -/
def Decl.nrows (d : Decl) : Nat := if d.kind = 1 then d.count else d.count / max d.rowLen 1

/-- Block along the K axis: 32 for MX, the group size for 0x18 and 0x19. -/
def Decl.blk (d : Decl) : Nat := if isMx d.fmt then 32 else if d.fmt == 0x18 || d.fmt == 0x19 then 16 * 2 ^ d.group else 1

/-- Columns and rows with the padding of R301. -/
def Decl.cols (d : Decl) : Nat := if d.kAxis = 0 then roundUp d.rowLen d.blk else d.rowLen
def Decl.prows (d : Decl) : Nat := if d.kAxis = 1 then roundUp d.nrows d.blk else d.nrows

/-- Bytes of the element region; the side region starts at the next multiple of 64. -/
def Decl.elemRegion (d : Decl) : Nat := (d.prows * d.cols * elemBits d.fmt + 7) / 8
def Decl.sideOff (d : Decl) : Nat := roundUp d.elemRegion 64

/-- Tables of a 0x1A declaration, and bytes of one. -/
def Decl.luts (d : Decl) : Nat := if bit d.group 0 then (if d.kAxis = 0 then d.nrows else d.rowLen) else 1
def Decl.lutBytes (d : Decl) : Nat := if bit d.group 1 then 16 else 32

/-- Bytes of the side region. -/
def Decl.sideBytes (d : Decl) : Nat :=
  if isMx d.fmt then d.prows * d.cols / 32
  else if d.fmt == 0x18 || d.fmt == 0x19 then 4 * (d.prows * d.cols / d.blk)
  else if d.fmt == 0x1A then d.luts * d.lutBytes else 0

/-- Length of the byte image (R194, R301). -/
def Decl.imageBytes (d : Decl) : Nat := if d.kind = 1 then d.count * rowBytes d else roundUp (d.sideOff + d.sideBytes) 64

/-- Byte and bit position of the element code at row r, column c. -/
def Decl.bitPos (d : Decl) (r c : Nat) : Nat := (r * d.cols + c) * elemBits d.fmt

/-- Element code from a reader of the image: `rd off n` gives `n` bytes at `off` as a number. -/
def Decl.code (d : Decl) (rd : Nat → Nat → Nat) (r c : Nat) : Nat :=
  let p := d.bitPos r c
  (rd (p / 8) 4 / 2 ^ (p % 8)) % 2 ^ elemBits d.fmt

/-- Index of the block of an element in the side region. -/
def Decl.blockIdx (d : Decl) (r c : Nat) : Nat := if d.kAxis = 0 then r * (d.cols / d.blk) + c / d.blk else (r / d.blk) * d.cols + c

/-- Scale code of an element: 127 outside MX. -/
def Decl.scale (d : Decl) (rd : Nat → Nat → Nat) (r c : Nat) : Nat := if isMx d.fmt then rd (d.sideOff + d.blockIdx r c) 1 else 127

/-- Bytes of the side region that an element of code `q` is read with: its scale or its table entry (R82-R84, R301). -/
def Decl.sideOf (d : Decl) (q r c : Nat) : Nat × Nat :=
  if isMx d.fmt then (d.sideOff + d.blockIdx r c, 1)
  else if d.fmt == 0x18 || d.fmt == 0x19 then (d.sideOff + 4 * d.blockIdx r c, 3)
  else if d.fmt == 0x1A then
    let t := if bit d.group 0 then (if d.kAxis = 0 then r else c) else 0
    let w := if bit d.group 1 then 1 else 2
    (d.sideOff + t * d.lutBytes + w * q, w)
  else (0, 0)

/-- Value of an element as a product reads it under an activation of format `act` (R83, R84): an expanded weight takes the
activation's target. -/
def Decl.value (d : Decl) (act : Nat) (rd : Nat → Nat → Nat) (r c : Nat) : FVal :=
  let q := d.code rd r c
  if d.fmt == 0x18 || d.fmt == 0x19 then
    let o := d.sideOff + 4 * d.blockIdx r c
    let w := if d.fmt == 0x18 then 8 else 4
    let tgt := if act == 0x02 then 0x02 else 0x04
    let code := expandWeight tgt (unsigned 8 (signed w q)) (signed 8 (rd (o + 2) 1)) (rd o 2)
    if tgt == 0x02 then ffBf16.decode code else ffE4m3.decode code
  else if d.fmt == 0x1A then
    let t := if bit d.group 0 then (if d.kAxis = 0 then r else c) else 0
    let o := d.sideOff + t * d.lutBytes
    if bit d.group 1 then ffE4m3.decode (rd (o + q) 1) else ffBf16.decode (rd (o + 2 * q) 2)
  else elemVal d.fmt (d.scale rd r c) q

/-- Padding elements, +0, that follow row `r` in the image of an MX tensor (R77): the rest of its last block, and after the last
row the rows that fill its last block. -/
def Decl.padElems (d : Decl) (r : Nat) : Nat :=
  if !isMx d.fmt then 0
  else if d.kAxis = 0 then d.cols - d.rowLen
  else if r + 1 = d.nrows then (d.prows - d.nrows) * d.cols else 0

/-- Bytes of the image that a row of codes changes, with the scale of each element (MX): (offset, bytes). Codes of 4 and 6 bits are packed; `old off n` reads
the bytes between. The padding after the row is written with it. -/
def Decl.rowImage (d : Decl) (old : Nat → Nat → Nat) (r : Nat) (row scales : List Nat) : List (Nat × Bytes) :=
  let codes := row ++ (if row.length = d.rowLen then List.replicate (d.padElems r) 0 else [])
  let eb := elemBits d.fmt
  let b0 := d.bitPos r 0
  let n := (b0 % 8 + codes.length * eb + 7) / 8
  let v0 := old (b0 / 8) n
  let v := codes.zipIdx.foldl (fun acc p =>
    let s := b0 % 8 + p.2 * eb
    acc - (bits acc (s + eb - 1) s) * 2 ^ s + (p.1 % 2 ^ eb) * 2 ^ s) v0
  (b0 / 8, leBytes n v) ::
    (if isMx d.fmt && d.kAxis = 0 then [(d.sideOff + r * (d.cols / 32), (chunksOf 32 scales).map (fun l => BitVec.ofNat 8 (l.headD 0)))]
     else if isMx d.fmt then scales.zipIdx.map (fun p => (d.sideOff + d.blockIdx r p.2, [BitVec.ofNat 8 p.1])) else [])

/-! ### Items of a stream (R128) -/

/-- Bytes of an element in a stream in halves of a byte: 4-bit elements take half a byte. -/
def strmHalf (fmt : Nat) : Nat := let b := elemBits fmt; if b = 4 then 1 else if b ≤ 8 then 2 else b / 4
/-- Elements of an item, and items of a row. -/
def itemElems (fmt : Nat) : Nat := 128 / strmHalf fmt
def rowItems (fmt len : Nat) : Nat := (len + itemElems fmt - 1) / itemElems fmt

/-- The payload and scales of item `k` of a row. -/
def packItem (fmt : Nat) (row : Row) (k : Nat) : Bytes × List Nat :=
  let n := itemElems fmt
  let es := (row.vals.drop (k * n)).take n
  let h := strmHalf fmt
  (leBytes 64 (es.zipIdx.foldl (fun acc p => acc + p.1 * 16 ^ (h * p.2)) 0),
   if isMx fmt then (row.scales.drop (k * n)).take n else [])

/-- The element codes of an item's payload. -/
def unpackItem (fmt : Nat) (payload : Bytes) : List Nat :=
  let h := strmHalf fmt
  let v := leNum payload
  (List.range (itemElems fmt)).map (fun i => (v / 16 ^ (h * i)) % 2 ^ elemBits fmt)

/-- Even parity over bytes 8i to 8i + 7 for each i (R128): whether flipping the bits of a mask shows. -/
def parityShows (flips : Nat) : Bool := (List.range 8).any (fun i => popCount (bits flips (64 * i + 63) (64 * i)) 64 % 2 == 1)

/-- Flip the bits of a mask in a payload. -/
def flipBytes (bs : Bytes) (mask : Nat) : Bytes := leBytes bs.length ((leNum bs).xor (mask % 2 ^ (8 * bs.length)))

/-- An item as a sink row's part: element codes as FP32 codes are formed from codes and scales. -/
def rowFp32 (fmt : Nat) (row : Row) : List Nat :=
  row.vals.zipIdx.map (fun p => toFp32 fmt (if isMx fmt then row.scales.getD p.2 127 else 127) p.1)
def rowVals (fmt : Nat) (row : Row) : List FVal :=
  row.vals.zipIdx.map (fun p => elemVal fmt (if isMx fmt then row.scales.getD p.2 127 else 127) p.1)

/-! ### Vector figures (R137, R138) -/

/-- What a vector figure works on for one row: elements and scalars as FP32 codes. -/
structure VEnv where
  temps : List (Nat × List Nat) := []
  ports : List (Nat × List Nat) := []
  aux : List (Nat × List Nat) := []
  scal : List (Nat × Nat) := []
  consts : List Nat := []
  steps : List Nat := []
  len : Nat := 0
  /-- What OUT wrote: port, FP32 values, stochastic rounding, saturation. -/
  outs : List (Nat × List Nat × Bool × Bool) := []

def lookupD {α : Type} (d : α) (k : Nat) (l : List (Nat × α)) : α := match l.find? (fun e => e.1 == k) with | some e => e.2 | none => d
def putKey {α : Type} (k : Nat) (v : α) (l : List (Nat × α)) : List (Nat × α) := (k, v) :: l.filter (fun e => e.1 != k)

/-- An operand as one value per element. The rules leave open what a temporary reads after a PASS or before an op has written
it, and what an unwritten row scalar reads: +0 (DESIGN CHOICE, log 170). -/
def VEnv.elems (v : VEnv) (x : Nat) : List Nat :=
  if x < 16 then lookupD (List.replicate v.len 0) x v.temps
  else if x < 20 then lookupD (List.replicate v.len 0) (x - 16) v.ports
  else if x < 24 then lookupD (List.replicate v.len 0) (x - 20) v.aux
  else if x < 32 then List.replicate v.len (lookupD 0 (x - 24) v.scal)
  else if x < 56 then List.replicate v.len (v.consts.getD (x - 32) 0)
  else List.replicate v.len (v.steps.getD (x - 56) 0)

/-- A scalar operand. -/
def VEnv.scalar (v : VEnv) (x : Nat) : Nat :=
  if x < 32 then lookupD 0 (x - 24) v.scal else if x < 56 then v.consts.getD (x - 32) 0 else v.steps.getD (x - 56) 0

/-- An element op on FP32 codes. -/
def opApply (op a b c : Nat) : Nat :=
  match op with
  | 0x01 => fAdd a b
  | 0x02 => fSub a b
  | 0x03 => fMul a b
  | 0x04 => fFma a b c
  | 0x05 => fMin a b
  | 0x06 => fMax a b
  | 0x07 => if vLt (dec32 a) (dec32 b) then one32 else 0
  | 0x08 => if isZero32 c then b else a
  | 0x09 => fAbs a
  | 0x0A => fNeg a
  | 0x0D => fMul (fSub a b) c
  | 0x10 => fExp2 a
  | 0x11 => fLog2 a
  | 0x12 => fRcp a
  | 0x13 => fSqrt a
  | 0x14 => fRsqrt a
  | _ => a

/-- Whether an FP32 code is the integer `i` exactly (EQIDX). -/
def isIdx (x i : Nat) : Bool := match dec32 x with
  | .fin n m e => if m = 0 then i == 0 else !n && (if 0 ≤ e then m * 2 ^ e.toNat == i else m == i * 2 ^ (-e).toNat)
  | _ => false

/-- One op on a row. R138 speaks of later passes only: an op after a KEEP in the same pass reads the kept element (DESIGN
CHOICE, log 170). -/
def vecOp (v : VEnv) (o : VOp) : VEnv :=
  let zip3 := ((v.elems o.a).zip ((v.elems o.b).zip (v.elems o.c))).map (fun p => opApply o.op p.1 p.2.1 p.2.2)
  if o.op == 0x31 then { v with temps := [] }
  else if o.op == 0x30 then
    { v with outs := v.outs ++ [(o.port, if rowScal o.a then [v.scalar o.a] else v.elems o.a, o.sr, o.sat)] }
  else if o.op == 0x33 then { v with ports := putKey (o.dst - 16) (v.elems o.a) v.ports }
  else if o.op == 0x20 then { v with scal := putKey (o.dst - 24) (sum32 (v.elems o.a)) v.scal }
  else if o.op == 0x21 then { v with scal := putKey (o.dst - 24) (sum32 ((v.elems o.a).map (fun x => fMul x x))) v.scal }
  else if o.op == 0x22 then { v with scal := putKey (o.dst - 24) (match v.elems o.a with
    | [] => 0
    | x :: r => r.foldl fMax (if isNan32 x then nan32 else x)) v.scal }
  else if o.op == 0x0C then
    { v with temps := putKey o.dst ((List.range v.len).map (fun i => if isIdx (v.scalar o.a) i then one32 else 0)) v.temps }
  else if o.dst < 16 then { v with temps := putKey o.dst zip3 v.temps }
  else { v with scal := putKey (o.dst - 24) (opApply o.op (v.scalar o.a) (v.scalar o.b) (v.scalar o.c)) v.scal }

/-- Run a vector figure on a row. -/
def runFigure (f : Fig) (v : VEnv) : VEnv := f.ops.foldl vecOp { v with consts := f.consts }

/-- Where a run of outputs lies for stochastic rounding (R81): seed, step, tensor ID, purpose, first element index. -/
structure SrAt where
  seed : Nat := 0
  step : Nat := 0
  tensor : Nat := 0
  purpose : Nat := 0
  first : Nat := 0

/-- Convert FP32 values of a row to a format, MX blocks along the row: the row and its counts (R76, R77, R79, R80). -/
def convRow (fmt : Nat) (sr sat : Bool) (a : SrAt) (xs : List Nat) : Row × Counts :=
  if isMx fmt then
    let bs := (chunksOf 32 xs).map (mxBlock fmt)
    ({ vals := bs.flatMap (fun b => b.2.1), scales := bs.flatMap (fun b => b.2.1.map (fun _ => b.1)) }, bs.foldl (fun c b => c.add b.2.2) {})
  else
    let es := xs.zipIdx.map (fun p =>
      fromFp32 fmt sat (if sr then .sr (srBits a.seed a.step a.tensor a.purpose (a.first + p.2)) else .rne) p.1)
    ({ vals := es.map (fun e => e.1) }, es.foldl (fun c e => c.add e.2) {})

/-- Convert up to 32 rows of FP32 values to an MX format, one block down each column (R77). The counts of the blocks go
with the first row. -/
def convCols (fmt : Nat) (rows : List (List Nat)) : List (Row × Counts) :=
  let bs := (List.range ((rows.map (fun r => r.length)).foldl max 0)).map (fun k => mxBlock fmt (rows.map (fun r => r.getD k 0)))
  rows.zipIdx.map (fun p =>
    ({ vals := bs.map (fun b => b.2.1.getD p.2 0), scales := bs.map (fun b => b.1) }, if p.2 = 0 then bs.foldl (fun c b => c.add b.2.2) {} else {}))

/-! ### Readout of a product (R110) -/

/-- Convert a raw value under ACC_CTL: codes (two with pair_out) and counts. -/
def readout (acc : Nat) (a : SrAt) (v : Nat × Nat) : List Nat × Counts :=
  if bit acc 3 then
    ([v.1, v.2], { nans := b2n (isNan32 v.1) + b2n (isNan32 v.2), infs := b2n (!isFinite32 v.1 && !isNan32 v.1) + b2n (!isFinite32 v.2 && !isNan32 v.2) })
  else
    let x := rawToFp32 (bit acc 0) v
    let e := fromFp32 (bits acc 15 8) (bit acc 2) (if bit acc 1 then .sr (srBits a.seed a.step a.tensor a.purpose a.first) else .rne) x
    ([e.1], e.2)

end Sys2Proof.Machine
end

