-- ==== Sys2Proof/Machine/Shard.lean ====
section
/-! DEFINITION. Device memory of a job (R183, R301, R465, R480), a module's shard and its cut image (R441, R442). -/

namespace Sys2Proof.Machine

open Sys2Proof

/-! ### Device memory of a job -/

/-- Tensors of the set in the shard (R441): tables, parameters, and optimizer state that no return stage writes. -/
def SetImg.gradIds (t : SetImg) : List Nat := (t.streams.filter (fun r => 0x8000 ≤ r.src && r.src != 0xFFFF && r.srcPort = 1)).map (fun r => r.tensor)
def SetImg.shardTens (t : SetImg) : List Tens :=
  let dense := t.tensors.filter (fun r => r.role = 1)
  let st := t.tensors.filter (fun r => r.role = 6 && !t.gradIds.contains r.id)
  sortBy (fun r => r.id) dense ++ sortBy (fun r => r.id) st ++ sortBy (fun r => r.id) (t.tensors.filter (fun r => r.role = 5))

/-- Key of a 64 KiB granule of device memory. -/
def granKey (j h buf off : Nat) : Nat := devKey j h buf off / 65536

/-- External memory in bytes: tiers 1 and 2, and mapped tier 3 (R5, R236). -/
def gib : Nat := 1073741824
/-- Bytes of a tier that software has retired (R29, R187, R491). -/
def retiredBytes (s : State) (tier : Nat) : Nat :=
  sumNat ((s.w.ret.entries.filter (fun e => e.1 = tier && !s.w.ret.due.contains e)).map (fun e =>
    if e.2.1 = 0 then 4096 else if e.1 = 1 then 20971520 else gib))

/-- Pseudo-channels that are live, and how many (R191). -/
def livePcs (s : State) : List Nat := (List.range 768).filter (fun p => decide ((s.pc p).state ≤ 1))
def gonePcs (s : State) : List Nat := (List.range 768).filter (fun p => decide (2 ≤ (s.pc p).state))

/-- External memory without what is retired (R28, R29). -/
def State.installed (s : State) : Nat :=
  ((List.range 768).filter (fun p => (s.pc p).state != 3)).length * 1342177280 + (1536 + sumNat (s.w.cxl.map (fun e => e.2.mapped))) * gib -
    (retiredBytes s 1 + retiredBytes s 2 + retiredBytes s 3)
/-- Bytes declared by all jobs. -/
def State.declared (s : State) : Nat := sumNat (s.w.jobs.map (fun e => sumNat (e.2.decls.map (fun d => d.2.imageBytes * (if d.2.dbl then 2 else 1)))))
/-- Reservations of a bound role 1 mirror (R421), the relocation reserve (R191) and the drill store (R404). -/
def State.reserved (s : State) : Nat := (if s.w.mr.resv then 1024 * gib else 0) + 20971520 * (livePcs s).length + 67108864
/-! ### The shard (R441, R442) -/

def chunkBytes : Nat := 4194304

/-- A section with its place in the stream: sections start at multiples of 4 KiB. -/
def placeSects (l : List Sect) : List Sect :=
  (l.foldl (fun (acc : List Sect × Nat) x => (acc.1 ++ [{ x with off := acc.2 }], roundUp (acc.2 + x.bytes) 4096)) ([], 4096)).1

/-- Elements of a tensor's residual buffers. -/
def residLen (r : Resid) : Nat := (r.bufs.map (fun l => l.length)).foldl max 0
/-- A residual buffer as bytes. -/
def residBytes (r : Resid) (i : Nat) : Bytes :=
  padTo (4 * residLen r) (layout ((r.bufs.getD i []).map (fun x => (4, x))))

/-- Sections of the shard of a job under its current set, as step c + 1 reads them. -/
def shardSects (s : State) (j c : Nat) : List Sect :=
  let b := s.job j
  match b.cur with
  | none => []
  | some t =>
    let one (kind : Nat) (r : Tens) : List Sect := match s.decl j r.handle with
      | some d => [{ tensor := r.id, kind := kind, fmt := d.fmt, key := devKey j r.handle (if kind = 1 then d.buf else 0) 0, bytes := d.imageBytes }]
      | none => []
    placeSects ((t.shardTens.filter (fun r => r.role != 5)).flatMap (one 1) ++
      (sortBy (fun r => r.tensor) b.resid).map (fun r =>
        { tensor := r.tensor, kind := 2, fmt := 0x01, bytes := 4 * residLen r, data := residBytes r ((c + 1) % 3) }) ++
      (t.shardTens.filter (fun r => r.role == 5)).flatMap (one 3))

/-- Bytes and chunks of a shard with these sections. -/
def shardLen (l : List Sect) : Nat := (l.map (fun x => x.off + x.bytes)).foldl max 4096
def chunkCount (l : List Sect) : Nat := (shardLen l + chunkBytes - 1) / chunkBytes
/-- Bytes of chunk `i`. -/
def chunkLen (l : List Sect) (i : Nat) : Nat := min chunkBytes (shardLen l - chunkBytes * i)

/-- The header of a shard (R441). -/
def shardHeader (place : Nat) (digest cut setEpoch modeEpoch : Nat) (l : List Sect) : Bytes :=
  padTo 4096 (layout [(4, 0x44524853), (2, 1), (2, place)] ++ leBytes 32 digest ++ layout [(8, cut), (4, setEpoch), (4, modeEpoch), (8, min l.length 126)] ++
    (l.take 126).flatMap (fun x => layout [(2, x.tensor), (1, x.kind), (1, x.fmt), (4, 0), (8, x.off), (8, x.bytes), (8, 0)]))

/-- Bytes of the cut image in device memory: a granule that has been staged is read from its copy (R446). -/
def cutRead (s : State) (key n : Nat) : Bytes :=
  if n = 0 then []
  else (List.range ((key + n - 1) / 65536 + 1 - key / 65536)).flatMap (fun i =>
    let g := key / 65536 + i
    let lo := max key (65536 * g)
    let hi := min (key + n) (65536 * (g + 1))
    match s.w.ck.staged.find? (fun e => e.1 == g) with
    | some e => (e.2.drop (lo - 65536 * g)).take (hi - lo)
    | none => mread s.w.dev lo (hi - lo))

/-- Put bytes at an offset of a run of bytes. -/
def patch (img : Bytes) (off : Nat) (bs : Bytes) : Bytes := padTo off img ++ bs ++ img.drop (off + bs.length)

/-- The part of a section that bytes `a` to `a + n` of the stream hold: offset within the section and length. -/
def sectPart (x : Sect) (a n : Nat) : Nat × Nat :=
  let lo := max a x.off
  let hi := min (a + n) (x.off + x.bytes)
  (lo - x.off, hi - lo)

/-- Bytes `a` to `a + n` of the shard's stream at the cut. -/
def streamRead (s : State) (a n : Nat) : Bytes :=
  let ck := s.w.ck
  let base := padTo n (ck.header.drop a)
  ck.srcs.foldl (fun img x =>
    let p := sectPart x a n
    if p.2 = 0 then img
    else patch img (x.off + p.1 - a) (if x.kind = 2 then (x.data.drop p.1).take p.2 else cutRead s (x.key + p.1) p.2)) base

/-- Leaf digest of a chunk, and a tree of leaves level by level (R442). -/
def leafDigest (bs : Bytes) : Bytes := sha256 (0 :: bs)
def pairUp : List Bytes → List Bytes
  | a :: b :: r => sha256 (1 :: a ++ b) :: pairUp r
  | l => l
def treeRoot : Nat → List Bytes → Bytes
  | _, [] => zeros 32
  | _, [x] => x
  | 0, x :: _ => x
  | n + 1, l => treeRoot n (pairUp l)
def rootDigest (l : List Bytes) : Bytes := treeRoot l.length l

/-- Bytes of a declaration read as poisoned (R480); a stale granule does (R465). -/
def State.isPoisoned (s : State) (j h buf off n : Nat) : Bool :=
  s.badAt (devKey j h buf off) n ||
    s.w.stale.any (fun g => g.job == j && g.handle == h && decide (4096 * g.g < off + n) && decide (off < 4096 * (g.g + 1)))

end Sys2Proof.Machine
end

