-- ==== Sys2Proof/Machine/Homes.lean ====
section
/-! DEFINITION. Where a byte of a declaration lies: its tier and its home (R183, R184, R191, R192, R232, R236). -/

namespace Sys2Proof.Machine

open Sys2Proof

/-- Row block of a row. -/
def blockOf (d : Decl) (r : Nat) : Nat := r / max (rowsPerBlock d) 1

/-- Place of a row block of a named table: tier 1 or 2, or 3 + the device (R195, R236); its tier. -/
def codeOf (b : Job) (table block : Nat) : Nat := match b.tiers.find? (fun e => e.1 == table && e.2.1 == block) with | some e => e.2.2 | none => 2
def tierOf (b : Job) (table block : Nat) : Nat := min 3 (codeOf b table block)

/-- Devices that hold tier-3 data, rising (R236). -/
def t3Devices (s : State) : List Nat := (List.range 4).filter (fun k => 0 < (tget {} s.w.cxl k).mapped)

/-- A home: the tier, and the pseudo-channel, sub-channel (4 × package + sub-channel) or device. -/
structure Home where
  tier : Nat := 2
  place : Nat := 0
  deriving DecidableEq, Repr

/-- Unit ID of the controller of a home (R61). -/
def Home.unit (h : Home) : Nat := if h.tier = 1 then 0x10 + h.place / 64 else if h.tier = 2 then 0x20 + h.place / 24 else 0x28

/-- Place of a byte of a declaration, as `codeOf` writes it: where a current set names it, a table's by its block and a dense
tensor's by the placement; else the home it keeps (R183, R184). A dense tensor in tier 3 lies over the devices in turn. -/
def codeAt (s : State) (j h off : Nat) (d : Decl) : Nat :=
  let b := s.job j
  let block := blockOf d (off / max (rowBytes d) 1)
  let ds := t3Devices s
  let dense (k : Nat) : Nat := if k = 3 then 3 + ds.getD (off / 65536 % max ds.length 1) 0 else k
  let kept : Nat := if d.kind = 1 then (match d.blocks.find? (fun e => e.1 == block) with | some e => e.2 | none => 2) else dense d.tier
  match b.cur with
  | none => kept
  | some t => match t.tensors.find? (fun r => r.handle == h) with
    | none => kept
    | some r =>
      if d.kind = 1 then codeOf b r.id block
      else match b.place.homes.find? (fun i => i.kind == 0 && i.id == r.id) with
        | some i => dense i.tier
        | none => kept

/-- Tier of a byte of a declaration. -/
def tierAt (s : State) (j h off : Nat) (d : Decl) : Nat := min 3 (codeAt s j h off d)

/-- Key that spreads a declaration: its tensor ID, or its handle where no set names it (R191, R232). -/
def spreadKey (s : State) (j h : Nat) : Nat :=
  match (s.job j).cur with
  | some t => (match t.tensors.find? (fun r => r.handle == h) with | some r => r.id | none => h)
  | none => h

/-- Pseudo-channels that were live when a declaration was placed, rising (R191). -/
def Decl.live (d : Decl) : List Nat := (List.range 768).filter (fun p => !d.gone.contains p)

/-- Pseudo-channel of a granule in tier 1: where an evacuation has moved it, else by the list of its placement (R191). -/
def pcOf (s : State) (j h g : Nat) (d : Decl) : Nat :=
  match s.w.reloc.find? (fun e => e.1 == j && e.2.1 == h && e.2.2.1 == g) with
  | some e => e.2.2.2
  | none => granulePc d.live (spreadKey s j h) g

/-- Home of a byte of a declaration. -/
def homeOf (s : State) (j h off : Nat) : Home :=
  match s.decl j h with
  | none => {}
  | some d =>
    let k := codeAt s j h off d
    if k = 1 then { tier := 1, place := pcOf s j h (off / 4096) d }
    else if k = 2 then { tier := 2, place := (off / 4096 + (37 * spreadKey s j h) % 96) % 96 }
    else { tier := 3, place := k - 3 }

/-- Accesses to a home wait (R223, R227, R505). -/
def homeHeld (s : State) (x : Home) : Bool :=
  if x.tier = 1 then
    let p := s.pc x.place
    let st := s.stack (x.place / 64)
    p.state = 1 || st.tripped || (st.waves && p.requested)
  else if x.tier = 2 then bit (tget {} s.w.lp (x.place / 24)).held (x.place / 4 % 6)
  else false

/-- Homes of the 4 KiB granules that a range of a declaration touches. -/
def homesOf (s : State) (j h off n : Nat) : List Home :=
  if n = 0 then [] else (List.range ((off + n - 1) / 4096 + 1 - off / 4096)).map (fun i => homeOf s j h ((off / 4096 + i) * 4096))

/-- Tier-3 data on a device whose link is down reads as poison (R237). -/
def deviceDown (s : State) (x : Home) : Bool := x.tier = 3 && !(tget {} s.w.cxl x.place).linkUp

/-- Bytes of a job's declarations in a tier. -/
def tierBytes (s : State) (j k : Nat) : Nat :=
  sumNat ((s.job j).decls.map (fun e =>
    if e.2.kind = 1 then 65536 * ((List.range (tableBlocks e.2)).filter (fun i => tierAt s j e.1 (i * rowsPerBlock e.2 * rowBytes e.2) e.2 = k)).length
    else if tierAt s j e.1 0 e.2 = k then e.2.imageBytes * (if e.2.dbl then 2 else 1) else 0))

/-- Capacity of a tier for a job, in bytes: tier 1 without the relocation reserve (R191); tiers 2 and 3 without the mirror's
reservations (R421), tier 2 without the save region (R319) and the drill store (R404); retired memory left out (R28, R29). -/
def tierCap (s : State) (j k : Nat) : Nat :=
  let mir := if s.w.mr.resv then 512 * gib else 0
  (if k = 1 then (livePcs s).length * 1260 * 1048576
   else if k = 2 then 1536 * gib - mir - (if (s.job j).saveDva = 0 then 2600 * 1048576 else 0) - 67108864
   else sumNat (s.w.cxl.map (fun e => e.2.mapped)) * gib - mir) - retiredBytes s k

/-- Room left in tiers 2 and 3, in bytes. -/
def lowRoom (s : State) : Nat :=
  sumNat ([2, 3].map (fun k => tierCap s (s.w.holder.getD 0) k - sumNat ((tkeys s.w.jobs).map (fun j => tierBytes s j k))))

end Sys2Proof.Machine
end

