-- ==== Sys2Proof/Machine/Staging.lean ====
section
/-! DEFINITION. Copy-before-write and what ends a generation (R444-R446, R450), the write of a job's device memory, streams that
park for a user of R304. -/

namespace Sys2Proof.Machine

open Sys2Proof

/-! ### Copy-before-write (R446) -/

/-- Disarm copy-before-write and release the staging region (R445, R446). -/
def disarm (s : State) : State :=
  s.onW (fun w => { w with ck := { w.ck with armed := false, staged := [], stagedBad := [], copied := [], stageMib := 0 } })

/-- Replies of the CKPT_WRITE commands of the generation in progress (R279). -/
def ckptReply (status detail unit : Nat) (s : State) : State :=
  let ck := s.w.ck
  completeAll (fun r => r.op = 0x0501 && r.hdr.job = ck.job && r.b = 1) status detail unit (fun _ => layout [(4, ck.wrote), (4, ck.skipped)]) s

/-- Abandon the generation in progress (R446, R450, R481): CKPT_WRITE completes with a status, the event is written. -/
def abandonCkpt (status detail unit cls : Nat) (s : State) : State :=
  let ck := s.w.ck
  let s1 := ckptReply status detail unit (flt0 cls 0x07 (if ck.job < 64 then ck.job else 0xFF) ck.cut s)
  (disarm s1).onW (fun w => { w with ck := { w.ck with state := 0, gen := 0, job := 0xFF } })

/-- A 64 KiB granule belongs to the sources of the generation in progress. -/
def isSource (s : State) (key : Nat) : Bool :=
  s.w.ck.srcs.any (fun x => x.kind != 2 && decide (x.key < 65536 * (key + 1)) && decide (65536 * key < x.key + x.bytes))

/-- Copy one 64 KiB granule into the staging region before it is written (R446). -/
def stageGranule (j h buf g : Nat) (s : State) : State :=
  let key := granKey j h buf (65536 * g)
  let ck := s.w.ck
  if !ck.armed || ck.job != j || !isSource s key || ck.copied.contains key || ck.staged.any (fun e => e.1 == key) then s
  else if lowRoom s < 65536 * (ck.staged.length + 1) then abandonCkpt 0x20 0 0x07 0x6306 s
  else s.onW (fun w => { w with ck := { w.ck with
    staged := (key, devRead s j h buf (65536 * g) 65536) :: w.ck.staged
    stagedBad := if s.isPoisoned j h buf (65536 * g) 65536 then key :: w.ck.stagedBad else w.ck.stagedBad
    stageMib := (w.ck.staged.length + 16) / 16 } })

/-- 4 KiB granules of a declaration that a write to its buffer in use covers whole are stale no longer (R465). -/
def freshen (j h buf off n : Nat) (s : State) : State :=
  match s.decl j h with
  | none => s
  | some d =>
    if buf != d.buf then s
    else s.onW (fun w => { w with stale := w.stale.filter (fun x =>
      !(x.job == j && x.handle == h && decide (off ≤ 4096 * x.g) && decide (min (4096 * (x.g + 1)) d.imageBytes ≤ off + n))) })

/-- Write device memory of a job: uncopied granules are staged first (R446); a unit written whole loses its poison, a granule
written whole its stale mark (R465, R480). -/
def jobPut (j h buf off : Nat) (bs : Bytes) (s : State) : State :=
  if bs.isEmpty then s
  else
    let gs := (List.range ((off + bs.length - 1) / 65536 + 1 - off / 65536)).map (fun i => off / 65536 + i)
    afterWrite (devKey j h buf off) bs.length
      ((freshen j h buf off bs.length (devWrite j h buf off bs (forAll gs (stageGranule j h buf) s))).clearBad (devKey j h buf off) bs.length)

/-! ### The checkpoint engine's streams (R304, R309, R314) -/

/-- A stream of a user of R304 parks on a page that a Page Request asks for. -/
def userPark (c user j addr page : Nat) (s : State) : State :=
  if (s.chan c).state = 2 then pageRequest j page s
  else
    pageRequest j page (flt 0x1801 0x03 j 0 (locDma c 2 addr)
      ((s.setChan c { state := 2, user := user, job := j, parkAt := addr, kind := 2 }).modJob j (fun b => { b with
        faults := satAdd 32 b.faults 1, parked := satAdd 8 b.parked 1, lastFault := addr })))

/-- A stream parked so ends or goes on: its channel is free. -/
def userUnpark (c : Nat) (s : State) : State :=
  if (s.chan c).state = 2 then (s.modJob (s.chan c).job (fun b => { b with parked := b.parked - 1 })).setChan c {} else s

/-- The channel of a job's parked input copy, else the lowest free one of 80 to 95 (R304). -/
def inputChan (s : State) (j : Nat) : Nat :=
  let l := (List.range 16).map (fun i => 80 + i)
  match l.find? (fun c => (s.chan c).state = 2 && (s.chan c).job = j) with
  | some c => c
  | none => (l.find? (fun c => (s.chan c).state = 0)).getD 80

/-- A job's input copy is parked no more. -/
def freeInputs (j : Nat) (s : State) : State :=
  forAll ((List.range 16).map (fun i => 80 + i)) (fun c s => if (s.chan c).job = j then userUnpark c s else s) s

/-- A page of a checkpoint stream cannot be made present (R314): CKPT_WRITE completes, the generation stays in progress. -/
def ckptFault (c j kind addr : Nat) (s : State) : State :=
  userUnpark c (ckptReply 0x40 0 0x03 (flt 0x1802 0x03 j 0 (locDma c kind addr) s))

/-- The outcome of a fault of a checkpoint stream. -/
def ckptMiss (c j kind page addr : Nat) (s : State) : State := if kind = 2 then userPark c 2 j addr page s else ckptFault c j kind addr s

/-! ### The cut is armed, the shard is complete -/

/-- Index of this module's place in the job plan in force, 0 with no plan (R441). -/
def myIndex (s : State) : Nat := match s.w.topo.jobPlan, myPlace s with | some p, some e => placeIndex p e | _, _ => 0

/-- Copy-before-write is armed over the whole shard at the cut (R445). From a cut on, row blocks are mirrored (R423, R427). -/
def armShard (j cut : Nat) (s : State) : State :=
  let b := s.job j
  let l := shardSects s j cut
  let digest := match b.cur with
    | some t => t.digest
    | none => 0
  flt0 0x6301 0x07 j cut (s.onW (fun w => { w with
    ck := { w.ck with
      armed := true, cut := cut, copied := [], staged := [], stagedBad := [], stageMib := 0, srcs := l
      header := shardHeader (myIndex s) digest cut b.setEpoch b.modeEpoch l }
    mr := { w.mr with cutKnown := true } }))

/-- The shard record (R444). -/
def shardRecord (s : State) (root : Bytes) : Bytes :=
  let ck := s.w.ck
  layout [(2, myIndex s), (2, s.w.topo.node), (4, ck.gen), (8, ck.cut), (1, b2n ck.comp + 2 * b2n (1 < ck.group)), (1, ck.group), (1, ck.rank), (1, 0),
    (4, chunkCount ck.srcs), (8, shardLen ck.srcs), (8, ck.stored), (8, fld ck.desc 16 8), (8, fld ck.desc 32 8)] ++ root ++ zeros 40

/-- When every chunk is done and the cut step has been called good job-wide, the shard record is written and CKPT_WRITE
completes (R445 beat 3). -/
def ckptFinish (j : Nat) (s : State) : State :=
  let ck := s.w.ck
  let n := chunkCount ck.srcs
  if !(ck.state = 1 && ck.armed && ck.job = j && ck.done.length = n && decide (ck.cut ≤ (s.job j).jobGood)) then s
  else
    let leaf (i : Nat) : Bytes := match ck.leaves.find? (fun e => e.1 == i) with
      | some e => e.2
      | none => zeros 32
    let root := rootDigest ((List.range n).map leaf)
    let addr := fld ck.desc 40 8
    match jobWrite s j addr (shardRecord s root) with
    | (some (k, page, dva), _) => ckptMiss 96 j k page dva s
    | (none, s1) =>
      let s2 := flt0 0x6302 0x07 j ck.cut (disarm s1)
      (ckptReply (if 0 < ck.skipped then 0x01 else 0x00) (if 0 < ck.skipped then 3 else 0) 0xFF s2).onW (fun w => { w with ck := { w.ck with
        state := 2, digests := (ck.gen, root) :: w.ck.digests.filter (fun e => e.1 != ck.gen) } })

end Sys2Proof.Machine
end

