-- ==== Sys2Proof/Machine/Cache.lean ====
section
/-! DEFINITION. The memory-side caches of the stacks (R5, R214-R216, R220, R227): a slice of 512 sets of 16 ways for each
pseudo-channel, the four classes of access, lines that are present and lines that are dirty. -/

namespace Sys2Proof.Machine

open Sys2Proof

/-- Class of a stream at its memory end, from flags [1:0] (R126, R214): 0 NORMAL, 1 STREAM, 2 KEEP, 3 LAST. -/
def Strm.cacheClass (q : Strm) : Nat := q.flags % 4 + 1

/-- Two lines fall into one set: the low nine bits of the line number select it (log 178). -/
def sameSet (a b : Nat) : Bool := a % 512 == b % 512

/-- Evict the least recently used line of a set, protected or not. -/
def evict (prot : Bool) (x : Nat) (l : List Line) : List Line :=
  match (l.filter (fun e => sameSet e.key x && e.prot == prot)).getLast? with
  | some v => l.filter (fun e => e.key != v.key)
  | none => l

/-- One access to a line of a slice, most recently used first (R214, R215). -/
def accessLine (keep cls : Nat) (write : Bool) (x : Nat) (l : List Line) : List Line :=
  let inSet := l.filter (fun e => sameSet e.key x)
  let prots := (inSet.filter (fun e => e.prot)).length
  let hold := cls = 2 && decide (0 < keep)
  let room (l : List Line) : List Line := if inSet.length < 16 then l else evict false x l
  match l.find? (fun e => e.key == x) with
  | some e =>
    let rest := l.filter (fun y => y.key != x)
    if cls = 3 && !write then rest
    else
      let more := hold && !e.prot && decide (keep ≤ prots)
      { key := x, dirty := e.dirty || write, prot := e.prot || hold } :: (if more then evict true x rest else rest)
  | none =>
    if hold then { key := x, dirty := write, prot := true } :: (if keep ≤ prots then evict true x l else room l)
    else if cls = 0 || cls = 2 then (if prots < 16 then { key := x, dirty := write } :: room l else l)
    else l

/-- Lines that a range within one 4 KiB granule touches, as keys of 64 B. -/
def linesOf (j h buf off n : Nat) : List Nat :=
  if n = 0 then [] else (List.range ((off + n - 1) / 64 + 1 - off / 64)).map (fun i => devKey j h buf 0 / 64 + off / 64 + i)

/-- Granules of 4 KiB that a range touches, with the part of the range in each: number, first byte, bytes. -/
def granParts (off n : Nat) : List (Nat × Nat × Nat) :=
  if n = 0 then [] else (List.range ((off + n - 1) / 4096 + 1 - off / 4096)).map (fun i =>
    let g := off / 4096 + i
    let a := max off (4096 * g)
    (g, a, min (off + n) (4096 * (g + 1)) - a))

/-! ### An injection into a line (R479, R495-R497) -/

/-- Where target 2 or 3 lies, when it names a code word of a declaration outside tier 3 (R496, R497). -/
def errHome (s : State) : Option Home :=
  let e := s.w.err
  if !s.live e.job then none
  else match s.decl e.job e.handleOrWord with
    | none => none
    | some d =>
      if d.imageBytes ≤ e.offset then none
      else
        let x := homeOf s e.job e.handleOrWord e.offset
        if x.tier = 3 || e.offset % (tierSyms x.tier).1 != 0 then none else some x

/-- The line that target 3 names is in the cache (R216, R496). -/
def errLine (s : State) : Option Line :=
  let e := s.w.err
  match errHome s, s.decl e.job e.handleOrWord with
  | some x, some d => if x.tier = 1 then (tget [] s.w.cache x.place).find? (fun l => l.key == devKey e.job e.handleOrWord d.buf e.offset / 64) else none
  | _, _ => none

/-- The event of a firing (R497). -/
def fired (s : State) : State :=
  let e := s.w.err
  let loc : Loc := if e.target = 1 then locWord (144 * e.die + e.c) e.handleOrWord else { handle := e.handleOrWord, off := e.offset }
  flt 0x190B 0xFF (if e.target = 1 then 0xFF else e.job) 0 loc (s.onW (fun w => { w with err := { w.err with state := 2 } }))

/-- Flip stored bits of the cell word that the injector names (R495); a pattern that comes to nothing is no error. -/
def flipCell (mask : Nat) (s : State) : State :=
  let e := s.w.err
  s.modCell (144 * e.die + e.c) (fun c =>
    let old := match c.flips.find? (fun x => x.1 == e.handleOrWord) with | some x => x.2 | none => 0
    let m := old.xor mask
    { c with flips := c.flips.filter (fun x => x.1 != e.handleOrWord) ++ (if m = 0 then [] else [(e.handleOrWord, m)]) })

/-- Bits that an injection flips in each 64-bit word of a cache line: those of the mask's data symbols, or of a split write's byte for
the word, one for each check bit (R479, R495; log 179). -/
def lineFlips (e : Err) : List Nat :=
  (List.range 8).map (fun w =>
    if e.mode = 3 then popCount (bits e.check (8 * w + 7) (8 * w)) 8 else ((List.range 8).filter (fun i => bit e.mask (8 * w + i))).length * popCount e.pat 8)

/-- Errors strike a line of the memory-side cache (R479): one bit in a word is corrected; more leave the word uncorrectable, a clean
line is read again from DRAM, a dirty granule is written back poisoned. What a word reads as with three bits or more in error the
spec leaves open: a free value. -/
def flipLine (l : Line) (s : State) : State :=
  let e := s.w.err
  let x := homeOf s e.job e.handleOrWord e.offset
  let loc : Loc := { handle := e.handleOrWord, off := e.offset }
  let worst := (lineFlips e).foldl max 0
  let d := if 2 < worst then s.draw else (if worst < 2 then 0 else 1, s)
  if d.1 % 2 = 0 then d.2
  else
    let s1 := d.2.onW (fun w => { w with cache := tput [] w.cache x.place ((tget [] w.cache x.place).filter (fun y => y.key != l.key)) })
    if l.dirty then flt 0x1904 x.unit e.job 0 loc (s1.poisonUnit (64 * l.key) 64) else flt 0x1903 x.unit e.job 0 loc s1

/-- A write has passed the cache: an armed flip-next-write or split write fires where it updated the line of target 3. -/
def afterTouch (j h buf off n : Nat) (s : State) : State :=
  let e := s.w.err
  if !(e.state = 1 && e.target = 3 && (e.mode = 1 || e.mode = 3)) then s
  else match errLine s with
    | some l => if (linesOf j h buf off n).contains l.key then flipLine l (fired s) else s
    | none => s

/-! ### Accesses -/

/-- An access of a class to a range of a declaration passes the cache of every stack it reaches. Table row blocks perform as STREAM,
their writes drop the line, so none of their lines is ever held (R216). -/
def touch (cls : Nat) (write : Bool) (j h buf off n : Nat) (s : State) : State :=
  match s.decl j h with
  | none => s
  | some d =>
    if d.kind = 1 then s
    else
      let s1 := forAll (granParts off n) (fun p s =>
        let x := homeOf s j h (4096 * p.1)
        if x.tier != 1 then s
        else
          let keep := (tget {} s.cfg.stk (x.place / 64)).keepWays
          let l := (linesOf j h buf p.2.1 p.2.2).foldl (fun l y => accessLine keep cls write y l) (tget [] s.w.cache x.place)
          s.onW (fun w => { w with cache := tput [] w.cache x.place l })) s
      if write then afterTouch j h buf off n s1 else s1

/-- Every line of a part of a granule is in the slice of its home: the access is served from the cache. -/
def cached (s : State) (x : Home) (j h buf off n : Nat) : Bool :=
  x.tier = 1 && (let l := tget [] s.w.cache x.place; (linesOf j h buf off n).all (fun y => l.any (fun e => e.key == y)))

/-- A range of a declaration can be accessed now: no home is held, but for cache hits on a pseudo-channel that retrains (R227). -/
def rangeFree (s : State) (j h off n : Nat) : Bool :=
  let buf := match s.decl j h with | some d => d.buf | none => 0
  (granParts off n).all (fun p =>
    let x := homeOf s j h (4096 * p.1)
    !homeHeld s x || (!(s.stack (x.place / 64)).tripped && cached s x j h buf p.2.1 p.2.2))

/-- Granules with dirty lines whose homes satisfy a test (R460, R466). -/
def dirtyGrans (s : State) (p : Home → Bool) : List Gran :=
  (s.w.cache.flatMap (fun e => (e.2.filter (fun l => l.dirty)).filterMap (fun l =>
    let key := 64 * l.key
    let r := key / 2 ^ 48
    let g : Gran := ⟨r / 2 ^ 33, r / 2 % 2 ^ 32, key % 2 ^ 48 / 4096⟩
    let x := homeOf s g.job g.handle (4096 * g.g)
    if (s.decl g.job g.handle).isSome && x == { tier := 1, place := e.1 } && p x then some g else none))).eraseDups

/-- Lines of declarations that are gone leave the caches. -/
def dropLines (gone : Nat → Nat → Bool) (s : State) : State :=
  s.onW (fun w => { w with cache := (w.cache.map (fun e => (e.1, e.2.filter (fun l =>
    let r := 64 * l.key / 2 ^ 48; !gone (r / 2 ^ 33) (r / 2 % 2 ^ 32))))).filter (fun e => e.2 != []) })

end Sys2Proof.Machine
end

