-- ==== Sys2Proof/Machine/Division.lean ====
section
/-! DEFINITION. The division of a position's cells among the stages of its chunks (R141, R142, R146-R149, R189, R190) and the
figures each cell comes to hold (R95, R165). -/

namespace Sys2Proof.Machine

open Sys2Proof

/-! ### Stages as the division sees them -/

/-- How the forward product and the return products of a stage run on the lanes (R69, R151): MX pairs return at the 16-bit
rate. -/
def fwdUse (f : Fig) : LaneUse := let r := pairRate f.aFmt f.bFmt; { kd := r.1, w := r.2, comp := bit f.acc 0 }
def backUse (f : Fig) : LaneUse := if isMx f.aFmt then { kd := 16, w := 1, comp := bit f.acc 0 } else fwdUse f

/-- The return products a stage forms: 0 for dX, 1 for dW (R145). -/
def backProds (t : SetImg) (s : Stage) : List Nat :=
  if isProduct s && s.grad && t.train then
    (if (t.out? (s.idx + 0x8000) 0).isSome then [0] else []) ++ (if s.frozen then [] else [1])
  else []

/-- Chunks of a product's K (R101, R107). -/
def kChunks (f : Fig) (k : Nat) : Nat := if f.aFmt == 0x20 then ceilDiv (3 * k) 16 else ceilDiv k 16

/-- A share of a stage on one cell: split axis (R205), K-part size, first unit, units, and the place and number of the stage's
cells. -/
structure Cut where
  axis : Nat := 0
  part : Nat := 0xFF
  first : Nat := 0
  n : Nat := 0
  place : Nat := 0
  of : Nat := 1

/-- K indices of a share along K: `n` parts of 2^part chunks. -/
def Cut.depth (x : Cut) (f : Fig) (k : Nat) : Nat :=
  let c0 := x.first * 2 ^ x.part
  let c1 := min ((x.first + x.n) * 2 ^ x.part) (kChunks f k)
  if f.aFmt == 0x20 then ceilDiv (16 * c1) 3 - 16 * c0 / 3 else min (16 * c1) k - 16 * c0

/-- N-tiles, K columns, rows and products that a share takes in: (G, N-tiles, N columns, first row block, row blocks, K). -/
structure Extent where
  g : Nat
  nt : Nat
  cols : Nat
  first : Nat
  blocks : Nat
  depth : Nat

def extentOf (s : Stage) (f : Fig) (x : Cut) : Extent :=
  let nb := ceilDiv s.m (max f.rb 1)
  let e : Extent := ⟨s.g, ceilDiv s.n 16, s.n, 0, nb, s.k⟩
  if x.axis = 1 then { e with nt := x.n, cols := min (16 * x.n) (s.n - 16 * x.first) }
  else if x.axis = 2 then { e with g := x.n }
  else if x.axis = 3 then { e with first := x.first, blocks := x.n }
  else if x.axis = 4 then { e with depth := x.depth f s.k }
  else e

/-- Forward work of a share of a product (R141). -/
def fwdWork (s : Stage) (f : Fig) (x : Cut) : Nat :=
  let e := extentOf s f x
  prodWork (fwdUse f) (max f.rb 1) e.g e.nt e.depth s.m e.first e.blocks

/-- N-tiles of dW that a share forms (R148): those of its weight columns; where every cell holds all columns, an even part. -/
def gradTiles (s : Stage) (x : Cut) : Nat :=
  let nt := ceilDiv s.n 16
  if x.axis = 1 then x.n else if x.axis = 3 then ((x.place + 1) * nt) / max x.of 1 - (x.place * nt) / max x.of 1 else nt

/-- Rows of a return product on a share: rows of dX, and rows of dW, which are K indices of the forward product. -/
def backRows (s : Stage) (f : Fig) (x : Cut) (prod : Nat) : Nat :=
  let e := extentOf s f x
  if prod = 0 then (if x.axis = 3 then min (x.n * f.rb) (s.m - x.first * f.rb) else s.m) else e.depth

/-- Return work of a share (R148, R149): dX has shape (M, K, N), its K the share's columns; dW has shape (K, N, M). -/
def backWork (s : Stage) (f : Fig) (x : Cut) (prod rb : Nat) : Nat :=
  let e := extentOf s f x
  let rows := backRows s f x prod
  if prod = 0 then prodWork (backUse f) (max rb 1) e.g (ceilDiv e.depth 16) e.cols rows 0 (ceilDiv rows (max rb 1))
  else prodWork (backUse f) (max rb 1) e.g (gradTiles s x) s.m rows 0 (ceilDiv rows (max rb 1))

/-- Rows of an UPDATE stage: its elements over the row length of its parameter (R141). -/
def updRows (len : Nat → Nat) (s : Stage) : Nat := ceilDiv s.upCount (max (len s.upParam) 1)

/-- Work of a share: forward, return. `len` gives the row length of a tensor's declaration. An UPDATE stage's work is done once
per step, after the visits (R123). -/
def cutWork (t : SetImg) (len : Nat → Nat) (s : Stage) (x : Cut) : Nat × Nat :=
  match t.fig? s with
  | none => (0, 0)
  | some f =>
    if isProduct s then (fwdWork s f x, sumNat ((backProds t s).map (fun p => backWork s f x p f.rb)))
    else if isVector s then (vectorWork (if x.axis = 3 then x.n else s.rowsMb) s.rowLen f, 0)
    else if isUpdate s then (vectorWork (if x.axis = 3 then x.n else updRows len s) (len s.upParam) f, 0)
    else (0, 0)

/-- Work of a whole stage (R141, R149). -/
def stageWork (t : SetImg) (len : Nat → Nat) (s : Stage) : Nat × Nat := cutWork t len s {}

/-- Units of a stage along an axis; along K the parts of 2^part chunks. -/
def axisUnits (t : SetImg) (len : Nat → Nat) (s : Stage) (axis part : Nat) : Nat :=
  if isProduct s then
    match t.fig? s with
    | none => 1
    | some f => if axis = 1 then ceilDiv s.n 16 else if axis = 2 then s.g else if axis = 3 then ceilDiv s.m (max f.rb 1)
        else if axis = 4 then ceilDiv (kChunks f s.k) (2 ^ part) else 1
  else if isUpdate s then updRows len s else if isVector s then s.rowsMb else 1

/-- Axes a stage may be split along, in the preference of R190. -/
def axesOf (s : Stage) : List Nat := if isProduct s then [1, 2, 3, 4] else if isVector s || isUpdate s then [3] else [0]

/-- K-part size of a K split over `n` cells: the largest L that leaves a part for every cell (R108); 0 where none does. -/
def partFor (f : Fig) (k n : Nat) : Nat := (((List.range 16).filter (fun l => decide (n ≤ ceilDiv (kChunks f k) (2 ^ l)))).foldl max 0)

/-! ### Figures of a cell -/

/-- Figures a stage keeps resident on each of its cells (R95, R146): its own, and one for each return product. Identical stages
share them (R165): a return figure is told apart by its product, format, tied bit and shape. -/
def stageFigs (t : SetImg) (s : Stage) : List (List Nat) :=
  [s.fig] :: (backProds t s).map (fun p =>
    [s.fig, p + 1, (match t.out? (s.idx + 0x8000) p with | some q => q.fmt | none => 0), b2n (s.tied != 0xFFFF), s.m, s.n, s.k])

/-- Bytes of a resident figure: a return figure is a product record of 64 B (R134). -/
def figBytes (t : SetImg) (x : List Nat) : Nat := match x with
  | [k] => (match t.figs[k]? with | some f => f.len | none => 0)
  | _ => 64

/-- A cell while stages are given to it: plane key, rate class, work per micro-batch (R141), figures, and whether figures switch
on it. -/
structure Bin where
  key : Nat
  cls : Nat
  work : Nat := 0
  runs : Nat := 0
  figs : List (List Nat) := []

/-- Figures of a cell within the limits of R95. -/
def figsFit (t : SetImg) (l : List (List Nat)) : Bool :=
  decide (l.length ≤ 8) && decide (sumNat (l.map (figBytes t)) ≤ 65536)

/-- Work with 32 cycles for each figure that runs, where more than one does (R95, R141). -/
def Bin.total (b : Bin) : Nat := b.work + (if b.runs ≤ 1 then 0 else 32 * b.runs)

/-- Time of work at a rate class, in 1/10,000 of a cycle at class 100. -/
def timeAt (w cls : Nat) : Nat := w * 1000000 / max cls 1
def Bin.time (b : Bin) : Nat := timeAt b.total b.cls

/-- A share put on a cell. -/
def Bin.take (t : SetImg) (s : Stage) (w : Nat) (b : Bin) : Bin :=
  { b with work := b.work + w, figs := (b.figs ++ stageFigs t s).eraseDups
           runs := b.runs + (if isProduct s || isVector s then 1 + (backProds t s).length else 0) }

/-! ### The division (R190) -/

/-- `n` units over weights by largest remainder, ties to the first (R190 rule 2). -/
def apportion (n : Nat) (ws : List Nat) : List Nat :=
  let tot := max (sumNat ws) 1
  let base := ws.map (fun w => n * w / tot)
  let order := sortBy (fun p => tot - n * p.1 % tot) ws.zipIdx
  let win := (order.take (n - sumNat base)).map (fun p => p.2)
  base.zipIdx.map (fun p => p.1 + b2n (win.contains p.2))

/-- The cuts of a stage along an axis over cells of the given classes; a cell may get none. -/
def cutsOf (t : SetImg) (len : Nat → Nat) (s : Stage) (axis : Nat) (cls : List Nat) : List Cut :=
  let part := match t.fig? s with
    | some f => if axis = 4 then partFor f s.k cls.length else 0xFF
    | none => 0xFF
  let ns := apportion (axisUnits t len s axis part) cls
  ns.zipIdx.map (fun p => { axis := axis, part := part, first := sumNat (ns.take p.2), n := p.1, place := p.2, of := ns.length })

/-- Heaviest time of a stage cut along an axis. -/
def axisTime (t : SetImg) (len : Nat → Nat) (s : Stage) (cls : List Nat) (axis : Nat) : Nat :=
  (((cutsOf t len s axis cls).zip cls).map (fun p => if p.1.n = 0 then 0 else let w := cutWork t len s p.1; timeAt (w.1 + w.2) p.2)).foldl max 0

/-- K-part size of dX where the forward stage is split along N (R148): 2^L chunks divide every cell's share. -/
def backPartOf (l : List Cut) : Nat :=
  ((List.range 16).filter (fun k => l.all (fun x => x.n % 2 ^ k == 0))).foldl max 0

/-- The division record of a stage from its cuts. -/
def divisionOf (t : SetImg) (len : Nat → Nat) (s : Stage) (axis : Nat) (keys : List Nat) (l : List Cut) : Division :=
  let used := (keys.zip l).filter (fun p => p.2.n != 0)
  let ws := used.map (fun p => cutWork t len s p.2)
  let longK := match t.fig? s with | some f => isProduct s && decide (65535 < kChunks f s.k) | none => false
  { stage := s.idx, axis := if used.length ≤ 1 then 0 else axis
    kpart := if axis = 4 && 1 < used.length then (match l with | x :: _ => x.part | [] => 0xFF) else if longK then 15 else 0xFF
    share := (ws.map (fun w => w.1)).foldl max 0, backShare := (ws.map (fun w => w.2)).foldl max 0
    backPart := if axis = 1 && 1 < used.length && (backProds t s).contains 0 then backPartOf (used.map (fun p => p.2)) else 0xFF
    at_ := used.map (fun p => (p.1, p.2.first, p.2.n)) }

/-- Put a stage on cells `off` to `off + n - 1` of a list of cells, cut along an axis. -/
def assign (t : SetImg) (len : Nat → Nat) (s : Stage) (axis off n : Nat) (bins : List Bin) : Division × List Bin :=
  let mine := (bins.drop off).take n
  let cuts := cutsOf t len s axis (mine.map (fun b => b.cls))
  (divisionOf t len s axis (mine.map (fun b => b.key)) cuts,
   bins.take off ++ (mine.zip cuts).map (fun p => if p.2.n = 0 then p.1
     else let w := cutWork t len s p.2; p.1.take t s (if isUpdate s then 0 else w.1 + w.2)) ++ bins.drop (off + n))

/-- Index of the cell a small stage goes to (R190 rule 4): the first that it does not make the heaviest, else the least
loaded; only cells with figure room, where there is one. -/
def smallPlace (t : SetImg) (s : Stage) (w : Nat) (bins : List Bin) : Nat :=
  let room := bins.zipIdx.filter (fun p => figsFit t ((p.1.take t s w).figs))
  let top := (bins.map Bin.time).foldl max 0
  match room.find? (fun p => decide ((p.1.take t s w).time ≤ top)) with
  | some p => p.2
  | none => match sortBy (fun p => (p.1.take t s w).time) room with
    | p :: _ => p.2
    | [] => 0

/-- The division of a chunk's stages over cells: cells in proportion to work (R142), each stage along the first axis of R190's
preference that keeps the period, small stages beside the others, UPDATE stages over every cell with figure room. -/
def divideOver (t : SetImg) (len : Nat → Nat) (ss : List Stage) (bins : List Bin) : List Division × List Bin :=
  let visit := ss.filter (fun s => !isUpdate s)
  let ws := visit.map (fun s => let w := stageWork t len s; w.1 + w.2)
  let ns := if sumNat ws = 0 then ws.map (fun _ => 0) else apportion bins.length ws
  let offs := ns.zipIdx.map (fun p => sumNat (ns.take p.2))
  let big := (visit.zip (ns.zip offs)).filter (fun p => p.2.1 != 0)
  let cls (p : Stage × Nat × Nat) : List Nat := ((bins.drop p.2.2).take p.2.1).map (fun b => b.cls)
  let top := (big.map (fun p => ((axesOf p.1).map (axisTime t len p.1 (cls p))).foldl min (2 ^ 200))).foldl max 0
  let a := big.foldl (fun (acc : List Division × List Bin) p =>
    let axis := ((axesOf p.1).find? (fun x => decide (axisTime t len p.1 (cls p) x ≤ top))).getD ((axesOf p.1).headD 0)
    let r := assign t len p.1 axis p.2.2 p.2.1 acc.2
    (acc.1 ++ [r.1], r.2)) ([], bins)
  let b := ((visit.zip ns).filter (fun p => p.2 = 0)).foldl (fun (acc : List Division × List Bin) p =>
    let w := stageWork t len p.1
    let i := smallPlace t p.1 (w.1 + w.2) acc.2
    match acc.2[i]? with
    | none => acc
    | some bin => (acc.1 ++ [{ divisionOf t len p.1 0 [bin.key] [{ n := 1 }] with at_ := [(bin.key, 0, 1)] }],
        acc.2.take i ++ [bin.take t p.1 (w.1 + w.2)] ++ acc.2.drop (i + 1))) a
  (ss.filter isUpdate).foldl (fun (acc : List Division × List Bin) s =>
    let room := acc.2.filter (fun x => figsFit t ((x.take t s 0).figs))
    let use := if room.isEmpty then acc.2.take 1 else room
    let r := assign t len s 3 0 use.length use
    (acc.1 ++ [r.1], acc.2.map (fun x => (r.2.find? (fun y => y.key == x.key)).getD x))) b

/-- Plane keys of a rectangle (first row, rows, first column, columns) over a list of plane rows, row by row. -/
def rectKeys (row : Nat → Nat) (r : Nat × Nat × Nat × Nat) : List Nat :=
  (List.range r.2.1).flatMap (fun a => (List.range r.2.2.2).map (fun c => 16 * row (r.1 + a) + r.2.2.1 + c))

/-- Stages of a chunk that are not pinned, in index order (R164). -/
def chunkStages (t : SetImg) (chunks : List (List Nat)) (c : Nat) : List Stage :=
  t.stages.filter (fun s => !s.pinned && endChunk t chunks s.idx = c)

/-- Everything one pair (p, v) gives: chunks, divisions and cells, those of the pins last. -/
def tryPair (t : SetImg) (len : Nat → Nat) (cls : Nat → Nat) (rows ls : List Nat) (p v : Nat) : List (List Nat) × List Division × List Bin :=
  let chunks := cutChunks ls (p * v)
  let bin (k : Nat) : Bin := { key := k, cls := cls k }
  let pos := (List.range p).map (fun i =>
    let bins := (rectKeys (fun a => rows.getD a 0) (positionRect rows.length p i)).map bin
    (List.range v).foldl (fun (acc : List Division × List Bin) k =>
      let r := divideOver t len (chunkStages t chunks (k * p + i)) acc.2
      (acc.1 ++ r.1, r.2)) (([] : List Division), bins))
  let pins := (t.stages.filter (fun s => s.pinned)).foldl (fun (acc : List Division × List Bin) s =>
    let keys := rectKeys id (pinRect s)
    let mine := keys.map (fun k => (acc.2.find? (fun b => b.key == k)).getD (bin k))
    let r := divideOver t len [s] mine
    (acc.1 ++ r.1, acc.2.filter (fun b => !keys.contains b.key) ++ r.2)) (([] : List Division), ([] : List Bin))
  (chunks, sortBy (fun d => d.stage) (pos.flatMap (fun x => x.1) ++ pins.1), pos.flatMap (fun x => x.2) ++ pins.2)

/-- The cell with the most work: W and its rate class (R169), ties to the first. -/
def heaviest (bins : List Bin) : Nat × Nat :=
  bins.foldl (fun acc b => if acc.1 < b.total then (b.total, b.cls) else acc) (0, 100)

/-- The period in cycles at rate class 100 (R142). -/
def periodOf (bins : List Bin) : Nat := (bins.map Bin.time).foldl max 0 / 10000

/-- Work of all visits of a set per micro-batch (R142). -/
def totalWork (t : SetImg) (len : Nat → Nat) : Nat :=
  sumNat ((t.stages.filter (fun s => !isUpdate s)).map (fun s => let w := stageWork t len s; w.1 + w.2))

end Sys2Proof.Machine
end

