-- ==== Sys2Proof/Machine/Store.lean ====
section
/-! DEFINITION. What a placement puts into the cells: stream depths (R130), figure buffers and return row blocks (R135, R147),
part stacks (R154), weight shares (R193) and retained activations (R156, R157). -/

namespace Sys2Proof.Machine

open Sys2Proof

/-! ### Stream depths (R130)

The rule asks for the depth that keeps joins free of deadlock at the placed rates and gives no formula. The model's own (log 167):
a stream that another path between the same two stages passes by holds what the stages of that path hold. -/

/-- What a stage end holds before it puts out a row, in millionths of a micro-batch: a product two row blocks, or everything
where an operand is streamed or read transposed; a vector stage a row. -/
def heldPart (t : SetImg) (e : Nat) : Nat :=
  match t.stage? (e % 0x8000) with
  | none => 0
  | some s => match t.fig? s with
    | none => 0
    | some f =>
      if isProduct s then
        if 0x8000 ≤ e || (f.bSrc = 0 && !bit f.tr 0) then min 1000000 (ceilDiv (2 * f.rb * 1000000) (max s.m 1)) else 1000000
      else if isVector s then ceilDiv 1000000 (max s.rowsMb 1)
      else if isLookup s then ceilDiv 1000000 (max s.bags 1) else 1000000

/-- One round of longest paths: arrivals of stage ends, by end, as 1 + millionths. -/
def depthRound (t : SetImg) (src : Nat) (arr : Tab Nat) : Tab Nat :=
  t.streams.foldl (fun a r =>
    if r.retain || r.src == 0xFFFF || r.dst == 0xFFFF || r.src == src then a
    else match tget 0 a r.src with
      | 0 => a
      | x + 1 => tput 0 a r.dst (max (tget 0 a r.dst) (1 + x + heldPart t r.src))) arr

def depthRounds (t : SetImg) (src : Nat) : Nat → Tab Nat → Tab Nat
  | 0, a => a
  | n + 1, a => let b := depthRound t src a; if b == a then a else depthRounds t src n b

/-- What the longest other path from the source of a stream to its sink holds, in millionths of a micro-batch; 0 with no other
path. -/
def bypass (t : SetImg) (q : Strm) : Nat :=
  let start := (t.streams.filter (fun r => r.src == q.src && r.dst != q.dst && r.dst != 0xFFFF && !r.retain)).foldl (fun a r => tput 0 a r.dst 1) []
  tget 0 (depthRounds t q.src (2 * t.stages.length) start) q.dst - 1

/-- The depth a record asks for, and the depth the Caller computes (R126, R130). -/
def recDepth (q : Strm) : Nat := if q.depth = 0 then 8 else q.depth
def joinDepth (t : SetImg) (q : Strm) : Nat :=
  if q.retain || q.src == 0xFFFF || q.dst == 0xFFFF then 0
  else let b := bypass t q; if b = 0 then 0 else ceilDiv (q.rows * rowItems q.fmt q.len * b) 1000000 + 1

/-- Streams whose computed depth exceeds 64 items pass through a ring in tier 1; every other stream takes the larger depth. -/
def ringsOf (t : SetImg) : List Nat := (t.streams.filter (fun q => decide (64 < joinDepth t q))).map (fun q => q.idx)
def depthsOf (t : SetImg) : Tab Nat :=
  t.streams.foldl (fun a q => let d := joinDepth t q; tput 8 a q.idx (if 64 < d then recDepth q else max d (recDepth q))) []

/-! ### Figure buffers (R135, R147) -/

/-- The cuts of a stage's division, with the plane keys of their cells. -/
def Division.cuts (d : Division) : List (Nat × Cut) :=
  d.at_.zipIdx.map (fun p => (p.1.1, { axis := d.axis, part := d.kpart, first := p.1.2.1, n := p.1.2.2, place := p.2, of := d.at_.length }))

/-- Bytes of two A blocks of `rows` rows and depth `k`. -/
def blockBytes (rows k fmt : Nat) : Nat := 2 * ceilDiv (rows * k * elemBits fmt) 8

/-- Stream buffers of the input ports of a stage end, but for one port. -/
def portBytes (t : SetImg) (depths : Tab Nat) (e skip : Nat) : Nat :=
  64 * sumNat (((t.ins e).filter (fun q => q.dstPort != skip && !q.retain)).map (fun q => tget 8 depths q.idx))

/-- Figure buffers of a share of a stage. -/
def fwdBuf (t : SetImg) (depths : Tab Nat) (s : Stage) (x : Cut) : Nat :=
  match t.fig? s with
  | none => 0
  | some f => if isProduct s then blockBytes f.rb (extentOf s f x).depth f.aFmt + portBytes t depths s.idx f.aPort else portBytes t depths s.idx 4

/-- Buffers of a return figure with row block `rb` on a share: the A operand is dY for dX, and X for dW. -/
def backBuf (t : SetImg) (depths : Tab Nat) (s : Stage) (f : Fig) (x : Cut) (prod rb : Nat) : Nat :=
  let e := s.idx + 0x8000
  let fmt (p d : Nat) : Nat := match t.in? e p with | some q => if isMx q.fmt then 0x02 else q.fmt | none => d
  if prod = 0 then blockBytes rb (extentOf s f x).cols (fmt 0 f.aFmt) else blockBytes rb s.m (fmt 1 f.aFmt) + portBytes t depths e 1

/-- Add bytes at plane keys. -/
def addAt (u : Tab Nat) (l : List (Nat × Nat)) : Tab Nat := l.foldl (fun u e => tmod 0 u e.1 (fun n => n + e.2)) u

def storeBytes : Nat := 2097152

/-- A store of every cell within its 2 MiB. -/
def storeFits (u : Tab Nat) : Bool := u.all (fun e => decide (e.2 ≤ storeBytes))

/-- The largest row block, from the forward one down to 8, with which a return figure still fits all its cells (R147). -/
def returnRb (t : SetImg) (depths : Tab Nat) (s : Stage) (f : Fig) (d : Division) (prod : Nat) (u : Tab Nat) : Nat × Tab Nat :=
  let with_ (rb : Nat) : Tab Nat := addAt u (d.cuts.map (fun p => (p.1, backBuf t depths s f p.2 prod rb - backBuf t depths s f p.2 prod 8)))
  let rb := 8 * ((List.range (f.rb / 8 + 1)).filter (fun k => decide (1 ≤ k) && storeFits (with_ (8 * k)))).foldl max 1
  (rb, with_ rb)

/-- Buffers of the stages on their cells with every return row block at 8, over what is there already; then the row blocks
raised in stage-index order: the divisions with their row blocks, and the bytes. None where even 8 does not fit. -/
def placeBuffers (t : SetImg) (depths : Tab Nat) (ds : List Division) (u0 : Tab Nat) : Option (List Division × Tab Nat) :=
  let u1 := ds.foldl (fun u d => match t.stage? d.stage with
    | none => u
    | some s => match t.fig? s with
      | none => u
      | some f => addAt u (d.cuts.map (fun p => (p.1, fwdBuf t depths s p.2 + sumNat ((backProds t s).map (fun k => backBuf t depths s f p.2 k 8)))))) u0
  if !storeFits u1 then none
  else some (ds.foldl (fun (acc : List Division × Tab Nat) d => match t.stage? d.stage with
    | none => (acc.1 ++ [d], acc.2)
    | some s => match t.fig? s with
      | none => (acc.1 ++ [d], acc.2)
      | some f =>
        let r := (backProds t s).foldl (fun (a : Division × Tab Nat) k =>
          let x := returnRb t depths s f d k a.2
          (if k = 0 then { a.1 with rbX := x.1 } else { a.1 with rbW := x.1 }, x.2)) (d, acc.2)
        (acc.1 ++ [r.1], r.2)) ([], u1))

/-- Work of the shares of a division with its own return row blocks, by plane key (R149). -/
def Division.work (t : SetImg) (len : Nat → Nat) (d : Division) : List (Nat × Nat × Nat) :=
  match t.stage? d.stage with
  | none => []
  | some s => match t.fig? s with
    | none => []
    | some f => d.cuts.map (fun p => (p.1, (cutWork t len s p.2).1, sumNat ((backProds t s).map (fun k => backWork s f p.2 k (if k = 0 then d.rbX else d.rbW)))))

/-- Weights that have a return copy (R151, R152): bytes per element, and buffers. -/
def copiesOf (t : SetImg) : List (Nat × Nat × Nat) :=
  let l := t.stages.filterMap (fun s => match t.fig? s with
    | some f => if (backProds t s).contains 0 && (weightOnly f.bFmt || isMx f.bFmt) then
        some (s.weight, (if f.aFmt == 0x04 || f.aFmt == 0x05 then 1 else 2), (if t.stages.any (fun u => isUpdate u && u.upParam == s.weight) then 2 else 1)) else none
    | none => none)
  (l.map (fun e => e.1)).eraseDups.filterMap (fun id => l.find? (fun e => e.1 == id))

/-! ### Part stacks, weight shares, retained streams -/

/-- Bit length of a number. -/
def bitLen : Nat → Nat → Nat
  | 0, _ => 0
  | k + 1, n => if n = 0 then 0 else 1 + bitLen k (n / 2)

/-- Bytes of one element's part stack in a set (R154). -/
def stackBytes (t : SetImg) (f : Fig) : Nat := bitLen 13 t.mb * (if bit f.acc 0 then 8 else 4)

/-- Part-stack bytes of a set's gradients, all cells together. -/
def partBytes (t : SetImg) : Nat :=
  sumNat ((t.stages.filter (fun s => (backProds t s).contains 1)).map (fun s => match t.fig? s with
    | some f => s.g * s.n * s.k * stackBytes t f
    | none => 0))

/-- Part-stack bytes of a division, by plane key. -/
def Division.partShare (t : SetImg) (d : Division) : List (Nat × Nat) :=
  match t.stage? d.stage with
  | none => []
  | some s => match t.fig? s with
    | none => []
    | some f => if (backProds t s).contains 1 then d.cuts.map (fun p =>
        (p.1, (extentOf s f p.2).g * backRows s f p.2 1 * min s.n (16 * gradTiles s p.2) * stackBytes t f)) else []

/-- The part of a weight that a share uses, as a fraction. -/
def weightPart (t : SetImg) (s : Stage) (x : Cut) : Nat × Nat :=
  if x.axis = 0 || x.axis = 3 then (1, 1)
  else match t.fig? s with
    | none => (1, 1)
    | some f => (x.n, max 1 (if x.axis = 1 then ceilDiv s.n 16 else if x.axis = 2 then s.g else ceilDiv (kChunks f s.k) (2 ^ x.part)))

/-- Weight bytes of a division, by plane key; `bytes` gives a tensor's. -/
def Division.weights (t : SetImg) (bytes : Nat → Nat) (d : Division) : List (Nat × Nat) :=
  match t.stage? d.stage with
  | none => []
  | some s => if isProduct s && s.weight != 0 then d.cuts.map (fun p => let w := weightPart t s p.2; (p.1, ceilDiv (bytes s.weight * w.1) w.2)) else []

/-- Bytes per micro-batch of a retained stream in its storage (R153, R156): tile-major, padded to multiples of 16; X of an MX
product as BF16. -/
def keptBytes (q : Strm) : Nat :=
  let bf := isMx q.fmt && 0x8000 ≤ q.dst
  let n := roundUp q.rows 16 * roundUp q.len 16
  ceilDiv (n * (if bf then 16 else elemBits q.fmt)) 8 + (if isMx q.fmt && !bf then ceilDiv n 32 else 0)

/-- The part of a retained stream that a share of its sink consumes, as a fraction (R156). -/
def keptPart (t : SetImg) (s : Stage) (x : Cut) : Nat × Nat :=
  if x.axis = 2 || x.axis = 4 then weightPart t s x
  else if x.axis = 3 && isVector s then (x.n, max 1 s.rowsMb) else (1, 1)

/-- Micro-batches in flight at the chunk of a stage end (R157, R170). -/
def flight (t : SetImg) (chunks : List (List Nat)) (p v e : Nat) : Nat :=
  let c := endChunk t chunks e
  inFlightMax (visitOrder t.mb p v (c % max p 1)) c

/-- Topological rank of every stage end: the longest chain of streams into it. -/
def rankRounds (t : SetImg) : Nat → Tab Nat → Tab Nat
  | 0, a => a
  | n + 1, a =>
    let b := t.streams.foldl (fun a r => if r.src == 0xFFFF || r.dst == 0xFFFF then a else tmod 0 a r.dst (fun x => max x (tget 0 a r.src + 1))) a
    if b == a then a else rankRounds t n b

/-- Retained streams in the order of R157: decreasing layer of the sink, then the order of first consumption, then index. -/
def retained (t : SetImg) : List Strm :=
  let rank := rankRounds t (2 * t.stages.length) []
  sortBy (fun q => ((65536 - (match t.stage? (q.dst % 0x8000) with | some s => s.layer | none => 0)) * 65536 + tget 0 rank q.dst) * 65536 + q.idx)
    (t.streams.filter (fun q => q.retain && q.dst != 0xFFFF))

/-- Keep retained streams in cell store until the first that does not fit (R157): those kept, and the bytes. -/
def keepStreams (t : SetImg) (ds : List Division) (n : Nat → Nat) : List Strm → Tab Nat → List Nat × Tab Nat
  | [], u => ([], u)
  | q :: r, u =>
    match t.stage? (q.dst % 0x8000), ds.find? (fun d => d.stage == q.dst % 0x8000) with
    | some s, some d =>
      let u1 := addAt u (d.cuts.map (fun p => let w := keptPart t s p.2; (p.1, ceilDiv (keptBytes q * n q.dst * w.1) w.2)))
      if storeFits u1 then let k := keepStreams t ds n r u1; (q.idx :: k.1, k.2) else ([], u)
    | _, _ => ([], u)

/-- Bytes that cell-store pins take on the cells (R193 priority 1): a weight its shares, an aux tensor a copy on each cell of its
stages, any other tensor even parts over the cells of the stages that name it. -/
def pinBytes (t : SetImg) (ds : List Division) (pins : List (Nat × Nat)) : List (Nat × Nat × Nat) :=
  pins.flatMap (fun p =>
    let users := ds.filter (fun d => match t.stage? d.stage with
      | some s => (stageTensors s).any (fun e => e.2 == p.1) || t.streams.any (fun q => q.tensor == p.1 && (q.src % 0x8000 == s.idx && q.dst == 0xFFFF || q.dst % 0x8000 == s.idx && q.src == 0xFFFF))
      | none => false)
    let per := users.flatMap (fun d => match t.stage? d.stage with
      | some s => if isProduct s && s.weight == p.1 then d.weights t (fun _ => p.2)
          else if isVector s && s.aux.contains p.1 then d.cuts.map (fun c => (c.1, p.2)) else d.cuts.map (fun c => (c.1, ceilDiv p.2 (max d.cuts.length 1)))
      | none => [])
    let keys := (per.map (fun e => e.1)).eraseDups
    keys.map (fun k => (p.1, k, ((per.filter (fun e => e.1 == k)).map (fun e => e.2)).foldl max 0)))

end Sys2Proof.Machine
end

