-- ==== Sys2Proof/Machine/JobOps.lean ====
section
/-! DEFINITION. What happens to a job as a whole: modes (R176-R180), device writes under copy-before-write (R446), failing a
step (R411, R412), rolling back (R258, R412, R432), the two barriers' trees (R377, R378), starting a step (R160, R281). -/

namespace Sys2Proof.Machine

open Sys2Proof

/-! ### Modes -/

/-- The mode in force as a record (R177). -/
def Job.modeRec (b : Job) : ModeRec :=
  { epoch := b.modeEpoch, setEpoch := b.setEpoch, set := b.cur, place := b.place, k := b.k, chk := b.chk, compress := b.compress
    forced := b.forced, norms := b.norms, setSteps := b.setSteps, tiers := b.tiers, migBudget := b.pset.migBudget, first := b.epochFirst }

/-- Tiers of row blocks when a set becomes current: tables that both sets name keep their homes (R203). -/
def mergeTiers (b : Job) (t : SetImg) (new : List (Nat × Nat × Nat)) : List (Nat × Nat × Nat) :=
  let kept := match b.cur with
    | some o => (o.tensors.filter (fun (r : Tens) => r.role = 5 && t.tensors.any (fun (q : Tens) => q.id == r.id && q.handle == r.handle))).map (fun (r : Tens) => r.id)
    | none => []
  b.tiers.filter (fun e => kept.contains e.1) ++ new.filter (fun e => !kept.contains e.1)

/-- Put a mode record in force; row blocks of tables that both sets name stay where they are (R203). -/
def Job.withMode (b : Job) (m : ModeRec) : Job :=
  { b with modeEpoch := m.epoch, setEpoch := m.setEpoch, cur := m.set, place := m.place, k := m.k, chk := m.chk
           compress := m.compress, forced := m.forced, norms := m.norms, setSteps := m.setSteps, epochFirst := m.first
           tiers := (match m.set with | some t => mergeTiers b t m.tiers | none => m.tiers), pset := { b.pset with migBudget := m.migBudget } }

/-- Make a set current (R120): set epoch, norm window, migration budget override (R201), conservative first step (R160). -/
def Job.makeCurrent (b : Job) (t : SetImg) (p : Place) : Job :=
  { b with cur := some t, place := p, setEpoch := wrapAdd 32 b.setEpoch 1, norms := [], setSteps := 0, consNext := true, topoDue := true
           pset := { b.pset with migBudget := 0xFFFF } }

/-- A mode that enables compression for step `n` sets the residual that the step reads to +0 (R372). -/
def Job.enableResid (b : Job) (m : Mode) (n : Nat) : List Resid :=
  let fresh := m.compress.filter (fun c => c.2.1 != 0 && !b.compress.any (fun e => e.1 == c.1 && e.2.1 != 0))
  b.resid.map (fun r => if fresh.any (fun c => c.1 == r.tensor) then { r with bufs := r.bufs.zipIdx.map (fun p => if p.2 = n % 3 then p.1.map (fun _ => 0) else p.1) } else r)

/-- Apply a staged mode for step `n`: the current mode becomes the previous one (R177, R178). -/
def Job.applyMode (b : Job) (m : Mode) (n : Nat) : Job :=
  let old := b.modeRec
  let b1 := match m.set with
    | some t => { b.makeCurrent t (m.place.getD {}) with staged := none }
    | none => b
  { b1 with prev := some old, modeEpoch := m.epoch, k := m.k.getD b1.k, chk := m.chk.getD b1.chk
            compress := m.compress.foldl (fun l c => if c.2.1 = 0 then l.filter (fun e => e.1 != c.1) else l.filter (fun e => e.1 != c.1) ++ [c]) b1.compress
            forced := m.forced.getD b1.forced, stagedMode := none, commit := none, applied := some (n, m), epochFirst := none
            resid := b.enableResid m n }

/-- The job plan of a set (R117, R338). -/
def SetImg.plan (t : SetImg) : Option Plan := if t.planOff = 0 then none else some (parsePlan (t.img.drop t.planOff))

/-- Put the plan of the set that holds the array in force (R337, R339); a set newly current takes the nodes it lists back
(R350), and other places end the substitutions. -/
def syncPlan (listed : Bool) (s : State) : State :=
  let p := match s.w.holder with
    | some j => (match (s.job j).cur with
      | some t => t.plan
      | none => none)
    | none => none
  let same := p == s.w.topo.jobPlan
  let lost := match listed, p with
    | true, some q => s.w.topo.lost.filter (fun n => !q.places.any (fun e => e.node == n))
    | _, _ => s.w.topo.lost
  if same && lost == s.w.topo.lost then s
  else replan (s.onW (fun w => { w with topo := { w.topo with jobPlan := p, lost := lost, subs := if same then w.topo.subs else [] } }))

/-! ### The journal, failing a step -/

def Job.entry? (b : Job) (n : Nat) : Option Jrn := b.jrn.find? (fun e => e.step == n)
def Job.modEntry (b : Job) (n : Nat) (f : Jrn → Jrn) : Job := { b with jrn := updWhere (fun e => e.step == n) f b.jrn }

/-- The step that is running. -/
def Job.runStep (b : Job) : Option Nat := b.run.map (fun r => r.step)

/-- A failure found for step `n` of a job (R389, R393, R397, R410): the first failure of a step stands; one found after its
barrier has exited fails the next step with cause 7. -/
def failStep (j n : Nat) (f : Fail) (cells : List Nat) (s : State) : State :=
  s.modJob j (fun b =>
    let b1 := b.modEntry n (fun e => { e with failed := true, fail := if e.fail.status = 0 then f else e.fail, cells := (e.cells ++ cells).eraseDups })
    match b1.run with
    | some r =>
      if r.step = n then (if r.fail.isSome then b1 else { b1 with run := some { r with fail := some f } })
      else if n < r.step && r.fail.isNone then { b1 with run := some { r with fail := some { f with detail := 7 * 256 } } }
      else b1
    | none => b1)

/-- The status of a failure as a STEP_RUN reply: a check or disagreement carries its cause and unit 0x05 (R411). -/
def checkFail (cause stage : Nat) : Fail := { status := if cause = 9 then 0x53 else 0x52, detail := cause * 256, unit := 0x05, stage := stage }

/-- The result bytes of a STEP_RUN or LET_REPLAY (R279). -/
def stepResult (s : State) (r : StepRun) (stage : Nat) : Bytes :=
  if r.fail.any (fun f => f.status = 0x40) then zeros 16
  else layout [(8, r.step), (4, (s.now - r.startNs) / 1000), (1, b2n r.conservative), (1, 0), (2, stage)]

/-- Complete the STEP_RUN or LET_REPLAY of step `n` of a job. -/
def completeStep (j n status detail unit stage : Nat) (s : State) : State :=
  let res : Bytes := match (s.job j).run with
    | some r => if r.step = n then stepResult s r stage else layout [(8, n), (4, 0), (1, 0), (1, 0), (2, stage)]
    | none => layout [(8, n), (4, 0), (1, 0), (1, 0), (2, stage)]
  completeAll (fun r => (r.op = 0x0302 || r.op = 0x0602) && r.hdr.job = j && r.a = n) status detail unit (fun _ => res) s

/-- Command and step of a waiting STEP_RUN or LET_REPLAY. -/
def waitKey (c : Instr) : Hdr × Nat :=
  match c with
  | .stepRun h n _ _ _ _ _ => (h, n)
  | .letReplay h n => (h, n)
  | _ => ({}, 0)

/-- Complete a waiting STEP_RUN or LET_REPLAY that has not started: detail bit 0 is set (R278, R281). -/
def failOne (c : Instr) (status detail unit stage : Nat) (s : State) : State :=
  let k := waitKey c
  completeAll (fun r => (r.op = 0x0302 || r.op = 0x0602) && r.hdr == k.1 && r.a = k.2) status (if bit detail 0 then detail else detail + 1) unit
    (fun _ => layout [(8, k.2), (4, 0), (1, 0), (1, 0), (2, stage)]) s

/-- Every waiting STEP_RUN completes with the status of the step that failed before it (R281). -/
def failWaiting (j status detail unit stage : Nat) (s : State) : State :=
  let l := (s.job j).waiting
  match l with
  | [] => s
  | e :: _ => forAll l (fun c s => failOne c.1 status detail unit stage s)
      (s.modJob j (fun b => { b with waiting := [], nextStep := some (waitKey e.1).2 }))

/-- A staged mode is discarded and its MODE_COMMIT completes with MODE_ABORTED (R180). -/
def abortMode (j : Nat) (s : State) : State :=
  let s1 := s.modJob j (fun b => { b with stagedMode := none, commit := none })
  completeAll (fun r => r.op = 0x0305 && r.hdr.job = j) 0x71 0 0xFF (fun _ => leBytes 4 (s1.job j).modeEpoch) s1

/-! ### Journal entry bytes (R406) -/

def entryBytes (b : Job) (e : Jrn) : Bytes :=
  let agreed := b.samps.all (fun x => x.step != e.step)
  let st := b2n e.ended + 2 * b2n e.plaus + 4 * b2n agreed + 8 * b2n e.acked + 16 * b2n e.good + 32 * b2n e.failed + 64 * b2n e.conservative + 128 * b2n e.replay
  let undo := sumNat ((b.undo.filter (fun u => u.step = e.step)).map (fun u => 16 + u.image.length))
  layout [(8, e.step), (8, e.seed), (4, e.setEpoch), (4, e.modeEpoch), (1, st), (1, e.buf), (1, e.replays), (1, 0), (2, e.nInputs), (2, 0),
    (8, e.inputAddr), (8, undo), (8, e.startNs), (8, e.endNs)]

/-! ### The mirror (R422-R428) -/

/-- The job's good step as the module knows it (R425). -/
def goodKnown (b : Job) : Nat := b.jobGood

/-- Send a class 3 message to the partner while one is bound (R421, R428): kind, flags, tensor, items, offset or row, cut. -/
def mirrorSend (j kind flags tensor items off step cut : Nat) (data : Bytes) (s : State) : State :=
  let mr := s.w.mr
  if (mr.out = 1 || mr.out = 2) && mr.outNode != 0xFFFF then
    sendMsg mr.outNode j 3 step (layout [(1, kind), (1, flags), (2, tensor), (4, items), (8, off), (8, goodKnown (s.job j)), (8, cut), (8, 0)]) data s
  else s

/-- A mode as bytes, with its set's image where asked for (log 60). -/
def modeBytes (m : ModeRec) (withSet : Bool) : Bytes :=
  let img := if withSet then (match m.set with
    | some t => t.img
    | none => []) else []
  layout [(4, m.epoch), (4, m.setEpoch), (1, m.k), (1, b2n m.forced), (2, m.compress.length), (4, m.chk.length), (4, img.length), (4, m.setSteps)] ++
    layout (m.compress.flatMap (fun c => [(2, c.1), (1, c.2.1), (1, c.2.2.1), (4, c.2.2.2)])) ++ m.chk ++ img

def digestOf (t : Option SetImg) : Option Nat := t.map (fun x => x.digest)

/-- A staged mode as bytes: the settings it would put in force, over those now in force (R422; log 60). -/
def stagedBytes (b : Job) : Bytes :=
  match b.stagedMode with
  | none => []
  | some m => modeBytes { b.modeRec with epoch := m.epoch, k := m.k.getD b.k, chk := m.chk.getD b.chk, compress := m.compress, forced := m.forced.getD b.forced, set := m.set } true

/-- The step record (R422): journal entry, PLACE_SET state, step constants, the current, the previous and the staged mode; its
layout is the model's (log 60). -/
def stepRecord (s : State) (j : Nat) (e : Jrn) (consts : List Nat) : Bytes :=
  let b := s.job j
  entryBytes b e ++ layout [(1, b2n b.pset.freeze), (1, b2n b.prev.isSome + 2 * b2n b.stagedMode.isSome), (2, b.pset.migBudget), (4, consts.length)] ++ layout (consts.map (fun c => (4, c))) ++
    modeBytes b.modeRec false ++ (match b.prev with
      | some m => modeBytes m (digestOf m.set != digestOf b.cur)
      | none => []) ++ stagedBytes b

/-- The score table and the last-write step of every row block (R196, R422), 22 B a block: tensor, block, score, and the step that
last wrote it since the anchor plus 1, 0 for none. The layout is the model's (log 60). -/
def scoreTable (s : State) (j : Nat) : Bytes :=
  let b := s.job j
  let sent : List (Nat × Nat × Nat) := s.w.mr.sent.filter (fun e => e.1 / 65536 = j)
  let scored : List (Nat × Nat) := b.scores.map (fun e => (e.1, e.2.1))
  let written : List (Nat × Nat) := sent.map (fun e => (e.1 % 65536, e.2.1))
  let keys := (scored ++ written).eraseDups
  keys.flatMap (fun k =>
    let score := match b.scores.find? (fun e => e.1 == k.1 && e.2.1 == k.2) with
      | some e => e.2.2
      | none => 0
    let last := match sent.find? (fun e => e.1 % 65536 == k.1 && e.2.1 == k.2) with
      | some e => e.2.2 + 1
      | none => 0
    layout [(2, k.1), (8, k.2), (4, score), (8, last)])

def slotsMib (hot : Bool) (mr : Mr) : Nat := (mr.slots.filter (fun x => x.hot == hot)).length / 16
/-- Reservations in use in MiB: two dense slots, pending log, context area (1 GiB) and slots; the cold one holds slots only. -/
def hotMib (mr : Mr) : Nat :=
  if !mr.resv then 0
  else 2 * (sumNat (mr.dense.map (fun d => d.2.2.length)) / 1048576) + mr.pendGib * 1024 + 1024 + slotsMib true mr
def coldMib (mr : Mr) : Nat := slotsMib false mr

/-- Row bytes and rows of a block of a table of the job's current set. -/
def tableShape (s : State) (j tensor : Nat) : Nat × Nat :=
  match (s.job j).cur with
  | some t => (match t.tens? tensor with
    | some r => (match s.decl j r.handle with
      | some d => (rowBytes d, max (rowsPerBlock d) 1)
      | none => (64, 1024))
    | none => (64, 1024))
  | none => (64, 1024)

/-- A tensor of a job, as the mirror names it. -/
def mirKey (j tensor : Nat) : Nat := 65536 * j + tensor

/-- Put a context part of a job, kind and step. -/
def putCtx (j kind step : Nat) (data : Bytes) (mr : Mr) : Mr :=
  { mr with ctx := mr.ctx.filter (fun e => !(e.1 == j && e.2.1 == kind && e.2.2.1 == step)) ++ [(j, kind, step, data)] }

/-- Put a block image into its slot; a new slot takes the reservation wanted for it, the cold one where the hot one is full
(R423). -/
def putSlot (want : Bool) (key block step : Nat) (image : Bytes) (mr : Mr) : Mr :=
  let old := mr.slots.find? (fun x => x.tensor == key && x.block == block)
  let hot := match old with
    | some x => x.hot
    | none => want && decide (hotMib mr < 524288)
  { mr with slots := mr.slots.filter (fun x => !(x.tensor == key && x.block == block)) ++ [{ tensor := key, block := block, step := step, hot := hot, image := image }] }

/-- Put good dense content (R422). -/
def putDense (key off : Nat) (data : Bytes) (mr : Mr) : Mr :=
  { mr with dense := mr.dense.filter (fun e => !(e.1 == key && e.2.1 == off)) ++ [(key, off, data)] }

/-- Apply one pending delta to the held image (R425). -/
def applyDelta (s : State) (mr : Mr) (d : Delta) : Mr :=
  if d.kind = 1 then putDense d.tensor d.off d.data mr
  else if d.kind = 2 then
    let sh := tableShape s (d.tensor / 65536) (d.tensor % 65536)
    (chunksOf (max sh.1 1) d.data).zipIdx.foldl (fun mr p =>
      let row := d.off + p.2
      let put (x : Slot) : Slot := { x with step := max x.step d.step, image := patch x.image ((row % sh.2) * sh.1) p.1 }
      { mr with slots := updWhere (fun x => x.tensor == d.tensor && x.block == row / sh.2) put mr.slots }) mr
  else if d.kind = 3 then (chunksOf 65536 d.data).zipIdx.foldl (fun mr p => putSlot d.hot d.tensor (d.off + p.2) d.step p.1 mr) mr
  else putCtx (d.tensor / 65536) d.kind 0 d.data mr

/-- The deltas of a job up to a step. -/
def deltasTo (j g : Nat) (d : Delta) : Bool := d.tensor / 65536 = j && decide (d.step ≤ g)

/-- The job's good step has reached `g`: deltas up to it are applied (R425). -/
def mirrorGood (j g : Nat) (s : State) : State :=
  if s.w.mr.inNode = 0xFFFF then s
  else s.onW (fun w => { w with mr := { ((w.mr.pend.filter (deltasTo j g)).foldl (applyDelta s) w.mr) with
    pend := w.mr.pend.filter (fun d => !deltasTo j g d), good := max w.mr.good g } })

/-- The job's good step as combined reaches `g` (R377, R425): the mirror held here follows, and a checkpoint whose cut it
reaches may complete (R445). -/
def reachGood (j g : Nat) (s : State) : State := ckptFinish j (mirrorGood j g (s.modJob j (fun b => { b with jobGood := g })))

/-! ### Return copies (R152) -/

/-- Form the return copy of a weight for one of its buffers (R152): every element as the forward lanes use it, rounded once. -/
def formCopy (j : Nat) (t : SetImg) (id buf : Nat) (s : State) : State :=
  match (copiesOf t).find? (fun x => x.1 == id), t.tens? id with
  | some x, some r => (match s.decl j r.handle with
    | none => s
    | some d =>
      let fmt := if x.2.1 = 1 then 0x04 else 0x02
      let rd (off n : Nat) : Nat := leNum (devRead s j r.handle buf off n)
      let code (v : FVal) : Nat := if fmt = 0x04 then ffE4m3.encode v else ffBf16.encode v
      let codes := (List.range d.count).map (fun i => code (d.value fmt rd (i / max d.rowLen 1) (i % max d.rowLen 1)))
      s.modJob j (fun b => { b with copies := b.copies.filter (fun y => !(y.1 == id && y.2.1 == buf)) ++ [(id, buf, codes)] }))
  | _, _ => s

/-- Form the copies that are missing for the buffers in use; where a set has just been placed those of frozen weights alone. -/
def formCopies (frozen : Bool) (j : Nat) (s : State) : State :=
  match (s.job j).cur with
  | none => s
  | some t => forAll ((copiesOf t).filter (fun x => !frozen || x.2.2 = 1)) (fun x s => match (t.tens? x.1).bind (fun r => s.decl j r.handle) with
      | some d => if (s.job j).copies.any (fun y => y.1 == x.1 && y.2.1 == d.buf) then s else formCopy j t x.1 d.buf s
      | none => s) s

/-- Copies of trained weights are formed afresh in the next step: after a restore, or where a rollback has brought older parameters
back. -/
def Job.dropCopies (b : Job) : Job :=
  { b with copies := b.copies.filter (fun y => match b.cur with | some t => (copiesOf t).any (fun x => x.1 == y.1 && x.2.2 = 1) | none => false) }

/-! ### Rolling back -/

/-- Restore one undo entry (R258). -/
def undoRow (j : Nat) (u : Undo) (s : State) : State :=
  match s.decl j u.handle with
  | some d => jobPut j u.handle 0 (u.row * rowBytes d) u.image s
  | none => s

/-- Items and messages of another epoch are discarded with event 0x2301 each (R179). -/
def dropHeld (j : Nat) (s : State) : State :=
  let items := match (s.job j).run with | some r => r.held.length | none => 0
  let msgs := (s.w.msgs.held.filter (fun e => e.2.job = j)).length
  let s1 := s.onW (fun w => { w with msgs := { w.msgs with held := w.msgs.held.filter (fun e => e.2.job != j) } })
  let s2 := s1.modJob j (fun b => { b with run := b.run.map (fun r => { r with held := [] }) })
  forAll (List.replicate (items + msgs) 0x2301) (fun c s => flt0 c 0xFF j (s.stepOf j) s) s2

/-- Put back one byte of device memory by its key. -/
def keyPut (key : Nat) (v : Nat) (s : State) : State :=
  let off := key % 2 ^ 48
  let r := key / 2 ^ 48
  jobPut (r / 2 ^ 33) (r / 2 % 2 ^ 32) (r % 2) off (leBytes 1 v) s

/-- Role 4 and role 6 tensors as they stood before a step's boundary (R282, R413; log 64). -/
def restoreSaved (e : Jrn) (s : State) : State := forAll e.saved (fun p s => keyPut p.1 p.2 s) s

def undoUsed (b : Job) : Nat := sumNat (b.undo.map (fun u => 16 + u.image.length))

/-- Undo space in use and steps held, as every engine shows them (R260). -/
def undoCounts (j : Nat) (s : State) : State :=
  let b := s.job j
  forAll (List.range 12) (fun i s => s.modEngine i (fun x => { x with undoBytes := undoUsed b, undoSteps := ((b.undo.map (fun u => u.step)).eraseDups).length })) s

/-- The stack engines when a step's gathers and scatters are over (R255, R258, R260): idle, the buffers empty; the counts of a whole
step become those of the last step. -/
def settleEngines (j : Nat) (whole : Bool) (s : State) : State :=
  undoCounts j (forAll (List.range 12) (fun i s => s.modEngine i (fun x => { x with
    busy := false, update := false, overflow := false, bufBytes := 0, gathered := 0, nanRun := 0, excRun := 0
    rowsK := if whole then min (x.gathered / 1024) (2 ^ 32 - 1) else x.rowsK
    nanBags := if whole then x.nanRun else x.nanBags
    excTerms := if whole then x.excRun else x.excTerms })) s)

/-- Entries beyond the depth: the oldest called-good ones leave the journal, their undo entries are released (R407). -/
def trimJournal : Nat → Nat → State → State
  | 0, _, s => s
  | n + 1, j, s =>
    let b := s.job j
    if b.jrn.length ≤ s.w.ump.depth then s
    else match (sortBy (fun e => e.step) b.jrn).find? (fun e => e.good) with
      | none => s
      | some e => trimJournal n j (event 0x0007 0x05 j e.step 0 (undoCounts j (s.modJob j (fun b => { b with
          jrn := b.jrn.filter (fun x => x.step != e.step)
          undo := b.undo.filter (fun u => u.step != e.step) }))))

/-- Undo, from step `n` on, rows, buffers and the mode (R180, R258, R412, R432). The running step is dropped; who completes its
command says so before. A rollback started again finds nothing to do. -/
def rollbackFrom (j n : Nat) (s : State) : State :=
  let b := s.job j
  let newer := b.jrn.filter (fun e => decide (n ≤ e.step))
  let undo := b.undo.filter (fun u => decide (n ≤ u.step))
  let s0 := dropHeld j s
  let s00 := forAll (sortBy (fun e => 2 ^ 64 - e.step) newer) restoreSaved s0
  let s1 := forAll (sortBy (fun u => 2 ^ 64 - u.step) undo) (undoRow j) s00
  let flips := (newer.filter (fun e => e.ended)).flatMap (fun e => e.flip)
  let reNext := match newer with | [] => b.nextStep | _ => some n
  let s2 := s1.modJob j (fun b => { b with
    decls := b.decls.map (fun e => (e.1, { e.2 with buf := (e.2.buf + (flips.filter (fun h => h == e.1)).length) % 2 }))
    jrn := updWhere (fun e => decide (n ≤ e.step)) (fun e => { e with failed := true, good := false, flip := [], saved := [] }) b.jrn
    undo := b.undo.filter (fun u => decide (u.step < n))
    consKept := b.consKept.filter (fun e => decide (e.1 < n))
    accs := []
    samps := b.samps.filter (fun x => decide (x.step < n))
    nextStep := reNext
    lastGood := b.lastGood.bind (fun g => if g < n then some g else if n = 0 then none else some (n - 1))
    lastStarted := match newer with
      | [] => b.lastStarted
      | _ => if n = 0 then none else some (n - 1)
    run := none, noRoom := b.noRoom, bagErr := false })
  let s3 := match b.applied, b.prev with
    | some (k, m), some old =>
      if decide (n < k) then
        s2.modJob j (fun b => { b.withMode old with prev := none, stagedMode := some m, commit := some k, applied := none })
      else s2
    | _, _ => s2
  let s3 := if flips.isEmpty then s3 else s3.modJob j Job.dropCopies
  let s4 := (settleEngines j false (syncPlan false s3)).onW (fun w => { w with
    reel := { w.reel with
      invs := w.reel.invs.filter (fun v => v.job != j || v.stage = 0xFFFF)
      bars := w.reel.bars.map (fun x => if x.job = j then { x with own := none, sentUp := false, exit := none } else x) }
    mr := { w.mr with pend := w.mr.pend.filter (fun d => d.tensor / 65536 != j || decide (d.step < n)) } })
  if s4.w.ck.armed && s4.w.ck.job = j && decide (n ≤ s4.w.ck.cut) && !newer.isEmpty then
    let told := s4.w.inflight.any (fun r => r.op = 0x0501 && r.hdr.job = j && r.b = 1)
    abandonCkpt 0x52 (7 * 256) 0x05 0x6304 (if told then s4 else s4.onW (fun w => { w with ck := { w.ck with lost := some (j, w.ck.gen) } }))
  else s4

/-- The failed steps of a job are rolled back: to before the oldest failed entry (R412). -/
def oldestFailed (b : Job) (n : Nat) : Nat := ((b.jrn.filter (fun e => e.failed && !e.good)).map (fun e => e.step)).foldl min n

/-! ### The tree of the barriers (R377, R378) -/

/-- A place whose node stands and is not lost. -/
def placeLive (s : State) (e : PlaceEnt) : Bool := !s.w.topo.lost.contains (standing s e.node)
/-- Order of the places toward (0, 0, 0). -/
def placeOrd (e : PlaceEnt) : Nat := e.x + 16 * e.y + 256 * e.z
/-- The live place that combines a place: along X toward 0, then Y, then Z; a lost place is passed by. -/
def barParent (s : State) (p : Plan) : Nat → PlaceEnt → Option PlaceEnt
  | 0, _ => none
  | n + 1, e =>
    let up := if 0 < e.x then placeAt p (e.x - 1) e.y e.z else if 0 < e.y then placeAt p 0 (e.y - 1) e.z
      else if 0 < e.z then placeAt p 0 0 (e.z - 1) else none
    match up with
    | some q => if placeLive s q then some q else barParent s p n q
    | none =>
      match (p.places.filter (placeLive s)).foldl (fun acc q => match acc with
        | none => some q
        | some r => if placeOrd q < placeOrd r then some q else some r) none with
      | some r => if r == e then none else if placeLive s e then none else some r
      | none => none
def treeParent (s : State) (p : Plan) (e : PlaceEnt) : Option PlaceEnt :=
  match barParent s p 64 e with | some q => if q == e then none else some q | none => none

/-- The job plan of a job's barriers: none where this module is alone. -/
def jobPlanOf (s : State) (j : Nat) : Option Plan := if 1 < (members s j).length then s.w.topo.jobPlan else none
/-- Node that combines this module's entry, none at the root; nodes this module combines. -/
def upNode (s : State) (j : Nat) : Option Nat :=
  match jobPlanOf s j, myPlace s with
  | some p, some e => (treeParent s p e).map (fun q => standing s q.node)
  | _, _ => none
def downNodes (s : State) (j : Nat) : List Nat :=
  match jobPlanOf s j, myPlace s with
  | some p, some e => ((p.places.filter (fun q => placeLive s q && treeParent s p q == some e))).map (fun q => standing s q.node)
  | _, _ => []

/-- The called-good value of a job that has called no step good and began with step 0 (log 61), and the first step after a value. -/
def noGood : Nat := 2 ^ 64 - 1
def goodKey (g : Nat) : Nat := if g = noGood then 0 else g + 1

/-- Combine two entries (R377). -/
def Ent.join (a b : Ent) : Ent :=
  { a with applied := a.applied && b.applied, failed := a.failed || b.failed, good := if goodKey a.good ≤ goodKey b.good then a.good else b.good, count := a.count + b.count, node := b.node }

/-! ### The step barrier (R377, R379) -/

def barOf (s : State) (j : Nat) : Option Bar := s.w.reel.bars.find? (fun x => x.job == j)
def modBar (j : Nat) (f : Bar → Bar) (s : State) : State :=
  match barOf s j with
  | some _ => s.onW (fun w => { w with reel := { w.reel with bars := updWhere (fun x => x.job == j) f w.reel.bars } })
  | none => s.onW (fun w => { w with reel := { w.reel with bars := w.reel.bars ++ [f { job := j }] } })

/-- Flags of kinds 1 and 2. -/
def entFlags (e : Ent) : Nat := b2n e.applied + 2 * b2n e.failed

/-- The combined entry so far, when the module and every member below it have entered for one step. -/
def barCombined (s : State) (j : Nat) : Option Ent :=
  match barOf s j with
  | none => none
  | some x => match x.own with
    | none => none
    | some o =>
      let ds := downNodes s j
      let ks := x.kids.filter (fun k => ds.contains k.src && k.step = o.step)
      if ds.all (fun d => ks.any (fun k => k.src == d)) then some (ks.foldl Ent.join o) else none

/-- Whether the root may let the barrier exit. -/
def barMayExit (s : State) (j : Nat) (e : Ent) : Bool :=
  e.count = (liveMembers s j).length && decide (e.step ≤ goodKey e.good)

/-- Send the combined entry up, or at the root fix the exit and send it down. -/
def barAdvance (j : Nat) (s : State) : State :=
  match barCombined s j, barOf s j with
  | some e, some x =>
    if x.exit.isSome then s
    else match upNode s j with
      | some up =>
        if x.sentUp then s
        else control up j e.step 1 (entFlags e) e.node (s.job j).modeEpoch e.good 0 e.count (modBar j (fun x => { x with sentUp := true }) s)
      | none =>
        if barMayExit s j e then
          forAll (downNodes s j) (fun d s => control d j e.step 2 (entFlags e) e.node (s.job j).modeEpoch e.good 0 e.count s)
            (modBar j (fun x => { x with exit := some e }) s)
        else s
  | _, _ => s

/-- A called-good value or a failed flag changes after the entry: the barrier combines the new value (R282, R377). -/
def barUpdate (j : Nat) (f : Ent → Ent) (s : State) : State :=
  match barOf s j with
  | some x =>
    (match x.own with
     | some _ =>
       if x.exit.isSome then s
       else barAdvance j (modBar j (fun x => { x with own := x.own.map f, sentUp := false }) s)
     | none => s)
  | none => s

/-! ### Calling a step good -/

/-- The newest step the module has called good; before any, the one before the oldest it holds. -/
def goodStep (b : Job) : Nat := match b.lastGood with
  | some g => g
  | none => match (b.jrn.map (fun e => e.step)).foldl min (b.lastStarted.getD 0) with
    | 0 => noGood
    | n + 1 => n

/-- Bench cells in state 1 that serve (R396). -/
def benchCells (s : State) : List Nat :=
  (List.range 576).filter (fun k => let c := s.cell k; c.state = 1 && !c.excluded && !c.retired)

/-- The partner's acknowledgement is met: acknowledged, or no live partner is bound (R408, R421, R453; log 61). -/
def ackMet (s : State) (e : Jrn) : Bool := e.acked || s.w.mr.out = 0 || s.w.mr.out = 3

/-- The conditions of R408 for step `n`. -/
def goodConds (s : State) (j n : Nat) : Bool :=
  let b := s.job j
  match b.entry? n with
  | none => false
  | some e => e.ended && !e.failed && !e.good && e.plaus && ackMet s e && (s.w.mr.out != 1 || s.w.mr.exposed) && b.samps.all (fun x => x.step != n) &&
      (b.jrn.all (fun x => decide (n ≤ x.step) || x.good))

/-- What the members below have called good and the module itself: sent up when it rises, and at the root sent down (R377,
R425). -/
def goodAdvance (j : Nat) (s : State) : State :=
  let b := s.job j
  let ds := downNodes s j
  let kid (d : Nat) : Nat := match b.kidGood.find? (fun e => e.1 == d) with | some e => goodKey e.2 | none => 0
  let comb := (ds.map kid).foldl min (goodKey (b.lastGood.getD noGood)) - 1
  let me := s.w.topo.node
  match upNode s j with
  | some up => if b.sentGood < comb then control up j 0 9 0 me b.modeEpoch comb 0 0 (s.modJob j (fun b => { b with sentGood := comb })) else s
  | none =>
    if b.jobGood < comb then
      forAll ds (fun d s => control d j 0 9 0 me b.modeEpoch comb 0 0 s) (reachGood j comb s)
    else s

/-! ### Huddles under way (R378) -/

def hudOf (s : State) (j : Nat) : Option Hud := s.w.reel.huds.find? (fun x => x.job == j)
def modHud (j : Nat) (f : Hud → Hud) (s : State) : State :=
  match hudOf s j with
  | some _ => s.onW (fun w => { w with reel := { w.reel with huds := updWhere (fun x => x.job == j) f w.reel.huds } })
  | none => s.onW (fun w => { w with reel := { w.reel with huds := w.reel.huds ++ [f { job := j }] } })

/-- Stopped at a cut: no step starts (R378). -/
def huddling (s : State) (j : Nat) : Bool := match hudOf s j with | some h => h.cut.isSome | none => false

/-! ### Starting a step (R131, R160, R172 beat 7, R281) -/

/-- Copy the input list of a step into its role 0 tensors: none on success, else a fault kind, page and DVA. -/
def copyInputs (j : Nat) (entries : List (Nat × Nat × Nat)) (s : State) : Option (Nat × Nat × Nat) × State :=
  entries.foldl (fun acc e => match acc with
    | (none, s) =>
      (match (s.job j).cur with
       | none => (none, s)
       | some t => match t.tens? e.1 with
         | none => (none, s)
         | some r => match jobRead s j e.2.1 e.2.2 with
           | .ok bs => (none, touch 0 true j r.handle 0 0 bs.length (jobPut j r.handle 0 0 bs s))
           | .poison => (some (0, 0, 0), s)
           | .fault k g a => (some (k, g, a), s))
    | e => e) (none, s)

/-- The eight step constants: +0 with no step-constant tensor (R131). -/
def stepConsts (s : State) (j : Nat) : List Nat :=
  match (s.job j).cur with
  | some t => match t.tens? t.stepConst with
    | some r => (List.range 8).map (fun i => leNum (devRead s j r.handle 0 (4 * i) 4))
    | none => List.replicate 8 0
  | none => List.replicate 8 0

/-- The step may start now: nothing runs, the job is not pre-empted and no JOB_PREEMPT waits, no huddle holds it (R174, R192,
R318, R378). -/
def mayStart (s : State) (j : Nat) : Bool :=
  let b := s.job j
  b.run.isNone && b.pstate = 0 && !huddling s j && !s.w.inflight.any (fun r => r.op = 0x0103 && r.hdr.job = j) && (match barOf s j with | some x => x.own.isNone | none => true)

/-- Open the journal entry of a step and start its run (R160, R172 beat 7, R406, R407). -/
def openStep (j n seed list nIn report : Nat) (replay cons : Bool) (entries : List (Nat × Nat × Nat)) (s : State) : State :=
  let s := formCopies false j s
  let b := s.job j
  let selftest := s.w.inflight.any (fun r => r.op = 0x0603)
  let c := cons || replay || b.consNext || b.consTillGood || selftest || b.forced
  let old := b.entry? n
  let e : Jrn := { step := n, seed := seed, setEpoch := b.setEpoch, modeEpoch := b.modeEpoch, conservative := c, replay := replay
                   replays := (match old with
                     | some o => o.replays + b2n replay
                     | none => 0)
                   cells := (match old with
                     | some o => if replay then o.cells else []
                     | none => [])
                   fail := (match old with
                     | some o => if replay then o.fail else {}
                     | none => {})
                   buf := (match b.decls.find? (fun d => d.2.dbl) with
                     | some d => d.2.buf
                     | none => 0)
                   nInputs := nIn, inputAddr := list, inputs := entries, report := report, startNs := s.now }
  let r : StepRun := { step := n, seed := seed, conservative := c, replay := replay, startNs := s.now, report := report, sc := stepConsts s j }
  let s1 := s.modJob j (fun b => { b with
    jrn := b.jrn.filter (fun x => x.step != n) ++ [e], run := some r, consNext := false, setSteps := b.setSteps + 1
    lastStarted := some n
    epochFirst := match b.epochFirst with
      | some f => some f
      | none => some n })
  trimJournal 16 j <| mirrorSend j 4 0 0 1 0 n 0 (stepRecord s1 j e r.sc)
    (s1.onW (fun w => { w with ump := { w.ump with samples := 0 }, ck := { w.ck with stallMax := 0 }, reel := { w.reel with blocks := 0 } }))

/-- Whether the job's ports let it start (R341, R343): none where they do, else the detail of TOPOLOGY_MISMATCH, with bit 0 set
and an absent port's number in [15:8]. A module that stands at no place of the plan refuses without a port. -/
def topoRefuses (s : State) (j : Nat) : Option Nat :=
  if !(s.job j).topoDue then none
  else match s.w.topo.jobPlan with
    | none => none
    | some p =>
      if (placeOf s p s.w.topo.node).isNone then some 1
      else ((portEnts s).map (fun e => e.port)).filter (fun k => (s.port k).pstate = 1) |>.foldl (fun acc k =>
        match acc with
        | none => some (256 * k + 1)
        | some d => some (min d (256 * k + 1))) none

/-- Some needed port is partly up where a job starts (R343). -/
def topoPartly (s : State) (j : Nat) : Bool :=
  (s.job j).topoDue && s.w.topo.jobPlan.isSome && (portEnts s).any (fun e => (s.port e.port).pstate = 2)

/-- Note on the run just opened that a needed port is partly up. -/
def modRunPartly (j : Nat) (partly : Bool) (s : State) : State :=
  s.modJob j (fun b => { b with run := b.run.map (fun r => { r with partly := partly }) })

/-- Start the oldest waiting step when nothing holds it. Its inputs are copied first (R281); a page that cannot be had
completes it (R314), and those behind it. -/
def startWaiting (j : Nat) (s : State) : State :=
  match (s.job j).waiting with
  | [] => s
  | (c, entries) :: rest =>
    if !mayStart s j then s
    else
      let n := (waitKey c).2
      if (s.job j).noRoom then failWaiting j 0x20 0 0xFF 0xFFFF s
      else match topoRefuses s j, copyInputs j entries s with
        | some d, _ => failWaiting j 0x60 d 0xFF 0xFFFF s
        | none, (none, s1) =>
          let partly := topoPartly s j
          let s2 := (freeInputs j s1).modJob j (fun b => { b with waiting := rest, topoDue := false })
          modRunPartly j partly <|
          (match c with
           | .stepRun _ n seed list nIn flags report => openStep j n seed list nIn report false (bit flags 0) entries s2
           | .letReplay _ n => (match (s.job j).entry? n with
             | some e => openStep j n e.seed e.inputAddr e.nInputs e.report true true entries s2
             | none => failWaiting j 0x11 16 0xFF 0xFFFF s)
           | _ => s2)
        | none, (some (0, _), s1) => failWaiting j 0x50 (7 * 256) 0x03 0xFFFF (flt0 0x1907 0x03 j n (freeInputs j s1))
        | none, (some (2, g, a), s1) => if s.w.mmu.priOut.contains (j, g) then s else userPark (inputChan s1 j) 1 j a g s1
        | none, (some (k, _, a), s1) => failWaiting j 0x40 0 0x02 0xFFFF (flt 0x1802 0x03 j n (locDma (inputChan s1 j) k a) (notePark (inputChan s1 j) j k a (freeInputs j s1)))

/-! ### The huddle (R378, R431, R432) -/

/-- The earliest boundary step the module can reach: the running step, else the last one started. -/
def reachable (b : Job) : Nat := match b.run with | some r => r.step | none => b.lastStarted.getD 0

/-- Reasons whose cut stops a step in flight: a lost peer, an abort (R431). A step failed by a thermal trip goes on to its
barrier exit (R223, R376, R412, R504). -/
def stopsStep (reason : Nat) : Bool := reason = 2 || reason = 4

/-- The module has stopped at the cut: no step runs, or the step in flight is the one the huddle stops. -/
def atCut (s : State) (j cut : Nat) (reason : Nat) : Bool :=
  match (s.job j).run with
  | none => true
  | some r => decide (cut < r.step) || (stopsStep reason && (r.fail.isSome || r.aborted || reason = 2))

/-- Leave the running step of a stopping huddle: its command completes; the state goes back (R282, R431, R432). -/
def stopAtCut (j : Nat) (h : Hud) (s : State) : State :=
  let b := s.job j
  if !stopsStep h.reason then s
  else
    let n := if h.reason = 2 then (h.reqs.map (fun q => goodKey q.2.2)).foldl max (goodKey (goodStep b))
      else oldestFailed b (match b.run with | some r => r.step | none => b.lastStarted.getD 0 + 1)
    let s1 := match b.run with
      | some r =>
        let f : Fail := if h.reason = 4 then { status := 0x31, detail := 2 } else r.fail.getD { status := 0x61 }
        failWaiting j f.status f.detail f.unit f.stage (completeStep j r.step f.status f.detail f.unit f.stage s)
      | none => s
    rollbackFrom j n (if h.reason = 2 then (if n = 0 then abortMode j s1 else mirrorGood j (n - 1) (abortMode j s1)) else s1)

/-- Entries of the members below have come in. -/
def hudCombined (s : State) (j : Nat) (h : Hud) : Option Nat :=
  let ds := downNodes s j
  if ds.all (fun d => h.kids.any (fun k => k.src == d)) then some (1 + sumNat ((h.kids.filter (fun k => ds.contains k.src)).map (fun k => k.count))) else none

/-- Copy-before-write is armed at the cut of the generation in progress (R445). -/
def armCut (j cut : Nat) (s : State) : State :=
  if s.w.ck.state = 1 && s.w.ck.job = j && !s.w.ck.armed then armShard j cut s else s

/-- A huddle barrier exits: its value goes down, HUDDLE and STEP_ABORT complete, a checkpoint's cut is armed, the job goes
on (R282, R378, R431). -/
def hudExit (j : Nat) (s : State) : State :=
  match hudOf s j with
  | none => s
  | some h => match h.cut with
    | none => s
    | some c =>
      let s1 := forAll (downNodes s j) (fun d s => control d j 0 5 0 s.w.topo.node (s.job j).modeEpoch c 0 (liveMembers s j).length s) s
      let s2 := s1.onW (fun w => { w with reel := { w.reel with huds := w.reel.huds.filter (fun x => x.job != j) } })
      let s3 := completeAll (fun r => r.op = 0x0505 && r.hdr.job = j) 0 0 0xFF (fun _ => leBytes 8 c) s2
      let s4 := completeAll (fun r => r.op = 0x0303 && r.hdr.job = j) 0 0 0xFF (fun r => leBytes 8 r.a) s3
      startWaiting j (if h.reason = 1 then armCut j c s4 else s4)

/-- Move a huddle on: fix the cut when every live member has asked, stop there, enter, send up, and at the root down. -/
def hudAdvance (j : Nat) (s : State) : State :=
  match hudOf s j with
  | none => s
  | some h =>
    let all := (liveMembers s j).all (fun n => h.reqs.any (fun q => q.1 == n))
    let s1 := if h.cut.isNone && all then modHud j (fun h => { h with cut := some (((h.reqs.filter (fun q => (liveMembers s j).contains q.1)).map (fun q => q.2.1)).foldl max 0) }) s else s
    match hudOf s1 j with
    | none => s1
    | some h1 => match h1.cut with
      | none => s1
      | some c =>
        let s2 := if !h1.entered && atCut s1 j c h1.reason then modHud j (fun h => { h with entered := true }) (stopAtCut j h1 s1) else s1
        match hudOf s2 j with
        | none => s2
        | some h2 =>
          if !h2.entered || h2.sentUp then s2
          else match hudCombined s2 j h2 with
            | none => s2
            | some n => match upNode s2 j with
              | some up => control up j 0 4 0 s2.w.topo.node (s2.job j).modeEpoch c 0 n (modHud j (fun h => { h with sentUp := true }) s2)
              | none =>
                let s3 := modHud j (fun h => { h with sentUp := true, exited := decide (n = (liveMembers s2 j).length) }) s2
                if n = (liveMembers s2 j).length then hudExit j s3 else s3

/-- Ask for a huddle, once per member (R378): a proposed boundary (0 the earliest), the job's good step as known. -/
def askHuddle (j reason boundary : Nat) (s : State) : State :=
  let b := s.job j
  let me := s.w.topo.node
  let bd := max boundary (reachable b)
  let asked := match hudOf s j with | some h => h.reqs.any (fun q => q.1 == me) | none => false
  if asked then s
  else
    let good := goodStep b
    let s1 := modHud j (fun h => { h with
      reason := if h.reqs.isEmpty then reason else h.reason
      reqs := h.reqs ++ [(me, bd, good)] }) s
    hudAdvance j (controlAll j good 3 0 me b.modeEpoch bd reason 1 s1)

/-- The module itself requests a huddle: event 0x0004 (R290, R378). -/
def ownHuddle (j reason boundary : Nat) (s : State) : State :=
  let bd := max boundary (reachable (s.job j))
  askHuddle j reason bd (event 0x0004 0x06 j bd bd s)

/-! ### Losing a module (R347, R350) -/

/-- Jobs whose members include a node. -/
def jobsOf (s : State) (node : Nat) : List Nat :=
  ((List.range 64).filter (fun j => s.live j && (members s j).contains node))

/-- Lazy restore loses its partner before the cold slots are copied (R437): their blocks cannot be made present. -/
def lazyLost (node : Nat) (s : State) : State :=
  let mr := s.w.mr
  let l := mr.missing.filter (fun e => mr.cold.contains e)
  if mr.outNode != node || mr.callJob = 0xFF || l.isEmpty then s
  else
    let s1 := flt0 0x6204 0x08 mr.callJob 0 (s.onW (fun w => { w with mr := { w.mr with gone := (w.mr.gone ++ l).eraseDups } }))
    match (s1.job mr.callJob).run with
    | some r => failStep mr.callJob r.step { status := 0x51, unit := 0x08 } [] s1
    | none => s1

/-- A node is declared lost: messages to it are discarded, waits complete with PEER_LOST, a huddle is asked for (R350, R376). -/
def lose (flood : Bool) (node : Nat) (s : State) : State :=
  if s.w.topo.lost.contains node || node = s.w.topo.node then s
  else
    let s1 := s.onW (fun w => { w with
      topo := { w.topo with lost := sortNat (node :: w.topo.lost) }
      msgs := { w.msgs with kept := w.msgs.kept.filter (fun m => m.dst != node), held := w.msgs.held.filter (fun e => e.2.src != node) }
      lk := w.lk.map (fun e => (e.1, { e.2 with rx := e.2.rx.filter (fun x => fld x.2 0 2 != node) }))
      mr := { w.mr with out := if w.mr.outNode = node && w.mr.out != 0 then 3 else w.mr.out, inn := if w.mr.inNode = node && w.mr.inn != 0 then 3 else w.mr.inn } })
    let s2 := flt 0x3301 0xFF 0xFF 0 (locLink 0xFF 0xF node 0) s1
    let js := jobsOf s2 node
    let s3 := if flood then forAll js (fun j s => controlAll j 0 7 0 node (s.job j).modeEpoch 0 0 0 s) s2 else s2
    let s4 := forAll js (fun j s =>
      let s := completeAll (fun r => r.hdr.job = j && (r.op = 0x0402 || r.op = 0x0504)) 0x61 0 0xFF (fun _ => [])
        (s.onW (fun w => { w with reel := { w.reel with invs := w.reel.invs.filter (fun v => v.job != j) } }))
      match (s.job j).run with
      | some r => ownHuddle j 2 0 (failStep j r.step { status := 0x61 } [] s)
      | none => ownHuddle j 2 0 s) s3
    let s5 := completeAll (fun r => r.op = 0x0504) 0x61 0 0xFF (fun _ => []) s4
    forAll js (fun j s => hudAdvance j (barAdvance j s)) (relink (lazyLost node s5))

/-- The module finds a node lost and floods the notice (R350). -/
def declareLost (node : Nat) (s : State) : State := lose true node s

end Sys2Proof.Machine
end

