-- ==== Sys2Proof/Machine/Caller.lean ====
section
/-! DEFINITION. The Caller: rate classes (R187), the array plane (R188, R189), the pair (p, v) (R165, R166, R169), the tiers of
dense data and of row blocks (R193-R195), and a placement as a whole (R119 check 9, R184, R186). Where the rules leave the
Caller a choice, the choice is log 7. -/

namespace Sys2Proof.Machine

open Sys2Proof

/-! ### Cells -/

/-- Cell that serves a logical column of a plane row, if one does (R188). -/
def serving (s : State) (key : Nat) : Option Nat :=
  ((List.range 18).find? (fun x => let k := s.cell (18 * (key / 16) + x); k.state = 0 && k.logical = key % 16)).map (fun x => 18 * (key / 16) + x)

/-- A plane row whose 16 logical columns are all served (R188). -/
def rowFull (s : State) (r : Nat) : Bool := (List.range 16).all (fun c => (serving s (16 * r + c)).isSome)
def fullRows (s : State) : List Nat := (List.range 32).filter (rowFull s)
/-- Active cells and the median of their rates, the lower of two middle values (R187). -/
def activeCells (s : State) : List Nat := (List.range 576).filter (fun k => (s.cell k).state = 0)
def medianRate (s : State) : Nat :=
  let l := sortNat ((activeCells s).map (fun k => (s.cell k).rateMhz))
  l.getD ((l.length - 1) / 2) 0
/-- Rate class of a cell (R187); 100 before any rate is known. -/
def rateClass (s : State) (m k : Nat) : Nat := if m = 0 then 100 else max 50 (min 150 (100 * (s.cell k).rateMhz / m))
/-- Rate class of every place of the plane that a cell serves. -/
def rateClasses (s : State) : Tab Nat :=
  let m := medianRate s
  (List.range 512).foldl (fun t key => match serving s key with
    | some k => tput 100 t key (rateClass s m k)
    | none => t) []

/-- The row length of a tensor's declaration (R141), 1 where there is none. -/
def lenOf (s : State) (j : Nat) (t : SetImg) (id : Nat) : Nat :=
  match t.tens? id with | some r => (match s.decl j r.handle with | some d => d.rowLen | none => 1) | none => 1

/-- Every pin lies on full rows, off the positions (R189, R199). -/
def pinsOk (t : SetImg) (rows : List Nat) (p : Nat) : Bool :=
  let used := (List.range p).flatMap (fun i => rectKeys (fun a => rows.getD a 0) (positionRect rows.length p i))
  (t.stages.filter (fun s => s.pinned)).all (fun s => (rectKeys id (pinRect s)).all (fun k => rows.contains (k / 16) && !used.contains k))

/-- No figure uses more contexts than its mode allows (R94, R135): a row block of at most 64 takes 4, and 2 hold 32 rows in
compensated mode. -/
def contextsOk (t : SetImg) : Bool :=
  t.figs.all (fun f => f.kind != 1 || decide (ceilDiv f.rb 16 ≤ (if bit f.acc 0 then 2 else 4)))

/-! ### Cell store of a placement -/

/-- What a pair (p, v) gives on the cells: divisions with their return row blocks, work and figures by cell, and what the
stores hold. -/
structure Seat where
  p : Nat
  v : Nat
  chunks : List (List Nat)
  div : List Division
  load : Tab Nat
  figs : Tab Nat
  w : Nat
  heavy : Nat
  period : Nat
  kept : List Nat
  held : List Nat
  partCells : List Nat
  pinned : Tab Nat

/-- Bytes of a tensor's byte image. -/
def bytesOf (s : State) (j : Nat) (t : SetImg) (id : Nat) : Nat :=
  match t.tens? id with | some r => (match s.decl j r.handle with | some d => d.imageBytes | none => 0) | none => 0

/-- Fill the cell stores in the order of R193: pins, figure buffers, part stacks where all of a cell's fit, weight shares where
every cell of the stage has room, retained streams up to the cut of R157. -/
def fillStores (s : State) (j : Nat) (t : SetImg) (p v : Nat) (chunks : List (List Nat)) (ds : List Division) :
    Option (List Division × List Nat × List Nat × List Nat × Tab Nat) :=
  let pins := pinBytes t ds (t.tensors.filterMap (fun r => match s.decl j r.handle with
    | some d => if d.pin = 1 && d.kind = 0 then some (r.id, d.imageBytes) else none
    | none => none))
  let u0 := addAt [] (pins.map (fun e => e.2))
  match placeBuffers t (depthsOf t) ds u0 with
  | none => none
  | some (ds1, u1) =>
    let per := ds1.flatMap (fun d => d.partShare t)
    let keys := ((per.map (fun e => e.1)).eraseDups).filter (fun k =>
      decide (tget 0 u1 k + sumNat ((per.filter (fun e => e.1 == k)).map (fun e => e.2)) ≤ storeBytes))
    let u2 := addAt u1 (per.filter (fun e => keys.contains e.1))
    let w := ds1.foldl (fun (acc : List Nat × Tab Nat) d =>
      let l := if pins.any (fun q => q.1 == ((t.stage? d.stage).getD {}).weight) then [] else d.weights t (bytesOf s j t)
      let u := addAt acc.2 l
      if l.isEmpty || !storeFits u then acc else (acc.1 ++ [d.stage], u)) ([], u2)
    let pinned := ds1.filter (fun d => match t.stage? d.stage with | some x => isProduct x && pins.any (fun q => q.1 == x.weight) | none => false)
    let k := keepStreams t ds1 (flight t chunks p v) (retained t) w.2
    some (ds1, k.1, sortNat (w.1 ++ pinned.map (fun d => d.stage)), keys, pins.foldl (fun (a : Tab Nat) e => tmod 0 a e.1 (fun n => n + e.2.2)) [])

/-- The cells of one pair (p, v): none where a pin, the figures or the buffers do not fit (R95, R123, R135, R147, R165). -/
def seat (s : State) (j : Nat) (t : SetImg) (rows : List Nat) (classes : Tab Nat) (x : Nat × Nat) : Option Seat :=
  let len := lenOf s j t
  let r := tryPair t len (tget 100 classes) rows (fwdLayers t) x.1 x.2
  if !pinsOk t rows x.1 || !r.2.2.all (fun b => figsFit t b.figs) then none
  else match fillStores s j t x.1 x.2 r.1 r.2.1 with
    | none => none
    | some (ds, kept, held, partCells, pinned) =>
      let work := ds.flatMap (fun d => if isUpdate ((t.stage? d.stage).getD {}) then [] else d.work t len)
      let bins := r.2.2.map (fun b => { b with work := sumNat ((work.filter (fun e => e.1 == b.key)).map (fun e => e.2.1 + e.2.2)) })
      let h := heaviest bins
      some { p := x.1, v := x.2, chunks := r.1
             div := ds.map (fun d => { d with backShare := ((d.work t len).map (fun e => e.2.2)).foldl max 0 })
             load := bins.foldl (fun a b => tput 0 a b.key b.total) [], figs := bins.foldl (fun a b => tput 0 a b.key b.figs.length) []
             w := h.1, heavy := h.2, period := periodOf bins, kept := kept, held := held, partCells := partCells, pinned := pinned }

/-- The pairs the Caller considers (R164-R166). -/
def pairsOf (t : SetImg) (rf : Nat) : List (Nat × Nat) :=
  let n := (fwdLayers t).length
  let all := (List.range 8).flatMap (fun v => (List.range (max n 1)).map (fun p => (p + 1, v + 1)))
  all.filter (fun x => pvOk n t.mb t.maxVirtual rf x.1 x.2)

/-- The pair with the smallest t_pipe among some, ties to the smaller v (R169): (B + (p - 1) / v) W / r, compared as fractions. -/
def bestOf (mb : Nat) (l : List Seat) : Option Seat :=
  let num (x : Seat) : Nat := (mb * x.v + (x.p - 1)) * x.w
  let den (x : Seat) : Nat := x.v * max x.heavy 1
  l.foldl (fun acc x => match acc with
    | none => some x
    | some y => if num x * den y < num y * den x || (num x * den y = num y * den x && x.v < y.v) then some x else some y) none

/-- The pair the Caller takes (R166): one layer per chunk where that can be placed. -/
def bestPair (s : State) (j : Nat) (t : SetImg) : Option Seat :=
  let rows := fullRows s
  let classes := rateClasses s
  let n := (fwdLayers t).length
  let l := pairsOf t rows.length
  match bestOf t.mb ((l.filter (fun x => x.1 * x.2 = n)).filterMap (seat s j t rows classes)) with
  | some x => some x
  | none => bestOf t.mb ((l.filter (fun x => decide (x.1 * x.2 < n) || n = 0)).filterMap (seat s j t rows classes))

/-! ### Memory (R193, R195) -/

/-- Tables of a set with their declarations. -/
def setTables' (s : State) (j : Nat) (t : SetImg) : List (Nat × Decl) :=
  t.tensors.filterMap (fun r => match s.decl j r.handle with | some d => if d.kind = 1 then some (r.id, d) else none | none => none)

/-- Undo space of a set in tier 2 (R257), overflow accumulators in tier 1 (R252), and the score table in tier 2 (R196). -/
def undoReserve (t : SetImg) : Nat := sumNat ((t.stages.filter isScatter).map (fun x => fld (t.img.drop x.desc) 36 2 * gib))
def overflowReserve (s : State) (j : Nat) (t : SetImg) : Nat :=
  sumNat ((t.stages.filter isScatter).map (fun x => fld (t.img.drop x.desc) 32 4 * (16 + 8 * lenOf s j t x.table)))
def scoreBytes (s : State) (j : Nat) (t : SetImg) : Nat := 4 * sumNat ((setTables' s j t).map (fun x => tableBlocks x.2))

/-- Capacities that the items of a set are placed into. -/
def capsOf (s : State) (j : Nat) (t : SetImg) : List Nat :=
  [tierCap s j 1 - overflowReserve s j t, tierCap s j 2 - undoReserve t - scoreBytes s j t, tierCap s j 3]

/-- A stage or a stream of the set reads or writes the tensor: tier 3 never holds it (R20, R193). -/
def streamed (t : SetImg) (id : Nat) : Bool :=
  t.streams.any (fun q => q.tensor == id && (q.src == 0xFFFF || q.dst == 0xFFFF)) ||
    t.stages.any (fun x => !isLookup x && !isScatter x && (stageTensors x).any (fun e => e.2 == id))

/-- Uses of a tied weight with a return stage that forms dW, by place-of-use index (R112, R162). DESIGN CHOICE (log 172): a use without that
product contributes nothing. -/
def tiedUses (t : SetImg) (w : Nat) : List Stage :=
  sortBy (fun x => x.tied) (t.stages.filter (fun x => isProduct x && x.weight == w && x.tied != 0xFFFF && (backProds t x).contains 1))

/-- Tied weights with parking space for every contribution (R113): weight and bytes. -/
def parkings (t : SetImg) : List (Nat × Nat) :=
  ((t.stages.filter (fun s => s.tied != 0xFFFF && (backProds t s).contains 1)).map (fun s => s.weight)).eraseDups.map (fun w =>
    (w, match tiedUses t w with
      | u :: r => u.g * u.n * u.k * (match t.fig? u with | some f => if bit f.acc 0 then 8 else 4 | none => 4) * (r.length + 1)
      | [] => 0))

/-- Items of a set in the order of R193, tables apart; `held` are the stages whose weights lie in cell store. -/
def homeItems (s : State) (j : Nat) (t : SetImg) (x : Seat) : List HomeItem :=
  let elems (id : Nat) : Nat := match t.tens? id with | some r => r.count | none => 0
  let inStore (id : Nat) : Bool := let l := t.stages.filter (fun q => isProduct q && q.weight == id); !l.isEmpty && l.all (fun q => x.held.contains q.idx)
  let tens := t.tensors.flatMap (fun r => match s.decl j r.handle with
    | none => []
    | some d =>
      if d.kind = 1 then []
      else
        let p := if d.pin != 0 then 1 else if d.style = 1 then (if inStore r.id then 7 else 2) else if d.style = 2 then 4 else if d.style = 5 then 8 else 6
        let deep := (d.style = 0 || d.style = 3 || d.style = 5) && !streamed t r.id
        ({ kind := 0, id := r.id, bytes := d.imageBytes, prio := p, fast := d.style != 5, deep := deep, tier := (if d.pin ≤ 1 then 0 else d.pin - 1) } : HomeItem) ::
          (if d.dbl then [{ kind := 0, id := r.id, bytes := d.imageBytes, prio := (if d.pin ≤ 1 then 4 else 1), tier := (if d.pin ≤ 1 then 0 else d.pin - 1) }] else []))
  let copies := (copiesOf t).map (fun c => ({ kind := 5, id := c.1, bytes := elems c.1 * c.2.1 * c.2.2, prio := 2 } : HomeItem))
  let spill := sumNat ((retained t).map (fun q => keptBytes q * flight t x.chunks x.p x.v q.dst))
  let rings := (t.streams.filter (fun q => (ringsOf t).contains q.idx)).map (fun q =>
    ({ kind := 3, id := q.src % 0x8000, bytes := 64 * joinDepth t q, prio := 3 } : HomeItem))
  let parks := (parkings t).map (fun e => ({ kind := 4, id := e.1, bytes := e.2, prio := 3 } : HomeItem))
  let resid := ((s.job j).compress.map (fun e => e.1)).map (fun id => ({ kind := 6, id := id, bytes := 12 * elems id, prio := 5 } : HomeItem))
  sortBy (fun y => y.prio) (tens ++ copies ++
    ([({ kind := 1, bytes := partBytes t, prio := 3 } : HomeItem), { kind := 2, bytes := spill, prio := 3 }] ++ rings ++ parks ++ resid).filter (fun y => y.bytes != 0))

/-- Home the items: each takes the fastest tier with room; none when one has nowhere to go, or a pin names tier 3 for what a
stage streams. -/
def homeAll (l : List HomeItem) (t : SetImg) (caps : List Nat) : Option (List HomeItem × List Nat) :=
  l.foldl (fun acc x => match acc with
    | none => none
    | some (out, caps) =>
      let can (k : Nat) : Bool := decide (x.bytes ≤ caps.getD (k - 1) 0)
      let k := if x.tier != 0 then (if can x.tier && !(x.tier = 3 && streamed t x.id) then x.tier else 0)
        else if x.fast && can 1 then 1 else if can 2 then 2 else if x.deep && can 3 then 3 else 0
      if k = 0 then none
      else some (out ++ [{ x with tier := k }], caps.zipIdx.map (fun c => if c.2 + 1 = k then c.1 - x.bytes else c.1)))
    (some ([], caps))

/-- Score of a row block (R196). -/
def scoreOf (b : Job) (table block : Nat) : Nat := match b.scores.find? (fun e => e.1 == table && e.2.1 == block) with | some e => e.2.2 | none => 0

/-- All row blocks in rank order (R195). -/
def rankBlocks (b : Job) (tabs : List (Nat × Decl)) : List (Nat × Nat) :=
  let l := tabs.flatMap (fun t => (List.range (tableBlocks t.2)).map (fun k => (t.1, k)))
  sortBy (fun x => (2 ^ 32 - scoreOf b x.1 x.2) * 2 ^ 64 + x.1 * 2 ^ 40 + x.2) l

/-- Read replicas that the tables of a job have now, in tier 1: blocks of 64 KiB beyond the first copy (R200). -/
def replicaBlocks (b : Job) (tabs : List (Nat × Decl)) : Nat :=
  sumNat (tabs.map (fun x => if x.2.reps ≤ 1 || b.pset.freeze then 0
    else (x.2.reps - 1) * (((List.range (tableBlocks x.2)).filter (fun k => 0 < scoreOf b x.1 k)).take (tableBlocks x.2 / 64)).length))

/-- Places of row blocks over tiers with room for `room` blocks each (R195): pins, then each table's t1_min, then the rest of
tier 1 by rank, then tier 2, then tier 3 over `devs` devices in turn (R236). Tier 3 on device d is written 3 + d; blocks of
tier 2 are not listed. None where a share or a pin has no room. -/
def tierBlocks (b : Job) (tabs : List (Nat × Decl)) (room : List Nat) (devs : List Nat) : Option (List (Nat × Nat × Nat)) :=
  let ranked := rankBlocks b tabs
  let pinOf (id : Nat) : Nat := match tabs.find? (fun x => x.1 == id) with | some x => x.2.pin - 1 | none => 0
  let pinned := ranked.filter (fun k => pinOf k.1 != 0)
  let loose := ranked.filter (fun k => pinOf k.1 == 0)
  let must := tabs.flatMap (fun x => if pinOf x.1 != 0 then [] else (loose.filter (fun k => k.1 = x.1)).take (ceilDiv (x.2.t1Min * tableBlocks x.2) 1000))
  let free := loose.filter (fun k => !must.contains k)
  let pinN (k : Nat) : Nat := (pinned.filter (fun x => pinOf x.1 == k)).length
  let n1 := room.getD 0 0 - pinN 1 - must.length
  let n2 := room.getD 1 0 - pinN 2
  let t1 := must ++ free.take n1
  let t3 := (free.drop n1).drop n2
  let deep := pinned.filter (fun x => pinOf x.1 == 3) ++ t3
  if room.getD 0 0 < pinN 1 + must.length || room.getD 1 0 < pinN 2 || room.getD 2 0 < deep.length then none
  else some ((pinned.filter (fun x => pinOf x.1 == 1) ++ t1).map (fun k => (k.1, k.2, 1)) ++
    deep.zipIdx.map (fun p => (p.1.1, p.1.2, 3 + devs.getD (p.2 % max devs.length 1) 0)))


/-- Tiers that R195 gives every block of a set, within what the dense items leave. -/
def planTiers (s : State) (j : Nat) (t : SetImg) (caps : List Nat) : Option (List (Nat × Nat × Nat)) :=
  let b := s.job j
  let tabs := setTables' s j t
  let n := caps.map (fun c => c / 65536)
  tierBlocks b tabs [n.getD 0 0 - replicaBlocks b tabs, n.getD 1 0, n.getD 2 0] (t3Devices s)

/-! ### A placement -/

/-- The inputs of a placement (R186), in a layout of the model's (log 7). -/
def placeInputs (s : State) (j : Nat) (t : SetImg) : Bytes :=
  let b := s.job j
  leBytes 32 t.digest ++ t.tensors.flatMap (fun r => match s.decl j r.handle with
    | some d => layout [(1, d.kind), (1, d.fmt), (8, d.count), (4, d.rowLen), (1, d.style), (1, d.pin), (1, d.group), (1, d.kAxis), (1, d.reps), (1, b2n d.dbl + 2 * b2n d.noMigrate), (2, d.rowState), (2, d.t1Min)]
    | none => []) ++ layout [(1, b2n b.pset.freeze), (2, b.pset.migBudget)] ++
  (List.range 576).flatMap (fun k => layout [(1, (s.cell k).state)]) ++ (List.range 512).flatMap (fun k => layout [(1, tget 100 (rateClasses s) k)]) ++
  (List.range 768).flatMap (fun p => layout [(1, if 2 ≤ (s.pc p).state then (s.pc p).state else 0)]) ++
  s.w.reloc.flatMap (fun e => match t.tensors.find? (fun r => e.1 == j && r.handle == e.2.1) with
    | some r => layout [(2, r.id), (8, e.2.2.1), (4, e.2.2.2)]
    | none => []) ++
  layout [(8, tierCap s j 2), (8, tierCap s j 3)] ++ s.w.ret.entries.flatMap (fun e => layout [(1, e.1), (1, e.2.1), (4, e.2.2.1), (8, e.2.2.2)]) ++
  b.scores.flatMap (fun e => layout [(2, e.1), (8, e.2.1), (4, e.2.2)])

/-- Bytes that a division's cells on one die take out of and put into tiers 1 and 2 per micro-batch: weights that lie in a tier,
read for every row block (R136); part stacks that lie in tier 1 (R155); streams at memory ends; spilled streams (R156). -/
def dieTraffic (s : State) (j : Nat) (t : SetImg) (x : Seat) (d : Division) (die : Nat) : Nat × Nat :=
  match t.stage? d.stage with
  | none => (0, 0)
  | some st => match t.fig? st with
    | none => (0, 0)
    | some f =>
      let here (l : List (Nat × Nat)) : Nat := sumNat ((l.filter (fun e => e.1 / 128 == die)).map (fun e => e.2))
      let n := (d.at_.filter (fun e => e.1 / 128 == die)).length
      let part (b : Nat) : Nat := b * n / max d.at_.length 1
      let w := if x.held.contains d.stage then 0 else here (d.weights t (bytesOf s j t)) *
        (ceilDiv st.m (max f.rb 1) + (if (backProds t st).contains 0 then ceilDiv st.m (max d.rbX 1) else 0))
      let stk := here ((d.partShare t).filter (fun e => !x.partCells.contains e.1)) * (if bit f.acc 0 then 8 else 4) / max (stackBytes t f) 1
      let mem (l : List Strm) : Nat := part (sumNat (l.map (fun q => 64 * q.rows * rowItems q.fmt q.len)))
      let e := st.idx
      let spills := part (sumNat ((t.streams.filter (fun q => q.retain && q.dst % 0x8000 == e && !x.kept.contains q.idx)).map keptBytes))
      (w + stk + mem (t.streams.filter (fun q => q.dst % 0x8000 == e && q.src == 0xFFFF)) + spills,
       stk + mem (t.streams.filter (fun q => q.src % 0x8000 == e && q.dst == 0xFFFF && q.src != 0xFFFF)) + spills)

/-- Bytes per micro-batch over each bridge in its busier direction (R20, R21, R204): array-to-array pairs, then array-to-hub. A
die draws a quarter of its tier traffic from every die; a stream between cells of two dies takes their bridge; the hub's bridges
carry the EXCHANGE tensors, a quarter each, spread over the step (log 7). -/
def bridgeBytes (s : State) (j : Nat) (t : SetImg) (x : Seat) : List Nat :=
  let tr (die : Nat) : Nat × Nat := x.div.foldl (fun a d => let y := dieTraffic s j t x d die; (a.1 + y.1, a.2 + y.2)) (0, 0)
  let share (e die : Nat) : Nat × Nat := match x.div.find? (fun d => d.stage == e % 0x8000) with
    | some d => ((d.at_.filter (fun c => c.1 / 128 == die)).length, max d.at_.length 1)
    | none => (0, 1)
  let flow (a b : Nat) : Nat := sumNat ((t.streams.filter (fun q => q.src != 0xFFFF && q.dst != 0xFFFF)).map (fun q =>
    let p := share q.src a
    let r := share q.dst b
    64 * q.rows * rowItems q.fmt q.len * p.1 * r.1 / (p.2 * r.2)))
  let dir (a b : Nat) : Nat := (tr b).1 / 4 + (tr a).2 / 4 + flow a b
  let coll := sumNat ((t.stages.filter isExchange).map (fun q => let c := exchEnds t q; max (bytesOf s j t c.1) (bytesOf s j t c.2)))
  [(0, 1), (0, 2), (0, 3), (1, 2), (1, 3), (2, 3)].map (fun p => max (dir p.1 p.2) (dir p.2 p.1)) ++ List.replicate 4 (coll / 4 / max t.mb 1)

/-- A placement from its cells and homes. -/
def placeWith (s : State) (j : Nat) (t : SetImg) (cause : Nat) (x : Seat) (homes : List HomeItem) (caps : List Nat) : Place :=
  { p := x.p, v := x.v, w := x.w, heavy := x.heavy, period := x.period, total := totalWork t (lenOf s j t), rows := fullRows s, chunks := x.chunks
    div := x.div, cause := cause, fromStep := (s.job j).nextStep.getD 0, inputs := leNum (sha256 (placeInputs s j t)), classes := rateClasses s
    short := 32 - (fullRows s).length, load := x.load, figs := x.figs, depths := depthsOf t, rings := ringsOf t, kept := x.kept
    spill := sumNat (((retained t).filter (fun q => !x.kept.contains q.idx)).map keptBytes), held := x.held, partCells := x.partCells, pinned := x.pinned
    homes := homes, caps := caps, bridge := bridgeBytes s j t x }

/-- Home a seat's items and the row blocks: none where memory has no room. -/
def placeMemory (s : State) (j : Nat) (t : SetImg) (cause : Nat) (x : Seat) : Option (Place × List (Nat × Nat × Nat)) :=
  let caps := capsOf s j t
  let l := homeItems s j t x
  match homeAll (l.filter (fun y => decide (y.prio ≤ 5))) t caps with
  | none => none
  | some (a, left) => match planTiers s j t left with
    | none => none
    | some tiers =>
      let used (p : Nat → Bool) : Nat := 65536 * (tiers.filter (fun e => p e.2.2)).length
      let two := 65536 * sumNat ((setTables' s j t).map (fun y => tableBlocks y.2)) - used (fun _ => true)
      match homeAll (l.filter (fun y => decide (5 < y.prio))) t [left.getD 0 0 - used (fun k => k = 1), left.getD 1 0 - two, left.getD 2 0 - used (fun k => decide (3 ≤ k))] with
      | none => none
      | some (b, _) => some (placeWith s j t cause x (a ++ b) caps, tiers)

/-- Place a set for a job: the placement and the tiers of its row blocks; none is check 9 of R119. -/
def placeJob (s : State) (j : Nat) (t : SetImg) (cause : Nat) : Option (Place × List (Nat × Nat × Nat)) :=
  if !contextsOk t then none
  else match bestPair s j t with
    | none => none
    | some x => placeMemory s j t cause x

/-- Homes of the declarations of a job when a set becomes current (R184, R191): those it names are spread over the live list;
those that only the old set named keep their homes. -/
def settleHomes (b : Job) (t : SetImg) (gone : List Nat) : Tab Decl :=
  b.decls.map (fun e =>
    if t.tensors.any (fun r => r.handle == e.1) then (e.1, { e.2 with gone := gone })
    else match b.cur with
      | none => e
      | some o => match o.tensors.find? (fun (r : Tens) => r.handle == e.1) with
        | none => e
        | some r => (e.1, { e.2 with
            tier := (match b.place.homes.find? (fun x => x.kind == 0 && x.id == r.id) with | some x => x.tier | none => e.2.tier)
            blocks := (b.tiers.filter (fun x => x.1 == r.id)).map (fun x => x.2) }))

/-! ### What a cell shows (R97) -/

/-- Plane key of a cell that serves a column, if it does. -/
def planeKey (s : State) (k : Nat) : Option Nat := let c := s.cell k; if c.state = 0 then some (16 * (k / 18) + c.logical) else none

/-- CELL_STATE.figures of a cell (R97): the figures that the current set of the job holding the array keeps there (log 156). -/
def residentFigures (s : State) (k : Nat) : Nat :=
  match s.w.holder, planeKey s k with
  | some j, some key => if (s.job j).cur.isSome then tget 0 (s.job j).place.figs key else 0
  | _, _ => 0

/-- CELL_STATE.busy (R97): figures are resident and the holder runs a step (log 156). -/
def cellBusy (s : State) (k : Nat) : Bool :=
  decide (0 < residentFigures s k) && (match s.w.holder with | some j => (s.job j).run.isSome | none => false)

end Sys2Proof.Machine
end

