-- ==== Sys2Proof/Machine/Counts.lean ====
section
/-! DEFINITION. What reads of the memory tiers count: corrected and uncorrectable code words (R211, R212, R230, R231, R234, R237,
R490), and the retrainings they ask for (R226). -/

namespace Sys2Proof.Machine

open Sys2Proof

def recent (now t : Nat) : Bool := decide (now < t + 1000000000)

/-- Corrected errors count toward checkpoint advice (R451). -/
def countCe (n : Nat) (s : State) : State :=
  let l := (s.now, n) :: s.w.ck.ceTimes.filter (fun e => decide (s.now < e.1 + s.cfg.ckWindowMin * 60000000000))
  let s1 := s.onW (fun w => { w with ck := { w.ck with ceTimes := l } })
  if s.cfg.ckCeThr < sumNat (l.map (fun e => e.2)) then ckptAdvice 1 s1 else s1

/-- Ask for a retraining of a pseudo-channel (R226): a request for one that is held merges. -/
def requestRetrain (p : Nat) (exempt : Bool) (lanes : List Nat) (s : State) : State :=
  if (s.pc p).state = 3 then s
  else s.modPc p (fun x => { x with
    requested := x.state != 1, exempt := x.exempt || exempt, failLanes := (x.failLanes ++ lanes).eraseDups })

/-- May pseudo-channel `p` start its retraining (R226)? -/
def mayRetrain (s : State) (p : Nat) : Bool :=
  let x := s.pc p
  let st := p / 64
  let held := (List.range 64).filter (fun q => (s.pc (64 * st + q)).state = 1)
  x.requested && x.state != 1 && x.state != 3 && !(s.stack st).tripped &&
  (x.exempt || !x.trained || decide (x.trainNs + 100000000 ≤ s.now)) &&
  decide (held.length < 8) && !held.contains (p % 64 / 2 * 2) && !held.contains (p % 64 / 2 * 2 + 1)

/-- Order in which a stack's requests are taken: rising p, or by waves at a trip exit (R223, R226). -/
def retrainOrder (s : State) (st : Nat) : List Nat :=
  if (s.stack st).waves then (List.range 32).map (fun c => 64 * st + 2 * c) ++ (List.range 32).map (fun c => 64 * st + 2 * c + 1)
  else (List.range 64).map (fun q => 64 * st + q)

/-- Start the retrainings of a stack that may start; a wave starts when the one before has ended. -/
def startRetrains (st : Nat) (s : State) : State :=
  let busy := (List.range 64).any (fun q => (s.pc (64 * st + q)).state = 1)
  if (s.stack st).waves && busy then s
  else
    let s1 := forAll (retrainOrder s st) (fun p s =>
      if mayRetrain s p then s.modPc p (fun x => { x with requested := false, exempt := false, deg := x.state = 2, state := 1 }) else s) s
    if (s1.stack st).waves && !((List.range 64).any (fun q => let x := s1.pc (64 * st + q); x.state = 1 || x.requested)) then
      s1.modStack st (fun x => { x with waves := false })
    else s1

/-- The lane with the most corrections of a window, and its count. -/
def worstOf (l : List (Nat × Nat)) : Nat × Nat :=
  (List.range 72).foldl (fun b i => let n := (l.filter (fun e => e.1 == i)).length; if b.2 < n then (i, n) else b) (0, 0)

/-- Corrected symbols on lanes of a pseudo-channel: the window, and lanes that reach lane_thr (R212). -/
def countLanes (p : Nat) (lanes : List Nat) (s : State) : State :=
  let st := p / 64
  let thr := (tget {} s.cfg.stk st).laneThr
  let old := (s.pc p).ceWin.filter (fun e => recent s.now e.2)
  let new := old ++ lanes.map (fun l => (l, s.now))
  let n (l : List (Nat × Nat)) (i : Nat) : Nat := (l.filter (fun e => e.1 == i)).length
  let hit := lanes.eraseDups.filter (fun i => decide (n old i < thr) && decide (thr ≤ n new i))
  let w := worstOf new
  let s1 := s.modPc p (fun x => { x with ceWin := new, ce1s := min new.length 65535, worstLane := w.1, worstCount := min w.2 511 })
  if hit.isEmpty then s1
  else startRetrains st (forAll hit (fun l s => flt 0x1101 (0x10 + st) 0xFF 0 (locPc p 0xFFFFFFFF l) (requestRetrain p true [l] s)) s1)

/-- A corrected code word at a home: its counters and windows (R212, R230, R231, R234, R239). -/
def correctedWord (x : Home) (lanes : List Nat) (s : State) : State :=
  if x.tier = 1 then
    countCe 1 (countLanes x.place lanes (s.modStack (x.place / 64) (fun k => { k with ce := satAdd 32 k.ce 1 })))
  else if x.tier = 2 then
    let n := x.place / 24
    let k := x.place / 4 % 6
    let old := (tget {} s.w.lp n).ceWin.filter (fun e => recent s.now e.2)
    let c := (old.filter (fun e => e.1 == k)).length
    let s1 := s.onW (fun w => { w with lp := tmod {} w.lp n (fun l => { l with ce := satAdd 32 l.ce 1, ceWin := old ++ [(k, s.now)] }) })
    countCe 1 (if c = 1000 then flt 0x1501 (0x20 + n) 0xFF 0 (locPkg (x.place / 4) (c + 1)) s1 else s1)
  else s

/-- Location of a code word at a home: the granule within the pseudo-channel or sub-channel is the Caller's choice (R209, R232),
a free value; the declaration and offset are known. -/
def locHome (x : Home) (h off g : Nat) : Loc :=
  let l := if x.tier = 1 then locPc x.place (g % 2 ^ 32) 0xFF else if x.tier = 2 then locTier2 (x.place / 4) (x.place % 4) (g % 2 ^ 32) else locCxl x.place (g % 2 ^ 64)
  { l with handle := h, off := off }

/-- An uncorrectable code word at a home: its counter and event (R230, R234, R237, R239). -/
def badWord (x : Home) (j : Nat) (loc : Loc) (s : State) : State :=
  let jb := if j < 64 then j else 0xFF
  if x.tier = 1 then flt 0x1102 x.unit jb 0 loc (s.modStack (x.place / 64) (fun k => { k with ue := satAdd 32 k.ue 1 }))
  else if x.tier = 2 then flt 0x1502 x.unit jb 0 loc (s.onW (fun w => { w with lp := tmod {} w.lp (x.place / 24) (fun l => { l with ue := satAdd 32 l.ue 1 }) }))
  else flt 0x1602 x.unit jb 0 loc (s.onW (fun w => { w with cxl := tmod {} w.cxl x.place (fun l => { l with poison := satAdd 32 l.poison 1 }) }))

/-- What the decoders count when a range of a declaration is read (R211, R230, R231): the code words with errors in it, but for those
the cache serves. -/
def countRead (j h off n : Nat) (s : State) : State :=
  match s.decl j h with
  | none => s
  | some d =>
    let k := devKey j h d.buf off
    forAll (s.w.inject.filter (fun e => decide (e.1 < k + n) && decide (k < e.1 + e.2.1))) (fun e s =>
      let o := e.1 % 2 ^ 48
      let x := homeOf s j h o
      if cached s x j h d.buf o e.2.1 then s
      else if synClass x.tier e.2.2 = 1 then correctedWord x (e.2.2.map (fun y => y.1)) s
      else if synClass x.tier e.2.2 = 2 then
        let g := s.draw
        badWord x j (locHome x h o g.1) g.2
      else s) s

/-- A read of a range of a declaration's buffer in use, with its cache class (R211, R214). -/
def readDev (cls j h off n : Nat) (s : State) : State :=
  match s.decl j h with
  | none => s
  | some d => touch cls false j h d.buf off n (countRead j h off n s)

end Sys2Proof.Machine
end

