-- ==== Sys2Proof/Machine/Compute.lean ====
section
/-! DEFINITION. The running step: its tensors and rows (R129, R131), its visits (R167-R171) and its accesses to memory that a
cleared bit of UNIT_EN cuts off (R63, R64). -/

namespace Sys2Proof.Machine

open Sys2Proof

/-! ### The running step and its tensors -/

/-- A running step with its job, set and declaration lookups. -/
structure Ctx where
  s : State
  j : Nat
  b : Job
  t : SetImg
  r : StepRun

def ctxOf (s : State) (j : Nat) : Option Ctx :=
  match (s.job j).cur, (s.job j).run with
  | some t, some r => some ⟨s, j, s.job j, t, r⟩
  | _, _ => none

def Ctx.decl (c : Ctx) (id : Nat) : Option (Nat × Decl) :=
  match c.t.tens? id with | some r => (c.s.decl c.j r.handle).map (fun d => (r.handle, d)) | none => none

/-- One byte of a tensor as a stage reads it: what the step wrote to it, else device memory (R131, R140). -/
def Ctx.byte (c : Ctx) (h buf off : Nat) : Nat :=
  let v := tget 256 c.r.laid (devKey c.j h buf off)
  if v < 256 then v else (mget c.s.w.dev (devKey c.j h buf off)).toNat
def Ctx.num (c : Ctx) (h buf off n : Nat) : Nat := (List.range n).foldl (fun acc i => acc + c.byte h buf (off + i) * 256 ^ i) 0
def Ctx.rd (c : Ctx) (h : Nat) (d : Decl) : Nat → Nat → Nat := fun off n => c.num h d.buf off n

/-- Bytes of a declaration read as poisoned: marked or stale, or in tier 3 behind a link that is down (R237, R465, R480). -/
def readsBad (s : State) (j h buf off n : Nat) : Bool :=
  s.isPoisoned j h buf off n || (s.w.cxl.any (fun e => e.2.mapped != 0 && !e.2.linkUp) && (homesOf s j h off n).any (deviceDown s))

/-- The declaration of a job's set that holds poison, and where it lies in it. -/
def poisonPlace (s : State) (j : Nat) : Option (Nat × Nat) :=
  match (s.job j).cur with
  | none => none
  | some t =>
    match t.tensors.findSome? (fun r => match s.decl j r.handle with | some d => if readsBad s j r.handle d.buf 0 d.imageBytes then some (r.handle, d) else none | none => none) with
    | none => none
    | some (h, d) =>
      let k := devKey j h d.buf 0
      match s.w.poison.find? (fun x => decide (k ≤ x.1) && decide (x.1 < k + d.imageBytes)) with
      | some x => some (h, x.1 - k)
      | none => match s.w.stale.find? (fun g => g.job == j && g.handle == h) with
        | some g => some (h, 4096 * g.g)
        | none => some (h, 0)

/-- Where poison in a job's tensors comes from: source of R482 and the unit that delivers it. -/
def poisonOrigin (s : State) (j : Nat) : Nat × Nat :=
  match poisonPlace s j with
  | none => (7, if (s.job j).cur.isNone then 0x05 else 0x06)
  | some (h, off) =>
    let o := homeOf s j h off
    if s.w.stale.any (fun g => g.job == j && g.handle == h && g.g == off / 4096) then (6, o.unit) else (o.tier, o.unit)

/-- The location of an event of poison in a job's tensors (R481, R487). -/
def poisonLoc (s : State) (j : Nat) : Loc := match poisonPlace s j with | some x => { handle := x.1, off := x.2 } | none => locNone

/-- Bytes of a tensor are poisoned as a stage reads them: what the step has written itself is not (R481). -/
def Ctx.bad (c : Ctx) (h buf off n : Nat) : Bool :=
  readsBad c.s c.j h buf off n &&
    (List.range n).any (fun i => tget 256 c.r.laid (devKey c.j h buf (off + i)) == 256 && readsBad c.s c.j h buf (off + i) 1)

/-- The operand at row r and column k of a tensor is poisoned: its code, or the scale or table entry it is read with. -/
def Ctx.badElem (c : Ctx) (h : Nat) (d : Decl) (r k : Nat) : Bool :=
  let p := d.bitPos r k
  let x := d.sideOf (d.code (c.rd h d) r k) r k
  c.bad h d.buf (p / 8) ((p % 8 + elemBits d.fmt + 7) / 8) || c.bad h d.buf x.1 x.2

def modRun (j : Nat) (f : StepRun → StepRun) (s : State) : State := s.modJob j (fun b => { b with run := b.run.map f })

/-- Controllers of a list of homes that are disabled (R64). -/
def offUnits (s : State) (l : List Home) : List Nat := ((l.map Home.unit).filter (fun u => !s.unitOn u)).eraseDups

/-- Accesses of the running step to disabled units fail: 0x5110 with cause 5, and the step completes with UNIT_DISABLED (R64). -/
def unitsFail (j stage : Nat) (us : List Nat) (s : State) : State :=
  forAll us (fun u s => failStep j (s.stepOf j) { status := 0x13, unit := u, stage := stage } [] (flt 0x5110 u j (s.stepOf j) (locCause 5 u) s)) s

/-- Bytes of a tensor that rows of a stream at a memory end take: handle, first byte, bytes. -/
def Ctx.rowSpan (c : Ctx) (q : Strm) (m i : Nat) : Option (Nat × Nat × Nat) :=
  match c.decl q.tensor with
  | none => none
  | some (h, d) =>
    let f := ((m * q.rows + i) * q.len) % max (d.nrows * d.rowLen) 1
    let e := min (f + q.len) (d.nrows * d.rowLen) - 1
    let a := d.bitPos (f / max d.rowLen 1) (f % max d.rowLen 1) / 8
    some (h, a, d.bitPos (e / max d.rowLen 1) (e % max d.rowLen 1) / 8 + 1 - a)

/-- The row of a stream at a memory end passes the cache with the stream's class (R214). -/
def Ctx.touchRow (c : Ctx) (q : Strm) (m i : Nat) (write : Bool) (s : State) : State :=
  match c.rowSpan q m i, c.decl q.tensor with
  | some (h, a, n), some (_, d) => if write then touch q.cacheClass true c.j h d.buf a n s else readDev q.cacheClass c.j h a n s
  | _, _ => s

/-- The row of a stream at a memory end can be accessed now: its homes are not held, or their cache serves it (R227). -/
def Ctx.rowFree (c : Ctx) (q : Strm) (m i : Nat) : Bool :=
  match c.rowSpan q m i with | some (h, a, n) => rangeFree c.s c.j h a n | none => true

/-- Disabled controllers that hold a stream's row. -/
def Ctx.rowOff (c : Ctx) (q : Strm) (m i : Nat) : List Nat :=
  match c.rowSpan q m i with | some (h, a, n) => offUnits c.s (homesOf c.s c.j h a n) | none => []

/-- Disabled controllers that hold a tensor's image, where no cell store holds its shares. -/
def Ctx.tensOff (c : Ctx) (id : Nat) : List Nat :=
  match c.decl id with
  | some (h, d) => if (List.range 48).all c.s.unitOn then [] else offUnits c.s (homesOf c.s c.j h 0 d.imageBytes)
  | none => []

/-- Write a row of codes into a tensor: visible to the step's own EXCHANGE and UPDATE stages, to others after beat 3. -/
def overRow (j h : Nat) (d : Decl) (row : Nat) (codes scales : List Nat) (c : Ctx) (s : State) : State :=
  modRun j (fun r => { r with laid := (d.rowImage (c.rd h d) row codes scales).foldl (fun o p =>
    p.2.zipIdx.foldl (fun o q => tput 256 o (devKey j h d.buf (p.1 + q.2)) q.1.toNat) o) r.laid }) s

/-- Row `i` of micro-batch `m` of a stream read from a tensor (R131). A tensor that holds fewer rows than the step's
micro-batches together is read again from its start. -/
def Ctx.memRow (c : Ctx) (q : Strm) (m i : Nat) : Option Row :=
  match c.decl q.tensor with
  | none => none
  | some (h, d) =>
    let total := d.nrows * d.rowLen
    let pos (e : Nat) : Nat × Nat := let f := ((m * q.rows + i) * q.len + e) % max total 1; (f / d.rowLen, f % d.rowLen)
    let es := List.range q.len
    some { vals := es.map (fun e => d.code (c.rd h d) (pos e).1 (pos e).2)
           scales := if isMx q.fmt then es.map (fun e => d.scale (c.rd h d) (pos e).1 (pos e).2) else []
           poison := es.any (fun e => c.badElem h d (pos e).1 (pos e).2) }

/-- A row a stage end has put on a port. -/
def Ctx.portRow (c : Ctx) (e port m i : Nat) : Option Row :=
  (c.r.rows.find? (fun x => x.1 == e && x.2.1 == port && x.2.2.1 == m && x.2.2.2.1 == i)).map (fun x => x.2.2.2.2)
def Ctx.srcRow (c : Ctx) (q : Strm) (m i : Nat) : Option Row := if q.src = 0xFFFF then c.memRow q m i else c.portRow q.src q.srcPort m i

/-- Row `i` as the sink has it: all of its items accepted (R129). -/
def Ctx.sinkRow (c : Ctx) (q : Strm) (m i : Nat) : Option Row :=
  let n := rowItems q.fmt q.len
  (List.range n).foldl (fun acc k => match acc with
    | none => none
    | some row => match c.r.items.find? (fun x => x.strm == q.idx && x.mb == m && x.idx == i * n + k && !x.freed) with
      | none => none
      | some x => some { vals := (row.vals ++ unpackItem q.fmt x.payload).take q.len, scales := row.scales ++ x.scales, poison := row.poison || x.poison })
    (some {})

/-- Every row of a micro-batch at a sink. -/
def Ctx.sinkRows (c : Ctx) (q : Strm) (m : Nat) : Option (List Row) := (List.range q.rows).mapM (fun i => c.sinkRow q m i)

/-! ### Stage ends, chunks and visits -/

/-- The stage ends of a visit (R167). -/
def visitEnds (t : SetImg) (chunks : List (List Nat)) (v : Visit) : List Nat :=
  let back := backHalf t
  (allEnds t).filter (fun e => (match t.stage? (e % 0x8000) with | some st => !isUpdate st | none => false) &&
    back.contains e == !v.fwd && endChunk t chunks e == v.chunk)

/-- Shape of a product of a stage end: G, rows, columns, depth (R122, R149). -/
def prodDims (st : Stage) (ret : Bool) (prod : Nat) : Nat × Nat × Nat × Nat :=
  if !ret then (st.g, st.m, st.n, st.k) else if prod = 0 then (st.g, st.m, st.k, st.n) else (st.g, st.k, st.n, st.m)

/-- Whether a product of a stage end spans micro-batches (R109, R147). -/
def spans (t : SetImg) (st : Stage) (ret : Bool) (prod : Nat) : Bool :=
  if ret then prod = 1 else match t.fig? st with | some f => bit f.acc 16 | none => false

/-- Output ports of a vector stage in port order. -/
def vecPorts (f : Fig) : List Nat := (List.range 4).filter (fun p => (figWrites f).contains p)
/-- Output elements per row at a port of a vector figure. -/
def vecLen (st : Stage) (f : Fig) (port : Nat) : Nat := if f.ops.any (fun o => o.op == 0x30 && o.port == port && rowScal o.a) then 1 else st.rowLen

/-- Tiles of a vector stage per micro-batch at each port: row blocks of 16 by column blocks of 256 (R394). -/
def vecTiles (st : Stage) (f : Fig) : List (Nat × Nat) := (vecPorts f).map (fun p => (p, ((st.rowsMb + 15) / 16) * ((vecLen st f p + 255) / 256)))

/-- Tiles per micro-batch of a product or vector stage end (R394). -/
def tilesOf (t : SetImg) (e prod : Nat) : Nat :=
  match t.stage? (e % 0x8000) with
  | none => 0
  | some st => match t.fig? st with
    | none => 0
    | some f =>
      if isProduct st then let d := prodDims st (decide (0x8000 ≤ e)) prod; d.1 * ((d.2.1 + 15) / 16) * ((d.2.2.1 + 15) / 16)
      else if isVector st then sumNat ((vecTiles st f).map (fun p => p.2)) else 0

/-- The products a stage end forms. -/
def prodsOf (t : SetImg) (e : Nat) : List Nat :=
  if e < 0x8000 then [0]
  else (if (t.out? e 0).isSome then [0] else []) ++ (match t.stage? (e - 0x8000) with | some st => if st.frozen then [] else [1] | none => [])

/-- Every item of a micro-batch that a stage end sends to memory has been written (R131). -/
def Ctx.stored (c : Ctx) (e m : Nat) : Bool :=
  (c.t.outs e).all (fun q => q.dst != 0xFFFF || (isProduct ((c.t.stage? (e % 0x8000)).getD {}) && spans c.t ((c.t.stage? (e % 0x8000)).getD {}) (decide (0x8000 ≤ e)) q.srcPort) ||
    decide ((c.r.items.filter (fun x => x.strm == q.idx && x.mb == m)).length = q.rows * rowItems q.fmt q.len))

/-- A stage end has issued its last item of a micro-batch: its results are formed, and those that go to memory written. -/
def Ctx.endDone (c : Ctx) (e m : Nat) : Bool :=
  c.stored e m && match c.t.stage? (e % 0x8000) with
  | none => true
  | some st =>
    if isProduct st || isVector st then
      (prodsOf c.t e).all (fun p => decide (((c.r.tiles.filter (fun x => x.st == e && x.prod == p && x.mb == m && x.done)).length) = tilesOf c.t e p))
    else if isLookup st then (c.t.outs e).all (fun q => (List.range q.rows).all (fun i => (c.portRow e q.srcPort m i).isSome))
    else if isScatter st then (List.range ((c.t.ins e).map (fun q => q.rows)).sum).all (fun i => (c.portRow e 0x10 m i).isSome)
    else (c.t.outs e).all (fun q => q.dst == 0xFFFF || (List.range q.rows).all (fun i => (c.portRow e q.srcPort m i).isSome))

/-- The order of a position (R167), cut at the boundaries a drain has been asked for (R171). -/
def splitOrder : List Nat → List Visit → List Visit
  | [], l => l
  | x :: r, l => l.filter (fun v => decide (v.mb < x)) ++ splitOrder r (l.filter (fun v => decide (x ≤ v.mb)))
def Ctx.order (c : Ctx) (pos : Nat) : List Visit := splitOrder c.r.parts_ (visitOrder c.t.mb c.b.place.p c.b.place.v pos)
def Ctx.visited (c : Ctx) (pos : Nat) : List Visit := (c.order pos).take (tget 0 c.r.visits pos)
def Ctx.visitDone (c : Ctx) (v : Visit) : Bool := (visitEnds c.t c.b.place.chunks v).all (fun e => c.endDone e v.mb)

/-- Every visit of every position is started and done: micro-batch boundary B (R171). -/
def Ctx.drained (c : Ctx) : Bool :=
  (List.range c.b.place.p).all (fun pos => (c.visited pos).all c.visitDone)
def Ctx.finished (c : Ctx) : Bool :=
  (List.range c.b.place.p).all (fun pos => (c.visited pos).length == (c.order pos).length) && c.drained

/-- Micro-batch boundary `x` is reached (R171): every visit below it is done, none above it has started. -/
def Ctx.atBoundary (c : Ctx) (x : Nat) : Bool :=
  c.drained && (List.range c.b.place.p).all (fun pos =>
    tget 0 c.r.visits pos == ((c.order pos).filter (fun v => decide (v.mb < x))).length)

/-- A stage end works on a micro-batch: its visit has started. -/
def Ctx.active (c : Ctx) (e m : Nat) : Bool :=
  let ch := endChunk c.t c.b.place.chunks e
  let fwd := !(backHalf c.t).contains e
  (c.visited (ch % max c.b.place.p 1)).contains ⟨fwd, m, ch⟩

/-- Start the next visit of a position (R168): its predecessor has issued its last item, and no F visit passes the drain
bound (R171). -/
def visitStart (j pos : Nat) (s : State) : State :=
  match ctxOf s j with
  | none => s
  | some c =>
    let n := tget 0 c.r.visits pos
    if c.r.phase != .run || !decide (pos < c.b.place.p) || c.b.pstate = 2 then s
    else match (c.order pos)[n]? with
      | none => s
      | some v =>
        let predDone := match (c.order pos)[n - 1]? with | some u => n = 0 || c.visitDone u | none => true
        let allowed := !v.fwd || (match c.r.cut with | some x => decide (v.mb < x) | none => true)
        if predDone && allowed then
          modRun j (fun r => { r with visits := tput 0 r.visits pos (n + 1), admitted := if v.fwd then max r.admitted (v.mb + 1) else r.admitted }) s
        else s

/-- VISIT_START (R168). -/
def execVisitStart (job pos : Nat) (s : State) : Res := onWorld (fabric (.visitStart job pos) (visitStart job pos)) s

end Sys2Proof.Machine
end

