-- ==== Sys2Proof/Machine/Tiles.lean ====
section
/-! DEFINITION. Tiles of products and vector stages: their cells (R190), K-parts (R108, R111), part stacks and tied weights
(R109, R112, R113, R162), readout (R110, R111), and the Umpire's samples (R388-R400). -/

namespace Sys2Proof.Machine

open Sys2Proof

/-! ### Cells of a tile -/

/-- Physical cell at a place of the plane (R188). -/
def cellAt (s : State) (key : Nat) : Nat := (serving s key).getD (18 * (key / 16) + key % 16)

/-- Place of a vector tile: port, first row, first column. -/
def vecPlace (st : Stage) (f : Fig) (tile : Nat) : Option (Nat × Nat × Nat) :=
  (vecTiles st f).foldl (fun acc p => match acc with
    | (some x, n) => (some x, n)
    | (none, n) =>
      if tile < n + p.2 then
        let cb := (vecLen st f p.1 + 255) / 256
        (some (p.1, 16 * ((tile - n) / cb), 256 * ((tile - n) % cb)), n)
      else (none, n + p.2)) (none, 0) |>.1

/-- Unit of a tile along the axis its stage is cut by (R148, R190): an N-tile, a product, a row block, a part of K, a row. Along K
the first cell combines; dX has its columns, and dW its rows, along K. -/
def tileUnit (st : Stage) (f : Fig) (d : Division) (e prod tile : Nat) : Nat :=
  if isProduct st then
    let s := prodDims st (decide (0x8000 ≤ e)) prod
    let nb := ceilDiv s.2.2.1 16
    let mb := ceilDiv s.2.1 16
    let bi := tile / nb % max mb 1
    let bj := tile % nb
    let k (b : Nat) : Nat := b * (if f.aFmt == 0x20 then 3 else 1) / 2 ^ d.kpart
    if d.axis = 1 then (if 0x8000 ≤ e && prod = 0 then 0 else bj)
    else if d.axis = 2 then tile / (mb * nb)
    else if d.axis = 3 then 16 * bi / max f.rb 1
    else if d.axis = 4 then (if e < 0x8000 then 0 else if prod = 0 then k bj else k bi)
    else 0
  else match vecPlace st f tile with
    | some p => p.2.1
    | none => 0

/-- Plane key of the cell that forms a tile. A stage cut along rows forms dW on all its cells, an even part of the N-tiles each
(R148). -/
def tileKey (st : Stage) (f : Fig) (d : Division) (e prod tile : Nat) : Option Nat :=
  let first := d.at_.head?.map (fun x => x.1)
  if isProduct st && 0x8000 ≤ e && prod = 1 && d.axis = 3 then
    let nt := ceilDiv st.n 16
    match d.at_.zipIdx.find? (fun x => decide (tile % max nt 1 < (x.2 + 1) * nt / max d.at_.length 1)) with
    | some x => some x.1.1
    | none => first
  else
    let u := tileUnit st f d e prod tile
    match d.at_.find? (fun x => decide (x.2.1 ≤ u) && decide (u < x.2.1 + x.2.2)) with
    | some x => some x.1
    | none => first

def Ctx.division (c : Ctx) (e : Nat) : Option Division := c.b.place.div.find? (fun d => d.stage == e % 0x8000)

/-- The cell whose share holds a tile (R190). -/
def Ctx.tileCell (c : Ctx) (e prod tile : Nat) : Nat :=
  match c.t.stage? (e % 0x8000), c.division e with
  | some st, some d => (match c.t.fig? st with
    | some f => cellAt c.s ((tileKey st f d e prod tile).getD 0)
    | none => cellAt c.s ((d.at_.headD (0, 0, 0)).1))
  | _, _ => cellAt c.s 0

/-! ### Strikes, samples, disagreements (R389, R394-R400) -/

/-- A strike against a cell in a step (R398): a second within 1,000 steps has it retired at the next boundary. -/
def strike (k n : Nat) (s : State) : State :=
  let c := s.cell k
  let recent := decide (0 < c.strikes) && decide ((n + 2 ^ 32 - c.strikeLo) % 2 ^ 32 ≤ 1000)
  let cnt := if recent then min (c.strikes + 1) 3 else 1
  flt 0x2504 0x05 0xFF n (locCell k) (s.modCell k (fun c => { c with strikeLo := n % 2 ^ 32, strikes := cnt, due := c.due || decide (2 ≤ cnt) }))

/-- Flip the bits of a hardware fault in a list of results: (index, bits). -/
def flipAll (l : List Nat) (err : List (Nat × Nat)) : List Nat :=
  err.foldl (fun l e => l.zipIdx.map (fun p => if p.2 = e.1 then p.1.xor e.2 else p.1)) l

/-- A checker for a cell (R395): a bench cell in another row of the same die, round robin; else one of another die. -/
def pickChecker (s : State) (avoid : List Nat) (die : Nat) : Option Nat :=
  let ok := (benchCells s).filter (fun k => avoid.all (fun a => cellRow a != cellRow k))
  let same := ok.filter (fun k => k / 144 = die)
  if !same.isEmpty then same[s.w.ump.rrChecker % same.length]? else ((benchCells s).filter (fun k => k / 144 != die && avoid.all (fun a => cellRow a != cellRow k)))[s.w.ump.rrChecker % max ((benchCells s).filter (fun k => k / 144 != die && avoid.all (fun a => cellRow a != cellRow k))).length 1]?

/-- A stage's tile is sampled in this step (R394); in a let replay every tile of a named cell or of the failing stage is (R413). -/
def Ctx.sampledAt (c : Ctx) (e i cell : Nat) : Bool :=
  let named := match c.b.entry? c.r.step with
    | some x => c.r.replay && (x.cells.contains cell || (x.fail.status = 0x52 && x.fail.stage = e % 0x8000 && decide (x.fail.detail / 256 ≤ 3) && x.fail.detail != 0))
    | none => false
  named || (i + c.r.step + e) % 2 ^ c.b.k = 0
def Ctx.sampled (c : Ctx) (e prod m tile cell : Nat) : Bool := c.sampledAt e (tile + tilesOf c.t e prod * m) cell

/-- Take a sample, or stop sampling when no bench cell is left (R395, R396). -/
def takeSample (j : Nat) (x : Samp) (s : State) : State :=
  match pickChecker s [x.work] (x.work / 144) with
  | some k => (s.modJob j (fun b => { b with samps := b.samps ++ [{ x with checker := k }] })).onW (fun w => { w with
      ump := { w.ump with rrChecker := w.ump.rrChecker + 1, noBench := false } })
  | none =>
    if s.w.ump.noBench then s
    else benchAdvice 4 0x05 (flt0 0x2508 0x05 0xFF x.step (s.onW (fun w => { w with ump := { w.ump with noBench := true } })))

/-! ### Tiles -/

/-- What a tile gives: results to compare (raw values, or codes of a vector stage), FP32 or code outputs, counts. -/
structure TileOut where
  res : List Nat
  codes : List Nat
  cnt : Counts
  amax : Nat
  ss : Nat
  poison : Bool

/-- Magnitude and square of an element as FP32. -/
def statOf (xs : List Nat) : Nat × Nat :=
  xs.foldl (fun acc x => match dec32 x with
    | .fin _ m e => (max acc.1 (x % 2 ^ 31), acc.2 + (m * 2 ^ (e + 149).toNat) ^ 2)
    | _ => acc) (0, 0)

/-- A pair as results to compare. -/
def flatRaw (comp : Bool) (l : List (Nat × Nat)) : List Nat := if comp then l.flatMap (fun p => [p.1, p.2]) else l.map (fun p => p.1)
def unflatRaw (comp : Bool) (l : List Nat) : List (Nat × Nat) := if comp then (chunksOf 2 l).map (fun p => (p.getD 0 0, p.getD 1 0)) else l.map (fun x => (x, 0))

/-- ACC_CTL of a product of a stage end (R110, R147). -/
def Ctx.acc (c : Ctx) (st : Stage) (f : Fig) (e prod : Nat) : Nat :=
  if e < 0x8000 then f.acc
  else
    let fmt := match c.t.out? e prod with | some q => q.fmt | none => 0x01
    b2n (bit f.acc 0) + 4 + fmt * 256 + (if prod = 1 then 65536 + (if st.tied != 0xFFFF then 16 else 0) else 0)

/-- The return copy of a weight for the buffer the step reads (R152): its format and codes. -/
def Ctx.copyOf (c : Ctx) (id : Nat) : Option (Nat × List Nat) :=
  match (copiesOf c.t).find? (fun x => x.1 == id), c.decl id with
  | some x, some (_, d) => ((c.b.copies.find? (fun y => y.1 == id && y.2.1 == d.buf)).map (fun y => (if x.2.1 = 1 then 0x04 else 0x02, y.2.2)))
  | _, _ => none

/-- A BF16 copy of a value (R152, R153). -/
def viaBf16 (v : FVal) : FVal := ffBf16.decode (ffBf16.encode v)

/-- An operand with its poison. -/
abbrev Opnd := FVal × Bool

/-- Operand readers of a product: A at (g, row, k) and B at (g, k, column). -/
def Ctx.operands (c : Ctx) (st : Stage) (f : Fig) (e prod m : Nat) : Option ((Nat → Nat → Nat → Opnd) × (Nat → Nat → Nat → Opnd)) :=
  let flat (q : Strm) (rows : List Row) : Nat → Opnd := fun i =>
    (((rows.map (rowVals q.fmt)).getD (i / max q.len 1) []).getD (i % max q.len 1) (.fin false 0 0), (rows.getD (i / max q.len 1) {}).poison)
  let wt (act : Nat) : Option (Nat → Opnd) := match c.decl st.weight with
    | some (h, d) => some (fun i =>
        (d.value act (c.rd h d) (i / max d.rowLen 1) (i % max d.rowLen 1), c.badElem h d (i / max d.rowLen 1) (i % max d.rowLen 1)))
    | none => none
  let narrow (w : Nat → Opnd) : Nat → Opnd := fun i => (viaBf16 (w i).1, (w i).2)
  let back (w : Nat → Opnd) : Nat → Opnd := match c.copyOf st.weight with
    | some (fmt, codes) => fun i => (elemVal fmt 127 (codes.getD i 0), (w i).2)
    | none => w
  if e < 0x8000 then
    match c.t.in? e f.aPort with
    | none => none
    | some qa => match c.sinkRows qa m with
      | none => none
      | some ra =>
        let a := flat qa ra
        let aF : Nat → Nat → Nat → Opnd := fun g r k => if bit f.tr 0 then a ((g * st.k + k) * st.m + r) else a ((g * st.m + r) * st.k + k)
        let mk (b : Nat → Opnd) := some (aF, (fun g k n => if bit f.tr 1 then b ((g * st.n + n) * st.k + k) else b ((g * st.k + k) * st.n + n)))
        if f.bSrc = 0 then (match wt f.aFmt with | some w => mk w | none => none)
        else match c.t.in? e f.bPort with
          | none => none
          | some qb => match c.sinkRows qb m with
            | none => none
            | some rb => mk (flat qb rb)
  else
    match c.t.in? e 0 with
    | none => none
    | some qy => match c.sinkRows qy m with
      | none => none
      | some ry =>
        let y := flat qy ry
        let mx := isMx f.aFmt
        if prod = 0 then
          match wt f.aFmt with
          | none => none
          | some w =>
            let w' := back w
            some ((fun g r k => y ((g * st.m + r) * st.n + k)), (fun g k n => if bit f.tr 1 then w' ((g * st.n + k) * st.k + n) else w' ((g * st.k + n) * st.n + k)))
        else match c.t.in? e 1 with
          | none => none
          | some qx => match c.sinkRows qx m with
            | none => none
            | some rx =>
              let x := flat qx rx
              let x' : Nat → Opnd := if mx then narrow x else x
              some ((fun g r k => x' (if bit f.tr 0 then (g * st.k + r) * st.m + k else (g * st.m + k) * st.k + r)), (fun g k n => y ((g * st.m + k) * st.n + n)))

/-- The elements (g, row, column) of a product tile. -/
def tileElems (d : Nat × Nat × Nat × Nat) (tile : Nat) : List (Nat × Nat × Nat) :=
  let nb := (d.2.2.1 + 15) / 16
  let mb := (d.2.1 + 15) / 16
  let g := tile / (mb * nb)
  let bi := tile % (mb * nb) / nb
  let bj := tile % nb
  (List.range 16).flatMap (fun r => (List.range 16).filterMap (fun n =>
    if 16 * bi + r < d.2.1 && 16 * bj + n < d.2.2.1 then some (g, 16 * bi + r, 16 * bj + n) else none))

/-- K-parts of a product on its stage's cells (R108, R148): a part's chunks as a power of two, and the plane key that forms each
part, the first combining them; no keys where one cell forms all. None where the product is not split. -/
def Ctx.kSplit (c : Ctx) (f : Fig) (e prod : Nat) : Option (Nat × List Nat) :=
  match c.division e with
  | none => none
  | some d =>
    if e < 0x8000 then
      (if d.kpart = 0xFF then none else some (d.kpart, if d.axis = 4 then d.at_.flatMap (fun x => List.replicate x.2.2 x.1) else []))
    else if prod = 0 && d.backPart != 0xFF then
      some (d.backPart, d.at_.flatMap (fun x => List.replicate (x.2.2 * (if f.aFmt == 0x20 then 3 else 1) / 2 ^ d.backPart) x.1))
    else none

/-- The parts of every element of a product tile (R101-R108), and whether a poisoned operand entered it (R481). -/
def Ctx.productParts (c : Ctx) (st : Stage) (f : Fig) (e prod m tile : Nat) : Option (List (List (Nat × Nat)) × Bool) :=
  match c.operands st f e prod m with
  | none => none
  | some (a, b) =>
    let d := prodDims st (decide (0x8000 ≤ e)) prod
    let ks := List.range d.2.2.2
    let ab := (tileElems d tile).map (fun x => (ks.map (fun k => a x.1 x.2.1 k), ks.map (fun k => b x.1 k x.2.2)))
    let split := f.aFmt == 0x20
    let comp := bit f.acc 0
    some (ab.map (fun p =>
        let as := p.1.map (fun v => v.1)
        let bs := p.2.map (fun v => v.1)
        match c.kSplit f e prod with
        | some k => dotParts split comp k.1 as bs
        | none => [dotRaw split comp as bs]),
      ab.any (fun p => p.1.any (fun v => v.2) || p.2.any (fun v => v.2)))

/-- Part results travel as items of streams of their own, numbered here from 4,096 (log 174): one item per 16 outputs, two for
pairs (R111). -/
def partStrm (e : Nat) : Nat := 4096 + 2 * (e % 0x8000) + e / 0x8000
def partWide (comp : Bool) : Nat := if comp then 2 else 1
def partIdx (comp : Bool) (parts tile k i : Nat) : Nat := (tile * parts + k) * (16 * partWide comp) + i

/-- Outputs of a tile by row, as the 32-bit words of their part results. -/
def tileWords (es : List (Nat × Nat × Nat)) (comp : Bool) (vals : List (Nat × Nat)) : List (List Nat) :=
  let cols := (es.filter (fun x => decide (es.head?.map (fun y => y.2.1) = some x.2.1))).length
  (chunksOf (max cols 1) vals).map (flatRaw comp)

/-- A part result as its items brought it to the combining cell: none while one is missing. -/
def Ctx.partItems (c : Ctx) (comp : Bool) (e m tile parts k : Nat) (es : List (Nat × Nat × Nat)) : Option (List (Nat × Nat) × Bool) :=
  let shape := tileWords es comp (es.map (fun _ => (0, 0)))
  (shape.zipIdx.flatMap (fun r => (List.range (partWide comp)).map (fun i => (r.2 * partWide comp + i, r.1.length - 16 * i)))).mapM (fun x =>
    (c.r.items.find? (fun y => y.strm == partStrm e && y.mb == m && y.idx == partIdx comp parts tile k x.1)).map (fun y =>
      (((chunksOf 4 y.payload).map leNum).take (min x.2 16), y.poison))) |>.map (fun l =>
    (unflatRaw comp (l.flatMap (fun y => y.1)), l.any (fun y => y.2)))

/-- Raw values of a product tile: as its cells form them, parts of other cells as received; without a fault; poisoned. -/
def Ctx.productRaw (c : Ctx) (st : Stage) (f : Fig) (e prod m tile : Nat) : Option (List (Nat × Nat) × List (Nat × Nat) × Bool) :=
  match c.productParts st f e prod m tile with
  | none => none
  | some (vs, p) =>
    let comp := bit f.acc 0
    let truth := vs.map (joinParts comp)
    match c.kSplit f e prod with
    | none => some (truth, truth, p)
    | some (_, keys) =>
      let n := (vs.headD []).length
      let es := tileElems (prodDims st (decide (0x8000 ≤ e)) prod) tile
      let got := (List.range n).mapM (fun k =>
        if keys.getD k (keys.headD 0) = keys.headD 0 then some (vs.map (fun v => v.getD k (0, 0)), false) else c.partItems comp e m tile n k es)
      got.map (fun ps => ((List.range vs.length).map (fun i => joinParts comp (ps.map (fun q => q.1.getD i (0, 0)))), truth, p || ps.any (fun q => q.2)))

/-- Tensor ID of what a port puts out (R81, R126). Where a port feeds streams that name different tensors the rules do not say
which enters: the first stream record's (DESIGN CHOICE, log 171). -/
def Ctx.outTensor (c : Ctx) (e port : Nat) : Nat := match c.t.out? e port with | some q => q.tensor | none => 0

/-- Convert raw values of a product tile, errors of the cell included. -/
def Ctx.productOut (c : Ctx) (st : Stage) (f : Fig) (e prod m tile : Nat) (raw : List (Nat × Nat)) (p : Bool) : TileOut :=
  let d := prodDims st (decide (0x8000 ≤ e)) prod
  let acc := c.acc st f e prod
  let port := if e < 0x8000 then f.outPort else prod
  let outs := (raw.zip (tileElems d tile)).map (fun q =>
    readout acc { seed := c.r.seed, step := c.r.step, tensor := c.outTensor e port, first := ((m * d.1 + q.2.1) * d.2.1 + q.2.2.1) * d.2.2.1 + q.2.2.2 } q.1)
  let codes := outs.flatMap (fun o => o.1)
  let stat := statOf (codes.map (fun x => toFp32 (bits acc 15 8) 127 x))
  { res := flatRaw (bit f.acc 0) raw, codes := codes, cnt := outs.foldl (fun k o => k.add o.2) {}, amax := stat.1, ss := stat.2, poison := p }

/-- The step constants that the step reads are poisoned. -/
def Ctx.constBad (c : Ctx) : Bool := match c.decl c.t.stepConst with | some (h, _) => c.bad h 0 0 32 | none => false

/-- What the ops of a vector stage write for one row: port, FP32 values, rounding and saturation of each OUT, and whether
poison came in; none while an input row is not there. -/
def Ctx.vecEnv (c : Ctx) (st : Stage) (f : Fig) (m i : Nat) : Option (List (Nat × List Nat × Bool × Bool) × Bool) :=
  let ins := (figReads f).eraseDups
  match ins.mapM (fun p => match c.t.in? st.idx p with
    | none => none
    | some q => (c.sinkRow q m i).map (fun r => (p, rowFp32 q.fmt r, r.poison))) with
  | none => none
  | some ps =>
    let aux := st.aux.zipIdx.filterMap (fun a => match c.decl a.1 with
      | some (h, d) => some (a.2, (List.range st.rowLen).map (fun x => toFp32 d.fmt (d.scale (c.rd h d) (x / max d.rowLen 1) (x % max d.rowLen 1)) (d.code (c.rd h d) (x / max d.rowLen 1) (x % max d.rowLen 1))))
      | none => none)
    let env := runFigure f { ports := ps.map (fun p => (p.1, p.2.1)), aux := aux, steps := c.r.sc, len := st.rowLen }
    let auxBad := st.aux.any (fun a => match c.decl a with
      | some (h, d) => (List.range st.rowLen).any (fun x => c.badElem h d (x / max d.rowLen 1) (x % max d.rowLen 1))
      | none => false)
    some (env.outs, ps.any (fun p => p.2.2) || auxBad || (f.ops.any (fun o => (opSources o).any (fun x => decide (56 ≤ x))) && c.constBad))

/-- Rows of a matrix that the MX blocks of a vector output run down (R77): none where the blocks run along the row. A
declared tensor names its axis; a role 3 tensor takes the axis of the product that its stream feeds, in blocks of K rows. -/
def Ctx.downRows (c : Ctx) (st : Stage) (f : Fig) (port : Nat) : Option Nat :=
  if !isMx f.oFmt then none
  else
    let qs := c.t.outs st.idx |>.filter (fun q => q.srcPort == port)
    match qs.filterMap (fun q => (c.decl q.tensor).map (fun d => d.2.kAxis)) with
    | a :: _ => if a = 1 then some (max st.rowsMb 1) else none
    | [] => match qs.find? (fun q => wantedAxis c.t q == some 1) with
      | some q => some (match c.t.stage? q.dst with | some p => max p.k 1 | none => 1)
      | none => none

/-- What a vector stage puts out for one row: port and row, with counts; none while a row it needs is not there. -/
def Ctx.vecRow (c : Ctx) (st : Stage) (f : Fig) (m i : Nat) : Option (List (Nat × Row × Counts)) :=
  match c.vecEnv st f m i with
  | none => none
  | some (outs, p) => outs.mapM (fun o =>
      match c.downRows st f o.1 with
      | none =>
        let a : SrAt := { seed := c.r.seed, step := c.r.step, tensor := c.outTensor st.idx o.1, first := (m * st.rowsMb + i) * o.2.1.length }
        let cr := convRow f.oFmt o.2.2.1 o.2.2.2 a o.2.1
        some (o.1, { cr.1 with poison := p }, cr.2)
      | some k =>
        let r0 := i / k * k + i % k / 32 * 32
        let n := min 32 (min (i / k * k + k) st.rowsMb - r0)
        match (List.range n).mapM (fun x => (c.vecEnv st f m (r0 + x)).map (fun v => lookupD [] o.1 (v.1.map (fun p => (p.1, p.2.1))))) with
        | none => none
        | some rows => ((convCols f.oFmt rows)[i - r0]?).map (fun (cr : Row × Counts) => (o.1, { cr.1 with poison := p }, cr.2)))

/-- Output of a vector tile: the codes of up to 16 rows by 256 elements. -/
def Ctx.vecOut (c : Ctx) (st : Stage) (f : Fig) (m tile : Nat) : Option TileOut :=
  match vecPlace st f tile with
  | none => none
  | some (port, r0, c0) =>
    match ((List.range 16).filter (fun r => r0 + r < st.rowsMb)).mapM (fun r => c.vecRow st f m (r0 + r)) with
    | none => none
    | some rows =>
      let outs := rows.filterMap (fun l => l.find? (fun o => o.1 == port))
      let codes := outs.flatMap (fun o => (o.2.1.vals.drop c0).take 256)
      let stat := statOf (outs.flatMap (fun o => ((rowFp32 f.oFmt o.2.1).drop c0).take 256))
      some { res := codes, codes := codes, cnt := if c0 = 0 then outs.foldl (fun k o => k.add o.2.2) {} else {}, amax := stat.1, ss := stat.2, poison := outs.any (fun o => o.2.1.poison) }

/-- Add a tile's counts to the report of its stage (R143, R391). -/
def addRep (e : Nat) (o : TileOut) (redone : Bool) (r : StepRun) : StepRun :=
  { r with reports := tmod {} r.reports e (fun p => { p with
      nans := satAdd 32 p.nans o.cnt.nans, infs := satAdd 32 p.infs o.cnt.infs, sats := satAdd 32 p.sats o.cnt.sats
      redone := p.redone || redone, amax := max p.amax o.amax, ss := p.ss + o.ss }) }

/-- Codes of all tiles of a micro-batch by element, when every tile is done: product tiles in (g, row, column) order. -/
def Ctx.gather (c : Ctx) (st : Stage) (e prod m : Nat) (per : Nat) : Option (List Nat × Bool) :=
  let d := prodDims st (decide (0x8000 ≤ e)) prod
  let ts := c.r.tiles.filter (fun x => x.st == e && x.prod == prod && x.mb == m && x.done)
  if ts.length = tilesOf c.t e prod then
    let cells := ts.flatMap (fun x => (tileElems d x.tile).zip (chunksOf per x.out))
    let keyed := sortBy (fun q => (q.1.1 * d.2.1 + q.1.2.1) * d.2.2.1 + q.1.2.2) cells
    some (keyed.flatMap (fun q => q.2), ts.any (fun x => x.poison))
  else none

/-- Put the rows of a micro-batch on a port, cut as the streams of the port cut them. -/
def putRows (j e port m : Nat) (codes : List Nat) (poison : Bool) (c : Ctx) (s : State) : State :=
  match c.t.out? e port with
  | none => s
  | some q => modRun j (fun r => { r with
      rows := r.rows ++ ((chunksOf (max q.len 1) codes).zipIdx.map (fun p => (e, port, m, p.2, { vals := p.1, poison := poison }))) }) s

def partOf (r : StepRun) (e i : Nat) : LevelStack :=
  match r.parts.find? (fun p => p.1 == e && p.2.1 == i) with | some p => p.2.2 | none => []
def putPart (r : StepRun) (e i : Nat) (l : LevelStack) : StepRun :=
  { r with parts := (e, i, l) :: r.parts.filter (fun p => !(p.1 == e && p.2.1 == i)) }

/-- Push one micro-batch's raw values of a tile into the part stacks (R109). -/
def pushParts (comp : Bool) (e : Nat) (d : Nat × Nat × Nat × Nat) (tile : Nat) (raw : List (Nat × Nat)) (r : StepRun) : StepRun :=
  ((tileElems d tile).zip raw).foldl (fun r q =>
    let i := (q.1.1 * d.2.1 + q.1.2.1) * d.2.2.1 + q.1.2.2
    putPart r e i (levelPush comp (partOf r e i) 0 q.2)) r

/-- Key of a tied weight's buffer beside the part stacks of stage ends. -/
def tiedKey (w : Nat) : Nat := 0x10000 + w

/-- A product that spans micro-batches has all its tiles of the last one. -/
def Ctx.complete (c : Ctx) (e prod : Nat) : Bool :=
  decide ((c.r.tiles.filter (fun x => x.st == e && x.prod == prod && x.mb + 1 == c.t.mb && x.done)).length = tilesOf c.t e prod)

/-- Stage ends whose contributions make a gradient, in the order they are combined (R112, R162). A use with grad 0 or frozen 1
forms no dW and contributes nothing (DESIGN CHOICE, log 172). -/
def gradUses (t : SetImg) (st : Stage) (e : Nat) : List Nat :=
  if st.tied = 0xFFFF || e < 0x8000 then [e] else (tiedUses t st.weight).map (fun x => x.idx + 0x8000)

/-- Push the complete contributions of a tied weight whose turn has come into the home cell's buffer (R113); the rest stay parked.
Contributions meet element by element in the order of each use's own K x N product (DESIGN CHOICE, log 172). -/
def pushTied (comp : Bool) (w n : Nat) (uses : List Nat) (full : Nat → Bool) (r : StepRun) : StepRun :=
  uses.zipIdx.foldl (fun r u =>
    if tget 0 r.pushed w = u.2 && full u.1 then
      { (List.range n).foldl (fun r i => putPart r (tiedKey w) i (levelPush comp (partOf r (tiedKey w) i) 0 (levelFinish comp (partOf r u.1 i)))) r with
        pushed := tput 0 r.pushed w (u.2 + 1) }
    else r) r

/-- A format that stochastic rounding can round to (R79, R110). -/
def srFmt (f : Nat) : Bool := decide (2 ≤ f) && decide (f ≤ 5)

/-- Outputs that a cell has rounded stochastically (R97). -/
def countSr (cell n : Nat) (r : StepRun) : StepRun := { r with srs := tmod 0 r.srs cell (fun k => k + n) }

/-- The gradient is complete: every tile of the last micro-batch is in, for every use of a tied weight. It is read out once
(R105, R110, R112, R155), each gradient tensor written once, by the cells that formed its tiles or the home cell (R162). -/
def finishGrad (j e prod : Nat) (c0 : Ctx) (st : Stage) (f : Fig) (s0 : State) : State :=
  let comp := bit f.acc 0
  let d := prodDims st (decide (0x8000 ≤ e)) prod
  let n := d.1 * d.2.1 * d.2.2.1
  let uses := gradUses c0.t st e
  let tied := uses != [e] || (st.tied != 0xFFFF && 0x8000 ≤ e)
  let s := if tied then modRun j (pushTied comp st.weight n uses (fun u => c0.complete u prod)) s0 else s0
  match ctxOf s j with
  | none => s
  | some c =>
    if !uses.all (fun u => c.complete u prod) || c.r.graded.contains e then s
    else
      let val (i : Nat) : Nat × Nat := levelFinish comp (partOf c.r (if tied then tiedKey st.weight else e) i)
      let acc := c.acc st f e prod
      let home := uses.headD e
      let port := if e < 0x8000 then f.outPort else prod
      let outs := (List.range n).map (fun i => readout acc { seed := c.r.seed, step := c.r.step, tensor := c.outTensor home port, first := i } (val i))
      let codes := outs.flatMap (fun o => o.1)
      let stat := statOf (codes.map (fun x => toFp32 (bits acc 15 8) 127 x))
      let o : TileOut := { res := [], codes := codes, cnt := outs.foldl (fun k o => k.add o.2) {}, amax := stat.1, ss := stat.2, poison := c.r.tiles.any (fun x => uses.contains x.st && x.prod == prod && x.poison) }
      let sr (r : StepRun) : StepRun :=
        if !(bit acc 1 && srFmt (bits acc 15 8)) then r
        else if tied then countSr (c.tileCell home prod 0) n r
        else (List.range (tilesOf c.t e prod)).foldl (fun r i => countSr (c.tileCell e prod i) (tileElems d i).length r) r
      let s1 := modRun j (fun r => sr (addRep e o false { r with graded := r.graded ++ uses })) s
      let outsOf := (uses.filterMap (fun u => c.t.out? u port)).filter (fun q => q.dst = 0xFFFF)
      let ids := (outsOf.map (fun q => q.tensor)).eraseDups
      let write (id : Nat) (s : State) : State :=
        match c.decl id with
        | some (h, dd) =>
          let cls := match outsOf.find? (fun q => q.tensor == id) with | some q => q.cacheClass | none => 0
          touch cls true j h dd.buf 0 dd.imageBytes (forAll ((chunksOf (max dd.rowLen 1) codes).zipIdx) (fun p s => match ctxOf s j with
            | some c => overRow j h dd p.2 p.1 [] c s
            | none => s) s)
        | none => s
      let s2 := unitsFail j (e % 0x8000) (ids.flatMap c.tensOff).eraseDups (forAll ids write s1)
      if e < 0x8000 then putRows j e port (c.t.mb - 1) codes o.poison c s2 else s2

/-- Retained items that their last consumer has read are freed (R158). -/
def freeRetained (j e m : Nat) (s : State) : State :=
  match ctxOf s j with
  | none => s
  | some c =>
    let l := ((c.t.ins e).filter (fun q => q.retain)).map (fun q => q.idx)
    if l.isEmpty || !c.endDone e m then s
    else modRun j (fun r => { r with items := r.items.map (fun x => if x.mb = m && l.contains x.strm then { x with freed := true, payload := [], scales := [] } else x) }) s

/-- Operand codes as a figure reads them: two 4-bit elements to a byte, the first in the low half. -/
def operandBytes (fmt : Nat) (l : List Nat) : Bytes :=
  if elemBits fmt = 4 then (chunksOf 2 l).map (fun p => BitVec.ofNat 8 (p.getD 0 0 % 16 + 16 * (p.getD 1 0 % 16))) else l.flatMap (leBytes (max 1 (elemBits fmt / 8)))

/-- What a capture of a tile holds: the window of K from its start (R400, R401; no part of the re-run differs,
log 63). -/
def capInfo (c : Ctx) (x : Samp) : Samp :=
  match c.t.stage? (x.st % 0x8000) with
  | none => x
  | some st => match c.t.fig? st with
    | none => x
    | some f =>
      if !isProduct st then x
      else match c.operands st f x.st x.prod x.mb with
        | none => x
        | some (a, b) =>
          let d := prodDims st (decide (0x8000 ≤ x.st)) x.prod
          let es := tileElems d x.tile
          let rows := (es.map (fun q => q.2.1)).eraseDups
          let cols := (es.map (fun q => q.2.2)).eraseDups
          let g := match es with
            | q :: _ => q.1
            | [] => 0
          let w := ([1, 2, 4, 8, 16, 32, 64, 128, 256].filter (fun w => w = 1 || decide (w * 32 * (elemBits f.aFmt + elemBits f.bFmt) ≤ 65536))).foldl max 1
          let ks := List.range (min (16 * w) d.2.2.2)
          let code (fmt : Nat) (v : FVal) : Nat := (fromFp32 fmt true .rne (enc32 v)).1
          { x with
            info := [c.acc st f x.st x.prod, f.aFmt, f.bFmt, rows.length, d.2.2.2, w]
            ops := operandBytes f.aFmt (rows.flatMap (fun r => ks.map (fun k => code f.aFmt (a g r k).1))) ++ operandBytes f.bFmt (cols.flatMap (fun n => ks.map (fun k => code f.bFmt (b g k n).1)))
            part := flatRaw (bit f.acc 0) (es.map (fun q => dotRaw (f.aFmt == 0x20) (bit f.acc 0) (ks.map (fun k => (a q.1 q.2.1 k).1)) (ks.map (fun k => (b q.1 k q.2.2).1)))) }

/-- Read out a tile (R111): the working cell's results, conversion, part stacks, samples, rows on the port. -/
def tileReadout (j e prod m tile cell : Nat) (err : List (Nat × Nat)) (s : State) : State :=
  match ctxOf s j with
  | none => s
  | some c => match c.t.stage? (e % 0x8000) with
    | none => s
    | some st => match c.t.fig? st with
      | none => s
      | some f =>
        let old := c.r.tiles.find? (fun x => x.st == e && x.prod == prod && x.mb == m && x.tile == tile)
        let done := match old with | some x => x.done | none => false
        let redo := match old with | some x => x.redo | none => 0
        let span := isProduct st && spans c.t st (decide (0x8000 ≤ e)) prod
        let prevIn := !span || m = 0 || c.r.tiles.any (fun x => x.st == e && x.prod == prod && x.mb + 1 == m && x.tile == tile && x.done)
        if c.r.phase != .run || done || !decide (tile < tilesOf c.t e prod) || !(prodsOf c.t e).contains prod || !decide (m < c.t.mb) || !c.active e m || !prevIn then s
        else
          let comp := bit f.acc 0
          let got : Option (List Nat × TileOut) :=
            if isProduct st then
              (match c.productRaw st f e prod m tile with
               | none => none
               | some (raw, truth, p) =>
                 some (flatRaw comp truth, c.productOut st f e prod m tile (unflatRaw comp (flipAll (flatRaw comp raw) err)) p))
            else (c.vecOut st f m tile).map (fun o => (o.res, { o with res := flipAll o.res err, codes := flipAll o.codes err }))
          match got with
          | none => s
          | some (truth, o) =>
            let cnt := if redo = 0 then s else
              let first := !c.r.tiles.any (fun x => x.done && x.cell == cell && 0 < x.redo)
              if first then flt 0x2510 0x05 j c.r.step (locCell cell) s else s
            let t1 : Tile := { st := e, prod := prod, mb := m, tile := tile, redo := redo, cell := cell, done := true, out := if span then [] else o.codes, poison := o.poison }
            let s1 := modRun j (fun r =>
              let r1 := { r with tiles := r.tiles.filter (fun x => !(x.st == e && x.prod == prod && x.mb == m && x.tile == tile)) ++ [t1] }
              if span then pushParts comp e (prodDims st (decide (0x8000 ≤ e)) prod) tile (unflatRaw comp o.res) r1
              else
                let acc := c.acc st f e prod
                let port := (vecPlace st f tile).map (fun p => p.1)
                let sr := if isProduct st then bit acc 1 && srFmt (bits acc 15 8)
                  else srFmt f.oFmt && f.ops.any (fun x => x.op == 0x30 && x.sr && some x.port == port)
                addRep e o (decide (0 < redo)) (if sr then countSr cell o.codes.length r1 else r1)) cnt
            let mem := (if isProduct st && !c.b.place.held.contains st.idx && (e < 0x8000 && f.bSrc = 0 || 0x8000 ≤ e && prod = 0) then c.tensOff st.weight else []) ++ st.aux.flatMap c.tensOff
            let s1 := unitsFail j (e % 0x8000) mem.eraseDups s1
            let s2 := if c.sampled e prod m tile cell && !o.poison then
                takeSample j (capInfo c { step := c.r.step, st := e, prod := prod, mb := m, tile := tile, work := cell, res := o.res, truth := truth }) s1
              else s1
            freeRetained j e m <|
            match ctxOf s2 j with
            | none => s2
            | some c2 =>
              if isProduct st then
                if span then (if m + 1 = c.t.mb then finishGrad j e prod c2 st f s2 else s2)
                else (match c2.gather st e prod m (if bit f.acc 3 && e < 0x8000 then 2 else 1) with
                  | some (codes, p) => putRows j e (if e < 0x8000 then f.outPort else prod) m codes p c2 s2
                  | none => s2)
              else
                forAll (vecTiles st f) (fun pt s =>
                  let first := sumNat (((vecTiles st f).takeWhile (fun x => x.1 != pt.1)).map (fun x => x.2))
                  let ts := c2.r.tiles.filter (fun x => x.st == e && x.mb == m && x.done && decide (first ≤ x.tile) && decide (x.tile < first + pt.2))
                  if ts.length = pt.2 && (c2.portRow e pt.1 m 0).isNone then
                    let len := vecLen st f pt.1
                    let cb := (len + 255) / 256
                    let rowOf (i : Nat) : List Nat := (List.range cb).flatMap (fun k =>
                      match ts.find? (fun x => x.tile == first + (i / 16) * cb + k) with
                      | some x => (x.out.drop ((i % 16) * min 256 (len - 256 * k))).take (min 256 (len - 256 * k))
                      | none => [])
                    let scales (i : Nat) : List Nat := match c2.vecRow st f m i with
                      | some l => (match l.find? (fun o => o.1 == pt.1) with | some o => o.2.1.scales | none => [])
                      | none => []
                    modRun j (fun r => { r with rows := r.rows ++ (List.range st.rowsMb).map (fun i =>
                      (e, pt.1, m, i, { vals := rowOf i, scales := scales i, poison := ts.any (fun x => x.poison) })) }) s
                  else s) s2

/-- TILE_READOUT (R111). -/
def execTileReadout (job st prod mb tile cell : Nat) (err : List (Nat × Nat)) (s : State) : Res :=
  onWorld (fabric (.tileReadout job st prod mb tile cell err) (tileReadout job st prod mb tile cell err)) s

/-- A residue or alignment mismatch (R389): the tile is formed again at most twice in a step. -/
def residueMismatch (j e prod m tile : Nat) (s : State) : State :=
  match ctxOf s j with
  | none => s
  | some c =>
    let old := c.r.tiles.find? (fun x => x.st == e && x.prod == prod && x.mb == m && x.tile == tile)
    let t0 : Tile := old.getD { st := e, prod := prod, mb := m, tile := tile }
    if t0.done || !decide (tile < tilesOf c.t e prod) || !c.active e m then s
    else if t0.redo < 2 then
      (modRun j (fun r => { r with
        tiles := r.tiles.filter (fun x => !(x.st == e && x.prod == prod && x.mb == m && x.tile == tile)) ++ [{ t0 with redo := t0.redo + 1 }]
        reports := tmod {} r.reports e (fun p => { p with redone := true }) }) s).onW (fun w => { w with ump := { w.ump with detect := satAdd 16 w.ump.detect 1 } })
    else
      let k := c.tileCell e prod tile
      failStep j c.r.step (checkFail 4 (e % 0x8000)) [k] (strike k c.r.step (flt 0x2507 0x05 j c.r.step (locCell k) s))

/-- RESIDUE_MISMATCH (R389). -/
def execResidueMismatch (job st prod mb tile : Nat) (s : State) : Res := onWorld (fabric (.residueMismatch job st prod mb tile) (residueMismatch job st prod mb tile)) s

/-! ### Comparing samples (R395-R397) -/

def Samp.isTile (x : Samp) (st prod mb tile : Nat) : Bool := x.st == st && x.prod == prod && x.mb == mb && x.tile == tile

def dropSamp (j : Nat) (x : Samp) (s : State) : State :=
  (s.modJob j (fun b => { b with samps := b.samps.filter (fun y => y != x) })).onW (fun w => { w with ump := { w.ump with samples := satAdd 32 w.ump.samples 1 } })

/-- No majority: the cells are excluded, the step is not trusted (R397, R399). -/
def unresolved (j : Nat) (x : Samp) (cells : List Nat) (s : State) : State :=
  let ev := cells.zipIdx.foldl (fun acc p => acc + ((p.1 % 144) + 65536 * (p.1 / 144)) * 2 ^ (18 * p.2)) 0
  let s1 := forAll cells (fun k s => s.modCell k (fun c => { c with excluded := true, exclGood := 0 })) s
  failStep j x.step (checkFail 9 (x.st % 0x8000)) cells (event 0x0005 0x05 j x.step ev (flt 0x2503 0x05 j x.step (locCell (cells.headD 0)) s1))

/-- The checker's result comes in (R395): equal bits end the sample, else a third computation is asked for. -/
def sampleCompare (j st prod mb tile : Nat) (err : List (Nat × Nat)) (s : State) : State :=
  match (s.job j).samps.find? (fun x => x.isTile st prod mb tile && x.state = 0) with
  | none => s
  | some x =>
    let got := flipAll x.truth err
    if got = x.res then dropSamp j x s
    else
      let s1 := s.onW (fun w => { w with ump := { w.ump with disagree := satAdd 16 w.ump.disagree 1 } })
      match pickChecker s1 [x.work, x.checker] (x.work / 144) with
      | some k => s1.modJob j (fun b => { b with samps := updWhere (fun y => y == x) (fun y => { y with state := 1, got := got, third := k }) b.samps })
      | none => unresolved j x [x.work, x.checker] (dropSamp j x s1)

/-- SAMPLE_COMPARE (R395). -/
def execSampleCompare (job st prod mb tile : Nat) (err : List (Nat × Nat)) (s : State) : Res :=
  onWorld (fabric (.sampleCompare job st prod mb tile err) (sampleCompare job st prod mb tile err)) s

/-- Of three results without a majority as a whole, the one that first stands alone on an output: 0, 1 or 2 (R400). -/
def partLoser (a b c : List Nat) : Option Nat :=
  (a.zip (b.zip c)).findSome? (fun p =>
    if p.2.1 == p.2.2 && p.1 != p.2.1 then some 0
    else if p.1 == p.2.2 && p.1 != p.2.1 then some 1
    else if p.1 == p.2.1 && p.1 != p.2.2 then some 2 else none)

/-- The third result decides (R397). -/
def thirdDone (j st prod mb tile : Nat) (err : List (Nat × Nat)) (s : State) : State :=
  match (s.job j).samps.find? (fun x => x.isTile st prod mb tile && x.state = 1) with
  | none => s
  | some x =>
    let t := flipAll x.truth err
    let s1 := dropSamp j x s
    let cap (k : Nat) (s : State) : State := s.onW (fun w => { w with ump := { w.ump with capDue := w.ump.capDue ++ [(k, x)] } })
    if t = x.got then
      cap x.work (failStep j x.step (checkFail 5 (st % 0x8000)) [x.work] (strike x.work x.step (flt 0x2501 0x05 j x.step (locCell x.work) s1)))
    else if t = x.res then cap x.checker (strike x.checker x.step (flt 0x2502 0x05 j x.step (locCell x.checker) s1))
    else
      let s2 := unresolved j x [x.work, x.checker, x.third] s1
      match partLoser x.res x.got t with
      | some i => cap ([x.work, x.checker, x.third].getD i 0) s2
      | none => s2

/-- THIRD_COMPUTATION_DONE (R397). -/
def execThirdComputationDone (job st prod mb tile : Nat) (err : List (Nat × Nat)) (s : State) : Res :=
  onWorld (fabric (.thirdComputationDone job st prod mb tile err) (thirdDone job st prod mb tile err)) s

end Sys2Proof.Machine
end

