-- ==== Sys2Proof/Machine/Streams.lean ====
section
/-! DEFINITION. Stream items (R127-R132): the port that sends them, the credits of the sink, parity and resend, and part results
(R111). -/

namespace Sys2Proof.Machine

open Sys2Proof

/-! ### Sinks -/

/-- Write one element of a tensor, and its scale in MX, over what the step has written so far; with the last element of a row the
padding after it (R77). -/
def overElem (s : State) (j h : Nat) (d : Decl) (f code scale : Nat) (o : Tab Nat) : Tab Nat :=
  let b := d.bitPos (f / max d.rowLen 1) (f % max d.rowLen 1)
  let pad := if (f % max d.rowLen 1) + 1 = d.rowLen then d.padElems (f / max d.rowLen 1) else 0
  let w := elemBits d.fmt * (1 + pad)
  let k := devKey j h d.buf (b / 8)
  let n := (b % 8 + w + 7) / 8
  let was (i : Nat) : Nat := let v := tget 256 o (k + i); if v < 256 then v else (mget s.w.dev (k + i)).toNat
  let old := sumNat ((List.range n).map (fun i => was i * 256 ^ i))
  let new := old - (bits old (b % 8 + w - 1) (b % 8)) * 2 ^ (b % 8) + (code % 2 ^ elemBits d.fmt) * 2 ^ (b % 8)
  let o1 := (List.range n).foldl (fun o i => tput 256 o (k + i) (new / 256 ^ i % 256)) o
  if isMx d.fmt then tput 256 o1 (devKey j h d.buf (d.sideOff + d.blockIdx (f / max d.rowLen 1) (f % max d.rowLen 1))) scale else o1

/-- Put an accepted item at its sink; a complete row of a memory sink is written to its tensor. -/
def acceptItem (j : Nat) (q : Strm) (x : Item) (s : State) : State :=
  let s1 := modRun j (fun r => { r with items := r.items ++ [x] }) s
  if q.dst != 0xFFFF then s1
  else match ctxOf s1 j with
    | none => s1
    | some c =>
      let i := x.idx / max (rowItems q.fmt q.len) 1
      match c.sinkRow q x.mb i, c.decl q.tensor with
      | some row, some (h, d) =>
        let f0 := ((x.mb * q.rows + i) * q.len) % max (d.nrows * d.rowLen) 1
        let s1 := c.touchRow q x.mb i true (unitsFail j (q.src % 0x8000) (c.rowOff q x.mb i) s1)
        if q.len = d.rowLen then overRow j h d (f0 / max d.rowLen 1) row.vals row.scales c s1
        else
          modRun j (fun r => { r with laid := row.vals.zipIdx.foldl (fun o p => overElem s1 j h d (f0 + p.2) p.1 (row.scales.getD p.2 127) o) r.laid }) s1
      | _, _ => s1

/-! ### Ports and credits (R127, R129) -/

/-- Element of a micro-batch at a port with which an item starts. -/
def itemElem (q : Strm) (idx : Nat) : Nat := let n := max (rowItems q.fmt q.len) 1; idx / n * q.len + idx % n * itemElems q.fmt

/-- Tile of a stage end that holds element `i` of a micro-batch at an output port: product and tile. -/
def outTile (st : Stage) (f : Fig) (e port i : Nat) : Nat × Nat :=
  if isProduct st then
    let prod := if e < 0x8000 then 0 else port
    let d := prodDims st (decide (0x8000 ≤ e)) prod
    let x := if e < 0x8000 && bit f.acc 3 then i / 2 else i
    let col := x % max d.2.2.1 1
    let row := x / max d.2.2.1 1
    (prod, (row / max d.2.1 1 * ceilDiv d.2.1 16 + row % max d.2.1 1 / 16) * ceilDiv d.2.2.1 16 + col / 16)
  else
    let first := sumNat (((vecTiles st f).takeWhile (fun x => x.1 != port)).map (fun x => x.2))
    let len := max (vecLen st f port) 1
    (0, first + i / len / 16 * ceilDiv len 256 + i % len / 256)

/-- Tile of a stage end that first takes in element `i` of a micro-batch at an input port: product and tile. -/
def inTile (st : Stage) (f : Fig) (e port i : Nat) : Nat × Nat :=
  if isProduct st then
    if e < 0x8000 then
      let nb := ceilDiv st.n 16
      let g := i / max (st.m * st.k) 1
      if port = f.aPort then (0, (g * ceilDiv st.m 16 + (if bit f.tr 0 then i % max st.m 1 else i / max st.k 1 % max st.m 1) / 16) * nb)
      else (0, (if bit f.tr 1 then i / max st.k 1 % max st.n 1 else i % max st.n 1) / 16)
    else if port = 0 then (0, (i / max (st.m * st.n) 1 * ceilDiv st.m 16 + i / max st.n 1 % max st.m 1 / 16) * ceilDiv st.k 16)
    else (1, 0)
  else (0, i / max st.rowLen 1 / 16 * ceilDiv (vecLen st f ((vecPorts f).headD 0)) 256)

/-- The cell that sends an item, and the one that takes it first; none where that end is no cell. -/
def Ctx.endCell (c : Ctx) (e port i : Nat) (out : Bool) : Option Nat :=
  match c.t.stage? (e % 0x8000) with
  | none => none
  | some st => match c.t.fig? st with
    | none => none
    | some f =>
      if isProduct st || isVector st then let x := if out then outTile st f e port i else inTile st f e port i; some (c.tileCell e x.1 x.2) else none
def Ctx.srcCell (c : Ctx) (q : Strm) (idx : Nat) : Option Nat := if q.src = 0xFFFF then none else c.endCell q.src q.srcPort (itemElem q idx) true
def Ctx.dstCell (c : Ctx) (q : Strm) (idx : Nat) : Option Nat := if q.dst = 0xFFFF then none else c.endCell q.dst q.dstPort (itemElem q idx) false

/-- An item of a stream has been accepted. -/
def Ctx.hasItem (c : Ctx) (strm m idx : Nat) : Bool := c.r.items.any (fun x => x.strm == strm && x.mb == m && x.idx == idx)

/-- The port of a cell has advanced to an item: all its streams have accepted the items before it (R127). -/
def Ctx.portAt (c : Ctx) (q : Strm) (m idx : Nat) : Bool :=
  match c.srcCell q idx with
  | none => true
  | some k =>
    let l := (c.t.outs q.src).filter (fun r => r.srcPort == q.srcPort && r.rows == q.rows && r.len == q.len)
    (List.range idx).all (fun i => c.srcCell q i != some k || l.all (fun r => c.hasItem r.idx m i))

/-- The sink has a credit for an item (R129): of one producing cell at most the stream's depth of items wait at the sink. An item
waits until the figure takes it, in logical order, so those wait that come after the first one missing (log 175). Retention
storage and memory accept every item; a ring in tier 1 holds the computed depth (R130). -/
def Ctx.credit (c : Ctx) (q : Strm) (m idx : Nat) : Bool :=
  if q.retain || q.dst == 0xFFFF then true
  else
    let depth := if c.b.place.rings.contains q.idx then joinDepth c.t q else tget 8 c.b.place.depths q.idx
    match (List.range idx).find? (fun i => !c.hasItem q.idx m i) with
    | none => true
    | some gap =>
      let k := c.srcCell q idx
      decide ((c.r.items.filter (fun x => x.strm == q.idx && x.mb == m && decide (gap < x.idx) && c.srcCell q x.idx == k)).length < depth)

/-! ### Items (R128, R132) -/

/-- What an item carries, between which cells, and the stage it is for. -/
structure Feed where
  payload : Bytes
  scales : List Nat := []
  poison : Bool := false
  src : Option Nat := none
  dst : Option Nat := none
  stage : Nat := 0
  off : List Nat := []

/-- An item of a stream of the set that can cross now. -/
def Ctx.feedSet (c : Ctx) (strm m idx : Nat) : Option Feed :=
  match c.t.streams[strm]? with
  | none => none
  | some q =>
    let n := rowItems q.fmt q.len
    let ready := q.dst = 0xFFFF || q.retain || c.active q.dst m
    let held := (q.src = 0xFFFF || q.dst = 0xFFFF) && !c.rowFree q m (idx / max n 1)
    if !decide (idx < q.rows * n) || !ready || held || !c.portAt q m idx || !c.credit q m idx then none
    else (c.srcRow q m (idx / max n 1)).map (fun row =>
      let pk := packItem q.fmt row (idx % max n 1)
      { payload := pk.1, scales := pk.2, poison := row.poison, src := c.srcCell q idx, dst := c.dstCell q idx
        stage := (if q.dst = 0xFFFF then q.src else q.dst) % 0x8000, off := if q.src = 0xFFFF then c.rowOff q m (idx / max n 1) else [] })

/-- An item of a part result that can cross now (R111). -/
def Ctx.feedPart (c : Ctx) (strm m idx : Nat) : Option Feed :=
  let e := (strm - 4096) / 2 + (if strm % 2 = 1 then 0x8000 else 0)
  match c.t.stage? (e % 0x8000) with
  | none => none
  | some st => match c.t.fig? st with
    | none => none
    | some f => match c.kSplit f e 0 with
      | none => none
      | some (_, keys) =>
        let comp := bit f.acc 0
        let per := 16 * partWide comp
        let es := tileElems (prodDims st (decide (0x8000 ≤ e)) 0)
        if !isProduct st || !c.active e m then none
        else
          let go (n : Nat) : Option Feed :=
            let tile := idx / per / max n 1
            let k := idx / per % max n 1
            match c.productParts st f e 0 m tile with
            | none => none
            | some (vs, p) =>
              let words := tileWords (es tile) comp (vs.map (fun v => v.getD k (0, 0)))
              if !decide (tile < tilesOf c.t e 0) || keys.getD k (keys.headD 0) == keys.headD 0 || !decide (idx % per < words.length * partWide comp) then none
              else
                let row := ((words.getD (idx % per / partWide comp) []).drop (16 * (idx % partWide comp))).take 16
                some { payload := (row.flatMap (leBytes 4)) ++ zeros (64 - 4 * row.length), poison := p, src := some (cellAt c.s (keys.getD k 0)), dst := some (cellAt c.s (keys.headD 0)), stage := st.idx }
          match c.productParts st f e 0 m 0 with
          | some (vs, _) => go ((vs.headD []).length)
          | none => none

def Ctx.feed (c : Ctx) (strm m idx : Nat) : Option Feed := if strm < 4096 then c.feedSet strm m idx else c.feedPart strm m idx

/-- Location of a parity event (R132): the receiving cell, and in the event's own value the sending one (log 174). -/
def Feed.loc (x : Feed) : Loc :=
  match x.dst, x.src with
  | some d, some k => { locCell d with value := some (locCell k).body }
  | some d, none => locCell d
  | none, some k => locCell k
  | none, none => locNone

/-- Parity checks of an item that fail (R128): eight over the payload, one over the rest of the sideband. A poisoned item is sent
with all nine bits inverted (R480). -/
def parityFails (flips side : Nat) (poison : Bool) : Nat :=
  (((List.range 8).map (fun i => (popCount (bits flips (64 * i + 63) (64 * i)) 64 % 2 == 1) != bit side (80 + i)) ++
    [popCount side 88 % 2 != b2n (bit side 88)]).filter (fun b => b != poison)).length

/-- An item crosses a stream; one that fails all nine checks is poisoned and not resent (R480). Bits of the payload that flipped are `flips`; those of the sideband `side`: [31:0] index,
[39:32] micro-batch, [47:40] epoch, [79:48] scales, [87:80] parity bits, [88] sideband parity. A mesh path that fails parity
twice is noted for the Caller (R132, log 187). -/
def streamItem (j strm m idx flips side : Nat) (s : State) : State :=
  match ctxOf s j with
  | none => s
  | some c =>
    if c.hasItem strm m idx || c.r.held.any (fun x => x.strm == strm && x.mb == m && x.idx == idx) || !decide (m < c.t.mb) || c.r.phase != .run then s
    else match c.feed strm m idx with
      | none => s
      | some x =>
        let again := c.r.resent.contains (strm, m, idx)
        let fails := parityFails flips side x.poison
        if fails != 0 && fails != 9 then
          if again then
            let path := match x.src, x.dst with
              | some a, some b => [(a, b)]
              | _, _ => []
            failStep j c.r.step (checkFail 6 x.stage) (x.src.toList ++ x.dst.toList)
              (flt 0x2202 0xFF j c.r.step x.loc (s.onW (fun w => { w with badPaths := (path ++ w.badPaths).eraseDups })))
          else modRun j (fun r => { r with resent := (strm, m, idx) :: r.resent }) s
        else
          let s1 := unitsFail j x.stage x.off (if again then flt 0x2201 0xFF j c.r.step x.loc s else s)
          let tag := (c.b.modeEpoch % 256).xor (bits side 47 40)
          let y : Item := { strm := strm, mb := m - m % 256 + (m % 256).xor (bits side 39 32), idx := idx.xor (bits side 31 0), tag := tag
                            payload := flipBytes x.payload flips, scales := x.scales.zipIdx.map (fun p => p.1.xor (bits side (55 + 8 * (p.2 / 32)) (48 + 8 * (p.2 / 32)))), poison := fails = 9 }
          if tag = c.b.modeEpoch % 256 then
            (match c.t.streams[strm]? with
             | some q => acceptItem j q y (if q.src = 0xFFFF then c.touchRow q m (idx / max (rowItems q.fmt q.len) 1) false s1 else s1)
             | none => modRun j (fun r => { r with items := r.items ++ [y] }) s1)
          else modRun j (fun r => { r with held := r.held ++ [y] }) s1

end Sys2Proof.Machine
end

