-- ==== Sys2Proof/Machine/Bags.lean ====
section
/-! DEFINITION. The stack engines inside a step: bags gathered and pooled (R241-R248) and gradient rows scattered (R251, R252). -/

namespace Sys2Proof.Machine

open Sys2Proof

/-! ### Bags (R241-R248) -/

/-- A word of a bag-list tensor. -/
def Ctx.word (c : Ctx) (id i : Nat) : Nat := match c.decl id with | some (h, _) => c.num h 0 (4 * i) 4 | none => 0

/-- The positions of a bag: (row index, weight) in order; none for a bag in error (R244). -/
def Ctx.bag (c : Ctx) (g : Gather) (rows b : Nat) : Option (List (Nat × Nat)) :=
  let o0 := c.word g.offsets b
  let o1 := c.word g.offsets (b + 1)
  let n := match c.t.tens? g.indices with | some r => r.count / 2 | none => 0
  if o1 < o0 || n < o1 || 65535 < o1 - o0 then none
  else
    let ps := (List.range (o1 - o0)).map (fun i =>
      (c.word g.indices (2 * (o0 + i)) + 2 ^ 32 * c.word g.indices (2 * (o0 + i) + 1), if g.mode = 3 then c.word g.weights (o0 + i) else one32))
    if ps.all (fun p => decide (p.1 < rows)) then some ps else none

/-- A word that lists a bag is poisoned: its offsets, its indices or its weights. -/
def Ctx.bagBad (c : Ctx) (g : Gather) (b : Nat) : Bool :=
  let o0 := c.word g.offsets b
  let n := min (c.word g.offsets (b + 1) - o0) 65536
  let badAt (id off n : Nat) : Bool := match c.decl id with | some (h, _) => c.bad h 0 off n | none => false
  badAt g.offsets (4 * b) 8 || badAt g.indices (8 * o0) (8 * n) || (g.mode == 3 && badAt g.weights (4 * o0) (4 * n))

/-- The row image of a table. -/
def tableRow (s : State) (j h : Nat) (d : Decl) (r : Nat) : Bytes := devRead s j h 0 (r * rowBytes d) (rowBytes d)

/-- The link of the tier-3 device that a block's place names is down (R236, R237). -/
def t3Down (s : State) (code : Nat) : Bool := decide (3 ≤ code) && !(tget {} s.w.cxl (code - 3)).linkUp

/-- Stack engine that holds the accumulator of a row (R252): that of the stack of its copy 0 in tier 1, else engine r mod 12. -/
def engineOf (s : State) (j h : Nat) (d : Decl) (r : Nat) : Nat :=
  if tierAt s j h (r * rowBytes d) d = 1 then pcOf s j h (r * rowBytes d / 4096) d / 64 else r % 12

/-- Count gathered rows per block, each stack controller for itself (R196): the controller of the row's home in tier 1, else that
of the bag's own engine. -/
def countRows (table : Nat) (d : Decl) (rows : List (Nat × Nat)) (b : Job) : Job :=
  rows.foldl (fun b p =>
    let k := blockOf d p.2
    let mine (e : Nat × Nat × Nat × Nat) : Bool := e.1 == p.1 && e.2.1 == table && e.2.2.1 == k
    let n := match b.counts.find? mine with | some e => e.2.2.2 | none => 0
    { b with counts := (p.1, table, k, satAdd 16 n 1) :: b.counts.filter (fun e => !mine e) }) b

/-- Disabled units that rows of a table are reached through: their engines and the controllers of their homes (R64). -/
def tableOff (s : State) (j h : Nat) (d : Decl) (engines rows : List Nat) : List Nat :=
  (((engines.map (fun i => 0x60 + i)).filter (fun u => !s.unitOn u)) ++ rows.flatMap (fun r => offUnits s (homesOf s j h (r * rowBytes d) (rowBytes d)))).eraseDups

/-- Homes of a row as bag `b` reads it: copy b mod k of a block with k copies (R200, R241). Copy i lies i array dies on, at the same
place of its die (log 180). -/
def Ctx.readHomes (c : Ctx) (s : State) (table h : Nat) (d : Decl) (b r : Nat) : List Home :=
  let k := match c.b.replicas.find? (fun e => e.1 == table && e.2.1 == blockOf d r) with | some e => max e.2.2 1 | none => 1
  (homesOf s c.j h (r * rowBytes d) (rowBytes d)).map (fun x => if x.tier = 1 then { x with place := (x.place + 192 * (b % k)) % 768 } else x)

/-- Stack engine that reads a row for bag `b`: that of the copy's stack; the bag's owner stages rows of tiers 2 and 3 (R241). -/
def Ctx.readEngine (c : Ctx) (s : State) (table h : Nat) (d : Decl) (b r : Nat) : Nat :=
  match c.readHomes s table h d b r with
  | x :: _ => if x.tier = 1 then x.place / 64 else b % 12
  | [] => b % 12

/-- Rows of a table can be read now: no home of theirs is held; engines go past the cache (R216, R227). -/
def rowsFree (s : State) (j h : Nat) (d : Decl) (rows : List Nat) : Bool := rows.all (fun r => rangeFree s j h (r * rowBytes d) (rowBytes d))

/-- Gather one bag and put its pooled vector on the stage's port. -/
def lookupBag (j e m bag : Nat) (s : State) : State :=
  match ctxOf s j with
  | none => s
  | some c => match c.t.stage? e with
    | none => s
    | some st => match c.t.fig? st, c.decl st.table with
      | some f, some (h, d) =>
        let g := parseGather (c.t.img.drop st.desc)
        let b := m * st.bags + bag
        let ready := isLookup st && c.r.phase == .run && decide (bag < st.bags) && decide (m < c.t.mb) && c.active e m && (c.portRow e f.port m bag).isNone
        let list := c.bag g d.nrows b
        let rows := (list.getD []).map (fun p => p.1)
        let away := rows.find? (fun r => s.w.mr.missing.contains (st.table, blockOf d r))
        if !ready || (away.isNone && rows.any (fun r => (c.readHomes s st.table h d b r).any (homeHeld s))) then s
        else match away with
          | some r =>
            let k := (st.table, blockOf d r)
            if s.w.mr.gone.contains k then failStep j c.r.step { status := 0x51, unit := 0x08, stage := e } [] s
            else s.onW (fun w => { w with mr := { w.mr with missing := k :: w.mr.missing.filter (fun x => x != k), parked := satAdd 16 w.mr.parked 1 } })
          | none =>
            let owner := b % 12
            let rowsF := rows.map (fun r => rowElems d (tableRow s j h d r))
            let ws := (list.getD []).map (fun p => p.2)
            let xs := match list with
              | none => List.replicate d.rowLen nan32
              | some _ => (List.range d.rowLen).map (fun k => poolElem g (rowsF.map (fun v => v.getD k 0)) ws)
            let exc := if g.mode = 2 then [] else (rows.zip (rowsF.zip ws)).filterMap (fun p =>
              let n := (p.2.1.filter (fun x => (quantize 47 g.qexp (if g.mode = 3 then fMul x p.2.2 else x)).isNone)).length
              if n = 0 then none else some (c.readEngine s st.table h d b p.1, n))
            let cr := convRow f.oFmt false false {} xs
            let poison := c.bagBad g b || rows.any (fun r => s.isPoisoned j h 0 (r * rowBytes d) (rowBytes d) ||
              t3Down s (codeOf c.b st.table (blockOf d r)))
            let stat := statOf (cr.1.vals.map (fun x => toFp32 f.oFmt 127 x))
            let o : TileOut := { res := [], codes := cr.1.vals, cnt := cr.2, amax := stat.1, ss := stat.2, poison := poison }
            let s0 := forAll rows (fun r s => readDev 1 j h (r * rowBytes d) (rowBytes d) s) s
            let s1 := modRun j (fun r => addRep e o false { r with rows := r.rows ++ [(e, f.port, m, bag, { cr.1 with poison := poison })] }) s0
            let at_ := rows.map (fun r => (c.readEngine s st.table h d b r, r))
            let off := ([0x60 + owner].filter (fun u => !s.unitOn u) ++ rows.flatMap (fun r => offUnits s (c.readHomes s st.table h d b r))).eraseDups
            let s2 := unitsFail j e off (s1.modJob j (countRows st.table d at_))
            let s3 := forAll (List.range 12) (fun i s => s.modEngine i (fun x => { x with
              busy := x.busy || i == owner || at_.any (fun e => e.1 == i), gathered := x.gathered + (at_.filter (fun e => e.1 == i)).length
              nanRun := satAdd 16 x.nanRun (b2n (list.isNone && i == owner))
              excRun := satAdd 16 x.excRun (sumNat ((exc.filter (fun e => e.1 == i)).map (fun e => e.2))) })) s2
            if list.isNone && !c.b.bagErr then flt 0x1704 (0x60 + owner) j c.r.step locNone (s3.modJob j (fun b => { b with bagErr := true })) else s3
      | _, _ => s

/-- LOOKUP_BAG (R241). -/
def execLookupBag (job st mb bag : Nat) (s : State) : Res := onWorld (fabric (.lookupBag job st mb bag) (lookupBag job st mb bag)) s

/-! ### Scatter rows (R251, R252) -/

/-- Engine that holds the accumulator of a table row. -/
def Ctx.accEngine (c : Ctx) (s : State) (a : Acc) : Nat := match c.decl a.table with | some (h, d) => engineOf s c.j h d a.row | none => 0

/-- Add one row's contribution to the accumulator of a table row. -/
def addAcc (stage table row len : Nat) (us : List (Option Int)) (b : Job) : Job :=
  match b.accs.find? (fun a => a.stage == stage && a.row == row) with
  | some a => { b with accs := updWhere (fun x => x == a) (fun a => a.add len us) b.accs }
  | none => { b with accs := b.accs ++ [({ stage := stage, table := table, row := row } : Acc).add len us] }

/-- Scatter one gradient row over the rows of its bag. -/
def scatterRow (j e m row : Nat) (s : State) : State :=
  match ctxOf s j with
  | none => s
  | some c => match c.t.stage? e with
    | none => s
    | some st => match c.t.fig? st, c.decl st.table with
      | some f, some (h, d) =>
        let o := parseRowOpt (c.t.img.drop st.desc)
        match c.t.stage? o.lookup, c.t.in? e f.port with
        | some lk, some q => match c.sinkRow q m row with
          | none => s
          | some gr =>
            let g := parseGather (c.t.img.drop lk.desc)
            let ready := isScatter st && c.r.phase == .run && decide (row < lk.bags) && decide (m < c.t.mb) && (c.portRow e 0x10 m row).isNone
            if !ready then s
            else
              let list := (c.bag g d.nrows (m * lk.bags + row)).getD []
              let gs := rowFp32 q.fmt gr
              let s1 := modRun j (fun r => { r with rows := r.rows ++ [(e, 0x10, m, row, { poison := gr.poison })] }) s
              let s2 := s1.modJob j (fun b => list.foldl (fun b p =>
                addAcc e st.table p.1 d.rowLen (gs.map (fun x => scatterTerm g o.qg list.length p.2 x)) b) b)
              let flags := list.map (fun p => (engineOf s j h d p.1, (gs.filter (fun x => (scatterTerm g o.qg list.length p.2 x).isNone)).length))
              let b2 := s2.job j
              let entry := 16 + 8 * d.rowLen
              let cap := 134217728 / entry
              let per := (List.range 12).map (fun i => (b2.accs.filter (fun a => c.accEngine s2 a = i)).length)
              let excess := sumNat (per.map (fun n => n - cap))
              let s3 := forAll (List.range 12) (fun i s => s.modEngine i (fun x => { x with bufBytes := min (per.getD i 0) cap * entry, overflow := x.overflow || decide (cap < per.getD i 0) })) s2
              let s4 := forAll (flags.filter (fun e => e.2 != 0)) (fun e s => s.modEngine e.1 (fun x => { x with busy := true, excRun := satAdd 16 x.excRun e.2 })) s3
              let s5 := if 0 < excess && !(List.range 12).any (fun i => (s.engine i).overflow) then flt0 0x1701 0x60 j c.r.step s4 else s4
              let s5 := freeRetained j e m (unitsFail j e (tableOff s j h d ((flags.map (fun x => x.1)).eraseDups) []) s5)
              let s6 := if gr.poison || c.bagBad g (m * lk.bags + row) then failStep j c.r.step { status := 0x50, detail := 256, stage := e } [] s5 else s5
              if o.overflowRows < excess then
                failStep j c.r.step { status := 0x20, stage := e } [] (flt0 0x1706 0x60 j c.r.step (s6.modJob j (fun b => { b with accs := [] })))
              else s6
        | _, _ => s
      | _, _ => s

/-- SCATTER_ROW (R251). -/
def execScatterRow (job st mb row : Nat) (s : State) : Res := onWorld (fabric (.scatterRow job st mb row) (scatterRow job st mb row)) s

end Sys2Proof.Machine
end

