-- ==== Sys2Proof/Machine/Cper.lean ====
section
/-! DEFINITION. Failure signatures as CPER records (R534) and the transfers that carry them over the sideline (R531). The field
places of the record header and the section descriptor are those of Appendix N of the UEFI specification, which R534 names
and does not lay out (log 70). -/

namespace Sys2Proof.Machine

open Sys2Proof

/-- A GUID in the byte order of UEFI: three little-endian groups, then eight bytes in order. -/
def guid (a b c d : Nat) : Bytes := layout [(4, a), (2, b), (2, c)] ++ beBytes 8 d

/-- Creator ID and Notification Type (R534). -/
def cperCreator : Bytes := guid 0x3f0c6a1e 0x8d42 0x4b5f 0xa7c35e19d20b7c48
def cperCapture : Bytes := guid 0x6b9e1f30 0x52c4 0x4d7a 0x9a1e0c3f8e27d514
def cperLog : Bytes := guid 0x9d27c4b8 0x1e6f 0x4a03 0xb58d72a4c0e19f36

/-- A CPER record of one section: serial, error severity (0 Recoverable, 2 Corrected, 3 Informational), record ID, section type, body. -/
def cper (serial sev id : Nat) (typ body : Bytes) : Bytes :=
  [0x43, 0x50, 0x45, 0x52] ++ layout [(2, 0x0100), (4, 0xFFFFFFFF), (2, 1), (4, sev), (4, 1), (4, 200 + body.length), (8, 0), (8, serial), (8, 0)] ++
  zeros 16 ++ cperCreator ++ cperCreator ++ layout [(8, id), (4, 0), (8, 0), (12, 0)] ++
  layout [(4, 200), (4, body.length), (2, 0x0100), (1, 0), (1, 0), (4, 0)] ++ typ ++ zeros 16 ++ layout [(4, sev)] ++ zeros 20 ++ body

/-- The CPER form of a fault-log record, from its bytes: its severity and index stand at offsets 11 and 24 (R486). -/
def cperOfLog (serial : Nat) (b : Bytes) : Bytes :=
  let v := fld b 11 1
  cper serial (if v = 3 then 0 else if v = 2 then 2 else 3) (fld b 24 4) cperLog b

/-- The payloads of a transfer: chunks of at most 1,368 B behind their transfer header (R531). -/
def chunkPayloads (id : Nat) (data : Bytes) : List Bytes :=
  (chunksOf 1368 data).zipIdx.map (fun p => layout [(4, id), (4, data.length), (4, 1368 * p.2), (4, 0)] ++ p.1)

/-- The module sends the CPER record of a capture as type 0x03 records (R534); its record ID serves as the transfer ID. -/
def sendCapture (slot : Nat) (record : Bytes) (s : State) : State :=
  let id := 0x43410000 + slot
  let bs := cper s.ctl.ident.serial 2 id cperCapture record
  let l := chunkPayloads id bs
  let first := s.w.sl.nextSeq
  let s1 := forAll l (slSend 0x03 2 (2 ^ 32)) s
  let seqs := ((s1.w.sl.held.filter (fun r => r.kind == 0x03 && (List.range l.length).any (fun i => r.seq == wrapAdd 32 first i))).map (fun r => r.seq))
  dropNote s.w.sl.dropped (s1.onW (fun w => { w with sl := { w.sl with outX := w.sl.outX.filter (fun (e : Nat × Bytes × List Nat) => e.1 != id) ++ [(id, bs, seqs)] } }))

/-- The CPER records not yet acknowledged whole: captures, then fault-log records held for resend. -/
def pendingCper (s : State) : Bytes :=
  s.w.sl.outX.flatMap (fun (e : Nat × Bytes × List Nat) => e.2.1) ++
  ((s.w.sl.held.filter (fun r => r.kind == 0x02)).flatMap (fun r => cperOfLog s.ctl.ident.serial r.payload))

end Sys2Proof.Machine
end

