-- ==== Sys2Proof/Machine/Cells.lean ====
section
/-! DEFINITION. Physical cells changing service: row-bypass (R429), retirement (R43, R398), exclusion (R399), rotation (R402),
captures (R400, R401), calibration (R44, R46); and memory leaving service: evacuation (R192), retirement (R492). -/

namespace Sys2Proof.Machine

open Sys2Proof

/-! ### Row-bypass -/

/-- The bench cell of a row that row-bypass takes: state 1, lowest physical column (R429). -/
def rowBench (s : State) (row : Nat) : Option Nat :=
  ((List.range 18).map (fun x => 18 * row + x)).find? (fun k => let c := s.cell k; c.state = 1 && !c.excluded && !c.retired)

/-- Steps after a switch-in run in conservative backward until one of them is called good (R160). -/
def Job.switchedIn (b : Job) : Job := { b with consTillGood := true, consFrom := (match b.lastStarted with | some n => n + 1 | none => 0) }
def consSwitch (s : State) : State :=
  s.onW (fun w => { w with jobs := w.jobs.map (fun e => (e.1, if e.2.cur.isSome then e.2.switchedIn else e.2)) })

/-- A pending sample on a checker that leaves moves to another checker and starts again (R415). -/
def moveSamples (k : Nat) (s : State) : State :=
  forAll (tkeys s.w.jobs) (fun j s =>
    forAll ((s.job j).samps.filter (fun x => x.checker = k || x.third = k)) (fun x s =>
      let s1 := s.modJob j (fun b => { b with samps := b.samps.filter (fun y => y != x) })
      takeSample j { x with state := 0, got := [], checker := 0, third := 0 } s1) s) s

/-- A cell leaves service into a state; an active cell's column goes to the bench cell of its row (R429). -/
def takeOut (k st : Nat) (s : State) : State :=
  let c := s.cell k
  if c.state = 0 then
    match rowBench s (cellRow k) with
    | some b => consSwitch (moveSamples b ((s.modCell b (fun x => { x with state := 0, logical := c.logical })).modCell k (fun x => { x with state := st })))
    | none => s.modCell k (fun x => { x with state := st })
  else moveSamples k (s.modCell k (fun x => { x with state := st }))

/-- Retire a cell (R43, R398). -/
def retireCell (k : Nat) (s : State) : State := (takeOut k 3 s).modCell k (fun x => { x with retired := true, due := false })

/-! ### Calibration -/

/-- Median rate of the active cells of a die (R42). -/
def dieMedian (s : State) (d : Nat) : Nat :=
  let l := sortNat ((((List.range 144).map (fun c => 144 * d + c)).filter (fun k => (s.cell k).state = 0)).map (fun k => (s.cell k).rateMhz))
  l.getD ((l.length + 1) / 2 - 1) 0

/-- base_rel of a cell from its first window after a calibration, against the die median of the same window (R40, R42, R44). -/
def setBase (k : Nat) (s : State) : State :=
  let m := dieMedian s (k / 144)
  if m = 0 then s else s.modCell k (fun x => { x with baseRel := (20000 * x.rateMhz + m) / (2 * m), fresh := false })

/-- Calibrate a cell at cold reset (R44): tap = higher fail tap + 3. A retired cell is swept too and stays retired (R45). -/
def calibrate (k : Nat) (c : Cal) (s : State) : State :=
  let t := max c.fail60 c.fail85 + 3
  let s1 := s.modCell k (fun x => { x with failTap := max c.fail60 c.fail85, rateMhz := c.rate, fresh := true })
  if 31 < t then flt 0x2103 (0x50 + k / 144) 0xFF 0 (locCell k) (s1.modCell k (fun x => { x with retired := true }))
  else s1.modCell k (fun x => { x with tap := t })

/-- Margin check of a rotated-out cell, with recalibration at the present point (R46). CELL_TAP.margin keeps what the check
found, the old tap minus the fail tap, also where a recalibration follows (log 159). -/
def marginCheck (k : Nat) (c : Cal) (s : State) : State :=
  let x := s.cell k
  let unit := 0x50 + k / 144
  let m := x.tap - c.fail60
  if 2 ≤ m then s.modCell k (fun x => { x with margin := m })
  else
    let s1 := flt 0x2104 unit 0xFF 0 (locCell k) s
    let s2 := s1.modCell k (fun x => { x with failTap := c.fail60, margin := m })
    if 31 < c.fail60 + 3 then retireCell k (flt 0x2103 unit 0xFF 0 (locCell k) s2)
    else s2.modCell k (fun x => { x with tap := c.fail60 + 3, fresh := true })

/-! ### Rotation (R402) -/

/-- A cell may be the next to rotate out: not retired, not excluded, and an active one has a bench cell in its row. -/
def rotates (s : State) (k : Nat) : Bool :=
  let c := s.cell k
  !c.retired && !c.excluded && (c.state = 1 || (c.state = 0 && (rowBench s (cellRow k)).isSome))

/-- Rotated-out cell of a die. -/
def rotatedOut (s : State) (d : Nat) : Option Nat := let x := tget 0 s.w.ump.rotOut d; if x = 0 then none else some (x - 1)

/-- One die's rotation: what is out returns to the bench, the cell rotated out and the losers of captures (R400), and the next
candidate goes out. -/
def rotateDie (d : Nat) (s : State) : State :=
  let out := ((List.range 144).map (fun c => 144 * d + c)).filter (fun k => (s.cell k).state = 2 && !(s.cell k).excluded)
  let s1 := forAll out (fun k s => s.modCell k (fun x => { x with state := 1 })) s
  let start := tget 0 s1.w.ump.cand d
  match ((List.range 144).map (fun i => (start + i) % 144)).find? (fun c => rotates s1 (144 * d + c)) with
  | some c => (takeOut (144 * d + c) 2 s1).onW (fun w => { w with ump := { w.ump with
      cand := tput 0 w.ump.cand d ((c + 1) % 144), rotOut := tput 0 w.ump.rotOut d (144 * d + c + 1) } })
  | none => s1.onW (fun w => { w with ump := { w.ump with rotOut := tput 0 w.ump.rotOut d 0 } })

/-- Outcome of the slots: margin checks with what they measured, pattern failures (R46, R402). -/
def slotResults (failed : List Nat) (cals : List (Nat × Cal)) (s : State) : State :=
  let out (s : State) (k : Nat) : Bool := (s.cell k).state = 2 && !(s.cell k).excluded
  let s1 := forAll cals (fun c s => if out s c.1 then marginCheck c.1 c.2 s else s) s
  forAll failed (fun k s => if out s k then retireCell k (flt 0x250A 0x05 0xFF 0 (locCell k) s) else s) s1

/-- Rotation at a step boundary: every rot_period steps each die rotates one cell out. -/
def rotate (failed : List Nat) (cals : List (Nat × Cal)) (s : State) : State :=
  let n := s.w.ump.slotSteps + 1
  if s.cfg.rotPeriod ≤ n then forAll [0, 1, 2, 3] rotateDie ((slotResults failed cals s).onW (fun w => { w with ump := { w.ump with slotSteps := 0 } }))
  else (slotResults [] cals s).onW (fun w => { w with ump := { w.ump with slotSteps := n } })

/-! ### Captures (R400, R401) -/

/-- Results as a capture holds them: 1 KiB of FP32 or 2 KiB of pairs. -/
def capResults (pair : Bool) (l : List Nat) : Bytes := padTo (if pair then 2048 else 1024) (layout (l.map (fun x => (4, x))))

def cellBytes (s : State) (k : Nat) : List (Nat × Nat) := [(1, k / 144), (1, k % 144 / 18), (1, k % 18), (1, (s.cell k).state)]

/-- The capture record of a loser (R401). The results of the re-run agree, since no command spells a fault of it: the capture is
unlocalised and both part results are alike (log 63). -/
def capRecord (s : State) (k : Nat) (x : Samp) (digest : Nat) : Bytes :=
  let acc := x.info.getD 0 0
  let pair := bit acc 0
  let w := x.info.getD 5 0
  let loserChecker := k = x.checker
  let win := [x.work, x.checker, x.third].filter (fun c => c != k)
  let sense := tget {} s.w.dieSense (k / 144)
  layout ([(4, 0x50414350), (2, 1), (2, 1 + 2 * b2n pair + 4 * b2n loserChecker), (8, s.now), (8, x.step), (32, digest), (2, x.st), (2, 0), (4, acc),
    (1, x.info.getD 1 0), (1, x.info.getD 2 0), (2, x.info.getD 3 0), (4, x.info.getD 4 0), (4, w), (4, 0), (4, x.ops.length)] ++
    cellBytes s k ++ cellBytes s (win.getD 0 0) ++ cellBytes s (win.getD 1 0) ++
    [(2, sense.coreMv), (2, sense.tjTenths), (2, (s.cell k).rateMhz), (1, (s.cell k).tap)]) ++ zeros 153 ++
  capResults pair x.part ++ capResults pair x.part ++ x.ops

/-- Captures that are due: the loser goes out, the record goes to the next slot, event 0x2509; the sideline exports it
as a failure signature (R400, R530). -/
def runCaptures (digest : Nat) (s : State) : State :=
  forAll s.w.ump.capDue (fun e s =>
    let s1 := if (s.cell e.1).state ≤ 1 && !(s.cell e.1).due then takeOut e.1 2 s else s
    let rec_ := capRecord s1 e.1 e.2 digest
    let slot := if s1.w.ump.caps.isEmpty then 0 else (s1.w.ump.newest + 1) % 8
    sendCapture slot rec_ (flt 0x2509 0x05 0xFF e.2.step (locCell e.1)
      (s1.onW (fun w => { w with ump := { w.ump with caps := tput [] w.ump.caps slot rec_, newest := slot } }))))
    (s.onW (fun w => { w with ump := { w.ump with capDue := [] } }))

/-! ### Exclusions and due retirements -/

/-- Cells whose exclusion starts leave service; cells due are retired, with event 0x2505 where strikes decide (R398, R399). -/
def dueCells (s : State) : State :=
  let s1 := forAll ((List.range 576).filter (fun k => (s.cell k).excluded && decide ((s.cell k).state ≤ 1))) (takeOut · 2) s
  forAll ((List.range 576).filter (fun k => (s1.cell k).due && !(s1.cell k).retired)) (fun k s =>
    retireCell k (if 2 ≤ (s.cell k).strikes then flt 0x2505 0x05 0xFF 0 (locCell k) s else s)) s1

/-! ### Evacuation and retirement of memory -/

/-- Granules with a home, in the order of job, handle and granule: job, handle, granule. The place of a granule in this list is
taken as its slot there (log 176). -/
def granulesAt (s : State) (x : Home) : List (Nat × Nat × Nat) :=
  s.w.jobs.flatMap (fun e => e.2.decls.flatMap (fun d =>
    (List.range (ceilDiv d.2.imageBytes 4096)).filterMap (fun g => if homeOf s e.1 d.1 (4096 * g) = x then some (e.1, d.1, g) else none)))

/-- Granules of a pseudo-channel. -/
def pcGranules (s : State) (p : Nat) : List (Nat × Nat × Nat) := granulesAt s ⟨1, p⟩

/-- Granules of the relocation reserve of a pseudo-channel in use: relocated ones, and pages retired on it (R191, R492); the reserve
is 20 MiB. -/
def reserveAt (s : State) (q : Nat) : Nat :=
  (s.w.reloc.filter (fun e => e.2.2.2 == q)).length +
    (s.w.ret.entries.filter (fun e => e.1 = 1 && e.2.1 = 0 && e.2.2.1 = q && !s.w.ret.due.contains e)).length
def reserveSlots : Nat := 5120
def reserveUsed (s : State) : Nat := sumNat ((livePcs s).map (reserveAt s))
def reserveCap (s : State) : Nat := (livePcs s).length * reserveSlots

/-- Live pseudo-channels in increasing order, starting after one. -/
def livePcsAfter (s : State) (p : Nat) : List Nat :=
  let l := livePcs s
  l.filter (fun q => decide (p < q)) ++ l.filter (fun q => decide (q < p))

/-- Put a granule into the next reserve with room. -/
def relocateOne (order : List Nat) (acc : Nat × State) (x : Nat × Nat × Nat) : Nat × State :=
  let n := order.length
  let at_ (i : Nat) : Nat := order.getD ((acc.1 + i) % max n 1) 0
  match (List.range n).find? (fun i => decide (reserveAt acc.2 (at_ i) < reserveSlots)) with
  | none => acc
  | some i => ((acc.1 + i + 1) % max n 1, acc.2.onW (fun w => { w with
      reloc := w.reloc.filter (fun e => !(e.1 == x.1 && e.2.1 == x.2.1 && e.2.2.1 == x.2.2)) ++ [(x.1, x.2.1, x.2.2, at_ i)] }))

/-- Move granules off a pseudo-channel into the reserves of other live ones, round-robin (R191). -/
def relocate (p : Nat) (l : List (Nat × Nat × Nat)) (s : State) : State := (l.foldl (relocateOne (livePcsAfter s p)) (0, s)).2

/-- The relocation reserve has passed half its capacity (R192). -/
def halfNote (s0 s : State) : State :=
  if 2 * reserveUsed s0 ≤ reserveCap s0 && reserveCap s < 2 * reserveUsed s then flt0 0x1402 0x04 0xFF 0 s else s

/-- Jobs with data on memory that found no room cannot start a step (R192, R492). -/
def blockJobs (js : List Nat) (s : State) : State := forAll js.eraseDups (fun j s => s.modJob j (fun b => { b with noRoom := true })) s

/-- A degraded pseudo-channel that no granule is left on is retired. -/
def retirePc (p : Nat) (s : State) : State := flt 0x1205 (0x10 + p / 64) 0xFF 0 (locPc p 0xFFFFFFFF 0xFF) (s.modPc p (fun x => { x with state := 3 }))

/-- Evacuate one degraded pseudo-channel into the relocation reserve (R192): retired when every granule has moved. -/
def evacuate (p : Nat) (s : State) : State :=
  let s1 := halfNote s (relocate p (pcGranules s p) s)
  match pcGranules s1 p with
  | [] => retirePc p s1
  | rest => blockJobs (rest.map (fun x => x.1)) (flt 0x1403 0x04 0xFF 0 (locPc p 0xFFFFFFFF 0xFF) s1)

def degradedPcs (s : State) : List Nat := (List.range 768).filter (fun p => (s.pc p).state = 2)

/-- Every degraded pseudo-channel, in increasing order. -/
def evacuateAll (s : State) : State := forAll (degradedPcs s) evacuate s

/-- Time an evacuation takes, in ns: 54 ms for a pseudo-channel in full use, of 327,680 granules (R198, R202). -/
def evacuateNs (s0 s1 : State) : Nat := sumNat ((degradedPcs s0).map (fun p => ((pcGranules s0 p).length - (pcGranules s1 p).length) * 54000000 / 327680))

/-- Spread tensors of a job afresh over the live list (R184, R191, R201): their relocations end; what no longer holds a granule of a
degraded pseudo-channel lets it retire. -/
def respread (j : Nat) (mine : Nat → Bool) (s : State) : State :=
  let s1 := (s.onW (fun w => { w with reloc := w.reloc.filter (fun e => !(e.1 == j && mine e.2.1)) })).modJob j (fun b => { b with
    noRoom := false, decls := b.decls.map (fun e => if mine e.1 then (e.1, { e.2 with gone := gonePcs s }) else e) })
  forAll (degradedPcs s1) (fun p s => if (pcGranules s p).isEmpty then retirePc p s else s) s1

/-- A set of a job names a handle. -/
def SetImg.names (t : SetImg) (h : Nat) : Bool := t.tensors.any (fun r => r.handle == h)

/-- 4 KiB units of a retirement entry (R491): tier, bank. -/
def retUnits (e : Nat × Nat × Nat × Nat) : Nat := if e.2.1 = 0 then 1 else if e.1 = 1 then 5120 else 262144

/-- Granules in the slots that an entry names. -/
def granSlots (s : State) (e : Nat × Nat × Nat × Nat) : List (Nat × Nat × Nat) :=
  ((granulesAt s ⟨e.1, e.2.2.1⟩).drop (retUnits e * e.2.2.2)).take (retUnits e)

/-- Carry out one retirement (R492): a tier-1 page moves to the reserve of its own pseudo-channel, a bank as an evacuation, tiers 2
and 3 to free space of the tier. -/
def retireOne (e : Nat × Nat × Nat × Nat) (s : State) : State :=
  let slots := granSlots s e
  let s1 := s.onW (fun w => { w with ret := { w.ret with due := w.ret.due.filter (fun x => x != e) } })
  let s2 := if e.1 = 1 && e.2.1 = 1 then halfNote s1 (relocate e.2.2.1 slots s1) else s1
  let room := if e.1 = 1 then (if e.2.1 = 1 then slots.all (fun x => !(granulesAt s2 ⟨1, e.2.2.1⟩).contains x) else decide (reserveAt s2 e.2.2.1 ≤ reserveSlots))
    else decide (sumNat ((tkeys s2.w.jobs).map (fun j => tierBytes s2 j e.1)) ≤ tierCap s2 (s.w.holder.getD 0) e.1)
  let loc : Loc := if e.1 = 1 then locPc e.2.2.1 e.2.2.2 0xFF else if e.1 = 2 then locTier2 (e.2.2.1 / 4) (e.2.2.1 % 4) e.2.2.2 else locCxl e.2.2.1 e.2.2.2
  if room || slots.isEmpty then flt 0x1909 0x04 0xFF 0 loc (s2.onW (fun w => { w with ret := { w.ret with pages := w.ret.pages + retUnits e } }))
  else blockJobs (slots.map (fun x => x.1)) (flt 0x190A 0x04 0xFF 0 loc s2)

/-- Carry out the retirements that are due, in their order. -/
def runRetirements (s : State) : State := forAll s.w.ret.due retireOne s

/-- Time the due retirements take at the planning rates, in ns (R198). -/
def retireNs (s : State) : Nat := sumNat (s.w.ret.due.map (fun e => (granSlots s e).length * 4096 / (if e.1 = 3 then 180 else 1200)))

/-! ### PLACE_SET settings (R201) -/

/-- Row blocks of pinned tables of the current set follow their pins (R195, R201): blocks and moves. -/
def pinTables (s : State) (b : Job) : Job :=
  match b.cur with
  | none => b
  | some t =>
    let ds := t3Devices s
    t.tensors.foldl (fun b r => match b.decls.find? (fun e => e.1 == r.handle) with
      | some (_, d) =>
        if d.kind != 1 || d.pin ≤ 1 then b
        else { b with tiers := b.tiers.filter (fun e => e.1 != r.id) ++ (if d.pin = 3 then []
          else (List.range (tableBlocks d)).map (fun k => (r.id, k, if d.pin = 2 then 1 else 3 + ds.getD (k % max ds.length 1) 0))) }
      | none => b) b

/-- Apply a PLACE_SET record to a job. -/
def applyPSet (rec_ : Bytes) (b : Job) : Job :=
  let keep (off w dflt old : Nat) : Nat := if fld rec_ off w = dflt then old else fld rec_ off w
  let b1 := { b with pset := { freeze := if fld rec_ 1 1 = 0xFF then b.pset.freeze else fld rec_ 1 1 = 1, migBudget := keep 2 2 0xFFFF b.pset.migBudget } }
  if fld rec_ 0 1 = 1 then
    let h := fld rec_ 4 4
    { b1 with decls := b1.decls.map (fun e => if e.1 = h then (e.1, { e.2 with
        pin := keep 8 1 0xFF e.2.pin, reps := keep 9 1 0xFF e.2.reps, t1Min := keep 10 2 0xFFFF e.2.t1Min
        noMigrate := if fld rec_ 12 1 = 0xFF then e.2.noMigrate else fld rec_ 12 1 = 1 }) else e) }
  else b1

end Sys2Proof.Machine
end

