-- ==== Sys2Proof/Machine/Mem.lean ====
section
/-! DEFINITION. The memory tiers: retraining and spare lanes (R213, R226-R228), stack temperature and
trips (R221-R225), LPDDR5X packages (R233, R505), tier 3 (R236-R238). -/

namespace Sys2Proof.Machine

open Sys2Proof

/-! ### Retraining -/

/-- STK_RETRAIN written with go (R226). -/
def retrainWrite (st v : Nat) (s : State) : State :=
  if bit v 8 && decide (st < 12) then startRetrains st (requestRetrain (64 * st + v % 64) false [] s) else s

/-- Put a failed lane on a spare of its channel: the channel after, and 0 carried already, 1 taken now, 2 no spare left (R213). -/
def steerLane (c : Lane) (l : Nat) : Lane × Nat :=
  if c.spare0 = l || c.spare1 = l then (c, 0)
  else if c.spare0 = 0x7F then ({ c with spare0 := l, failed := min (c.failed + 1) 15 }, 1)
  else if c.spare1 = 0x7F then ({ c with spare1 := l, failed := min (c.failed + 1) 15 }, 1)
  else if c.left.contains l then (c, 2)
  else ({ c with left := c.left ++ [l], failed := min (c.failed + 1) 15 }, 2)

/-- Mark a pseudo-channel degraded (R228). -/
def degrade (p : Nat) (s : State) : State :=
  if (s.pc p).state = 3 then s
  else flt 0x1203 (0x10 + p / 64) 0xFF 0 (locPc p 0xFFFFFFFF 0xFF) (s.modPc p (fun x => { x with state := 2 }))

/-- The retraining of pseudo-channel `q` of a stack ends: converged or not, with lanes whose eye failed (R213, R227,
R228). The stack PHY has reset alone: its side of the crossing comes back from the shadow copy (R60). -/
def retrainDone (st q : Nat) (ok : Bool) (bad : List Nat) (s : State) : State :=
  let p := 64 * st + q
  let x := s.pc p
  if !(decide (st < 12) && decide (q < 64)) || x.state != 1 || (s.stack st).tripped then s
  else
    let key := 32 * st + q / 2
    let lanes := ((x.failLanes ++ bad).eraseDups).filter (fun l => decide (l < 72))
    let r := lanes.foldl (fun acc l =>
      let t := steerLane acc.1 l
      (t.1, (if t.2 = 1 then acc.2.1 ++ [l] else acc.2.1), (if t.2 = 2 then acc.2.2 ++ [l] else acc.2.2))) (tget {} s.w.lanes key, ([] : List Nat), ([] : List Nat))
    let s1 := (s.modXing (xStack st) Xing.localReset).onW (fun w => { w with lanes := tput {} w.lanes key r.1 })
    let s2 := s1.modPc p (fun x => { x with
      state := (if x.deg then 2 else 0), deg := false, retrains := satAdd 8 x.retrains 1, hold := 0, failLanes := []
      trained := true, trainTenths := (s.stack st).tempTenths, trainNs := s.now })
    let s3 := forAll r.2.1 (fun l s => flt 0x1201 (0x10 + st) 0xFF 0 (locPc p 0xFFFFFFFF l) s) s2
    let s4 := if r.2.1.isEmpty then s3 else requestRetrain (64 * st + q / 2 * 2 + (1 - q % 2)) true r.2.1 s3
    let s5 :=
      if !r.2.2.isEmpty then degrade (64 * st + q / 2 * 2 + (1 - q % 2)) (degrade p s4)
      else if !ok then degrade p s4
      else flt 0x1202 (0x10 + st) 0xFF 0 (locPc p 0xFFFFFFFF 0xFF) s4
    startRetrains st s5

/-! ### Stack temperature -/

/-- Threshold of a level in tenths of a degree (R221). -/
def levelTenths (c : StkCfg) (k : Nat) : Nat := if k = 1 then 10 * c.warmC else if k = 2 then 10 * c.hotC else if k = 3 then 10 * c.critC else 1050

/-- Fall while the temperature lies 3 °C below the level's threshold. -/
def levelFall (c : StkCfg) (t : Nat) : Nat → Nat
  | 0 => 0
  | k + 1 => if t + 30 ≤ levelTenths c (k + 1) then levelFall c t k else k + 1

/-- The level after a sample: the highest threshold reached, or the old level while it has not fallen. -/
def levelOf (c : StkCfg) (old t : Nat) : Nat :=
  let up := if levelTenths c 4 ≤ t then 4 else if levelTenths c 3 ≤ t then 3 else if levelTenths c 2 ≤ t then 2 else if levelTenths c 1 ≤ t then 1 else 0
  max up (levelFall c t old)

def absDiff (a b : Nat) : Nat := if a ≤ b then b - a else a - b

/-- The trip ends: out of self-refresh, all pseudo-channels retrain in eight waves (R223). -/
def tripExit (st : Nat) (s : State) : State :=
  startRetrains st (forAll (List.range 64) (fun q s =>
    let p := 64 * st + q
    if (s.pc p).state = 3 then s
    else s.modPc p (fun x => { x with state := (if x.state = 1 then (if x.deg then 2 else 0) else x.state), requested := true, exempt := true }))
    (s.modStack st (fun x => { x with tripped := false, waves := true })))

/-- A sample of a stack's hottest die (R221-R226). -/
def stackSample (st t : Nat) (s : State) : State :=
  if !(decide (st < 12) && s.unitOn (0x10 + st)) then s
  else
    let c := tget {} s.cfg.stk st
    let t := min t 4095
    let x := s.stack st
    let s0 := if x.tripped && t < 1000 then tripExit st s else s
    let lv := if (s0.stack st).tripped then 4 else levelOf c x.level t
    let hot := if 10 * c.hotC ≤ t then x.hotRun + 1 else 0
    let s1 := s0.modStack st (fun x => { x with
      tempTenths := t, level := lv, hotRun := hot, hotMs := min (hot / 10) 4095, deferred := lv = 3 && x.phase
      refTenths := some (x.refTenths.getD t) })
    let s2 := forAll ((List.range 4).filter (fun k => decide (x.level < k) && decide (k ≤ lv))) (fun k s => flt (0x1300 + k) (0x10 + st) 0xFF 0 (locStack st t) s) s1
    let s3 := if 10 * c.hotC ≤ t then ckptAdvice 3 s2 else s2
    let ref (p : Nat) : Nat := if (s.pc p).trained then (s.pc p).trainTenths else x.refTenths.getD t
    startRetrains st (forAll ((List.range 64).filter (fun q => let p := 64 * st + q; decide (80 ≤ absDiff (ref p) t) && !(s3.pc p).requested)) (fun q s =>
      requestRetrain (64 * st + q) false [] s) s3)

/-- STACK_TEMP_SAMPLE (R221). -/
def execStackTempSample (stack tenths : Nat) (s : State) : Res := onWorld (stackSample stack tenths) s

/-- The step of the job that holds the array fails with THERMAL_LIMIT, and a huddle with reason 5 is asked for (R223, R431,
R504, R505). -/
def thermalStop (unit : Nat) (s : State) : State :=
  match s.w.holder with
  | none => s
  | some j => match (s.job j).run with
    | some r => ownHuddle j 5 r.step (barUpdate j (fun e => { e with failed := true }) (failStep j r.step { status := 0x80, unit := unit } [] s))
    | none => ownHuddle j 5 0 s

/-- A stack's comparator fires (R223). -/
def stackTrip (st : Nat) (s : State) : State :=
  if !(decide (st < 12) && s.unitOn (0x10 + st)) || (s.stack st).tripped then s
  else
    let s1 := s.modStack st (fun x => { x with tripped := true, level := 4, deferred := false, waves := false })
    benchAdvice 1 (0x10 + st) (thermalStop (0x10 + st) (flt 0x1304 (0x10 + st) 0xFF 0 (locStack st (s.stack st).tempTenths) s1))

/-- STACK_TRIP (R223). -/
def execStackTrip (stack : Nat) (s : State) : Res := onWorld (stackTrip stack) s

/-- A stack has stayed at or above hot_c for 2 s, or 2 s more (R224). -/
def stackHot (st : Nat) (s : State) : State :=
  let x := s.stack st
  if !(decide (st < 12) && s.unitOn (0x10 + st)) || x.tempTenths < 10 * (tget {} s.cfg.stk st).hotC then s
  else
    let s1 := flt 0x1305 (0x10 + st) 0xFF 0 (locStack st x.tempTenths) s
    let s2 := match s.w.holder with
      | some j => ownHuddle j 5 (reachable (s.job j)) s1
      | none => s1
    benchAdvice 1 (0x10 + st) s2

/-- STACK_HOT_2S (R224). -/
def execStackHot2s (stack : Nat) (s : State) : Res := onWorld (stackHot stack) s

/-- Phases in flight (R222, R375): the Reel engine signals every stack. -/
def phaseSignal (n : Nat) (s : State) : State :=
  forAll (List.range 12) (fun st s => s.modStack st (fun x => { x with phase := decide (0 < n), deferred := x.level = 3 && decide (0 < n) }))
    (s.onW (fun w => { w with reel := { w.reel with phases := n } }))

/-- PHASE_SIGNAL (R375). -/
def execPhaseSignal (count : Nat) (s : State) : Res := onWorld (phaseSignal count) s

/-! ### LPDDR5X packages -/

def modLp (n : Nat) (f : Lp → Lp) (s : State) : State := s.onW (fun w => { w with lp := tmod {} w.lp n f })

/-- A package above 105 °C goes into self-refresh and its accesses are held (R505). The unit class of the advice is not
given: a free value. -/
def lpTrip (pkg : Nat) (s : State) : State :=
  let n := pkg / 6
  if !(decide (pkg < 24) && s.unitOn (0x20 + n)) || bit (tget {} s.w.lp n).held (pkg % 6) then s
  else
    let s1 := modLp n (fun l => { l with held := setBit l.held (pkg % 6) true }) s
    let s2 := thermalStop (0x20 + n) (flt 0x4204 (0x20 + n) 0xFF 0 (locTier2 pkg 0xFF 0xFFFFFFFF) s1)
    let d := s2.draw
    benchAdvice (d.1 % 256) (0x20 + n) d.2

/-- LPDDR_TRIP (R505). -/
def execLpddrTrip (pkg : Nat) (s : State) : Res := onWorld (lpTrip pkg) s

/-- A held package reports 95 °C or less (R505). -/
def lpTripExit (pkg : Nat) (s : State) : State := modLp (pkg / 6) (fun l => { l with held := setBit l.held (pkg % 6) false }) s

/-- A package's temperature report (R233, R234). -/
def packageReport (pkg c : Nat) (s : State) : State :=
  modLp (pkg / 6) (fun l => { l with temps := l.temps.set (pkg % 6) (min c 255), hot := setBit l.hot (pkg % 6) (decide (85 < c)) }) s

/-- PACKAGE_TEMPERATURE_REPORT (R233). -/
def execPackageTemperatureReport (pkg c : Nat) (s : State) : Res := onWorld (if pkg < 24 then packageReport pkg c else id) s

/-! ### Tier 3 -/

/-- A tier-3 device's link goes down (R237). The reason of the huddle is the model's reading (R431). -/
def cxlDown (dev : Nat) (s : State) : State :=
  let x := tget {} s.w.cxl dev
  if !(decide (dev < 4) && x.linkUp) then s
  else
    let s1 := flt 0x1601 0x28 0xFF 0 (locCxl dev 0) (s.onW (fun w => { w with cxl := tput {} w.cxl dev { x with linkUp := false } }))
    let s2 := match s.w.holder with
      | some j => ownHuddle j 5 (reachable (s.job j)) s1
      | none => s1
    benchAdvice 2 0x28 s2

/-- CXL_LINK_DOWN (R237). -/
def execCxlLinkDown (dev : Nat) (s : State) : Res := onWorld (cxlDown dev) s

end Sys2Proof.Machine
end

