-- ==== Sys2Proof/Machine/Caps.lean ====
section
/-! DEFINITION. What the identity block holds: the identity registers (R1, R515) and the capability list with the dwords of every
entry, formed from the state where they follow it (R22, R26, R28, R98, R99, R261, R386, R417, R456, R516-R519). -/

namespace Sys2Proof.Machine

open Sys2Proof

/-! ### Capacities and bandwidth as reported -/

/-- Tier-1 capacity in MiB: 960 GiB less 1.25 GiB for each retired pseudo-channel (R28, R518). -/
def tier1Mib (s : State) : Nat := 983040 - 1280 * (s.w.pcs.filter (fun e => decide (e.1 < 768) && e.2.state = 3)).length

/-- Cells of the module in a state of CELL_STATE (R97). -/
def cellsIn (s : State) (st : Nat) : Nat := ((List.range 576).filter (fun k => (s.cell k).state = st)).length

/-- Rate of a device's link in tenths of GT/s, by the speed code of CXLT_DEV (R238). -/
def cxlTenths (speed : Nat) : Nat := [0, 25, 50, 80, 160, 320, 640].getD speed 0

/-- The tier-3 devices found, those of them that are mapped, and the GiB mapped (R26, R236). -/
def cxlFound (s : State) : List Cxl := (s.w.cxl.map (fun e => e.2)).filter (fun c => c.present)
def cxlMapped (s : State) : List Cxl := (cxlFound s).filter (fun c => decide (0 < c.mapped))
def tier3Gib (s : State) : Nat := ((cxlFound s).map (fun c => c.mapped)).foldl (· + ·) 0

/-- Usable tier-3 bandwidth per direction in GB/s (R22, R519). -/
def tier3Gbs (s : State) : Nat := 110 * ((cxlMapped s).map (fun c => c.width * cxlTenths c.speed)).foldl (· + ·) 0 / (10 * 16 * 64)

/-! ### The entries (R517) -/

/-- A capability entry: offset in the block, ID, and its dwords from offset 8; every entry has version 1. -/
structure CapEnt where
  off : Nat
  id : Nat
  body : List Nat
  deriving DecidableEq, Repr

/-- Length of an entry in dwords, its header included. -/
def CapEnt.dwords (e : CapEnt) : Nat := e.body.length + 2

/-- The base capability (R518). -/
def capBase (s : State) : List Nat :=
  [0x80402000, tier1Mib s, 0x00180000, cellsIn s 0 + 2 ^ 10 * cellsIn s 1, 0x180C0018, 0x00101000]

/-- The CXL-tier capability (R22, R26, R519). -/
def capCxl (s : State) : List Nat :=
  [tier3Gib s + 2 ^ 12 * (cxlFound s).length + 2 ^ 15 * (cxlMapped s).length +
    (if (cxlFound s).isEmpty then 0 else 2 ^ 18 * s.ctl.power.straps.cxlSplit), tier3Gbs s]

/-- The list at B0, in its order. -/
def capList (s : State) : List CapEnt :=
  [⟨0x100, 0x0001, capBase s⟩,
   ⟨0x120, 0x0010, [0x07031F3E, 0x00000001, 0x000000FF, 0x00200100, 0x40080040]⟩,
   ⟨0x140, 0x0011, [0x00000203]⟩,
   ⟨0x160, 0x0020, [0xFFFF80FC, 0x0000400F]⟩,
   ⟨0x180, 0x0030, [0x000A337E]⟩,
   ⟨0x1A0, 0x0040, [0x020408A5, 0x004003E8]⟩,
   ⟨0x1C0, 0x0050, [0x02000200]⟩,
   ⟨0x1E0, 0x0051, [0x08040190]⟩,
   ⟨0x200, 0x0060, [0x01001704]⟩,
   ⟨0x220, 0x0061, [0x00000100]⟩,
   ⟨0x240, 0x0070, [0x0E100FEE]⟩,
   ⟨0x260, 0x0080, capCxl s⟩,
   ⟨0x280, 0x0090, [0x0112130F, 0x4B470400]⟩,
   ⟨0x2A0, 0x00A0, [0x00404010]⟩]

/-- Offset of the entry behind another, 0 behind the last (R516). -/
def capNext (l : List CapEnt) (off : Nat) : Nat := match l.find? (fun e => decide (off < e.off)) with | some e => e.off | none => 0

/-- The dwords of an entry as it stands in the block: header, then body (R516). -/
def CapEnt.words (l : List CapEnt) (e : CapEnt) : List Nat := (e.id + 2 ^ 16 * 1 + 2 ^ 24 * e.dwords) :: capNext l e.off :: e.body

/-- The entry of a capability, where the module has it. -/
def capOf (s : State) (id : Nat) : Option CapEnt := (capList s).find? (fun e => e.id == id)

/-- The module has a capability (R99, R280). -/
def capable (s : State) (id : Nat) : Bool := (capOf s id).isSome

/-- The walk of the list from an offset, at most `n` entries. -/
def capWalk (l : List CapEnt) : Nat → Nat → List CapEnt
  | 0, _ => []
  | n + 1, off => match l.find? (fun e => e.off == off) with
    | some e => e :: capWalk l n (capNext l e.off)
    | none => []

/-! ### The registers (R515) -/

/-- The dword at an offset of the identity block: a register, a dword of a capability entry, or 0. -/
def identWord (s : State) (off : Nat) : Nat :=
  let d := s.ctl.ident
  let part (i : Nat) : Nat := leNum (((d.part.map (BitVec.ofNat 8)).drop (4 * i)).take 4)
  if off = 0x000 then d.magic
  else if off = 0x004 then d.layoutVer
  else if off = 0x008 then d.stepping
  else if 0x010 ≤ off && off < 0x020 then part ((off - 0x010) / 4)
  else if off = 0x020 then d.serial % 2 ^ 32
  else if off = 0x024 then d.serial / 2 ^ 32
  else if off = 0x028 then d.mac % 2 ^ 32
  else if off = 0x02C then d.mac / 2 ^ 32
  else if off = 0x030 then d.fwVer
  else if off = 0x034 then d.svn
  else if off = 0x038 then b2n d.slot + 2 * b2n d.fallback + 4 * b2n d.failed + 2 ^ 8 * d.svnFloor
  else if off = 0x040 then d.capHead
  else match (capList s).find? (fun e => decide (e.off ≤ off) && decide (off < e.off + 4 * e.dwords)) with
    | some e => (e.words (capList s)).getD ((off - e.off) / 4) 0
    | none => 0

end Sys2Proof.Machine
end

