-- ==== Sys2Proof/Machine/Reel.lean ====
section
/-! DEFINITION. The Reel engine's collectives: groups and ranks (R362), descriptors (R363, R364), the order of a dense
reduction (R365-R367), copies (R368), the integer combine (R369), compressed exchange (R371-R374), COLL_RUN (R383). -/

namespace Sys2Proof.Machine

open Sys2Proof

/-! ### Descriptors and groups -/

/-- A collective descriptor (R363). -/
structure Coll where
  op : Nat
  wire32 : Bool
  mean : Bool
  src : Nat
  dst : Nat
  count : Nat
  fmt : Nat
  root : Nat
  span : List Nat
  hop : List Nat
  seg : Nat
  deriving DecidableEq, Repr

def parseColl (b : Bytes) : Coll :=
  { op := fld b 2 1, wire32 := bit (fld b 3 1) 0, mean := bit (fld b 3 1) 1, src := fld b 4 4, dst := fld b 8 4, count := fld b 12 8
    fmt := fld b 20 1, root := fld b 22 2, span := [fld b 24 1, fld b 25 1, fld b 26 1], hop := [fld b 28 1, fld b 29 1, fld b 30 1], seg := fld b 32 8 }

def Coll.size (c : Coll) : Nat := c.span.foldl (· * ·) 1
/-- Axes with a span above 1, in the order X, Y, Z. -/
def Coll.axes (c : Coll) : List Nat := (List.range 3).filter (fun d => 1 < c.span.getD d 1)

/-- Bits of an element in the tensor's image, in halves of a byte in a collective. -/
def Coll.elemBytes (c : Coll) : Nat := max 1 (elemBits c.fmt / 8)

/-- Checks of R364 at offset `off`, against the extents of a plan; `inRec`: named by a row-optimizer record. -/
def collChecks (b : Bytes) (off : Nat) (ext : List Nat) (inRec : Bool) : List (Nat × Bool) :=
  let c := parseColl b
  let p := c.size
  let d := max 1 c.axes.length
  [(off, fld b 0 2 == 1), (off + 2, if inRec then c.op == 6 else decide (1 ≤ c.op) && decide (c.op ≤ 5)),
   (off + 3, !c.mean || decide (c.op ≤ 2)), (off + 4, !inRec || c.src == 0), (off + 8, !inRec || c.dst == 0),
   (off + 12, c.count != 0 && (if c.op == 2 || c.op == 3 then c.count % (64 * d * p) == 0 else true)),
   (off + 20, if inRec then c.fmt == 0 else if decide (c.op ≤ 2) then [0x01, 0x02, 0x03].contains c.fmt else fmtKnown c.fmt),
   (off + 22, decide (c.root < p))] ++
  (List.range 3).flatMap (fun i =>
    let g := c.span.getD i 1
    let h := c.hop.getD i 1
    [(off + 24 + i, decide (1 ≤ g) && (h == 0 || ext.getD i 1 % (g * h) == 0)), (off + 28 + i, decide (1 ≤ h))]) ++
  [(off + 32, c.op != 5 || (c.seg != 0 && c.seg % 64 == 0 && p * c.seg == c.count * elemBits c.fmt / 8))]

/-- Extents the spans are judged against: the job plan in force, else a single place. -/
def planExt (p : Option Plan) : List Nat := match p with | some q => [q.ex, q.ey, q.ez] | none => [1, 1, 1]

/-- Group coordinates of this module (R362). -/
def groupCoords (s : State) (c : Coll) : List Nat :=
  match myPlace s with
  | some e => (List.range 3).map (fun d => let g := c.span.getD d 1; let h := c.hop.getD d 1; (coord e d % max (g * h) 1) / max h 1)
  | none => [0, 0, 0]
def rankOf (c : Coll) (k : List Nat) : Nat := k.getD 0 0 + c.span.getD 0 1 * (k.getD 1 0 + c.span.getD 1 1 * k.getD 2 0)
def coordsOf (c : Coll) (r : Nat) : List Nat :=
  let x := c.span.getD 0 1
  let y := c.span.getD 1 1
  [r % x, r / x % y, r / (x * y)]
/-- Node of the member at group coordinates (R362). -/
def groupNode (s : State) (c : Coll) (k : List Nat) : Nat :=
  match myPlace s, s.w.topo.jobPlan with
  | some e, some p =>
    let at_ (d : Nat) : Nat := let g := c.span.getD d 1; let h := c.hop.getD d 1; let q := coord e d
      q % max h 1 + g * h * (q / max (g * h) 1) + h * k.getD d 0
    (match placeAt p (at_ 0) (at_ 1) (at_ 2) with | some q => standing s q.node | none => s.w.topo.node)
  | _, _ => s.w.topo.node
def setCoord (k : List Nat) (d v : Nat) : List Nat := k.zipIdx.map (fun p => if p.2 = d then v else p.1)
def allRanks (c : Coll) : List Nat := List.range c.size

/-! ### Units (R365) -/

/-- Where a unit is reduced: its axes in pass order with (axis, span, owner coordinate), direction + or -. -/
structure UnitPlan where
  axes : List (Nat × Nat × Nat)
  plus : Bool
  deriving Repr

def unitPlan (c : Coll) (u : Nat) : UnitPlan :=
  let a := c.axes
  let d := a.length
  if d = 0 then ⟨[], true⟩
  else
    let pi := u % d
    let v := u / d
    let ax := (List.range d).map (fun i => a.getD ((pi + i) % d) 0)
    let ow := ax.foldl (fun (acc : List (Nat × Nat × Nat) × Nat) x =>
      let n := c.span.getD x 1
      (acc.1 ++ [(x, n, (v / acc.2) % n)], acc.2 * n)) ([], 1)
    ⟨ow.1, (v / c.size) % 2 == 0⟩

/-- Coordinates of the owner. -/
def UnitPlan.owner (p : UnitPlan) : List Nat := p.axes.foldl (fun k a => setCoord k a.1 a.2.2) [0, 0, 0]

/-- Position 1..n of a coordinate on the line that ends at the owner coordinate (R366). -/
def linePos (plus : Bool) (n o c : Nat) : Nat := let i := if plus then (c + n - o) % n else (o + n - c) % n; if i = 0 then n else i
def lineStep (plus : Bool) (n c : Nat) : Nat := if plus then (c + 1) % n else (c + n - 1) % n

def unitCount (c : Coll) : Nat := (c.count + 63) / 64
def unitOf (l : List Nat) (u : Nat) : List Nat := (l.drop (64 * u)).take 64

/-! ### Messages -/

/-- Element codes as bytes of a wire format. -/
def wireBytes (fmt : Nat) (l : List Nat) : Bytes := l.flatMap (fun x => leBytes (max 1 (elemBits fmt / 8)) x)
def wireElems (fmt : Nat) (b : Bytes) : List Nat := (chunksOf (max 1 (elemBits fmt / 8)) b).map leNum

/-- Units of 64 elements that the data of a message covers, by the numbers its poison list gives them (R365, R480): a compressed block
has 16, a segment of an exchange counts its own from 0 (log 185). -/
def msgUnits (c : Coll) (first units : Nat) (comp : Bool) : List Nat :=
  if comp then (List.range 16).map (fun i => 16 * first + i)
  else if c.op = 5 then List.range ((c.seg * 8 / max (elemBits c.fmt) 1 + 63) / 64)
  else if c.op = 6 then []
  else (List.range units).map (fun i => first + i)

/-- The key under which an invocation keeps a poisoned unit: segments of an exchange stand apart by the rank they come from. -/
def badKey (c : Coll) (rank u : Nat) : Nat := if c.op = 5 then 2 ^ 32 * (rank + 1) + u else u

/-- The poison list that ends a message's data: 4 B unit numbers (R480). -/
def poisonList (v : Inv) (c : Coll) (dst first units : Nat) (comp : Bool) : List Nat :=
  let per := c.seg * 8 / max (elemBits c.fmt) 1
  (msgUnits c first units comp).filter (fun u =>
    if c.op = 5 then (List.range 64).any (fun i => v.bad.contains ((dst * per + 64 * u + i) / 64)) else v.bad.contains u)

/-- Send collective data to a group member (R380). -/
def reelSend (s : State) (v : Inv) (c : Coll) (dst : List Nat) (pass first units fmt : Nat) (comp : Bool) (data0 : Bytes) : State :=
  let up := unitPlan c first
  let data := data0 ++ (poisonList v c (rankOf c dst) first units comp).flatMap (leBytes 4)
  let spec := layout [(2, v.stage), (2, v.mb), (4, v.serial), (4, crc32 v.desc), (1, v.op), (1, pass), (1, first % max c.axes.length 1), (1, b2n (!up.plus)),
    (8, first), (4, units), (1, fmt), (1, b2n comp), (2, rankOf c (groupCoords s c))]
  let s1 := s.onW (fun w => { w with reel := { w.reel with
    bytes := wrapAdd 64 w.reel.bytes data.length, blocks := if comp then satAdd 32 w.reel.blocks units else w.reel.blocks } })
  sendMsg (groupNode s c dst) v.job 1 (s.stepOf v.job) spec data s1

def sameInv (a b : Inv) : Bool := a.job == b.job && a.stage == b.stage && a.mb == b.mb && a.serial == b.serial
def putInv (v : Inv) (s : State) : State := s.onW (fun w => { w with reel := { w.reel with invs := w.reel.invs.filter (fun x => !sameInv x v) ++ [v] } })
def getInv (s : State) (v : Inv) : Option Inv := s.w.reel.invs.find? (fun x => sameInv x v)

/-! ### Dense reductions (R366, R367) -/

/-- The value rounded to what travels: FP32 with wire32, else the format (R367). -/
def wireRound (c : Coll) (l : List Nat) : List Nat := if c.wire32 then l else l.map (fun x => toFp32 c.fmt 127 (fromFp32 c.fmt false .rne x).1)

/-- The final value of a reduced unit: mean, then one rounding to the format. -/
def finalUnit (c : Coll) (l : List Nat) : List Nat :=
  (if c.mean then l.map (fun x => fMul x (fRcp (enc32 (.fin false c.size 0)))) else l).map (fun x => (fromFp32 c.fmt false .rne x).1)

/-- Spread a finished unit over the gather passes after stage `g` (R368): along each further axis, last reduced first. -/
def spreadUnit (v : Inv) (c : Coll) (u g : Nat) (codes : List Nat) (s : State) : State :=
  let ax := (unitPlan c u).axes.reverse
  let me := groupCoords s c
  forAll ((List.range ax.length).filter (fun i => decide (g ≤ i))) (fun i s =>
    match ax[i]? with
    | some a => forAll ((List.range a.2.1).filter (fun k => k != me.getD a.1 0)) (fun k s =>
        reelSend s v c (setCoord me a.1 k) (3 + i) u 1 c.fmt false (wireBytes c.fmt codes)) s
    | none => s) s

/-- A unit has its final value at this member. -/
def finishUnit (v : Inv) (c : Coll) (u g : Nat) (codes : List Nat) (s : State) : Inv × State :=
  let v1 := { v with done := (u, codes) :: v.done.filter (fun e => e.1 != u) }
  (v1, if c.op = 1 || c.op = 3 then spreadUnit v1 c u g codes s else s)

/-- The unit holds `x` after `k` passes at this member: the next pass begins, or the unit is done. -/
def unitAt (v : Inv) (c : Coll) (u k : Nat) (x : List Nat) (s : State) : Inv × State :=
  let p := unitPlan c u
  let me := groupCoords s c
  match p.axes[k]? with
  | none => finishUnit { v with vals := v.vals.filter (fun e => e.1 != u) } c u 0 (finalUnit c x) s
  | some a =>
    let v1 := { v with vals := (u, k, x) :: v.vals.filter (fun e => e.1 != u) }
    if linePos p.plus a.2.1 a.2.2 (me.getD a.1 0) = 1 then
      (v1, reelSend s v1 c (setCoord me a.1 (lineStep p.plus a.2.1 (me.getD a.1 0))) k u 1 (if c.wire32 then 0x01 else c.fmt) false
        (wireBytes (if c.wire32 then 0x01 else c.fmt) (if c.wire32 then x else x.map (fun y => (fromFp32 c.fmt false .rne y).1))))
    else (v1, s)

/-- A partial sum of pass `k` meets this member's value. -/
def addPartial (v : Inv) (c : Coll) (u k : Nat) (part x : List Nat) (s : State) : Inv × State :=
  let p := unitPlan c u
  let me := groupCoords s c
  match p.axes[k]? with
  | none => (v, s)
  | some a =>
    let sum := (part.zip x).map (fun q => fAdd q.1 q.2)
    if linePos p.plus a.2.1 a.2.2 (me.getD a.1 0) = a.2.1 then unitAt v c u (k + 1) sum s
    else
      let f := if c.wire32 then 0x01 else c.fmt
      ({ v with vals := v.vals.filter (fun e => e.1 != u) },
        reelSend s v c (setCoord me a.1 (lineStep p.plus a.2.1 (me.getD a.1 0))) k u 1 f false
          (wireBytes f (if c.wire32 then sum else sum.map (fun y => (fromFp32 c.fmt false .rne y).1))))

/-- Use the partials that wait for this member's own values. -/
def pump : Nat → Inv → Coll → State → Inv × State
  | 0, v, _, s => (v, s)
  | n + 1, v, c, s =>
    match v.held.findSome? (fun h => (v.vals.find? (fun e => e.1 == h.2.1 && e.2.1 == h.1)).map (fun e => (h, e.2.2))) with
    | none => (v, s)
    | some (h, x) => let r := addPartial { v with held := v.held.filter (fun y => y != h) } c h.2.1 h.1 h.2.2.2 x s
      pump n r.1 c r.2

/-! ### Compressed exchange (R372-R374) -/

/-- Insert in order of rank of magnitude: NaN above all, larger magnitude first, lower index on a tie. -/
def topKeys (l : List (Nat × Nat)) : List (Nat × Nat) :=
  sortBy (fun p => (2 ^ 33 - (if isNan32 p.2 then 2 ^ 32 else p.2 % 2 ^ 31)) * 1024 + p.1) l

/-- The record of one block and each element's decompressed value (R373). `mode` 1 TOPK with 2^-n, 2 SIGN with sub-block b. -/
def encodeBlock (mode n b : Nat) (e : List Nat) : Bytes × List Nat :=
  if mode = 1 then
    let m := 2 ^ (10 - n)
    let kept := sortBy (fun p => p.1) ((topKeys (e.zipIdx.map (fun p => (p.2, p.1)))).take m)
    let ents := kept ++ List.replicate (m - kept.length) (0xFFFF, 0)
    (ents.flatMap (fun p => layout [(2, p.1), (4, p.2)]), e.zipIdx.map (fun p => if kept.any (fun k => k.1 == p.2) then p.1 else 0))
  else
    let subs := chunksOf (max b 1) e
    let enc := subs.map (fun x =>
      let sg := fMul (sum32 (x.map fAbs)) (fRcp (enc32 (.fin false x.length 0)))
      (leBytes (b / 8) (x.zipIdx.foldl (fun acc p => acc + b2n (neg32 p.1) * 2 ^ p.2) 0) ++ leBytes 4 sg, x.map (fun y => if isNan32 sg then nan32 else if neg32 y then fNeg sg else sg)))
    (enc.flatMap (fun p => p.1), enc.flatMap (fun p => p.2))

/-- The values a record of a block of `len` elements decompresses to: an element with no TOPK entry is +0 (R373, R374). -/
def decodeBlock (mode n b len : Nat) (r : Bytes) : List Nat :=
  if mode = 1 then
    let ents := (List.range (2 ^ (10 - n))).map (fun i => (fld r (6 * i) 2, fld r (6 * i + 2) 4))
    (List.range len).map (fun i => match ents.find? (fun p => p.1 == i) with
      | some p => p.2
      | none => 0)
  else
    (List.range len).map (fun i =>
      let o := (i / max b 1) * (b / 8 + 4)
      let sg := fld r (o + b / 8) 4
      if isNan32 sg then nan32 else if bit (fld r o (b / 8)) (i % max b 1) then fNeg sg else sg)

/-- The setting of a tensor under the mode in force. -/
def compOf (b : Job) (t : SetImg) (c : Coll) : Option (Nat × Nat × Nat × Nat) :=
  if c.op = 1 && c.src != 0 && (t.tens? c.src).isSome then b.compress.find? (fun e => e.1 == c.src && e.2.1 != 0) else none

/-- Residual buffers of a tensor (R372). -/
def residOf (b : Job) (tensor i : Nat) (len : Nat) : List Nat :=
  match b.resid.find? (fun r => r.tensor == tensor) with
  | some r => (r.bufs.getD i []) ++ List.replicate (len - (r.bufs.getD i []).length) 0
  | none => List.replicate len 0
def putResid (tensor i : Nat) (l : List Nat) (b : Job) : Job :=
  let old := match b.resid.find? (fun r => r.tensor == tensor) with | some r => r | none => { tensor := tensor, bufs := [[], [], []] }
  let bufs := (old.bufs ++ List.replicate (3 - old.bufs.length) []).zipIdx.map (fun p => if p.2 = i then l else p.1)
  { b with resid := b.resid.filter (fun r => r.tensor != tensor) ++ [{ old with bufs := bufs }] }

/-- A residual buffer that has been written goes to the partner (R422): past the tensor's image, buffer by buffer (log 75). -/
def residOff (s : State) (j tensor i : Nat) : Nat :=
  let b := s.job j
  let len := match b.resid.find? (fun r => r.tensor == tensor) with | some r => 4 * residLen r | none => 0
  let img := match b.cur with
    | some t => (match t.tens? tensor with
      | some r => (match s.decl j r.handle with | some d => d.imageBytes | none => 0)
      | none => 0)
    | none => 0
  img + i * len
def mirrorResid (j tensor i step : Nat) (s : State) : State :=
  match (s.job j).resid.find? (fun r => r.tensor == tensor) with
  | some r => mirrorSend j 1 0 tensor 1 (residOff s j tensor i) step 0 (residBytes r i) s
  | none => s

/-- Values of owned blocks whose records are all in: summed by rank (R104, R105), mean and rounding applied, then gathered. -/
def settleBlocks (v : Inv) (c : Coll) (s : State) : Inv × State :=
  let me := rankOf c (groupCoords s c)
  let nb := (c.count + 1023) / 1024
  (List.range nb).foldl (fun (acc : Inv × State) blk =>
    let v := acc.1
    let recs := v.recs.filter (fun r => r.1 == blk)
    if blk % c.size != me || recs.length != c.size || v.done.any (fun d => d.1 == 16 * blk) then acc
    else
      let byRank := sortBy (fun r => r.2.1) recs
      let len := min 1024 (c.count - 1024 * blk)
      let sums := (List.range len).map (fun i => (levelFinish false (byRank.foldl (fun st r => levelPush false st 0 (r.2.2.getD i 0, 0)) [])).1)
      let codes := finalUnit c sums
      let us := chunksOf 64 codes
      let v1 := { v with done := us.zipIdx.map (fun p => (16 * blk + p.2, p.1)) ++ v.done }
      let s1 := forAll ((allRanks c).filter (fun r => r != me)) (fun r s => reelSend s v1 c (coordsOf c r) 3 (16 * blk) us.length c.fmt false (wireBytes c.fmt codes)) acc.2
      (v1, s1)) (v, s)

/-! ### Where results go -/

/-- Write element codes over a whole tensor of the running step. -/
def writeTensor (j id : Nat) (codes : List Nat) (s : State) : State :=
  match ctxOf s j with
  | none => s
  | some c => match c.decl id with
    | none => s
    | some (h, d) => forAll ((chunksOf (max d.rowLen 1) codes).zipIdx) (fun p s => match ctxOf s j with | some c => overRow j h d p.2 p.1 [] c s | none => s) s

/-- Write element codes over a declaration outside a step (R383). R214 names no class for the Reel engine: NORMAL (log 178). -/
def writeDecl (j h : Nat) (codes : List Nat) (s : State) : State :=
  match s.decl j h with
  | none => s
  | some d => forAll ((chunksOf (max d.rowLen 1) codes).zipIdx) (fun p s =>
      forAll (d.rowImage (fun o n => leNum (devRead s j h d.buf o n)) p.2 p.1 []) (fun w s => touch 0 true j h d.buf w.1 w.2.length (jobPut j h d.buf w.1 w.2 s)) s) s

/-- An accumulator entry as the combine sends it, and back (R369): row, table, count, flags, sums. -/
def accBytes (a : Acc) : Bytes :=
  layout [(8, a.row), (2, a.table), (4, a.count), (1, b2n a.allFlag), (2, a.flags.length), (2, a.sums.length)] ++ a.flags.flatMap (leBytes 2) ++
    a.sums.flatMap (fun z => leBytes 8 (unsigned 64 z))
def accParse : Nat → Bytes → List Acc
  | 0, _ => []
  | n + 1, b =>
    if b.length < 19 then []
    else
      let nf := fld b 15 2
      let ns := fld b 17 2
      { row := fld b 0 8, table := fld b 8 2, count := fld b 10 4, allFlag := fld b 14 1 == 1
        flags := (List.range nf).map (fun i => fld b (19 + 2 * i) 2), sums := (List.range ns).map (fun i => signed 64 (fld b (19 + 2 * nf + 8 * i) 8)) } ::
      accParse n (b.drop (19 + 2 * nf + 8 * ns))
/-- Merge a received accumulator into the job's (R369). -/
def mergeAcc (stage : Nat) (x : Acc) (b : Job) : Job :=
  match b.accs.find? (fun a => a.stage == stage && a.row == x.row) with
  | some a => { b with accs := updWhere (fun y => y == a) (fun a => { a with
      count := a.count + x.count, allFlag := a.allFlag || x.allFlag || decide (2 ^ 24 < a.count + x.count), flags := (a.flags ++ x.flags).eraseDups
      sums := (a.sums.zip x.sums).map (fun p => signed 64 (unsigned 64 (p.1 + p.2))) }) b.accs }
  | none => { b with accs := b.accs ++ [{ x with stage := stage }] }

/-- Whether an invocation has everything. -/
def invReady (s : State) (v : Inv) (c : Coll) : Bool :=
  let me := groupCoords s c
  v.started && (
    if c.op = 2 then (List.range (unitCount c)).all (fun u => (unitPlan c u).axes.any (fun a => me.getD a.1 0 != a.2.2) || v.done.any (fun d => d.1 == u))
    else if c.op = 5 then v.segs.length = c.size
    else if c.op = 6 then v.heard.length = c.size
    else (List.range (unitCount c)).all (fun u => v.done.any (fun d => d.1 == u)))

/-- Poisoned units of the result, by their place in it: what a member of a reduce-scatter owns stands in order (R366-R368). -/
def resultUnits (v : Inv) (c : Coll) : List Nat :=
  if c.op = 5 then
    let per := c.seg * 8 / max (elemBits c.fmt) 1
    v.bad.flatMap (fun u => let r := u / 2 ^ 32
      if r = 0 then [] else [((r - 1) * per + 64 * (u % 2 ^ 32)) / 64, ((r - 1) * per + 64 * (u % 2 ^ 32) + 63) / 64])
  else if c.op = 2 then ((sortBy (fun d => d.1) v.done).zipIdx.filter (fun p => v.bad.contains p.1.1)).map (fun p => p.2)
  else v.bad

/-- Mark units of 64 elements of a declaration poisoned, by the code words of the tier that hold them (R480). -/
def poisonUnits (j h : Nat) (us : List Nat) (size : Nat) (s : State) : State :=
  match s.decl j h with
  | none => s
  | some d => forAll us (fun u s =>
      forAll (List.range (64 * size / 32 + 1)) (fun i s =>
        let off := 64 * size * u + 32 * i
        let n := if (homeOf s j h off).tier = 2 then 32 else 64
        if off < min (64 * size * (u + 1)) d.imageBytes then s.poisonUnit (devKey j h d.buf (off - off % n)) n else s) s) s

/-- Where the poison of a COLL_RUN comes from: its own source (R482), or what a message brought to the Reel engine. -/
def runBad (s : State) (v : Inv) (c : Coll) : (Nat × Nat) × (Nat × Nat) :=
  match s.decl v.job c.src with
  | some d => (match (List.range (d.imageBytes / 64 + 1)).find? (fun i => readsBad s v.job c.src d.buf (64 * i) (min 64 (d.imageBytes - 64 * i))) with
    | some i => let o := homeOf s v.job c.src (64 * i); ((o.tier, o.unit), (64 * i, 0))
    | none => ((7, 0x06), (0, 0)))
  | none => ((7, 0x06), (0, 0))

/-- Finish an invocation: the result goes to its tensor, port or declaration; a COLL_RUN completes. -/
def invEnd (v : Inv) (c : Coll) (s : State) : State :=
  let codes := (sortBy (fun d => d.1) v.done).flatMap (fun d => d.2)
  let codes := if c.op = 5 then (sortBy (fun d => d.1) v.segs).flatMap (fun d => wireElems c.fmt d.2) else codes
  let s1 := s.onW (fun w => { w with reel := { w.reel with invs := w.reel.invs.filter (fun x => !sameInv x v) } })
  if v.stage = 0xFFFF then
    let h := if c.dst = 0 then c.src else c.dst
    let done := fun (st det : Nat) (u : Nat) => completeAll (fun r => r.op = 0x0402 && r.hdr.job = v.job && r.a = v.serial) st det u (fun _ => [])
    let s2 := writeDecl v.job h codes s1
    if v.bad = [] then done 0 0 0xFF s2
    else
      let l := runBad s v c
      done 0x50 (l.1.1 * 256) l.1.2 (flt 0x1907 l.1.2 v.job 0 { handle := c.src, off := l.2.1 } (poisonUnits v.job h (resultUnits v c) (max 1 (elemBits c.fmt / 8)) s2))
  else match ctxOf s1 v.job with
    | none => s1
    | some k =>
      let s2 := if c.op = 6 then s1
        else if c.dst != 0 then writeTensor v.job c.dst codes s1
        else (match (k.t.stage? v.stage).bind k.t.fig? with
          | some f => match k.t.out? v.stage f.port with
            | some q =>
              let s2 := putRows v.job v.stage f.port (if v.mb = 0xFFFF then 0 else v.mb) codes (v.bad != []) k s1
              if q.dst = 0xFFFF then writeTensor v.job q.tensor codes s2 else s2
            | none => s1
          | none => s1)
      let cnt := codes.map (fun x => toFp32 c.fmt 127 x)
      let stat := statOf cnt
      let o : TileOut := { res := [], codes := codes, cnt := { nans := (cnt.filter isNan32).length, infs := (cnt.filter (fun x => x % 2 ^ 31 = 0x7F800000)).length }, amax := stat.1, ss := stat.2, poison := v.bad != [] }
      let s3 := modRun v.job (fun r => (if c.op = 6 then id else addRep v.stage o false) { r with exchanged := if v.mb = 0xFFFF then r.exchanged ++ [v.stage] else r.exchanged }) s2
      if v.bad != [] then
        let o := poisonOrigin s v.job
        failStep v.job k.r.step { status := 0x50, detail := o.1 * 256, unit := o.2, stage := v.stage } [] (flt 0x1907 o.2 v.job k.r.step (poisonLoc s v.job) s3)
      else s3

/-- Move an invocation on after anything arrived or started. -/
def invPump (v : Inv) (s : State) : State :=
  let c := parseColl v.desc
  let r := pump (v.held.length + 1) v c s
  let r2 := if r.1.comp && r.1.started then settleBlocks r.1 c r.2 else r
  let s1 := putInv r2.1 r2.2
  if invReady s1 r2.1 c then invEnd r2.1 c s1 else s1

/-- Start an invocation at this member: `x` the source element codes (in the format of the collective), `accs` the entries
of a combine. -/
def invStart (v0 : Inv) (x : List Nat) (s : State) : State :=
  let c := parseColl v0.desc
  let early := match getInv s v0 with | some e => e | none => v0
  let me := groupCoords s c
  let rk := rankOf c me
  let v := { early with op := c.op, desc := v0.desc, started := true, bad := (early.bad ++ v0.bad).eraseDups, comp := v0.comp }
  let others := (allRanks c).filter (fun r => r != rk)
  let fp := x.map (fun y => toFp32 c.fmt 127 y)
  if v.comp then
    let b := s.job v.job
    match b.compress.find? (fun e => e.1 == c.src) with
    | none => s
    | some set_ =>
      let n := s.stepOf v.job
      let r := residOf b c.src (n % 3) c.count
      let e := (fp.zip r).map (fun p => fAdd p.1 p.2)
      let blocks := (chunksOf 1024 e).map (fun y => encodeBlock set_.2.1 set_.2.2.1 set_.2.2.2 y)
      let d := blocks.flatMap (fun y => y.2)
      let s1 := mirrorResid v.job c.src ((n + 1) % 3) n (s.modJob v.job (putResid c.src ((n + 1) % 3) ((e.zip d).map (fun p => fSub p.1 p.2))))
      let own := blocks.zipIdx.filterMap (fun p => if p.2 % c.size = rk then
        some (p.2, rk, decodeBlock set_.2.1 set_.2.2.1 set_.2.2.2 p.1.2.length p.1.1) else none)
      let s2 := forAll (blocks.zipIdx.filter (fun p => p.2 % c.size != rk)) (fun p s => reelSend s v c (coordsOf c (p.2 % c.size)) 6 p.2 1 0x01 true p.1.1) s1
      invPump { v with recs := own ++ v.recs } s2
  else if c.op ≤ 2 then
    let r := (List.range (unitCount c)).foldl (fun (acc : Inv × State) u => unitAt acc.1 c u 0 (unitOf fp u) acc.2) (v, s)
    invPump r.1 r.2
  else if c.op = 3 then
    -- the source holds the units this member owns, in order (R368)
    let mine := (List.range (unitCount c)).filter (fun u => (unitPlan c u).axes.all (fun a => me.getD a.1 0 = a.2.2))
    let v := { v with bad := early.bad ++ v0.bad.filterMap (fun i => mine[i]?) }
    let r := mine.zipIdx.foldl (fun (acc : Inv × State) p => finishUnit acc.1 c p.1 0 (unitOf x p.2) acc.2) (v, s)
    invPump r.1 r.2
  else if c.op = 4 then
    if rk = c.root then
      let us := (List.range (unitCount c)).map (fun u => (u, unitOf x u))
      let s1 := forAll others (fun r s => forAll us (fun u s => reelSend s v c (coordsOf c r) 6 u.1 1 c.fmt false (wireBytes c.fmt u.2)) s) s
      invPump { v with done := us } s1
    else invPump v s
  else if c.op = 5 then
    let seg (r : Nat) : Bytes := ((wireBytes c.fmt x).drop (r * c.seg)).take c.seg
    let s1 := forAll others (fun r s => reelSend s v c (coordsOf c r) 6 r 1 c.fmt false (seg r)) s
    invPump { v with segs := (rk, seg rk) :: v.segs } s1
  else
    let data := ((s.job v.job).accs.filter (fun a => a.stage == v.stage)).flatMap accBytes
    let s1 := forAll others (fun r s => reelSend s v c (coordsOf c r) 6 0 1 0 false data) s
    let s2 := forAll v.held (fun h s => forAll (accParse (h.2.2.2.length + 1) (h.2.2.2.map (fun b => BitVec.ofNat 8 b))) (fun a s => s.modJob v.job (mergeAcc v.stage a)) s) s1
    invPump { v with heard := rk :: (v.heard ++ v.held.map (fun h => h.2.2.1)).eraseDups, held := [] } s2

/-! ### REEL_DATA_RECEIVE (R380) -/

/-- The descriptor this module has for an invocation: of its set's stage, or of the COLL_RUN in flight. -/
def ownDesc (s : State) (j stage serial : Nat) : Option Bytes :=
  if stage = 0xFFFF then (s.w.reel.invs.find? (fun v => v.job == j && v.stage == 0xFFFF && v.serial == serial && v.started)).map (fun v => v.desc)
  else match (s.job j).cur with
    | none => none
    | some t => match t.stage? stage with
      | none => none
      | some st =>
        let off := if isScatter st then (parseRowOpt (t.img.drop st.desc)).combine else st.desc
        some ((t.img.drop off).take 64)

/-- Bytes of a message's data without the poison list that may end it (R373, R380, R480). -/
def dataLen (b : Job) (c : Coll) (first units fmt : Nat) (comp : Bool) (all : Nat) : Nat :=
  if comp then
    let x := (b.compress.find? (fun e => e.1 == c.src)).getD (0, 0, 0, 0)
    let len := min 1024 (c.count - 1024 * first)
    if x.2.1 = 1 then 6 * 2 ^ (10 - x.2.2.1) else (len + max x.2.2.2 1 - 1) / max x.2.2.2 1 * (x.2.2.2 / 8 + 4)
  else if c.op = 5 then c.seg
  else if c.op = 6 then all
  else min (64 * units) (c.count - 64 * first) * max 1 (elemBits fmt / 8)

/-- Collective data arrives: a descriptor of another CRC is dropped (R380), else it is used or waits. -/
def reelReceive (j stage mb serial crc pass first units fmt : Nat) (comp : Bool) (rank : Nat) (sent : Bytes) (s : State) : State :=
  if !s.live j then s
  else
  let v0 : Inv := { job := j, stage := stage, mb := mb, serial := serial }
  match ownDesc s j stage serial with
  | some d =>
    if crc32 d != crc then
      let s1 := flt0 0x3603 0x06 j (s.stepOf j) s
      if stage = 0xFFFF then
        completeAll (fun r => r.op = 0x0402 && r.hdr.job = j && r.a = serial) 0x11 (2 ^ 31) 0x06 (fun _ => [])
          (s1.onW (fun w => { w with reel := { w.reel with invs := w.reel.invs.filter (fun x => !sameInv x v0) } }))
      else failStep j (s.stepOf j) { status := 0x11, detail := 2 ^ 31, unit := 0x06, stage := stage } [] s1
    else
      let c := parseColl d
      let n := dataLen (s.job j) c first units fmt comp sent.length
      let data := sent.take n
      let v1 := (getInv s v0).getD { v0 with op := c.op, desc := d }
      let v := { v1 with bad := (v1.bad ++ ((chunksOf 4 (sent.drop n)).map (fun b => badKey c rank (leNum b)))).eraseDups }
      let el := wireElems fmt data
      if comp then
        let set_ := ((s.job j).compress.find? (fun e => e.1 == c.src)).getD (0, 0, 0, 0)
        let len := min 1024 (c.count - 1024 * first)
        let r := (first, rank, decodeBlock set_.2.1 set_.2.2.1 set_.2.2.2 len data)
        if v.recs.any (fun x => x.1 == first && x.2.1 == rank) then s else invPump { v with recs := r :: v.recs } s
      else if pass ≤ 2 then
        let parts := (List.range units).map (fun i => (pass, first + i, rank, (unitOf el i).map (fun y => toFp32 fmt 127 y)))
        invPump { v with held := v.held ++ parts } s
      else if pass ≤ 5 && !(c.op = 1 && (compOf (s.job j) ((s.job j).cur.getD {}) c).isSome) then
        let r := (List.range units).foldl (fun (acc : Inv × State) i => finishUnit acc.1 c (first + i) (pass - 2) (unitOf el i) acc.2) (v, s)
        invPump r.1 r.2
      else if pass ≤ 5 || c.op = 4 then
        invPump { v with done := (List.range units).map (fun i => (first + i, unitOf el i)) ++ v.done.filter (fun (x : Nat × List Nat) => decide (x.1 < first) || decide (first + units ≤ x.1)) } s
      else if c.op = 5 then invPump { v with segs := (rank, data) :: v.segs.filter (fun (x : Nat × Bytes) => x.1 != rank) } s
      else if v.heard.contains rank || v.held.any (fun h => h.2.2.1 == rank) then s
      else if v.started then
        invPump { v with heard := rank :: v.heard } (forAll (accParse (data.length + 1) data) (fun a s => s.modJob j (mergeAcc stage a)) s)
      else invPump { v with held := v.held ++ [(6, 0, rank, data.map (fun b => b.toNat))] } s
  | none =>
    -- data of a COLL_RUN that this member has not issued yet waits for it
    if stage != 0xFFFF then s
    else
      let v := (getInv s v0).getD v0
      putInv { v with segs := v.segs ++ [(2 ^ 40, layout [(4, crc), (1, pass), (8, first), (4, units), (1, fmt), (1, b2n comp), (2, rank)] ++ sent)] } s

/-- Data that came before a COLL_RUN was issued here. -/
def replayEarly (j serial : Nat) (early : List Bytes) (s : State) : State :=
  forAll early (fun b s => reelReceive j 0xFFFF 0xFFFF serial (fld b 0 4) (fld b 4 1) (fld b 5 8) (fld b 13 4) (fld b 17 1) (fld b 18 1 == 1) (fld b 19 2) (b.drop 21) s) s

/-! ### COLL_COMPRESS and COLL_RUN (R371, R383) -/

/-- Collective descriptors of a set by EXCHANGE stage. -/
def setColls (t : SetImg) : List Coll := (t.stages.filter isExchange).map (fun st => parseColl (t.img.drop st.desc))

def runCollCompress (h : Hdr) (tensor mode k block : Nat) : State → State :=
  startCmd (.collCompress h tensor mode k block) 0x0401 h (fun s =>
    let b := s.job h.job
    let has (o : Option SetImg) : Bool := match o with
      | some t => (setColls t).any (fun c => c.op == 1 && c.src == tensor && [0x01, 0x02, 0x03].contains c.fmt)
      | none => false
    if !(has b.cur || has b.staged) || tensor = 0 then badC s 16
    else if 2 < mode then badC s 18
    else if mode = 1 && !(decide (3 ≤ k) && decide (k ≤ 10)) then badC s 19
    else if mode = 2 && !([32, 64, 128, 256, 512, 1024].contains block) then badC s 20
    else
      let e := (tensor, mode, if mode = 1 then k else 0, if mode = 2 then block else 0)
      let same := match b.stCompress.find? (fun (x : Nat × Nat × Nat × Nat) => x.1 == tensor) with
        | some x => x == e
        | none => match b.compress.find? (fun (x : Nat × Nat × Nat × Nat) => x.1 == tensor) with
          | some x => x == e
          | none => mode = 0
      if same then noteC s 1 else okC (s.modJob h.job (fun b => { b with stCompress := b.stCompress.filter (fun (x : Nat × Nat × Nat × Nat) => x.1 != tensor) ++ [e] })))

/-- COLL_COMPRESS (R371). -/
def execCollCompress (h : Hdr) (tensor mode k block : Nat) (s : State) : Res := onWorld (runCollCompress h tensor mode k block) s

/-- Element codes of a declaration, in row-major order. -/
def declCodes (s : State) (j h : Nat) : List Nat :=
  match s.decl j h with
  | none => []
  | some d => (List.range d.nrows).flatMap (fun r => (List.range d.rowLen).map (fun c => d.code (fun o n => leNum (devRead s j h d.buf o n)) r c))

def runCollRun (h : Hdr) (addr : Nat) : State → State :=
  startCmd (.collRun h addr) 0x0402 h (fun s =>
    withRead s h.job addr 64 16 (fun bs =>
      let c := parseColl bs
      let b := s.job h.job
      let okDecl (x : Nat) : Bool := match s.decl h.job x with | some d => d.kind = 0 && d.fmt == c.fmt | none => false
      let cnt (x n : Nat) : Bool := match s.decl h.job x with | some d => decide (n ≤ d.count) | none => false
      let srcN := if c.op = 3 then c.count / max c.size 1 else c.count
      let dstN := if c.op = 2 then c.count / max c.size 1 else c.count
      match firstBad (collChecks bs 0 (planExt s.w.topo.jobPlan) false ++
          [(4, okDecl c.src && cnt c.src srcN), (8, c.dst == 0 || (okDecl c.dst && cnt c.dst dstN))]) with
      | some o => badRec s o
      | none =>
        if b.run.isSome || !b.waiting.isEmpty then failC s 0x30
        else if s.w.topo.jobPlan.isNone then failC s 0x60
        else
          let n := b.collSerial + 1
          let v : Inv := { job := h.job, serial := n, desc := bs }
          let early := match getInv s v with | some e => e.segs.map (fun (x : Nat × Bytes) => x.2) | none => []
          let s1 := (s.modJob h.job (fun b => { b with collSerial := n })).onW (fun w => { w with
            reel := { w.reel with invs := w.reel.invs.filter (fun x => !sameInv x v) } })
          .later s1 n early.length))

/-! ### EXCHANGE stages and combines of a step (R376) -/

/-- Another invocation may start: at most 16 run at once, and later ones wait (R376). -/
def reelRoom (s : State) : Bool := decide ((s.w.reel.invs.filter (fun v => v.started)).length < 16)

/-- An invocation of the running step that has not started and not ended, and may start now. -/
def canStart (s : State) (c : Ctx) (stage mb : Nat) : Bool :=
  reelRoom s && !c.r.exchanged.contains (if mb = 0xFFFF then stage else 65536 + stage + 2048 * mb) &&
    !s.w.reel.invs.any (fun v => v.job == c.j && v.stage == stage && v.mb == mb && v.started)

/-- Units of 64 elements of a tensor with a poisoned element (R480, R481). -/
def badUnits (c : Ctx) (h : Nat) (d : Decl) : List Nat :=
  if !readsBad c.s c.j h d.buf 0 d.imageBytes then []
  else (List.range ((d.nrows * d.rowLen + 63) / 64)).filter (fun u => (List.range 64).any (fun i =>
    let e := 64 * u + i
    decide (e < d.nrows * d.rowLen) && c.badElem h d (e / max d.rowLen 1) (e % max d.rowLen 1)))

/-- Start the EXCHANGE stages that read tensors, and the replica combines, of the running step; stages fed by a stream start
with their micro-batch. -/
def startExchanges (j : Nat) (s : State) : State :=
  match ctxOf s j with
  | none => s
  | some c =>
    let s1 := forAll (c.t.stages.filter (fun st => isExchange st && (parseColl (c.t.img.drop st.desc)).src != 0)) (fun st s =>
      match ctxOf s j with
      | none => s
      | some c =>
        let d := (c.t.img.drop st.desc).take 64
        let k := parseColl d
        if !canStart s c st.idx 0xFFFF then s else
        match c.decl k.src with
        | none => s
        | some (h, dd) =>
          let codes := (List.range dd.nrows).flatMap (fun r => (List.range dd.rowLen).map (fun x => dd.code (c.rd h dd) r x))
          let comp := (compOf c.b c.t k).isSome
          invStart { job := j, stage := st.idx, desc := d, comp := comp, bad := badUnits c h dd } (codes.take (if k.op = 3 then k.count / max k.size 1 else k.count)) s) s
    forAll (c.t.stages.filter (fun st => isScatter st && (parseRowOpt (c.t.img.drop st.desc)).combine != 0)) (fun st s =>
      if !((ctxOf s j).any (fun c => canStart s c st.idx 0xFFFF)) then s else
      invStart { job := j, stage := st.idx, desc := (c.t.img.drop (parseRowOpt (c.t.img.drop st.desc)).combine).take 64 } [] s) s1

/-- Units of 64 elements of a streamed micro-batch with a poisoned row. -/
def streamBad (rows : List Row) : List Nat :=
  ((rows.flatMap (fun r => r.vals.map (fun _ => r.poison))).zipIdx.filter (fun p => p.1)).map (fun p => p.2 / 64) |>.eraseDups

/-- Start the EXCHANGE stages fed by a stream whose micro-batch has come in whole. -/
def startStreamed (j : Nat) (s : State) : State :=
  match ctxOf s j with
  | none => s
  | some c =>
    forAll (c.t.stages.filter (fun st => isExchange st && (parseColl (c.t.img.drop st.desc)).src = 0)) (fun st s =>
      forAll (List.range c.t.mb) (fun m s =>
        match ctxOf s j with
        | none => s
        | some c => match (c.t.fig? st).bind (fun f => c.t.in? st.idx f.port) with
          | none => s
          | some q =>
            let d := (c.t.img.drop st.desc).take 64
            if !c.active st.idx m || !canStart s c st.idx m then s
            else match c.sinkRows q m with
              | none => s
              | some rows => invStart { job := j, stage := st.idx, mb := m, desc := d, bad := streamBad rows } (rows.flatMap (fun r => r.vals))
                  (modRun j (fun r => { r with exchanged := (65536 + st.idx + 2048 * m) :: r.exchanged }) s)) s) s

/-- COLL_RUN commands accepted that have not started (R383). -/
def runsDue (s : State) : List Inv := s.w.reel.invs.filter (fun v => v.stage == 0xFFFF && !v.started && v.desc.length == 64)

/-- Units of 64 elements of a declaration with a poisoned element. -/
def declBad (s : State) (j h : Nat) : List Nat :=
  match s.decl j h with
  | none => []
  | some d =>
    if !readsBad s j h d.buf 0 d.imageBytes then []
    else (List.range ((d.nrows * d.rowLen + 63) / 64)).filter (fun u => (List.range 64).any (fun i =>
      let e := 64 * u + i
      let p := d.bitPos (e / max d.rowLen 1) (e % max d.rowLen 1)
      decide (e < d.nrows * d.rowLen) && readsBad s j h d.buf (p / 8) ((p % 8 + elemBits d.fmt + 7) / 8)))

/-- A COLL_RUN's invocation starts, with what has already come in for it. -/
def startRun (v : Inv) (s : State) : State :=
  let c := parseColl v.desc
  let x := (declCodes s v.job c.src).take (if c.op = 3 then c.count / max c.size 1 else c.count)
  replayEarly v.job v.serial (v.segs.map (fun e => e.2)) (invStart { job := v.job, serial := v.serial, desc := v.desc, bad := declBad s v.job c.src } x
    (s.onW (fun w => { w with reel := { w.reel with invs := w.reel.invs.filter (fun y => !sameInv y v) } })))

/-- What waits for the Reel engine starts, as far as there is room (R376): COLL_RUN commands, then the stages of the running step. -/
def startDue (s : State) : State :=
  let s1 := forAll (runsDue s) (fun v s => if reelRoom s then startRun v s else s) s
  match s1.w.holder with
  | none => s1
  | some j => match (s1.job j).run with
    | some r => if r.phase = .beats 2 then startExchanges j s1 else if r.phase = .run then startStreamed j s1 else s1
    | none => s1

/-- REEL_DATA_RECEIVE (R380). -/
def execReelDataReceive (job stage mb serial crc pass first units fmt : Nat) (comp : Bool) (rank : Nat) (data : Bytes) (s : State) : Res :=
  onWorld (fun s => startDue (reelReceive job stage mb serial crc pass first units fmt comp rank data s)) s

/-- COLL_RUN (R383): accepted, then its invocation starts or waits. -/
def collGo (h : Hdr) (addr : Nat) (s0 : State) : State :=
  let early (n : Nat) : List (Nat × Bytes) := match s0.w.reel.invs.find? (fun v => v.job == h.job && v.stage == 0xFFFF && v.serial == n && !v.started) with
    | some e => e.segs
    | none => []
  let s1 := runCollRun h addr s0
  match s1.w.inflight.find? (fun r => r.op = 0x0402 && r.hdr == h && !s0.w.inflight.contains r) with
  | none => s1
  | some r =>
    match pktRead s1 h.job addr 64 with
    | .ok bs => startDue (putInv { job := h.job, serial := r.a, desc := bs, segs := early r.a } s1)
    | _ => s1

/-- COLL_RUN (R383). -/
def execCollRun (h : Hdr) (addr : Nat) (s : State) : Res := onWorld (collGo h addr) s

/-- STREAM_ITEM (R129): an EXCHANGE stage fed by the stream starts with the last item of its micro-batch. -/
def execStreamItem (job strm mb idx flips side : Nat) (s : State) : Res :=
  onWorld (fabric (.streamItem job strm mb idx flips side) (fun s => startStreamed job (streamItem job strm mb idx flips side s))) s

end Sys2Proof.Machine
end

