-- ==== Sys2Proof/Machine/Steps.lean ====
section
/-! DEFINITION. The commands that run, abort and replay steps (R281, R282, R413), change modes (R176-R178, R180) and ask for a
huddle (R378, R431). -/

namespace Sys2Proof.Machine

open Sys2Proof

/-! ### STEP_RUN, LET_REPLAY -/

/-- The input list of a step: tensor, source, bytes (R281). -/
def inputList (bs : Bytes) (n : Nat) : List (Nat × Nat × Nat) := (List.range n).map (fun i => (fld bs (32 * i) 2, fld bs (32 * i + 8) 8, fld bs (32 * i + 16) 8))

/-- Commands of an opcode of a job not yet replied to. -/
def outstanding (s : State) (op j : Nat) : Nat := (s.w.inflight.filter (fun r => r.op = op && r.hdr.job = j)).length

/-- Another job holds the array (R184). -/
def heldByOther (s : State) (j : Nat) : Bool := match s.w.holder with | some k => k != j | none => false

/-- Forced conservative backward staged by the step flags (R281): 1 on, 2 off. -/
def stageForced (flags : Nat) (b : Job) : Job :=
  if bits flags 2 1 = 1 then { b with stForced := some true } else if bits flags 2 1 = 2 then { b with stForced := some false } else b

/-- STEP_RUN's own part (R281). -/
def stepRunOwn (cmd : Instr) (h : Hdr) (step list entries flags : Nat) (s : State) : Cmd :=
  let b := s.job h.job
  if (match b.nextStep with | some n => n != step | none => false) then badC s 16
  else if 2 ≤ outstanding s 0x0302 h.job then failC s 0x21
  else if 1024 < entries then badC s 40
  else if bits flags 2 1 = 3 then badC s 42
  else if heldByOther s h.job && b.pstate = 0 then failC s 0x30
  else if b.cur.isNone then badC s 8
  else withRead s h.job list (32 * entries) 32 (fun bs =>
    .later (s.modJob h.job (fun b => { stageForced flags b with nextStep := some (step + 1), waiting := b.waiting ++ [(cmd, inputList bs entries)] })) step 0)

def runStepRun (h : Hdr) (step seed list entries flags report : Nat) (s : State) : State :=
  let cmd : Instr := .stepRun h step seed list entries flags report
  startWaiting h.job (startCmd cmd 0x0302 h (stepRunOwn cmd h step list entries flags) s)

/-- STEP_RUN (R281). -/
def execStepRun (h : Hdr) (step seed list entries flags report : Nat) (s : State) : Res :=
  onWorld (runStepRun h step seed list entries flags report) s

/-- LET_REPLAY's own part (R413): the step is the next one, its entry is failed, nothing runs or waits. -/
def letReplayOwn (cmd : Instr) (h : Hdr) (step : Nat) (s : State) : Cmd :=
  let b := s.job h.job
  match b.entry? step with
  | none => badC s 16
  | some e =>
    if b.nextStep != some step || !e.failed then badC s 16
    else if b.run.isSome || !b.waiting.isEmpty then failC s 0x30
    else
      let go (l : List (Nat × Nat × Nat)) : Cmd := .later (s.modJob h.job (fun b => { b with nextStep := some (step + 1), waiting := [(cmd, l)] })) step 1
      if e.inputs.isEmpty && e.nInputs != 0 then withRead s h.job e.inputAddr (32 * e.nInputs) 16 (fun bs => go (inputList bs e.nInputs)) else go e.inputs

def runLetReplay (h : Hdr) (step : Nat) (s : State) : State :=
  startWaiting h.job (startCmd (.letReplay h step) 0x0602 h (letReplayOwn (.letReplay h step) h step) s)

/-- LET_REPLAY (R413). -/
def execLetReplay (h : Hdr) (step : Nat) (s : State) : Res := onWorld (runLetReplay h step) s

/-! ### STEP_ABORT -/

/-- The boundary that an abort drains to is reached (R171, R282). -/
def stepDrained (s : State) (j : Nat) : Bool :=
  match ctxOf s j with
  | some c => (match c.r.cut with
    | some x => c.atBoundary x
    | none => c.drained)
  | none => true

/-- An aborted step that stands at its micro-batch boundary asks for the huddle (R282). -/
def abortHuddle (j : Nat) (s : State) : State :=
  match (s.job j).run with
  | some r =>
    if r.abort && !r.aborted && r.phase == .run && stepDrained s j then
      (match hudOf s j with
       | some _ => hudAdvance j (modRun j (fun r => { r with aborted := true }) s)
       | none => ownHuddle j 4 r.step (modRun j (fun r => { r with aborted := true }) s))
    else s
  | none => s

/-- Mark the running step aborted where it stands (R282). -/
def abortRun (j : Nat) (s : State) : State :=
  match (s.job j).run with
  | none => s
  | some r => match r.phase with
    | .run => abortHuddle j (modRun j (fun r => { r with
        abort := true, cut := some r.admitted, parts_ := r.parts_.filter (fun x => decide (x < r.admitted)) ++ [r.admitted] }) s)
    | .beats _ => modRun j (fun r => { r with abort := true, aborted := true }) s
    | .barrier => barUpdate j (fun e => { e with failed := true }) (modRun j (fun r => { r with abort := true, aborted := true }) s)

def stepAbortOwn (h : Hdr) (s : State) : Cmd :=
  match (s.job h.job).run with
  | none => noteC s 1 (leBytes 8 0)
  | some r => .later s r.step 0

/-- A command was accepted: it is in flight, and waits for no page. -/
def accepted (s0 s1 : State) : Bool := s1.w.inflight.any (fun r => r.ord == s0.w.ordNext) && decide (s1.w.waits.length ≤ s0.w.waits.length)

def runStepAbort (h : Hdr) (s : State) : State :=
  let s1 := startCmd (.stepAbort h) 0x0303 h (stepAbortOwn h) s
  if accepted s s1 then abortRun h.job s1 else s1

/-- STEP_ABORT (R282). -/
def execStepAbort (h : Hdr) (s : State) : Res := onWorld (runStepAbort h) s

/-! ### Mode changes -/

/-- The mode that the staged settings describe (R176, R177). -/
def stagedAs (b : Job) (e : Nat) : Mode :=
  { epoch := e, set := b.staged, place := if b.staged.isSome then some b.stagedPlace else none, k := b.stK, chk := b.stChk, compress := b.stCompress, forced := b.stForced }

/-- The first step under the current epoch has been called good (R177, check 2; log 62). -/
def firstGood (b : Job) : Bool :=
  match b.epochFirst with
  | some f => (match b.lastGood with | some g => decide (f ≤ g) | none => false)
  | none => b.prev.isNone

/-- The job as a staged change of compression leaves it (R176). -/
def Job.compressed (b : Job) (l : List (Nat × Nat × Nat × Nat)) : Job :=
  { b with compress := l.foldl (fun l c => if c.2.1 = 0 then l.filter (fun e => e.1 != c.1) else l.filter (fun e => e.1 != c.1) ++ [c]) b.compress }
def withCompress (s : State) (j : Nat) (l : List (Nat × Nat × Nat × Nat)) : State := s.modJob j (fun b => b.compressed l)

/-- A staged set still has a placement, and the residual buffers of staged compression room (R177, check 4; R203, R372). -/
def stagedFits (s : State) (j : Nat) : Option (Option Place) :=
  let b := s.job j
  match b.staged, b.cur with
  | some t, _ => (placeJob (withCompress s j b.stCompress) j t 6).map (fun p => some p.1)
  | none, some t => if b.stCompress.isEmpty then some none else (placeJob (withCompress s j b.stCompress) j t 6).map (fun _ => none)
  | none, none => some none

/-- A feature that staged settings name and the module does not have (R177, check 3): the compensated pair of a set, compressed
exchange. -/
def uncapable (s : State) (b : Job) : Bool :=
  (match b.staged with | some t => namesPair t && !capable s 0x0011 | none => false) || (!b.stCompress.isEmpty && !capable s 0x0030)

/-- The prepared mode has been applied, and nothing new is staged: a repeat of its MODE_PREPARE (R180). -/
def preparedBefore (b : Job) (e : Nat) : Bool :=
  e = b.modeEpoch && e = b.lastPrepared && b.prev.isSome && b.stagedMode.isNone && b.staged.isNone && b.stK.isNone && b.stChk.isNone && b.stCompress.isEmpty && b.stForced.isNone

/-- The units that hold the settings a mode changes (R176); links are checked by their ports. -/
def modeUnits (m : Mode) : List Nat :=
  let arrays := [0x50, 0x51, 0x52, 0x53]
  (if m.set.isSome then [0x00, 0x04] ++ arrays ++ (List.range 12).map (fun i => 0x60 + i) ++ [0x05, 0x06] else []) ++
    (if m.k.isSome || m.chk.isSome then 0x05 :: arrays else []) ++ (if m.compress.isEmpty then [] else [0x06]) ++
    (if m.forced.isSome then [0x00, 0x04] else [])

/-- The links' part of check 4 of R177 and of beat 5 (R343): the first link of a port that the plan of a new set needs and that
is absent. -/
def absentLink (s : State) (m : Mode) : Option Nat :=
  match m.set with
  | none => none
  | some t => match t.plan with
    | none => none
    | some p =>
      let s1 := s.onW (fun w => { w with topo := { w.topo with jobPlan := some p } })
      ((portEnts s1).find? (fun e => portNeeded s1 e && linksUp s1 e = 0)).map (fun e => 0x30 + (bitList e.mask 24).headD 0)

/-- MODE_PREPARE's own part (R177, R180). -/
def modePrepareOwn (h : Hdr) (e : Nat) (s : State) : Cmd :=
  let b := s.job h.job
  let same := match b.stagedMode with | some m => m == stagedAs b e | none => false
  if same || preparedBefore b e then okC s (leBytes 4 e)
  else if !(decide (b.modeEpoch < e) && decide (e ≤ b.modeEpoch + 127) && decide (b.lastPrepared < e)) then badC s 16
  else if !firstGood b then failC s 0x30
  else if uncapable s b then failC s 0x12
  else if (modeUnits (stagedAs b e)).any (fun u => !s.unitOn u) || (absentLink s (stagedAs b e)).isSome then failC s 0x20
  else match stagedFits s h.job with
    | none => failC s 0x20
    | some pl =>
      let b1 := match pl with
        | some p => { b with stagedPlace := p }
        | none => b
      let s1 := abortMode h.job s
      okC (s1.setJob h.job { b1 with stagedMode := some (stagedAs b1 e), lastPrepared := e, commit := none }) (leBytes 4 e)

def runModePrepare (h : Hdr) (e : Nat) : State → State := startCmd (.modePrepare h e) 0x0304 h (modePrepareOwn h e)

/-- MODE_PREPARE (R177). -/
def execModePrepare (h : Hdr) (e : Nat) (s : State) : Res := onWorld (runModePrepare h e) s

/-- MODE_COMMIT's own part (R178, R180). -/
def modeCommitOwn (h : Hdr) (e step : Nat) (s : State) : Cmd :=
  let b := s.job h.job
  let staged := match b.stagedMode with
    | some m => m.epoch == e
    | none => false
  let ended := match b.lastCommit with
    | some (e', n, st, u) => if e' = e && n = step && !staged && (st != 0 || b.modeEpoch = e) then some (st, u) else none
    | none => none
  if ended.isSome then
    (match ended with
     | some (st, u) => .done s st 0 u (leBytes 4 b.modeEpoch)
     | none => badC s 16)
  else match b.stagedMode with
    | none => badC s 16
    | some m =>
      if m.epoch != e then badC s 16
      else if (match b.lastStarted with | some n => decide (step ≤ n) | none => false) then badC s 24
      else .later (s.setJob h.job { b with commit := some (match b.commit with
        | some n => min n step
        | none => step) }) e step

def runModeCommit (h : Hdr) (e step : Nat) : State → State := startCmd (.modeCommit h e step) 0x0305 h (modeCommitOwn h e step)

/-- MODE_COMMIT (R178). -/
def execModeCommit (h : Hdr) (e step : Nat) (s : State) : Res := onWorld (runModeCommit h e step) s

/-! ### HUDDLE -/

/-- HUDDLE's own part (R431): the reason is one of the table. -/
def huddleOwn (reason boundary : Nat) (s : State) : Cmd :=
  if !(decide (1 ≤ reason) && decide (reason ≤ 6)) then badC s 16
  else .later s reason boundary

def runHuddle (h : Hdr) (reason boundary : Nat) (s : State) : State :=
  let s1 := startCmd (.huddle h reason boundary) 0x0505 h (huddleOwn reason boundary) s
  if accepted s s1 then
    (match hudOf s1 h.job with
     | some _ => hudAdvance h.job s1
     | none => askHuddle h.job reason boundary s1)
  else s1

/-- HUDDLE (R378, R431). -/
def execHuddle (h : Hdr) (reason boundary : Nat) (s : State) : Res := onWorld (runHuddle h reason boundary) s

end Sys2Proof.Machine
end

