-- ==== Sys2Proof/Machine/Boundary.lean ====
section
/-! DEFINITION. The step boundary (R172): its beats 2 to 4, the dense and row updates (R123, R254-R257), the stage reports and
plausibility checks (R143, R391-R393), and the Caller's work at beat 4 (R192, R196-R199). -/

namespace Sys2Proof.Machine

open Sys2Proof

/-! ### Reaching boundary B -/

/-- A stage whose outputs a poisoned operand entered fails the step with POISONED (R481). -/
def poisonedStages (j : Nat) (c : Ctx) (s : State) : State :=
  match c.r.tiles.find? (fun x => x.poison), c.r.rows.find? (fun x => x.2.2.2.2.poison) with
  | none, none => s
  | a, b =>
    let o := poisonOrigin s j
    let e := match a with
      | some x => x.st
      | none => (match b with
        | some x => x.1
        | none => 0xFFFF)
    failStep j c.r.step { status := 0x50, detail := o.1 * 256, unit := o.2, stage := e % 0x8000 } [] (flt 0x1907 o.2 j c.r.step (poisonLoc s j) s)

/-- Cells of a placement whose store holds a word that reads poisoned: marked, or with two flipped bits or more (R479). -/
def badCells (c : Ctx) (s : State) : List Nat :=
  ((tkeys c.b.place.load).map (cellAt s)).filter (fun k => (s.cell k).poisoned || (s.cell k).flips.any (fun e => decide (2 ≤ popCount e.2 72)))

/-- An armed flip-next-write or split write on a word of a cell's store fires with a write of the step to that word (R495). Which
words a step writes lies with the Caller's layout of the store, which the spec leaves to it: a free value decides (log 177). -/
def fireCell (c : Ctx) (s : State) : State :=
  let e := s.w.err
  if e.state = 1 && e.target = 1 && ((tkeys c.b.place.load).map (cellAt s)).contains (144 * e.die + e.c) then
    let x := s.draw
    if bit x.1 0 then flipCell (if e.mode = 3 then e.check % 256 * 2 ^ 64 else e.mask % 2 ^ 72) (fired x.2) else x.2
  else s

/-- A figure that an uncorrectable word of the figure store struck: the step completes with UNCORRECTABLE (R479). -/
def figureFaults (j : Nat) (c : Ctx) (s : State) : State :=
  match ((tkeys c.b.place.load).map (cellAt s)).find? (fun k => (s.cell k).figBad) with
  | some k => failStep j c.r.step { status := 0x51, unit := 0x50 + k / 144 } [] s
  | none => s

/-- At beat 4 every struck figure is rewritten from the set image (R479). -/
def rewriteFigures (s : State) : State := forAll (tkeys s.w.cells) (fun k s => if (s.cell k).figBad then s.modCell k (fun y => { y with figBad := false }) else s) s

/-- Poison in the stores of the step's cells (R116, R163, R480): whether a poisoned word lay in part stacks, retained items, weight
shares or operands of the step is open, and a free value decides for each cell (log 177). At the boundary the stores are filled
anew. -/
def storePoison (j : Nat) (c : Ctx) (s : State) : State :=
  forAll (badCells c s) (fun k s =>
    let x := s.draw
    let s1 := x.2.modCell k (fun y => { y with poisoned := false, flips := [] })
    if bit x.1 0 then failStep j c.r.step { status := 0x50, detail := 4 * 256, unit := 0x50 + k / 144 } [k] (flt 0x1907 (0x50 + k / 144) j c.r.step (locCell k) s1) else s1) s

/-- The dY and dX items of a step in conservative backward, which tier 1 keeps until the step is called good (R159). -/
def backItems (t : SetImg) (r : StepRun) : List Item :=
  r.items.filter (fun x => match t.streams[x.strm]? with
    | some q => decide (0x8000 ≤ q.dst) && q.dst != 0xFFFF && q.dstPort = 0 || decide (0x8000 ≤ q.src) && q.src != 0xFFFF && q.srcPort = 0
    | none => false)

/-- The step leaves its visits: what its stores held is gone; conservative backward keeps dY and dX (R158, R159). -/
def leaveVisits (j : Nat) (c : Ctx) (s : State) : State :=
  (modRun j (fun r => { r with phase := .beats 2, items := [], rows := [], parts := [], pushed := [] }) s).modJob j (fun b =>
    if c.r.conservative then { b with consKept := b.consKept.filter (fun e => e.1 != c.r.step) ++ [(c.r.step, backItems c.t c.r)] } else b)

/-- Micro-batch boundary B is reached: beat 2 starts (R171, R172). An aborted step that has drained asks for its huddle
(R282). -/
def stepBoundary (j : Nat) (s : State) : State :=
  match ctxOf s j with
  | none => s
  | some c =>
    if c.r.phase != .run then s
    else if c.r.abort then abortHuddle j s
    else if c.finished then
      let idle (s : State) : State := if c.t.stages.any isScatter then s else settleEngines j true s
      startExchanges j <| idle (leaveVisits j c (figureFaults j c (storePoison j c (fireCell c (poisonedStages j c s)))))
    else s

/-- STEP_BOUNDARY (R172). -/
def execStepBoundary (job : Nat) (s : State) : Res := onWorld (fabric (.stepBoundary job) (stepBoundary job)) s

/-! ### UPDATE stages (R123, R131, R409) -/

/-- The job's good step has reached the step before `n`, or there is none (R409, R425). -/
def prevGood (b : Job) (n : Nat) : Bool := decide (n ≤ b.jobGood + 1) || (b.lastGood.isNone && b.jrn.all (fun e => decide (n ≤ e.step)))

/-- FP32 code of element `i` of a tensor, flat (R301). -/
def Ctx.elem (c : Ctx) (id i : Nat) : Nat :=
  match c.decl id with
  | none => 0
  | some (h, d) =>
    let r := i / max d.rowLen 1
    let k := i % max d.rowLen 1
    toFp32 d.fmt (d.scale (c.rd h d) r k) (d.code (c.rd h d) r k)

/-- Put a converted row into a byte image: bytes by offset. -/
def rowBytesAt (c : Ctx) (h : Nat) (d : Decl) (row : Nat) (x : Row) : List (Nat × Bytes) := d.rowImage (c.rd h d) row x.vals x.scales

/-- What an UPDATE stage's ops write for row `i`, read from the step's own tensors (log 65). -/
def Ctx.updEnv (c : Ctx) (st : Stage) (f : Fig) (len i : Nat) : List (Nat × List Nat × Bool × Bool) :=
  let n := min len (st.upCount - i * len)
  let es (id : Nat) : List Nat := (List.range n).map (fun k => c.elem id (i * len + k))
  let ins := [(0, es st.upParam), (1, es st.upGrad)] ++ (st.upStates.zipIdx.filter (fun p => p.1 != 0)).map (fun p => (p.2 + 2, es p.1))
  (runFigure f { ports := ins, aux := [], steps := c.r.sc, len := n }).outs

/-- An element that an UPDATE stage reads is poisoned (R481). -/
def Ctx.updBad (c : Ctx) (st : Stage) (f : Fig) : Bool :=
  ([st.upParam, st.upGrad] ++ st.upStates.filter (fun x => x != 0)).any (fun id => match c.decl id with
    | some (h, d) => readsBad c.s c.j h d.buf 0 d.imageBytes && (List.range st.upCount).any (fun i => c.badElem h d (i / max d.rowLen 1) (i % max d.rowLen 1))
    | none => false) ||
    (f.ops.any (fun o => (opSources o).any (fun x => decide (56 ≤ x))) && c.constBad)

/-- The tensor of an UPDATE stage's output port (log 65). -/
def updId (st : Stage) (port : Nat) : Nat := if port = 0 then st.upParam else st.upStates.getD (port - 1) 0

/-- A row of one OUT in its tensor's format (R77, R80, R81); an MX tensor with blocks across rows takes the block's rows together.
A row scalar is spread over the row. R81 names no purpose for the OUT of an UPDATE stage of dense parameters: 1, an optimizer
write (DESIGN CHOICE, log 171). -/
def Ctx.updConv (c : Ctx) (id i len n : Nat) (d : Decl) (envs : List (List (Nat × List Nat × Bool × Bool))) (o : Nat × List Nat × Bool × Bool) : Row × Counts :=
  let spread (k : Nat) (xs : List Nat) : List Nat := if xs.length < min len (n - k * len) then List.replicate (min len (n - k * len)) (xs.headD 0) else xs
  if isMx d.fmt && d.kAxis = 1 then
    ((convCols d.fmt ((((envs.zipIdx).drop (i / 32 * 32)).take 32).map (fun e => spread e.2 (lookupD [] o.1 (e.1.map (fun p => (p.1, p.2.1)))))))[i % 32]?).getD ({}, {})
  else convRow d.fmt o.2.2.1 o.2.2.2 { seed := c.r.seed, step := c.r.step, tensor := id, purpose := 1, first := i * len } (spread i o.2.1)

/-- The cell that forms a row of a stage divided by rows. -/
def Ctx.rowCell (c : Ctx) (st i : Nat) : Nat :=
  match c.division st with
  | some x => (match x.at_.find? (fun y => decide (y.2.1 ≤ i) && decide (i < y.2.1 + y.2.2)) with
    | some y => cellAt c.s y.1
    | none => 0)
  | none => 0

/-- Write row `i` of an UPDATE stage: new parameters to the other buffer, states in place (log 65). R214 names no class for these
accesses: NORMAL (log 178). -/
def updateRow (j : Nat) (c : Ctx) (st : Stage) (len : Nat) (envs : List (List (Nat × List Nat × Bool × Bool))) (i : Nat) (s : State) : State :=
  forAll (envs.getD i []) (fun o s =>
    let id := updId st o.1
    match c.decl id with
    | none => s
    | some (h, d) =>
      let cr := c.updConv id i len st.upCount d envs o
      let stat := statOf (rowFp32 d.fmt cr.1)
      let t : TileOut := { res := [], codes := cr.1.vals, cnt := cr.2, amax := stat.1, ss := stat.2, poison := false }
      let sr := srFmt d.fmt && o.2.2.1
      let cell := c.rowCell st.idx i
      let s1 := modRun j (fun r => addRep st.idx t false (if sr then countSr cell cr.1.vals.length r else r)) s
      if o.1 = 0 then
        forAll (rowBytesAt c h d i cr.1) (fun p s => mirrorSend j 1 0 id 1 p.1 c.r.step 0 p.2 
          (touch 0 true j h (if d.dbl then 1 - d.buf else 0) p.1 p.2.length (jobPut j h (if d.dbl then 1 - d.buf else 0) p.1 p.2 s))) s1
      else (rowBytesAt c h d i cr.1).foldl (fun s p => touch 0 true j h d.buf p.1 p.2.length s) (overRow j h d i cr.1.vals cr.1.scales c s1)) s

/-- The sampled tiles of an UPDATE stage (R394): 16 rows by 256 elements of each output, as converted bits, numbered port by port. -/
def updSamples (j : Nat) (c : Ctx) (st : Stage) (len : Nat) (envs : List (List (Nat × List Nat × Bool × Bool))) (s : State) : State :=
  let ports := (envs.headD []).zipIdx
  let cb := (len + 255) / 256
  let per := ((envs.length + 15) / 16) * cb
  let codes (o : Nat) (t : Nat) : List Nat := (List.range 16).flatMap (fun i =>
    let r := 16 * (t / cb) + i
    match (envs.getD r [])[o]? with
    | none => []
    | some x => match c.decl (updId st x.1) with
      | none => []
      | some (_, d) => ((c.updConv (updId st x.1) r len st.upCount d envs x).1.vals.drop (256 * (t % cb))).take 256)
  forAll (ports.flatMap (fun p => (List.range per).map (fun t => (p.2, t)))) (fun x s =>
    let tile := x.1 * per + x.2
    let cell := c.rowCell st.idx (16 * (x.2 / cb))
    if c.sampledAt st.idx tile cell then
      let res := codes x.1 x.2
      takeSample j { step := c.r.step, st := st.idx, tile := tile, work := cell, res := res, truth := res } s
    else s) s

/-- The return copy of a trained weight's new parameters, into the copy's other buffer (R152). -/
def copyAfter (j id : Nat) (d : Decl) (s : State) : State :=
  match (s.job j).cur with
  | some t => if (copiesOf t).any (fun x => x.1 == id) then formCopy j t id (if d.dbl then 1 - d.buf else d.buf) s else s
  | none => s

/-- UPDATE stage `st` runs (R123): gradients complete, step n - 1 good (R409). -/
def updateStage (j st : Nat) (s : State) : State :=
  match ctxOf s j with
  | none => s
  | some c => match c.t.stage? st with
    | none => s
    | some g => match c.t.fig? g, c.decl g.upParam with
      | some f, some (h, d) =>
        let feeds := c.t.stages.filter isExchange
        let ready := c.r.phase == .beats 2 && isUpdate g && !c.r.updated.contains st && (prevGood c.b c.r.step || c.r.fail.isSome) && feeds.all (fun x => c.r.exchanged.contains x.idx)
        if ready && c.r.fail.isNone && c.updBad g f then
          let o := poisonOrigin s j
          modRun j (fun r => { r with updated := r.updated ++ [st] })
            (failStep j c.r.step { status := 0x50, detail := o.1 * 256, unit := o.2, stage := st } [] (flt 0x1907 o.2 j c.r.step (poisonLoc s j) s))
        else if !ready || c.r.fail.isSome then (if ready then modRun j (fun r => { r with updated := r.updated ++ [st] }) s else s)
        else
          let len := max d.rowLen 1
          let envs := (List.range ((g.upCount + len - 1) / len)).map (c.updEnv g f len)
          let reads := g.upParam :: g.upGrad :: g.upStates.filter (fun x => x != 0)
          let s := forAll reads (fun id s => match c.decl id with | some (h, d) => readDev 0 j h 0 d.imageBytes s | none => s) s
          let s0 := unitsFail j st (reads.flatMap c.tensOff).eraseDups s
          let s1 := updSamples j c g len envs (copyAfter j g.upParam d (forAll (List.range envs.length) (updateRow j c g len envs) s0))
          let s2 := modRun j (fun r => { r with updated := r.updated ++ [st] }) s1
          if d.dbl then s2.modJob j (fun b => b.modEntry c.r.step (fun e => { e with flip := (e.flip ++ [h]).eraseDups })) else s2
      | _, _ => s

/-- UPDATE_STAGE_START (R409). -/
def execUpdateStageStart (job st : Nat) (s : State) : Res := onWorld (fabric (.updateStageStart job st) (updateStage job st)) s

/-! ### Row updates (R254-R257) -/

/-- Space for undo entries: the reserve of the SCATTER stages in tier 2, and free tier-3 space beyond it (R257). -/
def undoRoom (s : State) (t : SetImg) : Nat :=
  sumNat ((t.stages.filter isScatter).map (fun x => fld (t.img.drop x.desc) 36 2 * gib)) +
  (sumNat (s.w.cxl.map (fun e => e.2.mapped)) * gib - ((if s.w.mr.resv then 512 * gib else 0) + sumNat ((tkeys s.w.jobs).map (fun j => tierBytes s j 3))))

/-- Release the oldest steps' entries while the space is short, down to the two newest (R257). -/
def releaseUndo (need room : Nat) : Nat → Nat → State → State
  | 0, _, s => s
  | n + 1, j, s =>
    let b := s.job j
    let steps := sortNat ((b.undo.map (fun u => u.step)).eraseDups)
    if undoUsed b + need ≤ room || steps.length ≤ 2 then s
    else match steps with
      | [] => s
      | k :: _ =>
        let s1 := flt0 0x1703 0x60 j k (s.modJob j (fun b => { b with undo := b.undo.filter (fun u => u.step != k) }))
        let s2 := if (b.jrn.any (fun e => e.step == k && e.good)) then event 0x0007 0x05 j k 0 (s1.modJob j (fun b => { b with jrn := b.jrn.filter (fun e => e.step != k) })) else s1
        releaseUndo need room n j s2

/-- Send a written row to the partner: the whole block the first time, then rows (R423). -/
def mirrorRow (j table h row step : Nat) (d : Decl) (s : State) : State :=
  let k := blockOf d row
  let mr := s.w.mr
  if !mr.cutKnown then s
  else
    let key := mirKey j table
    let seen := mr.sent.any (fun e => e.1 == key && e.2.1 == k)
    let s1 := s.onW (fun w => { w with mr := { w.mr with sent := (key, k, step) :: w.mr.sent.filter (fun e => !(e.1 == key && e.2.1 == k)) } })
    if seen then mirrorSend j 2 0 table 1 row step 0 (tableRow s1 j h d row) s1
    else mirrorSend j 3 0 table 1 k step 0 (devRead s1 j h 0 (k * rowsPerBlock d * rowBytes d) 65536) s1

/-- Update one touched row: undo entry, new image, mirror (R254-R256). -/
def updateOne (j : Nat) (c : Ctx) (a : Acc) (s : State) : State :=
  match c.t.stage? a.stage, c.decl a.table with
  | some st, some (h, d) =>
    let s := readDev 1 j h (a.row * rowBytes d) (rowBytes d) (unitsFail j a.stage (tableOff s j h d [c.accEngine s a] [a.row]) s)
    let o := parseRowOpt (c.t.img.drop st.desc)
    let off := a.row * rowBytes d
    if a.flagged then modRun j (fun r => { r with reports := tmod {} r.reports a.stage (fun p => { p with nans := satAdd 32 p.nans d.rowLen }) }) s
    else if readsBad s j h 0 off (rowBytes d) || c.constBad then
      failStep j c.r.step { status := 0x50, detail := (tierOf c.b a.table (blockOf d a.row)) * 256, unit := 0x60 + a.row % 12, stage := a.stage } []
        (flt 0x1907 (0x60 + a.row % 12) j c.r.step { handle := h, off := off } s)
    else
      let old := tableRow s j h d a.row
      let new := newRow o (c.r.sc.getD o.lr 0) c.r.seed c.r.step a.table d a old
      let s1 := s.modJob j (fun b => { b with undo := b.undo ++ [{ step := c.r.step, table := a.table, handle := h, row := a.row, image := old }] })
      mirrorRow j a.table h a.row c.r.step d (jobPut j h 0 off new s1)
  | _, _ => s

/-- Rows of the accumulators that are written and their engines. -/
def liveAccs (s : State) (j : Nat) (c : Ctx) : List (Nat × Acc) :=
  (s.job j).accs.map (fun a => (c.accEngine s a, a))

/-- Clear the scatter buffers of a job and settle the engines' counters (R255, R260). -/
def clearAccs (j : Nat) (rows : List Nat) (s : State) : State :=
  let s1 := settleEngines j true (s.modJob j (fun b => { b with accs := [] }))
  forAll (List.range 12) (fun i s => s.modEngine i (fun x => { x with rows := min (rows.getD i 0) (2 ^ 32 - 1) })) s1

/-- The row optimizers run (R254); an access to a home that is held waits (R227). -/
def rowUpdates (j : Nat) (s : State) : State :=
  match ctxOf s j with
  | none => s
  | some c =>
    let scs := c.t.stages.filter isScatter
    let combined := scs.all (fun x => fld (c.t.img.drop x.desc) 28 4 = 0 || c.r.exchanged.contains x.idx)
    let held := c.r.fail.isNone && (s.job j).accs.any (fun a => match c.decl a.table with | some (h, d) => !rowsFree s j h d [a.row] | none => false)
    if c.r.phase != .beats 2 || c.r.rowsDone || scs.isEmpty || !combined || held then s
    else if c.r.fail.isSome && !(c.r.abort) then clearAccs j [] (modRun j (fun r => { r with rowsDone := true }) s)
    else
      let accs := liveAccs s j c
      let need := sumNat (accs.map (fun p => match c.decl p.2.table with | some (_, d) => if p.2.flagged then 0 else 16 + rowBytes d | none => 0))
      let room := undoRoom s c.t
      let s1 := releaseUndo need room 16 j s
      let done := modRun j (fun r => { r with rowsDone := true })
      if room < undoUsed (s1.job j) + need then
        clearAccs j [] (done (failStep j c.r.step { status := 0x20 } [] (flt0 0x1705 0x60 j c.r.step s1)))
      else
        let s2 := forAll accs (fun p s => updateOne j c p.2 s) s1
        let rows := (List.range 12).map (fun i => (accs.filter (fun p => p.1 = i && !p.2.flagged)).length)
        let used := undoUsed (s2.job j)
        let s3 := (List.range 12).foldl (fun s i => if max room 1 * tget 75 s.cfg.seWarn i < used * 100 && undoUsed c.b * 100 ≤ max room 1 * tget 75 s.cfg.seWarn i
            then flt0 0x1702 (0x60 + i) j c.r.step s else s) s2
        clearAccs j rows (done s3)

/-- ROW_OPTIMIZER_UPDATE (R254). -/
def execRowOptimizerUpdate (job : Nat) (s : State) : Res := onWorld (fabric (.rowOptimizerUpdate job) (rowUpdates job)) s

/-! ### Beat 3: reports, plausibility, visible writes -/

/-- Integer square root, bit by bit. -/
def isqrtGo (n : Nat) : Nat → Nat → Nat
  | 0, r => r
  | k + 1, r => let t := r + 2 ^ k; isqrtGo n k (if t * t ≤ n then t else r)
/-- Norm of a stage in units of 2^-181: the square root of a sum of squares in units of 2^-298, with 32 more bits. -/
def normOf (ss : Nat) : Nat := isqrtGo (ss * 2 ^ 64) 360 0

/-- Stage ends that are reported: every stage, then the return stages (R143). -/
def reportedEnds (t : SetImg) : List Nat :=
  t.stages.map (fun x => x.idx) ++ (t.stages.filter (fun x => isProduct x && x.grad && t.train)).map (fun x => x.idx + 0x8000)

/-- An FP32 bound as a fraction: numerator and denominator. -/
def fracOf (x : Nat) : Nat × Nat := match dec32 x with
  | .fin _ m e => if 0 ≤ e then (m * 2 ^ e.toNat, 1) else (m, 2 ^ (-e).toNat)
  | _ => (0, 1)

/-- The check record of a stage end (R121, R390). -/
def chkOf (c : Ctx) (e : Nat) : Chk :=
  let tab := if !c.b.chk.isEmpty then c.b.chk else if c.t.chkOff = 0 then [] else c.t.img.drop c.t.chkOff
  match c.t.stage? (e % 0x8000) with | some st => chkFor tab st.chk | none => {}

/-- Plausibility of a stage end: 0 passes, else the cause of R411. -/
def plausCause (c : Ctx) (e : Nat) : Nat :=
  let k := chkOf c e
  let p := tget {} c.r.reports e
  let win := ((c.b.norms.find? (fun x => x.1 == e)).map (fun x => x.2)).getD []
  let ws := win.take k.window
  let sum := sumNat ws
  let n := normOf p.ss
  let lo := fracOf k.normLo
  let hi := fracOf k.normHi
  if (bit k.flags 0 && 0 < p.nans) || (bit k.flags 1 && 0 < p.infs) then 1
  else if bit k.flags 2 && k.absBound < p.amax then 2
  else if bit k.flags 3 && k.warmup < c.b.setSteps && ws.length = k.window && 0 < sum &&
    (n * k.window * lo.2 < lo.1 * sum || hi.1 * sum < n * k.window * hi.2) then 3
  else 0

/-- The row length of a tensor's declaration, as `lenOf` gives it. -/
def Ctx.len (c : Ctx) : Nat → Nat := lenOf c.s c.j c.t

/-- Busy cycles of a stage end in a step, all its cells together (R141, R143); an UPDATE stage works once per step. -/
def endWork (c : Ctx) (e : Nat) : Nat :=
  match c.t.stage? (e % 0x8000), c.division e with
  | some st, some d => (if isUpdate st then 1 else c.t.mb) * sumNat ((d.work c.t c.len).map (fun x => if 0x8000 ≤ e then x.2.2 else x.2.1))
  | _, _ => 0

/-- A stage report record (R143); the wait cycles are free values (log 66). -/
def reportRec (c : Ctx) (e w1 w2 : Nat) : Bytes :=
  let p := tget {} c.r.reports e
  let cells := match c.division e with | some d => d.at_.length | none => 0
  layout [(2, e), (1, min cells 255), (1, b2n p.redone), (4, p.nans), (4, p.infs), (4, p.sats), (4, min (endWork c e / 1024) (2 ^ 32 - 1)), (4, w1), (4, w2), (4, 0)]

/-- The first fault that writing the report area of the running step would meet: kind, page, DVA. -/
def reportMiss (j : Nat) (c : Ctx) (s : State) : Option (Nat × Nat × Nat) :=
  if c.r.report = 0 then none else (jobWrite s j c.r.report (zeros (32 * (reportedEnds c.t).length))).1

/-- The report area cannot be reached (R314): the step ends with FAULT_PARKED, detail 48, and is rolled back (log 80). -/
def reportLost (j : Nat) (c : Ctx) (kind a : Nat) (s : State) : State :=
  modRun j (fun r => { r with report := 0 }) (failStep j c.r.step { status := 0x40, detail := 48, unit := 0x02 } []
    (flt 0x1802 0x03 j c.r.step (locDma 0xFF kind a) s))

/-- Write the stage reports into the report area. -/
def writeReports (j : Nat) (c : Ctx) (s : State) : State :=
  let r := (reportedEnds c.t).foldl (fun (acc : Bytes × State) e =>
    let a := acc.2.draw
    let b := a.2.draw
    (acc.1 ++ reportRec c e a.1 b.1, b.2)) ([], s)
  if c.r.report = 0 then r.2
  else match jobWrite r.2 j c.r.report r.1 with
    | (none, s1) => s1
    | (some (k, _, a), s1) => reportLost j c k a (notePark 0xFF j k a s1)

/-- Plausibility of every stage end (R391, R393); a failure that a replay repeats carries the reproduced bit (R411). -/
def plausAll (j : Nat) (c : Ctx) (s : State) : State :=
  let s1 := forAll (reportedEnds c.t) (fun e s =>
    let cause := plausCause c e
    if cause = 0 then s
    else
      let s1 := flt 0x2506 0x05 j c.r.step (locCause cause 0x05) s
      if bit (chkOf c e).flags 4 then s1
      else
        let again := match c.b.entry? c.r.step with
          | some x => c.r.replay && x.fail.status = 0x52 && x.fail.stage = e % 0x8000 && x.fail.detail / 256 % 256 = cause
          | none => false
        let f := checkFail cause (e % 0x8000)
        (failStep j c.r.step { f with detail := f.detail + 2 ^ 24 * b2n again } [] s1).modJob j (fun b => b.modEntry c.r.step (fun x => { x with plaus := false }))) s
  s1.modJob j (fun b => b.modEntry c.r.step (fun x => { x with norms := (reportedEnds c.t).map (fun e => (e, normOf (tget {} c.r.reports e).ss)) }))

/-- The granules of mirrored role 6 tensors that the step has written go to the partner (R422). -/
def mirrorState (j : Nat) (c : Ctx) (s : State) : State :=
  forAll (c.t.shardTens.filter (fun r => r.role = 6)) (fun r s => match s.decl j r.handle with
    | none => s
    | some d =>
      let k := devKey j r.handle d.buf 0
      let gs := ((c.r.laid.filter (fun e => decide (k ≤ e.1) && decide (e.1 < k + d.imageBytes))).map (fun e => (e.1 - k) / 4096)).eraseDups
      forAll gs (fun g s => mirrorSend j 1 0 r.id 1 (4096 * g) c.r.step 0 (devRead s j r.handle d.buf (4096 * g) (min 4096 (d.imageBytes - 4096 * g))) s) s) s

/-- Role 4 and role 6 writes become visible (R131); what they replace is kept for a rollback (log 64). -/
def flushOver (j : Nat) (c : Ctx) (s : State) : State :=
  let saved := c.r.laid.map (fun e => (e.1, (mget s.w.dev e.1).toNat))
  let s1 := s.modJob j (fun b => b.modEntry c.r.step (fun x => { x with saved := saved }))
  let s2 := forAll c.r.laid (fun e s => keyPut e.1 e.2 s) s1
  modRun j (fun r => { r with laid := [] }) (mirrorState j c s2)

/-- Counts of stochastically rounded outputs of the last step, for every cell (R97). -/
def settleSr (c : Ctx) (s : State) : State :=
  forAll (List.range 576) (fun k s => s.modCell k (fun x => { x with srCount := min 255 (tget 0 c.r.srs k / 1048576) })) s

def beat3 (j : Nat) (c : Ctx) (s : State) : State := flushOver j c (plausAll j c (writeReports j c (settleSr c s)))

/-! ### Beat 4: scores, migration, re-placement -/

/-- Scores halve and take the step's counts of every controller (R196). -/
def updateScores (b : Job) : Job :=
  let keys := ((b.scores.map (fun e => (e.1, e.2.1))) ++ (b.counts.map (fun e => (e.2.1, e.2.2.1)))).eraseDups
  { b with counts := [], scores := (keys.map (fun k =>
      let n := sumNat ((b.counts.filter (fun e => e.2.1 == k.1 && e.2.2.1 == k.2)).map (fun e => e.2.2.2))
      (k.1, k.2, min (scoreOf b k.1 k.2 / 2 + n) (2 ^ 32 - 1)))).filter (fun e => e.2.2 != 0) }

def setCode (b : Job) (k : Nat × Nat) (t : Nat) : Job :=
  { b with tiers := (b.tiers.filter (fun e => !(e.1 == k.1 && e.2.1 == k.2))) ++ (if t = 2 then [] else [(k.1, k.2, t)]) }

/-- A planned move (R197): the block promoted and the tier it goes to, the block displaced, and the difference of their scores. -/
structure Move where
  up : Option (Nat × Nat)
  down : Option (Nat × Nat)
  gain : Int

/-- Promotions into a tier with the blocks they displace (R197): the best block displaces the worst; a promotion below 9/8 of what
it displaces, or with nothing to displace, needs free room. -/
def tierMoves (b : Job) (target : Nat × Nat → Nat) (blocks : List (Nat × Nat)) (free hi : Nat) : List Move :=
  let here (k : Nat × Nat) : Nat := tierOf b k.1 k.2
  let score (k : Nat × Nat) : Nat := scoreOf b k.1 k.2
  let ups := blocks.filter (fun k => min 3 (target k) = hi && hi < here k)
  let downs := (blocks.filter (fun k => here k = hi && hi < min 3 (target k))).reverse
  let r := ups.zipIdx.foldl (fun (acc : List Move × Nat) p =>
    match downs[p.2]? with
    | some d =>
      if 9 * score d ≤ 8 * score p.1 then (acc.1 ++ [⟨some p.1, some d, (score p.1 : Int) - score d⟩], acc.2)
      else if 0 < acc.2 then (acc.1 ++ [⟨some p.1, none, score p.1⟩], acc.2 - 1) else acc
    | none => if 0 < acc.2 then (acc.1 ++ [⟨some p.1, none, score p.1⟩], acc.2 - 1) else acc) ([], free)
  r.1 ++ (downs.drop ups.length).map (fun d => ⟨none, some d, - (score d : Int)⟩)

/-- What migration has done: the job, bytes moved over each path, paths closed, blocks moved and left. -/
structure Moved where
  b : Job
  bytesA : Nat := 0
  bytesB : Nat := 0
  stopA : Bool := false
  stopB : Bool := false
  done : Nat := 0
  left : Nat := 0

/-- Bytes a block's move puts on the two paths (R198): tier 1 ↔ tier 2, and the CXL port. -/
def pathBytes (a z : Nat) : Nat × Nat := if a = z then (0, 0) else if a = 3 || z = 3 then (0, 65536) else (65536, 0)

/-- Issue one move: within what its paths have left, and within the room of the tiers. A path is closed by the first move that would
pass its budget (R198). -/
def issueMove (ns : Nat) (room : List Nat) (blocks : List (Nat × Nat)) (target : Nat × Nat → Nat) (m : Moved) (x : Move) : Moved :=
  let ks := x.up.toList ++ x.down.toList
  let cost := ks.map (fun k => pathBytes (tierOf m.b k.1 k.2) (min 3 (target k)))
  let a := sumNat (cost.map (fun p => p.1))
  let z := sumNat (cost.map (fun p => p.2))
  let b1 := ks.foldl (fun b k => setCode b k (target k)) m.b
  let fits := (List.range 3).all (fun k => decide ((blocks.filter (fun y => tierOf b1 y.1 y.2 = k + 1)).length ≤ room.getD k 0) ||
    decide ((blocks.filter (fun y => tierOf b1 y.1 y.2 = k + 1)).length ≤ (blocks.filter (fun y => tierOf m.b y.1 y.2 = k + 1)).length))
  let overA := 0 < a && (m.stopA || ns * 1200 < m.bytesA + a)
  let overB := 0 < z && (m.stopB || ns * 180 < m.bytesB + z)
  if overA || overB || !fits then { m with stopA := m.stopA || overA, stopB := m.stopB || overB, left := m.left + ks.length }
  else { m with b := b1, bytesA := m.bytesA + a, bytesB := m.bytesB + z, done := m.done + ks.length }

/-- Migration budget of a boundary in ns (R198). -/
def budgetNs (s : State) (j : Nat) (t : SetImg) : Nat :=
  let b := s.job j
  let tenths := if b.pset.migBudget != 0xFFFF then b.pset.migBudget else if t.migBudget = 0 then 50 else t.migBudget
  let dur := if b.setSteps ≤ 1 then 1000 * tPipe t.mb b.place.p b.place.v b.place.w (medianRate s * b.place.heavy / 100) else b.lastDur
  dur * tenths / 1000

/-- Replicas that R200 gives: the blocks of the top 1/64 of each table by score, copies per block. -/
def replicaPlan (b : Job) (tabs : List (Nat × Decl)) : List (Nat × Nat × Nat) :=
  if b.pset.freeze then [] else tabs.flatMap (fun x => if x.2.reps ≤ 1 then []
    else (((rankBlocks b [x]).filter (fun k => 0 < scoreOf b k.1 k.2)).take (tableBlocks x.2 / 64)).map (fun k => (k.1, k.2, x.2.reps)))

/-- Copies beyond the first that replicas in force hold of a block. -/
def copiesIn (l : List (Nat × Nat × Nat)) (k : Nat × Nat) : Nat := match l.find? (fun e => e.1 == k.1 && e.2.1 == k.2) with | some e => e.2.2 - 1 | none => 0

/-- Form and drop replicas with what tier 1's path has left (R200), best blocks first. -/
def issueReplicas (ns : Nat) (plan : List (Nat × Nat × Nat)) (m : Moved) : Moved :=
  let old := m.b.replicas
  plan.foldl (fun m e =>
    let new := (e.2.2 - 1 - copiesIn old (e.1, e.2.1)) * 65536
    if m.stopA || ns * 1200 < m.bytesA + new then
      { m with stopA := true, b := { m.b with replicas := m.b.replicas ++ old.filter (fun x => x.1 == e.1 && x.2.1 == e.2.1) } }
    else { m with bytesA := m.bytesA + new, b := { m.b with replicas := m.b.replicas ++ [e] } }) { m with b := { m.b with replicas := [] } }

/-- Blocks of tables that take part in migration, and the room of each tier for them: what the dense items, the replicas and the
tables that take no part leave (R195, R197). -/
def migRoom (s : State) (j : Nat) (t : SetImg) (tabs : List (Nat × Decl)) : List Nat :=
  let b := s.job j
  let still := (setTables' s j t).filter (fun x => x.2.noMigrate)
  (List.range 3).map (fun k =>
    (b.place.caps.getD k 0 - sumNat ((b.place.homes.filter (fun x => x.tier = k + 1)).map (fun x => x.bytes))) / 65536 -
      (rankBlocks b still |>.filter (fun x => tierOf b x.1 x.2 = k + 1)).length - (if k = 0 then replicaBlocks b tabs else 0))

/-- Migrate row blocks within what the mandatory work and a rebalance leave of the budget (R197, R198). -/
def migrate (j : Nat) (t : SetImg) (spent : Nat) (s : State) : State :=
  let b := s.job j
  let tabs := (setTables' s j t).filter (fun x => !x.2.noMigrate)
  let all := budgetNs s j t
  let left := all - spent
  if b.pset.freeze || tabs.isEmpty then s.modJob j (fun b => { b with moves := [0, 0, all / 1000, 0, 0], replicas := [] })
  else
    let room := migRoom s j t tabs
    let ds := t3Devices s
    match tierBlocks b tabs room ds with
    | none => s
    | some plan =>
      let target (k : Nat × Nat) : Nat := match plan.find? (fun e => e.1 == k.1 && e.2.1 == k.2) with | some e => e.2.2 | none => 2
      let blocks := rankBlocks b tabs
      let free (k : Nat) : Nat := room.getD (k - 1) 0 - (blocks.filter (fun x => tierOf b x.1 x.2 = k)).length
      let moves := sortBy (fun m => (2 ^ 40 - m.gain).toNat) (tierMoves b target blocks (free 1) 1 ++ tierMoves b target blocks (free 2) 2)
      let m := issueReplicas left (replicaPlan b tabs) (moves.foldl (issueMove left room blocks target) { b := b })
      s.setJob j { m.b with moves := [m.done, max (m.bytesA / 1200000) (m.bytesB / 180000), all / 1000, m.left, 0]
                            place := if m.done = 0 then m.b.place else { m.b.place with cause := 5 } }

/-- Bytes of tensors that a re-placement moves between tiers (R198). -/
def movedBytes (old new : Place) : Nat :=
  sumNat ((new.homes.filter (fun x => x.kind == 0 && old.homes.any (fun y => y.kind == 0 && y.id == x.id && y.tier != x.tier))).map (fun x => x.bytes))

/-- Predicted time of a rebalance, in ns: the typical time of R202 (log 7). -/
def rebalanceNs : Nat := 600000

/-- Period of a placement's cells under other rate classes (R142, R199). -/
def periodUnder (pl : Place) (classes : Tab Nat) : Nat := (pl.load.map (fun e => timeAt e.2 (tget 100 classes e.1))).foldl max 0

/-- A new division on the same positions with the same retention cut and homes (R199). -/
def rebalanced (s : State) (j : Nat) (t : SetImg) (x : Seat) : Place :=
  let pl := (s.job j).place
  { placeWith s j t 1 { x with kept := pl.kept } pl.homes pl.caps with depths := pl.depths, rings := pl.rings, spill := pl.spill }

/-- Rebalance or re-place the current set (R199), with `spent` ns of the budget used: the state and the time it took. -/
def replace (j : Nat) (t : SetImg) (forced : Bool) (spent : Nat) (s : State) : State × Nat :=
  let b := s.job j
  let pl := b.place
  let rows := fullRows s
  let lost (s : State) : State := flt0 0x2401 0x04 j (s.stepOf j) (s.modJob j (fun b => { b with noRoom := true }))
  if rows != pl.rows || forced then
    if t.stages.any (fun x => x.pinned && !(let r := pinRect x; (List.range r.2.1).all (fun a => rows.contains (r.1 + a)))) then
      (flt0 0x2402 0x04 j (s.stepOf j) (s.modJob j (fun b => { b with noRoom := true })), 0)
    else
      let cause := if rows != pl.rows then 2 else 4
      let old := seat s j t rows (rateClasses s) (pl.p, pl.v)
      match (if cause = 2 && positionsFit rows.length pl.p then (if old.isSome then old else bestPair s j t) else bestPair s j t) with
      | none => (lost s, 0)
      | some x => match placeMemory s j t cause x with
        | none => (lost s, 0)
        | some (new, _) =>
          let s1 := s.modJob j (fun b => { b with place := new })
          (if cause = 2 then flt0 0x2401 0x04 j (s.stepOf j) s1 else s1, movedBytes pl new / 1200)
  else
    let now := rateClasses s
    let far := (List.range 512).any (fun k => (serving s k).isSome && decide (2 ≤ max (tget 100 now k) (tget 100 pl.classes k) - min (tget 100 now k) (tget 100 pl.classes k)))
    if !far || budgetNs s j t < spent + rebalanceNs then (s, 0)
    else match seat s j t rows now (pl.p, pl.v) with
      | none => (s, 0)
      | some x =>
        let new := rebalanced s j t x
        if 100 * periodUnder new now ≤ 99 * periodUnder pl now then (s.modJob j (fun b => { b with place := new }), rebalanceNs) else (s, 0)

/-- UMP_STATUS.load (R396, R416), predicted at each boundary: the sampled fraction of the module's cell work, in percent of what the
bench cells can complete within a step. -/
def benchLoad (s : State) (j : Nat) : Nat :=
  let b := s.job j
  match b.cur with
  | none => 0
  | some t =>
    let us := if b.lastDur = 0 then tPipe t.mb b.place.p b.place.v b.place.w (medianRate s * b.place.heavy / 100) else b.lastDur / 1000
    let can := us * sumNat ((benchCells s).map (fun k => (s.cell k).rateMhz))
    if can = 0 then 0 else min 65535 (100 * b.place.total * t.mb / 2 ^ b.k / can)

/-- Beat 4 (R172): cells, memory, the Caller's decisions; mandatory work first, then a rebalance, then migration (R198). -/
def beat4 (j : Nat) (failed : List Nat) (cals : List (Nat × Cal)) (c : Ctx) (s : State) : State :=
  let s1 := rewriteFigures (runCaptures c.t.digest (rotate failed cals (dueCells s)))
  let s2 := evacuateAll s1
  let spent := evacuateNs s1 s2 + retireNs s2
  let recs := (s2.job j).psPending
  let s3 := (runRetirements s2).modJob j (fun b => { recs.foldl (fun b r => applyPSet r b) (updateScores b) with psPending := [] })
  let s4 := if recs.isEmpty then s3 else s3.modJob j (pinTables s3)
  let pinned := ((s4.job j).tiers.filter (fun e => !(s3.job j).tiers.contains e)).length + ((s3.job j).tiers.filter (fun e => !(s4.job j).tiers.contains e)).length
  let spent := spent + 65536 * pinned / 1200
  let r := replace j c.t (!recs.isEmpty) spent (s4.onW (fun w => { w with ump := { w.ump with depth := s4.cfg.depth } }))
  let s5 := migrate j c.t (spent + r.2) r.1
  let s6 := if (degradedPcs s1).isEmpty then s5 else s5.modJob j (fun b => { b with place := { b.place with cause := 3 } })
  let s6 := s6.onW (fun w => { w with ump := { w.ump with load := benchLoad s6 j } })
  mirrorSend j 5 0 0 1 0 c.r.step 0 (scoreTable s6 j) s6

/-- Beats 3 and 4, when the updates of beat 2 are done. -/
def boundaryPlacement (j : Nat) (failed : List Nat) (cals : List (Nat × Cal)) (s : State) : State :=
  match ctxOf s j with
  | none => s
  | some c =>
    let ups := (c.t.stages.filter isUpdate).all (fun x => c.r.updated.contains x.idx)
    let rows := c.r.rowsDone || !(c.t.stages.any isScatter)
    let exch := (c.t.stages.filter isExchange).all (fun x => c.r.exchanged.contains x.idx)
    let miss : Option (Nat × Nat) := match reportMiss j c s with
      | some (2, g, a) => some (g, a)
      | _ => none
    if c.r.phase == .beats 2 && ups && rows && exch && miss.isSome then
      (match miss with
       | some (g, a) => if s.w.mmu.priOut.contains (j, g) then s else pageRequest j g (notePark 0xFF j 2 a s)
       | none => s)
    else if c.r.phase == .beats 2 && ups && rows && exch then
      let s1 := beat3 j c s
      (match ctxOf s1 j with
       | some c1 => modRun j (fun r => { r with phase := .beats 5 }) (beat4 j failed cals c1 s1)
       | none => s1)
    else s

/-- BOUNDARY_PLACEMENT (R198). -/
def execBoundaryPlacement (job : Nat) (failed : List Nat) (cals : List (Nat × Cal)) (s : State) : Res :=
  onWorld (fabric (.boundaryPlacement job failed cals) (boundaryPlacement job failed cals)) s

end Sys2Proof.Machine
end

