-- ==== Sys2Proof/Machine/Barrier.lean ====
section
/-! DEFINITION. Beats 5 to 7 of the step boundary (R172, R178), the step barrier and the called-good steps (R377, R408), the
messages of both barriers (R378, R379), and the huddle's time limit. -/

namespace Sys2Proof.Machine

open Sys2Proof

/-! ### Beat 5 -/

/-- A staged mode is placed afresh at the boundary (R203): a set with its placement and tiers; for compression the residual buffers
beside the current set (R372). Left: the unit that cannot hold it. -/
def placeMode (s : State) (j : Nat) (m : Mode) : Except Nat (Mode × Option (List (Nat × Nat × Nat))) :=
  match m.set with
  | some t => (match placeJob (withCompress s j m.compress) j t 0 with
    | some p => .ok ({ m with place := some p.1 }, some p.2)
    | none => .error 0x04)
  | none =>
    if m.compress.isEmpty then .ok (m, none)
    else match (s.job j).cur with
      | none => .ok (m, none)
      | some t => match placeJob (withCompress s j m.compress) j t 0 with
        | some p => .ok ({ m with place := some p.1 }, none)
        | none => .error 0x06

/-- Beat 5 with a commit for the next step: every unit applies the staged mode, or `unit` cannot (R178). -/
def modeApply (j unit : Nat) (s : State) : State :=
  let b := s.job j
  match b.run, b.stagedMode, b.commit with
  | some r, some m, some n =>
    if r.phase != .beats 5 || n != r.step + 1 || r.applyOk.isSome then s
    else
      let no (u : Nat) : State := flt 0x2302 u j r.step (locCause 0 u) (modRun j (fun r => { r with applyOk := some false, failUnit := u }) s)
      if unit != 0xFF then no unit
      else match (modeUnits m).find? (fun u => !s.unitOn u), absentLink s m with
      | some u, _ => no u
      | none, some u => no u
      | none, none => match placeMode s j m with
        | .error u => no u
        | .ok (m1, tiers) =>
          let b0 := b.applyMode m1 n
          let b1 := match m.set, m1.place with
            | none, some p => { b0 with place := { b0.place with homes := p.homes } }
            | _, _ => b0
          let merged := match m.set, tiers with
            | some t, some new => mergeTiers b t new
            | _, _ => b.tiers
          let b2 := { b1 with tiers := merged, run := b1.run.map (fun r => { r with applyOk := some true }), prevOld := b.prev }
          match m.set with
          | some t => formCopies true j (respread j t.names (syncPlan true (s.setJob j { b2 with decls := settleHomes b t (gonePcs s), copies := [] })))
          | none => syncPlan false (s.setJob j b2)
  | _, _, _ => s

/-- MODE_APPLY (R178). -/
def execModeApply (job unit : Nat) (s : State) : Res := onWorld (fabric (.modeApply job unit) (modeApply job unit)) s

/-! ### Beat 6: the step barrier -/

/-- The module's entry (R377): apply outcome (R178), failed flag (R282, R410), newest called-good step. -/
def ownEntry (s : State) (j : Nat) (r : StepRun) : Ent :=
  let b := s.job j
  { src := s.w.topo.node, step := r.step, node := s.w.topo.node, good := goodStep b, count := 1
    applied := (match r.applyOk with
      | some v => v
      | none => b.stagedMode.isNone)
    failed := r.fail.isSome || r.aborted || b.jrn.any (fun e => e.failed && !e.good && decide (e.step ≤ r.step)) }

/-- Enter the step barrier (R172 beat 6): beat 5 is over; the step record and the end-of-step marker go to the partner
(R424). -/
def barrierEntry (j : Nat) (s : State) : State :=
  let b := s.job j
  match b.run with
  | none => s
  | some r =>
    let due := b.commit = some (r.step + 1) && b.stagedMode.isSome && r.applyOk.isNone
    if r.phase != .beats 5 || due then s
    else
      let rec_ := match b.entry? r.step with
        | some e => stepRecord s j e r.sc
        | none => []
      let s1 := mirrorSend j 6 0 0 0 0 r.step 0 [] (mirrorSend j 4 0 0 1 0 r.step 0 rec_ s)
      let s2 := modRun j (fun r => { r with phase := .barrier }) s1
      barAdvance j (modBar j (fun x => { x with own := some (ownEntry s j r), entryNs := s.now, sentUp := false }) s2)

/-- STEP_BARRIER_ENTRY (R377). -/
def execStepBarrierEntry (job : Nat) (s : State) : Res := onWorld (fabric (.stepBarrierEntry job) (barrierEntry job)) s

/-- Settle the mode change at the barrier exit (R178): all applied, or every unit back to its previous mode and the staged one
discarded. A commit that came after the module had entered ends with the revert; a module that holds a staged mode and no commit
cannot tell a revert from a boundary without a change, and keeps it (log 67). Held items are discarded (R179). -/
def settleMode (j : Nat) (all : Bool) (r : StepRun) (s : State) : State :=
  let b := s.job j
  let commits (st u : Nat) (s : State) : State := completeAll (fun x => x.op = 0x0305 && x.hdr.job = j) st 0 u (fun _ => leBytes 4 (s.job j).modeEpoch) s
  let gone (b : Job) (e u : Nat) : Job := { b with stagedMode := none, commit := none, lastCommit := some (e, r.step + 1, 0x70, u) }
  match r.applyOk with
  | none =>
    match b.stagedMode with
    | some m => if b.commit = some (r.step + 1) then dropHeld j (commits 0x70 0xFF (s.setJob j (gone b m.epoch 0xFF))) else if all then s else dropHeld j s
    | none => if all then s else dropHeld j s
  | some ok =>
    if ok && all then
      let s1 := s.modJob j (fun b => { b with stK := none, stChk := none, stCompress := [], stForced := none, lastCommit := some (b.modeEpoch, r.step + 1, 0, 0xFF) })
      commits 0 0xFF (releaseMsgs j s1)
    else
      let b1 := match ok, b.prev, b.applied with
        | true, some old, some (_, m) => { b.withMode old with prev := b.prevOld, applied := none, staged := m.set, stagedPlace := m.place.getD {} }
        | _, _, _ => b
      let e := match b.stagedMode, b.applied with
        | some m, _ => m.epoch
        | none, some (_, m) => m.epoch
        | none, none => 0
      dropHeld j (syncPlan false (commits 0x70 r.failUnit (s.setJob j (gone b1 e r.failUnit))))

/-- How a step that fails at the barrier exit ends on this module (R282, R410, R411, R482). -/
def exitFail (r : StepRun) : Fail :=
  if r.aborted then { status := 0x31, detail := 2 }
  else match r.fail with
    | some f => f
    | none => { status := 0x52, detail := 8 * 256, unit := 0x05 }

/-- Leave the barrier entry of a job; entries for later steps stay. -/
def closeBar (j n : Nat) (s : State) : State :=
  let close (x : Bar) : Bar := if x.job = j then { job := j, kids := x.kids.filter (fun k => decide (n < k.step)) } else x
  let bars := (s.w.reel.bars.map close).filter (fun x => x.job != j || !x.kids.isEmpty)
  s.onW (fun w => { w with reel := { w.reel with bars := bars } })

/-- Reply to the STEP_RUN or LET_REPLAY of a step. -/
def replyStep (j : Nat) (r : StepRun) (st d u stage : Nat) (s : State) : State :=
  let res := stepResult s r stage
  completeAll (fun x => (x.op = 0x0302 || x.op = 0x0602) && x.hdr.job = j && x.a = r.step) st d u (fun _ => res) s

/-- STEP_ABORT completes (R282). -/
def replyAborts (j : Nat) (s : State) : State := completeAll (fun x => x.op = 0x0303 && x.hdr.job = j) 0 0 0xFF (fun x => leBytes 8 x.a) s

/-- A failed barrier exit (R412): roll back, then reply. -/
def exitFailed (j : Nat) (r : StepRun) (s : State) : State :=
  let b := s.job j
  let f := exitFail r
  let s1 := rollbackFrom j (oldestFailed b r.step) s
  let next := (s1.job j).nextStep
  let s2 := replyAborts j (replyStep j r f.status f.detail f.unit f.stage s1)
  (failWaiting j f.status f.detail f.unit f.stage s2).modJob j (fun b => { b with nextStep := next })

/-- A clean barrier exit (R172 beat 7, R281): buffers switch, the step has ended. -/
def exitClean (j : Nat) (r : StepRun) (e : Ent) (s : State) : State :=
  let b := s.job j
  let flips := match b.entry? r.step with
    | some x => x.flip
    | none => []
  let s1 := s.modJob j (fun b => { b.modEntry r.step (fun x => { x with ended := true }) with
    run := none, lastDur := s.now - r.startNs
    decls := b.decls.map (fun d => if flips.contains d.1 then (d.1, { d.2 with buf := 1 - d.2.buf }) else d) })
  let s2 := if e.good != noGood && (s1.job j).jobGood < e.good && (s1.job j).lastGood.isSome then reachGood j e.good s1 else s1
  let s3 := replyAborts j (replyStep j r (b2n r.partly) (2 * b2n r.partly) 0xFF 0xFFFF s2)
  let ck := s3.w.ck
  if ck.state = 1 && ck.job = j && !ck.armed && (ck.cut = r.step || ck.cut = 0) then
    ownHuddle j 1 r.step (s3.onW (fun w => { w with ck := { w.ck with cut := r.step } }))
  else s3

/-- The step barrier exits (R377). -/
def barrierExit (j : Nat) (s : State) : State :=
  match (s.job j).run, barOf s j with
  | some r, some x => match x.exit, x.own with
    | some e, some o =>
      if r.phase != .barrier || e.step != r.step then s
      else
        let us := (s.now - x.entryNs) / 1000
        let s1 := (closeBar j r.step s).onW (fun w => { w with reel := { w.reel with waitUs := us, last := e.node } })
        let s2 := settleMode j e.applied r s1
        let s3 := if e.failed || o.failed then exitFailed j r s2 else exitClean j r e s2
        startWaiting j (hudAdvance j s3)
    | _, _ => s
  | _, _ => s

/-- STEP_BARRIER_EXIT (R377). -/
def execStepBarrierExit (job : Nat) (s : State) : Res := onWorld (fabric (.stepBarrierExit job) (barrierExit job)) s

/-- The exit comes later than slow_ms after the module's entry (R377): event 0x3602. -/
def barrierSlow (j : Nat) (s : State) : State :=
  match barOf s j with
  | some x => match x.own with
    | some o =>
      let last := match x.exit with
        | some e => e.node
        | none => (match x.kids.getLast? with
          | some k => k.node
          | none => o.node)
      flt 0x3602 0x06 j o.step (locLink 0xFF 0xF last 0) s
    | none => s
  | none => s

/-- STEP_BARRIER_SLOW (R377). -/
def execStepBarrierSlow (job : Nat) (s : State) : Res := onWorld (barrierSlow job) s

/-! ### Messages of the step barrier (R379) -/

/-- Put a value by key in an association list. -/
def putAssoc (k v : Nat) (l : List (Nat × Nat)) : List (Nat × Nat) := l.filter (fun e => e.1 != k) ++ [(k, v)]

/-- An entry comes up from a member. -/
def barrierUp (j : Nat) (e : Ent) (s : State) : State :=
  let s1 := s.modJob j (fun b => { b with kidGood := putAssoc e.src e.good b.kidGood })
  barAdvance j (modBar j (fun x => { x with kids := x.kids.filter (fun k => !(k.src = e.src && k.step = e.step)) ++ [e], sentUp := x.sentUp && !(x.kids.any (fun k => k.src = e.src && k.step = e.step)) }) s1)

/-- STEP_BARRIER_UP (R379). -/
def execStepBarrierUp (job src step : Nat) (applied failed : Bool) (good count node : Nat) (s : State) : Res :=
  onWorld (barrierUp job { src := src, step := step, applied := applied, failed := failed, good := good, count := count, node := node }) s

/-- The combined value comes down: the barrier may exit here, and the value goes on. -/
def barrierDown (j : Nat) (e : Ent) (s : State) : State :=
  match barOf s j with
  | some x => match x.own with
    | some o =>
      if o.step = e.step && x.exit.isNone then
        forAll (downNodes s j) (fun d s => control d j e.step 2 (entFlags e) e.node (s.job j).modeEpoch e.good 0 e.count s) (modBar j (fun x => { x with exit := some e }) s)
      else s
    | none => s
  | none => s

/-- STEP_BARRIER_DOWN (R379). -/
def execStepBarrierDown (job step : Nat) (applied failed : Bool) (good count node : Nat) (s : State) : Res :=
  onWorld (barrierDown job { src := node, step := step, applied := applied, failed := failed, good := good, count := count, node := node }) s

/-- A called-good update: from a member below it replaces that member's value, from above it is the job's good step
(R377, R425). -/
def calledGoodUpdate (j src good : Nat) (s : State) : State :=
  if upNode s j = some src then
    (if (s.job j).jobGood < good then
      forAll (downNodes s j) (fun d s => control d j 0 9 0 s.w.topo.node (s.job j).modeEpoch good 0 0 s)
        (reachGood j good s)
     else s)
  else if (downNodes s j).contains src then
    let s1 := s.modJob j (fun b => { b with kidGood := putAssoc src good b.kidGood })
    let s2 := match barOf s1 j with
      | some _ => modBar j (fun x => { x with kids := x.kids.map (fun k => if k.src = src then { k with good := if goodKey k.good < goodKey good then good else k.good } else k) }) s1
      | none => s1
    barAdvance j (goodAdvance j s2)
  else s

/-- CALLED_GOOD_UPDATE (R377). -/
def execCalledGoodUpdate (job src good : Nat) (s : State) : Res := onWorld (calledGoodUpdate job src good) s

/-! ### Calling a step good (R408) -/

/-- The regions of a set that is no longer current are released: copies, spill and gradient stacks (R163). -/
def ModeRec.release (m : ModeRec) : ModeRec := { m with place := { m.place with homes := m.place.homes.filter (fun x => x.kind == 0) } }

/-- Push a step's norms into the windows (R391), newest first. -/
def pushNorms (e : Jrn) (b : Job) : Job :=
  { b with norms := e.norms.map (fun p => (p.1, (p.2 :: ((b.norms.find? (fun q => q.1 == p.1)).map (fun q => q.2)).getD []).take 64)) }

/-- An exclusion counts a called-good step, and ends after 1,000 (R399). -/
def countExclusions (s : State) : State :=
  forAll ((List.range 576).filter (fun k => (s.cell k).excluded)) (fun k s =>
    let n := (s.cell k).exclGood + 1
    s.modCell k (fun c => if 1000 ≤ n then { c with excluded := false, exclGood := 0, state := if c.retired then 3 else 1 } else { c with exclGood := n })) s

/-- Call step `n` good when the conditions of R408 hold. The first step of a mode epoch lets go of what its previous mode kept:
regions of the old set (R163) and residual buffers of tensors no longer compressed (R372). -/
def calledGood (j n : Nat) (s : State) : State :=
  if !goodConds s j n then s
  else match (s.job j).entry? n with
    | none => s
    | some e =>
      let s1 := s.modJob j (fun b => { pushNorms e (b.modEntry n (fun x => { x with good := true, endNs := s.now, saved := [] })) with
        lastGood := some n, consTillGood := b.consTillGood && decide (n < b.consFrom), consKept := b.consKept.filter (fun x => x.1 != n)
        prev := (match b.epochFirst with
          | some f => if f ≤ n then b.prev.map ModeRec.release else b.prev
          | none => b.prev)
        resid := (match b.epochFirst with
          | some f => if f ≤ n then b.resid.filter (fun r => b.compress.any (fun c => c.1 == r.tensor && c.2.1 != 0)) else b.resid
          | none => b.resid)
        applied := match b.applied with
          | some (k, m) => if k ≤ n then none else some (k, m)
          | none => none })
      let s2 := event 0x0006 0x05 j n 0 (countExclusions s1)
      let s3 := trimJournal 16 j s2
      let s4 := match barOf s3 j with
        | some _ => modBar j (fun x => { x with own := x.own.map (fun o => { o with good := if goodKey o.good < goodKey n then n else o.good }) }) s3
        | none => s3
      barAdvance j (goodAdvance j s4)

/-- STEP_CALLED_GOOD (R408). -/
def execStepCalledGood (job step : Nat) (s : State) : Res := onWorld (fabric (.stepCalledGood job step) (calledGood job step)) s

/-! ### Messages of the huddle -/

/-- A member asks for a huddle: the module joins with what it can reach itself; an abort stops its step (R282, R378). -/
def huddleRequest (j src reason boundary good : Nat) (s : State) : State :=
  let heard := match hudOf s j with
    | some h => h.reqs.any (fun q => q.1 == src)
    | none => false
  if heard then s
  else
    let s1 := modHud j (fun h => { h with
      reason := if h.reqs.isEmpty then reason else h.reason
      reqs := h.reqs ++ [(src, boundary, good)] }) s
    let s2 := askHuddle j reason 0 s1
    if reason = 4 then abortRun j s2 else hudAdvance j s2

/-- HUDDLE_REQUEST (R378). -/
def execHuddleRequest (job src reason boundary good : Nat) (s : State) : Res := onWorld (huddleRequest job src reason boundary good) s

/-- Entries come up from a member below. -/
def huddleUp (j src boundary count : Nat) (s : State) : State :=
  hudAdvance j (modHud j (fun h => { h with kids := h.kids.filter (fun k => k.src != src) ++ [{ src := src, step := boundary, count := count }] }) s)

/-- HUDDLE_UP (R379). -/
def execHuddleUp (job src boundary count : Nat) (s : State) : Res := onWorld (huddleUp job src boundary count) s

/-- The huddle barrier exits: the value comes down (R378). -/
def huddleDown (j boundary count : Nat) (s : State) : State :=
  match hudOf s j with
  | some h =>
    if h.entered && h.cut = some boundary && count = (liveMembers s j).length then hudExit j (modHud j (fun h => { h with exited := true }) s) else s
  | none => s

/-- HUDDLE_DOWN (R378). -/
def execHuddleDown (job boundary count : Nat) (s : State) : Res := onWorld (huddleDown job boundary count) s

/-- huddle_ms has passed since the member's entry (R378): HUDDLE completes, the member stays stopped. -/
def huddleTimeout (j : Nat) (s : State) : State :=
  match hudOf s j with
  | some h =>
    if h.entered && !h.exited && !h.timedOut then
      completeAll (fun r => r.op = 0x0505 && r.hdr.job = j) 0x62 0 0x06 (fun _ => leBytes 8 (h.cut.getD 0))
        (flt 0x3601 0x06 j (h.cut.getD 0) locNone (modHud j (fun h => { h with timedOut := true }) s))
    else s
  | none => s

/-- HUDDLE_TIMEOUT (R378). -/
def execHuddleTimeout (job : Nat) (s : State) : Res := onWorld (huddleTimeout job) s

end Sys2Proof.Machine
end

