-- ==== Sys2Proof/Machine/Queues.lean ====
section
/-! DEFINITION. The host's register writes that drive queues and the event ring: queue contexts (R264-R266), doorbells
(R267, R268), coalescing (R291), the event ring's enable (R289), and accesses to disabled units (R64). -/

namespace Sys2Proof.Machine

open Sys2Proof

/-! ### Disabled units (R64) -/

/-- What the source of an access to a disabled unit meets: a host read completes with Completer Abort, a host write is dropped and
recorded, a firmware access traps on its control core with the unit ID in the trap record; another unit's request fails, and
the meaning of the command that made it says with what reply. -/
def disabledOutcome (unit : Nat) (access : Access) (s : State) : State :=
  match access with
  | .hostRead => s.emit (.completion 1 [])
  | .hostWrite => { s with ctl := { s.ctl with power := { s.ctl.power with aerAborts := s.ctl.power.aerAborts + 1 } } }
  | .firmware core => { s with ctl := { s.ctl with traps := tput 0 s.ctl.traps (core % 4) (unit + 1) } }
  | .fromUnit => s

/-- Cause code of an access (R64). -/
def accessCause : Access → Nat
  | .hostRead => 1
  | .hostWrite => 2
  | .firmware _ => 3
  | .fromUnit => 5

/-- An access to a disabled unit (R64): event 0x5110 gives the source. -/
def disabledAccess (unit : Nat) (access : Access) (s : State) : State :=
  flt 0x5110 unit 0xFF 0 (locCause (accessCause access) unit) (disabledOutcome unit access s)

/-- A host access to the window of a disabled unit. -/
def disabledHit (unit : Nat) (write : Bool) (s : State) : State := disabledAccess unit (if write then .hostWrite else .hostRead) s

/-- A host write to a unit's window: it takes effect only while the unit is enabled (R64). -/
def hostWrite (unit : Nat) (f : State → State) (s : State) : State := if s.unitOn unit then f s else disabledHit unit true s

/-- DISABLED_UNIT_ACCESS (R64): nothing happens to a unit that is enabled. -/
def execDisabledUnitAccess (unit : Nat) (access : Access) (s : State) : Res :=
  onCore (fun s => if s.unitOn unit then s else disabledAccess unit access s) s

/-! ### Queue contexts -/

/-- The fields of a value written to QC_CFG (R264); a ring size outside 4-15 leaves the field as it was (R564), so code 0x01 of
R265 answers a size that was never written (log 164). -/
def cfgFields (v : Nat) (c : Queue) : Queue :=
  { c with cmdLog2 := pick 4 15 (bits v 3 0) c.cmdLog2, rplLog2 := pick 4 15 (bits v 7 4) c.rplLog2, cls := bits v 9 8, job := bits v 21 16, addrHost := bit v 22
           vector := bits v 42 32, coalCount := bits v 55 48, coalUs := bits v 63 56 }

/-- The checks of R265, in order: none, or the code of the first that fails. -/
def enableErr (s : State) (q : Nat) (c : Queue) : Option Nat :=
  let log2Ok (n : Nat) : Bool := decide (4 ≤ n) && decide (n ≤ 15)
  if !(log2Ok c.cmdLog2 && log2Ok c.rplLog2) then some 1
  else if c.rplLog2 < c.cmdLog2 then some 2
  else if c.cmdBase % 4096 != 0 || c.rplBase % 4096 != 0 then some 3
  else if q = 0 && (c.cls != 0 || !c.addrHost) then some 4
  else if q != 0 && !s.live c.job then some 8
  else none

/-- An enable of a queue in state 0: refused with a code, or the pointers go to 0 and the queue runs (R265). -/
def enableQueue (q v : Nat) (s : State) : State :=
  let c := cfgFields v (s.queue q)
  match enableErr s q c with
  | some e => s.setQueue q { c with en := true, err := e }
  | none => s.setQueue q { c with
      en := true, err := 0, state := 1, cmdTail := 0, cmdHead := 0, rplTail := 0, rplHead := 0, done := 0, lastSeq := 0
      unsig := 0, fetched := [], parked := [], fetchParked := false }

/-- A write of en = 0: fetching stops, the queue drains, and a queue with nothing left is disabled at once (R266). -/
def disableQueue (q : Nat) (s : State) : State :=
  let c := s.queue q
  drainDone q (s.setQueue q { c with en := false, state := if c.state = 0 then 0 else 3, fetchParked := false })

/-- A write to QC_CFG (R264): in state 0 its fields are taken; in any other only a clearing of en. -/
def writeQcCfg (q v : Nat) (s : State) : State :=
  if 8192 ≤ q then s
  else if (s.queue q).state != 0 then (if bit v 24 then s else disableQueue q s)
  else if bit v 24 then enableQueue q v s
  else s.modQueue q (fun c => { cfgFields v c with en := false })

/-- QUEUE_ENABLE (R265): a write of QC_CFG with en = 1; queue controller disabled, the write is dropped (R64). -/
def execQueueEnable (q value : Nat) (s : State) : Res := onCore (hostWrite 0x01 (writeQcCfg q (setBit value 24 true))) s

/-- QUEUE_DISABLE (R266): a write of QC_CFG with en = 0. -/
def execQueueDisable (q value : Nat) (s : State) : Res := onCore (hostWrite 0x01 (writeQcCfg q (setBit value 24 false))) s

/-! ### Doorbells (R268) -/

/-- A doorbell write to a queue that neither runs nor drains is dropped and counted. -/
def dropBell (s : State) : State := s.onW (fun w => { w with qarb := { w.qarb with dropped := satAdd 16 w.qarb.dropped 1 } })

/-- A new command tail: repeated, taken, or an overrun that halts the queue. -/
def takeTail (q tail : Nat) (s : State) : State :=
  let c := s.queue q
  let t := tail % 65536
  if c.state = 0 || c.state = 2 then dropBell s
  else if t = c.cmdTail then s
  else
    let s1 := s.modQueue q (fun c => { c with cmdTail := t })
    if 2 ^ c.cmdLog2 < (t + 65536 - c.cmdHead) % 65536 then haltQueue q 5 s1 else s1

/-- A new reply head. -/
def takeHead (q head : Nat) (s : State) : State :=
  let c := s.queue q
  if c.state = 0 || c.state = 2 then dropBell s else s.modQueue q (fun c => { c with rplHead := head % 65536 })

/-- A doorbell crosses the host port as a count (R59). -/
def cmdTail (q tail : Nat) (s : State) : State := signal xHost (takeTail q tail) s
def rplHead (q head : Nat) (s : State) : State := signal xHost (takeHead q head) s

/-- DB_CMD_TAIL (R268). -/
def execDbCmdTail (q tail : Nat) (s : State) : Res := onCore (hostWrite 0x01 (if 8192 ≤ q then id else cmdTail q tail)) s

/-- DB_RPL_HEAD (R268). -/
def execDbRplHead (q head : Nat) (s : State) : Res := onCore (hostWrite 0x01 (if 8192 ≤ q then id else rplHead q head)) s

/-- The coalescing time has passed since the first unsignalled reply (R291). -/
def coalesced (q : Nat) (s : State) : State :=
  let c := s.queue q
  if c.coalUs != 0 && c.unsig != 0 then fireVector c.vector (s.setQueue q { c with unsig := 0 }) else s

/-- COALESCE_TIMER (R291). -/
def execCoalesceTimer (q : Nat) (s : State) : Res := onWorld (coalesced q) s

/-! ### The event ring -/

/-- A write to EV_CFG (R288, R289, R564). -/
def writeEvCfg (v : Nat) (s : State) : State :=
  let e := { s.w.ev with log2 := pick 4 15 (bits v 3 0) s.w.ev.log2, vector := bits v 26 16 }
  let e' : Ev :=
    if !bit v 4 then { e with en := false }
    else if !(decide (4 ≤ e.log2) && decide (e.log2 ≤ 15)) || e.base % 4096 != 0 then { e with en := false, err := 1 }
    else { e with en := true, err := 0, tail := 0, head := 0, lost := 0 }
  s.onW (fun w => { w with ev := e' })

/-- EVENT_RING_ENABLE (R289): a write of EV_CFG with en = 1. -/
def execEventRingEnable (value : Nat) (s : State) : Res := onWorld (writeEvCfg (setBit value 4 true)) s

end Sys2Proof.Machine
end

