-- ==== Sys2Proof/Machine/Dma.lean ====
section
/-! DEFINITION. Mappings (R296, R297), the DMA channels and their streams (R304-R310, R567), parks and their outcomes
(R309-R314), ATS and PRI (R298-R300), and the BAR4 apertures (R301, R302, R465, R481, R495). -/

namespace Sys2Proof.Machine

open Sys2Proof

/-! ### MEM_MAP, MEM_UNMAP -/

/-- Translation entries in use by all jobs, one per page (R296). -/
def mapEntries (s : State) : Nat := sumNat (s.w.mmu.maps.map (fun m => m.len / pageBytes m.page))

/-- MEM_MAP's own part (R286, R296). -/
def memMapOwn (h : Hdr) (dva len host page access demand : Nat) (s : State) : Cmd :=
  let ps := pageBytes page
  let m : Mapping := { job := h.job, dva := dva, len := len, host := host, page := page, access := access % 4, demand := bit demand 0 }
  let mine := s.w.mmu.maps.filter (fun x => x.job == h.job)
  checkPkt s [(40, decide (page ≤ 2))]
    (checkPkt s [(16, dva % ps == 0 && decide (0x10000 ≤ dva) && decide (dva < 2 ^ 48)),
        (24, len != 0 && len % ps == 0 && decide (dva + len ≤ 2 ^ 48)), (32, host % ps == 0)]
      (if access % 4 = 0 then badC s 41
       else if bit demand 0 && !((s.job h.job).ats && (s.job h.job).pri) then badC s 42
       else if mine.contains m then noteC s 1
       else if mine.any (fun x => decide (x.dva < dva + len) && decide (dva < x.dva + x.len)) then badC s 16
       else if 262144 < mapEntries s + len / ps then failC s 0x20
       else okC (s.onW (fun w => { w with mmu := { w.mmu with maps := w.mmu.maps ++ [m] } }))))

def runMemMap (h : Hdr) (dva len host page access demand : Nat) : State → State :=
  startCmd (.memMap h dva len host page access demand) 0x0201 h (memMapOwn h dva len host page access demand)

/-- MEM_MAP (R296). -/
def execMemMap (h : Hdr) (dva len host page access demand : Nat) (s : State) : Res :=
  onWorld (runMemMap h dva len host page access demand) s

/-- A mapping without its pages that lie wholly in a range: what is left of it, and whether a page went (R297). -/
def cutMapping (lo hi : Nat) (m : Mapping) : List Mapping × Bool :=
  let ps := pageBytes m.page
  let a := max m.dva (roundUp lo ps)
  let b := min (m.dva + m.len) (hi / ps * ps)
  if b ≤ a then ([m], false)
  else ([{ m with len := a - m.dva }, { m with dva := b, len := m.dva + m.len - b, host := m.host + (b - m.dva) }].filter (fun x => x.len != 0), true)

/-! ### Channels -/

def State.modChan (s : State) (c : Nat) (f : Chan → Chan) : State := s.setChan c (f (s.chan c))

/-- Address in a side of a granule of a channel's stream (R308). -/
def granAt (x : Side) (g : Nat) : Nat := x.pos + 4096 * g
/-- Bytes of granule `g`. -/
def granLen (c : Chan) (g : Nat) : Nat := min 4096 (c.len - 4096 * g)
/-- Bytes a stream has completed in order. -/
def parkBytes (c : Chan) : Nat := min (4096 * c.done) c.len

/-- Give the waiting DMA_COPY commands the lowest free channels of 0-79, jobs in turn (R305). -/
def dmaDispatch : Nat → State → State
  | 0, s => s
  | n + 1, s =>
    match (List.range 80).find? (fun c => (s.chan c).state = 0), s.w.dmaWait with
    | some c, e :: r =>
      let l := e :: r
      let jobs := sortNat (l.map (fun x => x.2.job))
      let j := (jobs.find? (fun x => decide (s.w.dmaLast < x))).getD (jobs.headD 0)
      let pick := (l.find? (fun x => x.2.job == j)).getD e
      dmaDispatch n ((s.setChan c { pick.2 with state := 1, seq := pick.1 }).onW (fun w => { w with
        dmaWait := w.dmaWait.filter (fun x => x.1 != pick.1), dmaLast := j }))
    | _, _ => s

/-- End the DMA_COPY of a channel with a status and the bytes completed in order, and free the channel. -/
def dmaEnd (c status detail unit : Nat) (s : State) : State :=
  let x := s.chan c
  let s1 := completeAll (fun r => r.op = 0x0203 && r.ord = x.seq) status detail unit (fun _ => leBytes 8 (parkBytes x)) s
  let s2 := s1.setChan c {}
  dmaDispatch s2.w.dmaWait.length s2

/-- Job-side accesses of granule `g`: (address, write). -/
def jobSides (c : Chan) (g : Nat) : List (Nat × Bool) :=
  (if c.src.handle = 0 then [(granAt c.src g, false)] else []) ++ (if c.dst.handle = 0 then [(granAt c.dst g, true)] else [])

/-- The mapping that covers an address of a job. -/
def mapOf (s : State) (j a : Nat) : Option Mapping :=
  s.w.mmu.maps.find? (fun m => m.job == j && decide (m.dva ≤ a) && decide (a < m.dva + m.len))

/-- A cached translation covers a host address with the access wanted (R298). -/
def atcCovers (s : State) (j host : Nat) (write : Bool) : Bool :=
  s.w.mmu.atc.any (fun e => e.job == j && decide (e.host ≤ host) && decide (host < e.host + e.size) && bit e.access (if write then 1 else 0))

/-- The missing blocks of a bench module that a range of a declaration touches (R313 kind 3): the first, if any. -/
def missingAt (s : State) (j h off n : Nat) : Option (Nat × Nat) :=
  if s.w.mr.callJob != j then none
  else match (s.job j).cur with
    | none => none
    | some t => s.w.mr.missing.find? (fun e => match t.tens? e.1 with
      | some r => r.handle == h && (match s.decl j h with
        | some d => let sz := rowsPerBlock d * rowBytes d; decide (e.2 * sz < off + n) && decide (off < (e.2 + 1) * sz)
        | none => false)
      | none => false)

/-- Bytes a declaration's byte image holds from an offset: a role 4 or role 6 tensor reads as of the last boundary, since a
step's writes stay apart until then (R131). -/
def imageRead (s : State) (j h off n : Nat) : Bytes :=
  match s.decl j h with
  | some d => devRead s j h d.buf off n
  | none => zeros n

/-- Poison, staleness or a lost device under a read of a declaration (R237, R465, R480): the source of R482 and the unit. -/
def imageBad (s : State) (j h off n : Nat) : Option (Nat × Nat) :=
  match s.decl j h with
  | none => none
  | some d =>
    let x := homeOf s j h off
    if (homesOf s j h off n).any (deviceDown s) then some (3, 0x28)
    else if s.w.stale.any (fun g => g.job == j && g.handle == h && decide (4096 * g.g < off + n) && decide (off < 4096 * (g.g + 1))) then some (6, x.unit)
    else if s.isPoisoned j h d.buf off n then some (x.tier, x.unit)
    else none

/-- A write to the buffer in use of a declaration's image, NORMAL in the cache (R214). -/
def imageWrite (j h off : Nat) (bs : Bytes) (s : State) : State :=
  match s.decl j h with
  | none => s
  | some d => touch 0 true j h d.buf off bs.length (jobPut j h d.buf off bs s)

/-! ### DMA_COPY (R306) -/

/-- Tensor IDs that a set's step uses (R131). -/
def usedIds (t : SetImg) : List Nat :=
  let desc := t.stages.flatMap (fun st =>
    if isLookup st then (let g := parseGather (t.img.drop st.desc); [g.offsets, g.indices, g.weights])
    else if isScatter st then (let o := parseRowOpt (t.img.drop st.desc)
      if o.combine = 0 then [] else (let c := parseColl (t.img.drop o.combine); [c.src, c.dst]))
    else if isExchange st then (let c := parseColl (t.img.drop st.desc); [c.src, c.dst]) else [])
  t.stages.flatMap (fun st => (stageTensors st).map (fun e => e.2)) ++ t.streams.map (fun r => r.tensor) ++ [t.stepConst] ++ desc ++
    (t.tensors.filter (fun r => r.role = 5)).map (fun r => r.id)

/-- The tensor a handle stands for in the running step's use, if any: its role. -/
def usedRole (s : State) (j h : Nat) : Option Nat :=
  match (s.job j).cur, (s.job j).run with
  | some t, some r =>
    let listed := match (s.job j).entry? r.step with | some e => e.inputs.map (fun x => x.1) | none => []
    let ids := usedIds t ++ listed
    (t.tensors.find? (fun x => x.handle == h && x.id != 0 && ids.contains x.id)).map (fun x => x.role)
  | _, _ => none

/-- A declaration and a range within its image (R306 check 4). -/
def sideOk (s : State) (j h off len : Nat) : Bool :=
  h = 0 || (match s.decl j h with | some d => off % 64 == 0 && decide (off + len ≤ d.imageBytes) | none => false)

/-- DMA_COPY's own part (R283, R306). -/
def dmaCopyOwn (h : Hdr) (src dst len srcH dstH ord : Nat) (s : State) : Cmd :=
  let j := h.job
  if !(len != 0 && len % 64 == 0 && decide (len ≤ 2 ^ 40)) then badC s 32
  else if srcH = 0 && dstH = 0 then badC s 40
  else checkPkt s [(16, srcH != 0 || (src % 64 == 0 && decide (src + len ≤ 2 ^ 48))), (24, dstH != 0 || (dst % 64 == 0 && decide (dst + len ≤ 2 ^ 48)))]
    (checkPkt s [(40, sideOk s j srcH src len), (44, sideOk s j dstH dst len)]
      (if srcH != 0 && srcH = dstH && decide (src < dst + len) && decide (dst < src + len) then badC s 24
       else if (usedRole s j dstH).isSome || (match usedRole s j srcH with | some r => r != 4 && r != 6 | none => false) then failC s 0x30
       else if 1024 ≤ (s.w.inflight.filter (fun r => r.op = 0x0203 && r.hdr.job = j)).length then failC s 0x21
       else .later (s.onW (fun w => { w with dmaWait := w.dmaWait ++ [(ord,
           { job := j, queue := h.q, len := len, total := (len + 4095) / 4096, src := ⟨srcH, src⟩, dst := ⟨dstH, dst⟩ })] })) 0 0))

def runDmaCopy (h : Hdr) (src dst len srcH dstH : Nat) (s : State) : State :=
  let s1 := startCmd (.dmaCopy h src dst len srcH dstH) 0x0203 h (dmaCopyOwn h src dst len srcH dstH s.w.ordNext) s
  dmaDispatch s1.w.dmaWait.length s1

/-- DMA_COPY (R306). -/
def execDmaCopy (h : Hdr) (src dst len srcH dstH : Nat) (s : State) : Res := onWorld (runDmaCopy h src dst len srcH dstH) s

/-! ### Granules (R308, R567) -/

/-- The source bytes of a granule: data, or poison with its source and unit. -/
def granRead (s : State) (c : Chan) (g : Nat) : Except (Nat × Nat) Bytes :=
  let n := granLen c g
  if c.src.handle = 0 then
    match jobRead s c.job (granAt c.src g) n with
    | .ok bs => .ok bs
    | .poison => .ok []
    | .fault _ _ _ => .ok []
  else match imageBad s c.job c.src.handle (granAt c.src g) n with
    | some o => .error o
    | none => .ok (imageRead s c.job c.src.handle (granAt c.src g) n)

/-- Whether the accesses of a granule can be made now: mapped, allowed, present, translated (R298, R313),
and no home held (R223, R227). -/
def granReady (s : State) (c : Chan) (g : Nat) : Bool :=
  (jobSides c g).all (fun e => (piecesOf e.1 (granLen c g)).all (fun p => match xlate s c.job p.1 e.2 with
    | .at_ a => !(s.job c.job).ats || atcCovers s c.job a e.2
    | .fault _ _ _ => false)) &&
  (c.src.handle = 0 || ((missingAt s c.job c.src.handle (granAt c.src g) (granLen c g)).isNone && rangeFree s c.job c.src.handle (granAt c.src g) (granLen c g))) &&
  (c.dst.handle = 0 || ((missingAt s c.job c.dst.handle (granAt c.dst g) (granLen c g)).isNone && rangeFree s c.job c.dst.handle (granAt c.dst g) (granLen c g)))

/-- Host poison met by a granule poisons every granule it was to fill (R480). -/
def hostPoisons (s : State) (c : Chan) (g : Nat) : Bool :=
  c.src.handle = 0 && (match jobRead s c.job (granAt c.src g) (granLen c g) with | .poison => true | _ => false)

/-- The done count after the granules of a list: it advances while the next lower granule is complete (R308). -/
def advanceDone : Nat → Nat → List Nat → Nat × List Nat
  | 0, d, l => (d, l)
  | n + 1, d, l => if l.contains d then advanceDone n (d + 1) (l.filter (fun x => x != d)) else (d, l)

/-- The disabled unit that a granule's device side would reach, if any (R64). -/
def granOff (s : State) (c : Chan) (g : Nat) : Option Nat :=
  ([c.src, c.dst].flatMap (fun x => if x.handle = 0 then [] else (homesOf s c.job x.handle (granAt x g) (granLen c g)).map (fun h => h.unit))).find?
    (fun u => !s.unitOn u)

/-- A granule completes: read, written, counted; the last one completes the command (R308). A request to a disabled unit fails
and its command with it (R64). -/
def granuleDone (c g : Nat) (s : State) : State :=
  let x := s.chan c
  if !(decide (c < 80) && x.state = 1 && decide (x.done ≤ g) && decide (g < min x.total (x.done + 16)) && !x.above.contains g && granReady s x g) then s
  else match granOff s x g with
  | some u => dmaEnd c 0x13 0 u (flt 0x5110 u 0xFF 0 (locCause 5 u) s)
  | none =>
    let s := if x.src.handle = 0 then s else readDev 0 x.job x.src.handle (granAt x.src g) (granLen x g) s
    match granRead s x g with
    | .error o =>
      dmaEnd c 0x50 (o.1 * 256) o.2 (flt 0x1908 o.2 x.job 0 (locDma c 0 (granAt x.src g))
        (flt 0x1907 o.2 x.job 0 { handle := x.src.handle, off := granAt x.src g } (s.modChan c (fun y => { y with state := 3 }))))
    | .ok bs =>
      let put (s : State) : State :=
        if x.dst.handle = 0 then (jobWrite s x.job (granAt x.dst g) bs).2 else imageWrite x.job x.dst.handle (granAt x.dst g) bs s
      let s1 :=
        if hostPoisons s x g && x.dst.handle != 0 then
          match s.decl x.job x.dst.handle with
          | some d =>
            let off := granAt x.dst g
            let u := if (homeOf s x.job x.dst.handle off).tier = 2 then 32 else 64
            let m := off / u
            forAll (List.range ((off + granLen x g + u - 1) / u - m)) (fun i s => s.poisonUnit (devKey x.job x.dst.handle d.buf (u * (m + i))) u) s
          | none => s
        else put s
      let a := advanceDone 17 x.done (g :: x.above)
      let s2 := s1.modChan c (fun y => { y with done := a.1, above := a.2 })
      if a.1 = x.total then dmaEnd c 0x00 0 0xFF s2 else s2

/-- DMA_GRANULE_DONE (R308). -/
def execDmaGranuleDone (ch granule : Nat) (s : State) : Res := onWorld (through xHost (.dmaGranuleDone ch granule) (granuleDone ch granule)) s

/-! ### Parks (R309-R314) -/

/-- The faults of a granule's accesses: (kind, address, host page). A host answer the module cannot foresee is the event's
own word: kind 2 with ATS, kind 4 without (R298, R313). -/
def granFaults (s : State) (c : Chan) (g : Nat) : List (Nat × Nat × Nat) :=
  let n := granLen c g
  (jobSides c g).flatMap (fun e => (piecesOf e.1 n).map (fun p => match mapOf s c.job p.1 with
    | none => (1, p.1, 0)
    | some m =>
      let h := m.host + (p.1 - m.dva)
      if !bit m.access (if e.2 then 1 else 0) then (5, p.1, 0)
      else (if (s.job c.job).ats then 2 else 4, p.1, h / 4096))) ++
  ([c.src, c.dst].flatMap (fun x => if x.handle = 0 then [] else match missingAt s c.job x.handle (granAt x g) n with
    | some _ => [(3, granAt x g, 0)]
    | none => []))

/-- A parked stream whose fault cannot be made present: its owner's outcome (R314). -/
def parkFail (c : Nat) (s : State) : State :=
  let x := s.chan c
  let s1 := flt 0x1802 0x03 x.job 0 (locDma c x.kind x.parkAt) (s.modJob x.job (fun b => { b with parked := b.parked - 1 }))
  dmaEnd c 0x40 0 0x03 s1

/-- Lazy restore takes the granule a stream waits on first (R313). -/
def lazyFirst (j h off n : Nat) (s : State) : State :=
  match missingAt s j h off n with
  | some e => s.onW (fun w => { w with mr := { w.mr with missing := e :: w.mr.missing.filter (fun x => x != e) } })
  | none => s

/-- A granule of a stream lies on a block that lazy restore cannot make present (R437). -/
def goneAt (s : State) (c : Chan) (g : Nat) : Bool :=
  [c.src, c.dst].any (fun x => x.handle != 0 && (match missingAt s c.job x.handle (granAt x g) (granLen c g) with
    | some e => s.w.mr.gone.contains e
    | none => false))

/-- What every park does (R309, R312): counted, located, granules above the park point discarded. -/
def parkStream (c kind addr : Nat) (s : State) : State :=
  let x := s.chan c
  flt 0x1801 0x03 x.job 0 (locDma c kind addr)
    ((s.setChan c { x with state := 2, above := [], parkAt := addr, kind := kind }).modJob x.job (fun b => { b with
      faults := satAdd 32 b.faults 1, parked := satAdd 8 b.parked 1, lastFault := addr }))

/-- A page that a Page Request may make present: PRI and demand paging (R300). -/
def canRequest (s : State) (j a : Nat) : Bool :=
  (s.job j).pri && !s.w.mmu.priStopped && (match mapOf s j a with
    | some m => m.demand
    | none => false)

/-- A granule of a DMA_COPY meets a fault of a kind: the stream parks; kinds 1, 4 and 5 cannot be made present (R309, R313). -/
def streamPark (c g kind : Nat) (s : State) : State :=
  let x := s.chan c
  if !(decide (c < 80) && x.state = 1 && decide (x.done ≤ g) && decide (g < min x.total (x.done + 16))) then s
  else match (granFaults s x g).find? (fun f => f.1 == kind) with
    | none => s
    | some f =>
      let s1 := parkStream c kind f.2.1 s
      if kind = 2 && !canRequest s x.job f.2.1 then parkFail c s1
      else if kind = 2 then pageRequest x.job f.2.2 (s1.onW (fun w => { w with hostAbsent := (f.2.2 :: w.hostAbsent).eraseDups }))
      else if kind = 3 && goneAt s x g then parkFail c s1
      else if kind = 3 then lazyFirst x.job x.dst.handle (granAt x.dst g) (granLen x g) (lazyFirst x.job x.src.handle (granAt x.src g) (granLen x g) s1)
      else parkFail c s1

/-- A parked stream resumes from its park point (R309). -/
def resumeStream (c : Nat) (s : State) : State :=
  let x := s.chan c
  (s.setChan c { x with state := 1, kind := 0 }).modJob x.job (fun b => { b with parked := b.parked - 1 })

/-- Channels of a job parked on a fault kind. -/
def parkedOn (s : State) (j kind : Nat) : List Nat :=
  (List.range 128).filter (fun c => (s.chan c).state = 2 && (s.chan c).job = j && (s.chan c).kind = kind)

/-- Channels parked on a host page of a job. -/
def parkedPage (s : State) (j page : Nat) : List Nat :=
  (parkedOn s j 2).filter (fun c => match mapOf s j (s.chan c).parkAt with
    | some m => (m.host + ((s.chan c).parkAt - m.dva)) / 4096 == page
    | none => true)

/-! ### Saves and restores that meet a fault (R314, R319, R320) -/

/-- The result of JOB_PREEMPT (R279). -/
def preemptResult (b : Job) : Bytes := layout [(8, b.preStep), (2, b.boundary)]

/-- The step a resumed job goes on with. -/
def resumeResult (b : Job) : Bytes := leBytes 8 (match b.run with | some r => r.step | none => b.nextStep.getD 0)

/-- Free the four channels of a job. -/
def freeQuarters (j : Nat) (s : State) : State :=
  forAll (List.range 4) (fun i s =>
    if (s.chan (120 + i)).job = j && (s.chan (120 + i)).state != 0 then
      (s.modJob j (fun b => { b with parked := if (s.chan (120 + i)).state = 2 then b.parked - 1 else b.parked })).setChan (120 + i) {}
    else s) s

/-- A fault of a save or restore cannot be made present. -/
def quarterFail (c : Nat) (s : State) : State :=
  let x := s.chan c
  let j := x.job
  let s1 := flt 0x1803 0x03 j (s.job j).preStep (locDma c x.kind x.parkAt) s
  if (s.job j).pstate = 2 then
    completeAll (fun r => r.op = 0x0104 && r.hdr.job = j) 0x40 0 0x03 (fun _ => resumeResult (s.job j))
      (syncPlan false ((freeQuarters j s1).onW (fun w => { w with holder := if w.holder = some j then none else w.holder })))
  else
    completeAll (fun r => r.op = 0x0103 && r.hdr.job = j) 0x40 0 0x03 (fun _ => preemptResult (s.job j)) (s1.modJob j (fun b => { b with pstate := 3 }))

/-- A parked stream's fault is of kind 1 now: its owner's outcome (R314, R322). -/
def parkLost (c : Nat) (s : State) : State :=
  let x := s.chan c
  let s1 := s.modChan c (fun y => { y with kind := 1 })
  if c < 80 then parkFail c s1
  else if c < 96 then failWaiting x.job 0x40 0 0x02 0xFFFF (flt 0x1802 0x03 x.job 0 (locDma c 1 x.parkAt) (freeInputs x.job s1))
  else if c < 112 then ckptFault c x.job 1 x.parkAt s1
  else quarterFail c s1

/-- MEM_UNMAP's own part (R286, R297, R322): pages go, cached translations of them are dropped, and a stream parked on a
page that went fails with kind 1. -/
def memUnmapOwn (h : Hdr) (dva len : Nat) (s : State) : Cmd :=
  let cut (m : Mapping) : List Mapping × Bool := if m.job = h.job then cutMapping dva (dva + len) m else ([m], false)
  let gone := s.w.mmu.maps.any (fun m => (cut m).2)
  let lost (e : Atc) : Bool := s.w.mmu.maps.any (fun m => (cut m).2 && e.job == h.job && decide (e.host < m.host + m.len) && decide (m.host < e.host + e.size))
  let s1 := s.onW (fun w => { w with mmu := { w.mmu with
    maps := w.mmu.maps.flatMap (fun m => (cut m).1)
    atc := w.mmu.atc.filter (fun e => !lost e) } })
  if !gone then noteC s 1
  else okC (forAll ((parkedOn s1 h.job 2).filter (fun c => (mapOf s1 h.job (s1.chan c).parkAt).isNone)) parkLost s1)

def runMemUnmap (h : Hdr) (dva len : Nat) : State → State := startCmd (.memUnmap h dva len) 0x0202 h (memUnmapOwn h dva len)

/-- MEM_UNMAP (R297). -/
def execMemUnmap (h : Hdr) (dva len : Nat) (s : State) : Res := onWorld (runMemUnmap h dva len) s

/-! ### BAR4 apertures (R301, R302) -/

/-- Serve an aperture access whose block and homes are there: a poisoned read carries the mark (R481). -/
def serveAp (a : ApAcc) (s : State) : State :=
  if a.write then imageWrite a.job a.handle a.off a.data s
  else
    let s1 := readDev 0 a.job a.handle a.off a.len s
    match imageBad s1 a.job a.handle a.off a.len with
    | some o => (flt 0x1907 o.2 a.job 0 { handle := a.handle, off := a.off } s1).emit (.completion 3 (imageRead s1 a.job a.handle a.off a.len))
    | none => s1.emit (.completion 0 (imageRead s1 a.job a.handle a.off a.len))

/-- An access cannot be served yet: its block is not resident, or a home is held (R223, R227, R302). -/
def apHeld (s : State) (a : ApAcc) : Bool :=
  (missingAt s a.job a.handle a.off a.len).isSome || !rangeFree s a.job a.handle a.off a.len

/-- Serve the waiting accesses that can be served now, in the order they came; one behind another on the same declaration waits
(R220). -/
def serveWaiting (s : State) : State :=
  (s.w.apWait).foldl (fun s a =>
    let first := (s.w.apWait.find? (fun x => x.job == a.job && x.handle == a.handle)) == some a
    if !first || apHeld s a then s
    else serveAp a (s.onW (fun w => { w with apWait := w.apWait.erase a }))) s

/-- Streams and accesses that wait for a block which cannot be made present end (R314, R437); a waiting read completes with
Completer Abort. -/
def failGone (s : State) : State :=
  let j := s.w.mr.callJob
  let s1 := forAll ((parkedOn s j 3).filter (fun c => decide (c < 80) && goneAt s (s.chan c) (s.chan c).done)) parkFail s
  let hit (a : ApAcc) : Bool := match missingAt s1 a.job a.handle a.off a.len with
    | some e => s1.w.mr.gone.contains e
    | none => false
  let l := s1.w.apWait.filter hit
  forAll (l.filter (fun a => !a.write)) (fun _ s => s.emit (.completion 1 [])) (s1.onW (fun w => { w with apWait := w.apWait.filter (fun a => !hit a) }))

/-- A host access through aperture `ap` (R302): Unsupported Request where it names nothing; an access to a disabled
controller follows R64. -/
def apAccess (write : Bool) (ap off len : Nat) (data : Bytes) (s : State) : State :=
  let x := tget {} s.w.mmu.ap ap
  let n := if write then data.length else len
  let o := x.offset + off
  let ur (s : State) : State := if write then s else s.emit (.completion 2 [])
  if n = 0 then s
  else if !(decide (ap < 16) && x.en && s.live x.job) then ur s
  else match s.decl x.job x.handle with
    | none => ur s
    | some d =>
      if d.imageBytes < o + n then ur s
      else match (homesOf s x.job x.handle o n).find? (fun h => !s.unitOn h.unit) with
        | some h => disabledHit h.unit write s
        | none =>
          let a : ApAcc := { write := write, job := x.job, handle := x.handle, off := o, len := n, data := data }
          if apHeld s a || s.w.apWait.any (fun y => y.job == x.job && y.handle == x.handle) then
            let s1 := s.onW (fun w => { w with apWait := w.apWait ++ [a] })
            let s2 := forAll ((homesOf s x.job x.handle o n).filter (fun h => h.tier == 1 && homeHeld s h)) (fun h s =>
              s.modPc h.place (fun p => { p with hold := min (p.hold + 1) 1024 })) s1
            lazyFirst x.job x.handle o n s2
          else serveAp a s

/-- APERTURE_ACCESS (R302). -/
def execApertureAccess (write : Bool) (ap off len : Nat) (data : Bytes) (s : State) : Res := onCore (apAccess write ap off len data) s

/-! ### Held accesses are served when a hold ends (R223, R227, R505) -/

/-- STK_RETRAIN (R226): held accesses that no longer wait are served. -/
def execStkRetrain (stack value : Nat) (s : State) : Res :=
  onCore (fun s => if 12 ≤ stack then s else hostWrite (0x10 + stack) (retrainWrite stack value) s) s

/-- PC_RETRAIN_DONE (R228). -/
def execPcRetrainDone (stack pc : Nat) (ok : Bool) (badLanes : List Nat) (s : State) : Res :=
  onWorld (fun s => serveWaiting (retrainDone stack pc ok badLanes s)) s

/-- LPDDR_TRIP_EXIT (R505). -/
def execLpddrTripExit (pkg : Nat) (s : State) : Res := onWorld (fun s => if pkg < 24 then serveWaiting (lpTripExit pkg s) else s) s

/-! ### Tier-3 timeouts (R236) -/

/-- A CXL.mem request is unanswered after 50 µs: the response is poison, and its consumer is a DMA channel reading the granule or
else the job's step. -/
def cxlTimeout (dev : Nat) (g : Gran) (s : State) : State :=
  if !(decide (dev < 4) && (tget {} s.w.cxl dev).present) then s
  else
    let d := s.draw
    let loc : Loc := { locCxl dev (d.1 % 2 ^ 64) with handle := g.handle, off := 4096 * g.g }
    let s1 := flt 0x1603 0x28 (if g.job < 64 then g.job else 0xFF) 0 loc
      (d.2.onW (fun w => { w with cxl := tmod {} w.cxl dev (fun x => { x with poison := satAdd 32 x.poison 1 }) }))
    let s2 := flt 0x1907 0x28 (if g.job < 64 then g.job else 0xFF) 0 { handle := g.handle, off := 4096 * g.g } s1
    match (List.range 80).find? (fun c => let x := s.chan c; x.state = 1 && x.job = g.job && x.src.handle = g.handle &&
        decide (x.src.pos < 4096 * (g.g + 1)) && decide (4096 * g.g < x.src.pos + x.len)) with
    | some c => dmaEnd c 0x50 (3 * 256) 0x28 (flt 0x1908 0x28 g.job 0 (locDma c 0 (4096 * g.g)) s2)
    | none => match (s.job g.job).run with
      | some r => failStep g.job r.step { status := 0x50, detail := 3 * 256, unit := 0x28 } [] s2
      | none => s2

/-- CXL_TIMEOUT (R236). -/
def execCxlTimeout (dev : Nat) (g : Gran) (s : State) : Res := onWorld (cxlTimeout dev g) s

end Sys2Proof.Machine
end

