-- ==== Sys2Proof/Machine/Jobs.lean ====
section
/-! DEFINITION. Job contexts: creating, re-adopting and destroying a job (R293, R294, R322, R467), pre-empting and resuming it
(R317-R321). -/

namespace Sys2Proof.Machine

open Sys2Proof

/-! ### Releasing a job -/

/-- Drop everything the module keeps for a job (R293, R322): its memory, mappings, apertures, the array, its collectives,
barriers and messages. -/
def releaseJob (j : Nat) (s : State) : State :=
  let mine (k : Nat) : Bool := k / 2 ^ 81 == j
  let s1 := if s.w.ck.job = j then (disarm s).onW (fun w => { w with ck := { w.ck with state := 0, gen := 0, job := 0xFF } }) else s
  (dropLines (fun x _ => x == j) s1).onW (fun w => { w with
    jobs := tput {} w.jobs j {}
    holder := if w.holder = some j then none else w.holder
    mmu := { w.mmu with
      maps := w.mmu.maps.filter (fun m => m.job != j), atc := w.mmu.atc.filter (fun e => e.job != j)
      ap := w.mmu.ap.map (fun e => (e.1, if e.2.job = j then { e.2 with en := false } else e.2)) }
    dev := w.dev.filter (fun e => !mine e.1)
    poison := w.poison.filter (fun k => !mine k.1)
    stale := w.stale.filter (fun g => g.job != j)
    reloc := w.reloc.filter (fun e => e.1 != j)
    inject := w.inject.filter (fun e => !mine e.1)
    apWait := w.apWait.filter (fun a => a.job != j)
    reel := { w.reel with
      invs := w.reel.invs.filter (fun v => v.job != j), bars := w.reel.bars.filter (fun x => x.job != j)
      huds := w.reel.huds.filter (fun x => x.job != j) }
    msgs := { w.msgs with held := w.msgs.held.filter (fun e => e.2.job != j) }
    mr := if w.mr.callJob = j then { w.mr with callJob := 0xFF, missing := [], pulled := [], gone := [], cold := [], hotIn := false } else w.mr }) |> syncPlan false

/-- The entry of a job in the survival record that has not been adopted (R463, R467). -/
def survivor (s : State) (j : Nat) : Option SurvJob := s.ctl.surv.jobs.find? (fun e => e.job == j && !e.taken)

/-- The entry of a job has served: the job is re-adopted or released. -/
def takeSurvivor (j : Nat) (s : State) : State :=
  { s with ctl := { s.ctl with surv := { s.ctl.surv with jobs := updWhere (fun e => e.job == j) (fun e => { e with taken := true }) s.ctl.surv.jobs } } }

/-- The surviving state of a job is released (R467). -/
def releaseSurvivor (j : Nat) (s : State) : State := takeSurvivor j (releaseJob j s)

/-! ### JOB_CREATE (R294, R467) -/

def destroying (s : State) (j : Nat) : Bool := s.w.inflight.any (fun r => r.op = 0x0102 && r.hdr.job = j)

/-- The result of JOB_CREATE (R279). -/
def createResult (job epoch : Nat) : Bytes := layout [(1, job), (3, 0), (4, epoch)]

/-- The cell that a progress watchdog found stuck takes its strike at the first readoption (R469). -/
def stuckStrike (n : Nat) (s : State) : State :=
  let v := s.ctl.surv
  if v.cause = 5 && !v.struck && decide (0x50 ≤ v.causeDetail % 256) && decide (v.causeDetail % 256 ≤ 0x53) then
    strike (144 * bits v.causeDetail 9 8 + bits v.causeDetail 25 10) n { s with ctl := { s.ctl with surv := { v with struck := true } } }
  else s

/-- Re-adopt a job (R467). -/
def readopt (j : Nat) (flags : Nat) (e : SurvJob) (s : State) : State :=
  let s1 := stuckStrike e.lastGood (flt0 0x5405 0xFF j e.lastGood ((takeSurvivor j s).modJob j (fun b => { b with
    live := true, pasid := e.pasid, ats := bit flags 0, pri := bit flags 1 })))
  let b := s1.job j
  if b.pstate = 2 && bit e.flags 1 then s1
  else
    (rollbackFrom j (goodKey (goodStep b)) (s1.modJob j (fun b => { b with pstate := 0, run := none, fronts := [], stagedMode := none, commit := none }))) |>.onW
      (fun w => { w with holder := if w.holder.isNone && b.cur.isSome then some j else w.holder }) |> syncPlan true

/-- JOB_CREATE's own part (R286, R294, R467). -/
def jobCreateOwn (job pasid flags : Nat) (s : State) : Cmd :=
  let p := pasid % 2 ^ 20
  if 64 ≤ job then badC s 16
  else
    let b := s.job job
    if destroying s job then failC s 0x30
    else if b.live then
      (if b.pasid = p && b.ats == bit flags 0 && b.pri == bit flags 1 then noteC s 1 (createResult job b.modeEpoch) else failC s 0x30)
    else match survivor s job with
      | some e =>
        if e.pasid = p then noteC (readopt job flags e s) 1 (createResult job e.modeEpoch)
        else okC ((releaseSurvivor job s).setJob job { live := true, pasid := p, ats := bit flags 0, pri := bit flags 1, saveDva := b.saveDva }) (createResult job 1)
      | none => okC (s.setJob job { live := true, pasid := p, ats := bit flags 0, pri := bit flags 1, saveDva := b.saveDva }) (createResult job 1)

def runJobCreate (h : Hdr) (job pasid flags : Nat) : State → State := startCmd (.jobCreate h job pasid flags) 0x0101 h (jobCreateOwn job pasid flags)

/-- JOB_CREATE (R294). -/
def execJobCreate (h : Hdr) (job pasid flags : Nat) (s : State) : Res := onCore (runJobCreate h job pasid flags) s

/-! ### JOB_DESTROY (R293, R322) -/

/-- Queues bound to a job that are not disabled. -/
def boundQueues (s : State) (j : Nat) : List Nat :=
  (s.w.queues.filter (fun e => e.1 != 0 && e.2.job == j && e.2.state != 0)).map (fun e => e.1)

/-- JOB_DESTROY completes once its job's queues are drained; the job's state is released then. -/
def settleDestroy (s : State) : State :=
  forAll (s.w.inflight.filter (fun r => r.op = 0x0102 && (boundQueues s r.hdr.job).isEmpty)) (fun r s => complete r 0 0 0xFF [] (releaseJob r.hdr.job s)) s

/-- Running commands of the job end with PREEMPTED, its streams stop, its queues drain. -/
def stopJob (j : Nat) (s : State) : State :=
  let s1 := s.modJob j (fun b => { b with live := false, waiting := [] })
  let s2 := abortMode j s1
  let s3 := forAll ((List.range 80).filter (fun c => (s2.chan c).state != 0 && (s2.chan c).job = j)) (fun c s => dmaEnd c 0x31 0 0xFF s)
    (s2.onW (fun w => { w with dmaWait := w.dmaWait.filter (fun e => e.2.job != j) }))
  let s4 := forAll ((List.range 48).filter (fun c => (s3.chan (80 + c)).job = j)) (fun c s => s.setChan (80 + c) {}) s3
  let s5 := s4.onW (fun w => { w with waits := w.waits.filter (fun x => x.hdr.job != j) })
  let res (r : Run) : Bytes :=
    if r.op = 0x0302 || r.op = 0x0602 then layout [(8, r.a), (4, 0), (1, 0), (1, 0), (2, 0xFFFF)] else []
  let s6 := completeAll (fun r => r.hdr.job = j && r.op != 0x0102 && r.op != 0x0002) 0x31 0 0xFF res s5
  forAll (boundQueues s6 j) disableQueue s6

/-- JOB_DESTROY's own part. -/
def jobDestroyOwn (h : Hdr) (s : State) : Cmd :=
  if !s.live h.job then noteC (if destroying s h.job then s else releaseSurvivor h.job s) 1
  else .later s 0 0

def runJobDestroy (h : Hdr) (s : State) : State :=
  let s1 := startCmd (.jobDestroy h) 0x0102 h (jobDestroyOwn h) s
  if accepted s s1 then settleDestroy (stopJob h.job s1) else s1

/-- JOB_DESTROY (R293). -/
def execJobDestroy (h : Hdr) (s : State) : Res := onCore (runJobDestroy h) s

/-! ### JOB_PREEMPT (R318-R320) -/

/-- Micro-batches of a job's current set. -/
def jobMb (b : Job) : Nat := match b.cur with | some t => t.mb | none => 0

/-- A module's front (R318): the lowest micro-batch not yet admitted, or B. -/
def frontOf (b : Job) : Nat :=
  match b.run with
  | none => 0
  | some r => match r.phase with
    | .run => min r.admitted (jobMb b)
    | _ => jobMb b

/-- A pre-emption waits for a huddle or a let replay to end (R318). -/
def preemptDeferred (s : State) (j : Nat) : Bool :=
  (hudOf s j).isSome || (match (s.job j).run with | some r => r.replay | none => false)

/-- Fronts of every live member are known. -/
def frontsKnown (s : State) (j : Nat) : Bool := (liveMembers s j).all (fun n => (s.job j).fronts.any (fun f => f.1 == n))

/-- Boundary x is the largest front (R318); at B the step runs on to its barrier exit. -/
def agreeFronts (j : Nat) (s : State) : State :=
  if !frontsKnown s j then s
  else
    let b := s.job j
    let x := (b.fronts.map (fun f => f.2)).foldl max 0
    modRun j (fun r => if jobMb b ≤ x then { r with cut := none } else { r with
      cut := some x, parts_ := r.parts_.filter (fun y => decide (y < x)) ++ [x] }) s

/-- Stop admitting F visits, tell every module of the job, contribute the front (R318 beats 1 and 2). -/
def startPreempt (j : Nat) (s : State) : State :=
  let b := s.job j
  let me := s.w.topo.node
  let f := frontOf b
  let s1 := modRun j (fun r => { r with cut := some f }) (s.modJob j (fun b => { b with pstate := 1, fronts := (me, f) :: b.fronts.filter (fun x => x.1 != me) }))
  agreeFronts j (controlAll j 0 6 0 me b.modeEpoch f 0 0 s1)

/-- JOB_PREEMPT's own part (R286, R318, R320). -/
def jobPreemptOwn (h : Hdr) (s : State) : Cmd :=
  let b := s.job h.job
  if b.pstate = 2 then noteC s 1 (preemptResult b) else .later s 0 (b2n (b.pstate = 1))

/-- A save that could not go on goes on from its park points (R320). -/
def continueSave (j : Nat) (s : State) : State :=
  forAll ((List.range 4).map (120 + ·)) (fun c s => if (s.chan c).job = j && (s.chan c).state = 2 then resumeStream c s else s)
    (s.modJob j (fun b => { b with pstate := 1 }))

def runJobPreempt (h : Hdr) (s : State) : State :=
  let s1 := startCmd (.jobPreempt h) 0x0103 h (jobPreemptOwn h) s
  if !accepted s s1 then s1
  else if (s1.job h.job).pstate = 3 then continueSave h.job s1
  else if (s1.job h.job).pstate = 0 && !preemptDeferred s1 h.job then startPreempt h.job s1
  else s1

/-- JOB_PREEMPT (R318). -/
def execJobPreempt (h : Hdr) (s : State) : Res := onWorld (runJobPreempt h) s

/-- A notice of another module: it stops this one too, and gives that module's front (R318). -/
def preemptionNotice (j node front : Nat) (s : State) : State :=
  if !s.live j || 2 ≤ (s.job j).pstate then s
  else
    let s0 := s.modJob j (fun b => { b with fronts := (node, front) :: b.fronts.filter (fun x => x.1 != node) })
    if (s0.job j).pstate = 0 && !preemptDeferred s0 j then startPreempt j s0 else agreeFronts j s0

/-- PREEMPTION_NOTICE (R318). -/
def execPreemptionNotice (job node front : Nat) (s : State) : Res := onWorld (preemptionNotice job node front) s

/-- The save is under way on its channels. -/
def saving (s : State) (j : Nat) : Bool := (List.range 4).any (fun i => (s.chan (120 + i)).state != 0 && (s.chan (120 + i)).job = j)

/-- A channel's quarter of a save or restore (R319): its stream over the save area, or with none over a device region. -/
def quarter (b : Job) (j i : Nat) (save : Bool) : Chan :=
  let n := (b.saveKib + 3) / 4 * 1024
  let area : Side := if b.saveDva = 0 then { handle := 2 ^ 32, pos := i * n } else { handle := 0, pos := b.saveDva + i * n }
  let die : Side := { handle := 2 ^ 32, pos := i * n }
  { state := 1, user := 4, job := j, len := n, total := (n + 4095) / 4096, src := if save then die else area, dst := if save then area else die }

/-- Start the four streams of a save or restore. -/
def startQuarters (j : Nat) (save : Bool) (s : State) : State :=
  forAll (List.range 4) (fun i s => s.setChan (120 + i) (quarter (s.job j) j i save)) s

/-- The module stands at boundary x: the save starts, of a size the spec bounds and does not give (R318, R319). -/
def boundaryReached (j : Nat) (s : State) : State :=
  if !s.live j then s
  else
    let s := if (s.job j).pstate = 0 && s.w.inflight.any (fun r => r.op = 0x0103 && r.hdr.job = j) && !preemptDeferred s j then startPreempt j s else s
    let b := s.job j
    if b.pstate != 1 || saving s j || !frontsKnown s j then s
    else
      let at_ : Option (Nat × Nat) := match b.run with
        | none => some ((match b.nextStep with
          | some n => n
          | none => 0), 0)
        | some r => match ctxOf s j, r.cut with
          | some c, some x => if r.phase == .run && c.atBoundary x then some (r.step, x) else none
          | _, _ => none
      match at_ with
      | none => s
      | some (n, x) =>
        let d := s.draw
        startQuarters j true (d.2.modJob j (fun b => { b with preStep := n, boundary := x, saveKib := 1 + d.1 % 2662400 }))

/-- PREEMPT_BOUNDARY_REACHED (R318). -/
def execPreemptBoundaryReached (job : Nat) (s : State) : Res := onWorld (fabric (.preemptBoundaryReached job) (boundaryReached job)) s

/-- Every granule still to move of a job's save or restore is mapped with the access it needs (R298, R320). -/
def quartersMapped (s : State) : Bool :=
  (List.range 4).all (fun i =>
    let x := s.chan (120 + i)
    (List.range (x.total - x.done)).all (fun g => (granFaults s x (x.done + g)).all (fun f => f.1 == 2 || f.1 == 4)))

/-- The save is complete: the job is pre-empted, the array released, JOB_PREEMPT completes (R318 beats 4 and 5). -/
def saveDone (j : Nat) (s : State) : State :=
  let b := s.job j
  if b.pstate != 1 || !saving s j || !(List.range 4).all (fun i => (s.chan (120 + i)).state ≤ 1) || !quartersMapped s then s
  else
    let s1 := syncPlan false ((freeQuarters j s).onW (fun w => { w with holder := if w.holder = some j then none else w.holder }))
    let s2 := s1.modJob j (fun b => { b with pstate := 2, fronts := [] })
    let s3 := completeAll (fun r => r.op = 0x0103 && r.hdr.job = j && r.b = 0) 0 0 0xFF (fun _ => preemptResult (s2.job j)) s2
    completeAll (fun r => r.op = 0x0103 && r.hdr.job = j) 0x01 1 0xFF (fun _ => preemptResult (s2.job j)) s3

/-- PREEMPT_SAVE_DONE (R319). -/
def execPreemptSaveDone (job : Nat) (s : State) : Res := onWorld (through xHost (.preemptSaveDone job) (saveDone job)) s

/-! ### JOB_RESUME (R321) -/

/-- The job runs on from its boundary: its visits are admitted again. -/
def goOn (j : Nat) (s : State) : State :=
  modRun j (fun r => { r with cut := none }) (s.modJob j (fun b => { b with pstate := 0, fronts := [], consNext := true, topoDue := true }))

/-- JOB_RESUME's own part (R286, R317, R320, R321). -/
def jobResumeOwn (h : Hdr) (s : State) : Cmd :=
  let j := h.job
  let b := s.job j
  if b.pstate = 0 then noteC s 1 (resumeResult b)
  else if b.pstate = 1 then failC s 0x30
  else if b.pstate = 3 then okC (goOn j (freeQuarters j s)) (resumeResult b)
  else if heldByOther s j || saving s j then failC s 0x30
  else match b.cur with
    | none => .later (syncPlan false (s.onW (fun w => { w with holder := some j }))) 0 0
    | some t => match placeJob s j t b.place.cause with
      | none => failC s 0x20
      | some p => .later (syncPlan false ((s.modJob j (fun b => { b with place := p.1 })).onW (fun w => { w with holder := some j }))) 0 0

def runJobResume (h : Hdr) (s : State) : State :=
  let s1 := startCmd (.jobResume h) 0x0104 h (jobResumeOwn h) s
  if accepted s s1 then startQuarters h.job false s1 else startWaiting h.job s1

/-- JOB_RESUME (R321). -/
def execJobResume (h : Hdr) (s : State) : Res := onWorld (runJobResume h) s

/-- The figure stores are written and the save is back (R321): the job runs on. -/
def restoreDone (j : Nat) (s : State) : State :=
  if !(s.w.inflight.any (fun r => r.op = 0x0104 && r.hdr.job = j)) || !(List.range 4).all (fun i => (s.chan (120 + i)).state ≤ 1) ||
    !quartersMapped s then s
  else
    let s1 := goOn j (freeQuarters j s)
    startWaiting j (completeAll (fun r => r.op = 0x0104 && r.hdr.job = j) 0 0 0xFF (fun _ => resumeResult (s1.job j)) s1)

/-- RESUME_RESTORE_DONE (R321). -/
def execResumeRestoreDone (job : Nat) (s : State) : Res := onWorld (through xHost (.resumeRestoreDone job) (restoreDone job)) s

/-! ### A save or restore that meets a fault (R314, R320) -/

/-- A granule of a save or restore meets a fault: the stream parks (R309, R320). -/
def quarterPark (c g kind : Nat) (s : State) : State :=
  let x := s.chan c
  if !(x.state = 1 && decide (g < x.total)) then s
  else match (granFaults s x g).find? (fun f => f.1 == kind) with
    | none => s
    | some f =>
      let s1 := parkStream c kind f.2.1 (s.modChan c (fun y => { y with done := g }))
      if kind = 2 && canRequest s x.job f.2.1 then pageRequest x.job f.2.2 (s1.onW (fun w => { w with hostAbsent := (f.2.2 :: w.hostAbsent).eraseDups }))
      else quarterFail c s1

/-- STREAM_PARK (R309). -/
def execStreamPark (ch granule kind : Nat) (s : State) : Res :=
  onWorld (fun s => if 120 ≤ ch && ch < 124 then quarterPark ch granule kind s else streamPark ch granule kind s) s

end Sys2Proof.Machine
end

