-- ==== Sys2Proof/Machine/Protect.lean ====
section
/-! DEFINITION. Protection of stored data: scrubbing (R484, R485, R490), retirement of pages and banks (R491-R494), the checker
injector (R495-R497). -/

namespace Sys2Proof.Machine

open Sys2Proof

/-! ### Scrubbing -/

/-- A cell-store word that a scrub corrected or found uncorrectable (R479, R490). -/
def scrubCell (k word : Nat) (ue : Bool) (s : State) : State :=
  let unit := 0x50 + k / 144
  if ue then
    flt 0x1902 unit 0xFF 0 (locWord k word) (s.modCell k (fun c => { c with ue := satAdd 8 c.ue 1, poisoned := true, flips := c.flips.filter (fun e => e.1 != word) }))
  else
    let win := (s.cell k).ceWin.filter (recent s.now)
    let s1 := countCe 1 (s.modCell k (fun c => { c with ce := satAdd 16 c.ce 1, ceWin := s.now :: win, flips := c.flips.filter (fun e => e.1 != word) }))
    if win.length = 16 then flt 0x1901 unit 0xFF 0 (locWord k word) s1 else s1

/-- A figure-store word (R479, R484): the cell counts a corrected one with its others, an uncorrectable one spoils the figure. -/
def scrubFigure (k word : Nat) (ue : Bool) (s : State) : State :=
  if ue then s.modCell k (fun c => { c with ue := satAdd 8 c.ue 1, figBad := true }) else scrubCell k (262144 + word) false s

/-- The words of the cell stores that an injection has struck, as a pass reads them (R484, R495): one flipped bit is corrected, two
are uncorrectable, and what the code makes of more the spec leaves open: a free value. -/
def scrubFlips (s : State) : State :=
  forAll ((tkeys s.w.cells).filter (fun k => s.unitOn (0x50 + k / 144))) (fun k s => forAll (s.cell k).flips (fun e s =>
    let n := popCount e.2 72
    let x := if n ≤ 2 then (n - 1, s) else s.draw
    if x.1 % 3 = 2 then x.2 else scrubCell k e.1 (x.1 % 3 = 1) x.2) s) s

/-- A hub memory word (R458 cause 7, R479). -/
def scrubHub (mem word : Nat) (ue : Bool) (s : State) : State :=
  if ue then
    let s1 := flt 0x1906 0xFF 0xFF 0 (locHub mem word) s
    { s1 with ctl := { s1.ctl with health := { s1.ctl.health with resetDue := 7 } } }
  else
    let win := s.w.hubCe.filter (fun e => recent s.now e.2)
    let n := (win.filter (fun e => e.1 == mem)).length
    let s1 := s.onW (fun w => { w with hubCe := (mem, s.now) :: win })
    if n = 16 then flt 0x1905 0xFF 0xFF 0 (locHub mem word) s1 else s1

/-- Bytes of a code word of a tier, and its key within the 4 KiB granule it lies in: the low bits of its number (R209, R232). -/
def unitKey (s : State) (tier g : Nat) (pos : Gran) : Nat :=
  let n := (tierSyms tier).1
  let buf := match s.decl pos.job pos.handle with | some d => d.buf | none => 0
  devKey pos.job pos.handle buf (4096 * pos.g + n * (g % (4096 / n)))

/-- Scrubbing skips stale granules, poisoned units and retired or tripped memory (R485). -/
def scrubSkips (s : State) (x : Home) (key : Nat) (pos : Gran) : Bool :=
  !s.unitOn x.unit || s.w.stale.contains pos || s.badAt key 1 ||
    (x.tier = 1 && ((s.pc x.place).state = 3 || (s.stack (x.place / 64)).tripped)) || homeHeld s x

/-- A code word of a tier, by a pass or on demand: corrected and rewritten, or marked poisoned and logged. -/
def scrubWord (x : Home) (g lane : Nat) (pos : Gran) (ue counts : Bool) (loc : Loc) (s : State) : State :=
  let key := unitKey s x.tier g pos
  if scrubSkips s x key pos then s
  else if ue then
    let n := (tierSyms x.tier).1
    badWord x pos.job { loc with handle := pos.handle, off := key % 2 ^ 48 }
      (s.poisonUnit key n)
  else
    let s1 := s.onW (fun w => { w with inject := w.inject.filter (fun e => !(e.1 = key && synClass x.tier e.2.2 = 1)) })
    if counts then correctedWord x [lane] s1 else s1

/-- What a scrub found at one place; a demand scrub reads and counts nothing afresh (R484). -/
def scrubOne (counts : Bool) (f : Scrub) (s : State) : State :=
  match f with
  | .cell d c word ue => if decide (d < 4) && decide (c < 144) && s.unitOn (0x50 + d) && counts then scrubCell (144 * d + c) word ue s else s
  | .figure d c word ue => if decide (d < 4) && decide (c < 144) && s.unitOn (0x50 + d) && counts then scrubFigure (144 * d + c) word ue s else s
  | .hub mem word ue => if counts then scrubHub mem word ue s else s
  | .tier1 p g lane pos ue => if p < 768 then scrubWord { tier := 1, place := p } g lane pos ue counts (locPc p g lane) s else s
  | .tier2 pkg sub g pos ue => if pkg < 24 && sub < 4 then scrubWord { tier := 2, place := 4 * pkg + sub } g 0 pos ue counts (locTier2 pkg sub g) s else s

/-- PATROL_SCRUB (R484): a pass over the stores. -/
def execPatrolScrub (found : List Scrub) (s : State) : Res := onCore (fabric (.patrolScrub found) (fun s => forAll found (scrubOne true) (scrubFlips s))) s

/-- DEMAND_SCRUB (R484). -/
def execDemandScrub (found : Scrub) (s : State) : Res := onCore (fabric (.demandScrub found) (scrubOne false found)) s

/-! ### Retirement -/

/-- A location within range (R491). -/
def retInRange (s : State) (tier : Nat) (bank : Bool) (place idx : Nat) : Bool :=
  if tier = 1 then decide (place < 768) && decide (idx < if bank then 64 else 327680)
  else if tier = 2 then decide (place < 96) && decide (idx < if bank then 16 else 4194304)
  else if tier = 3 then decide (place < 4) && !bank && decide (idx < 262144 * (tget {} s.w.cxl place).mapped)
  else false

/-- Why an entry is refused (R491), 0 for not. -/
def retReason (s : State) : Nat :=
  let r := s.w.ret
  if 4096 ≤ r.entries.length then 1
  else if !retInRange s r.tier r.bank r.place r.index then 2
  else if r.tier = 1 && (s.pc r.place).state = 3 then 3
  else if r.tier = 1 && r.bank && 8 ≤ (r.entries.filter (fun e => e.1 = 1 && e.2.1 = 1 && e.2.2.1 = r.place)).length then 4
  else 0

/-- Add the entry in RET_CMD (R491, R492); one already in the table changes nothing. -/
def retAdd (s : State) : State :=
  let r := s.w.ret
  let e := (r.tier, b2n r.bank, r.place, r.index)
  if r.entries.contains e then s.onW (fun w => { w with ret := { w.ret with refused := false, reason := 0 } })
  else if retReason s != 0 then s.onW (fun w => { w with ret := { w.ret with refused := true, reason := retReason s } })
  else
    let s1 := s.onW (fun w => { w with ret := { w.ret with refused := false, reason := 0, entries := w.ret.entries ++ [e], due := w.ret.due ++ [e] } })
    if s.w.holder.isNone then runRetirements s1 else s1

/-- RET_GO_ADD (R491). -/
def execRetGoAdd (s : State) : Res := onWorld retAdd s

/-- Empty the table (R494). -/
def retClear (s : State) : State := s.onW (fun w => { w with ret := { w.ret with entries := [], due := [], pages := 0 } })

/-- RET_GO_CLEAR (R494). -/
def execRetGoClear (s : State) : Res := onWorld retClear s

/-! ### The checker injector -/

/-- A code word lies on retired memory. -/
def homeRetired (s : State) (x : Home) : Bool := x.tier = 1 && (s.pc x.place).state = 3

/-- Why an arm is refused (R496, R497), 0 for not. -/
def errReason (s : State) : Nat :=
  let e := s.w.err
  if !s.w.sl.foulAuth then 1
  else if e.target = 0 || e.mode = 0 then 6
  else if e.target = 1 then
    (if 144 ≤ e.c || 4 ≤ e.die || 262144 ≤ e.handleOrWord then 3
     else if !s.unitOn (0x50 + e.die) then 2
     else if (s.cell (144 * e.die + e.c)).retired then 4 else 0)
  else if 3 < e.target then 3
  else match errHome s with
    | none => 3
    | some x => if !s.unitOn x.unit then 2 else if homeRetired s x then 4 else if e.target = 3 && (errLine s).isNone then 5 else 0

/-- Flip stored bits now (R495). -/
def flipNow (tier : Nat) (s : State) : State :=
  let e := s.w.err
  if e.target = 1 then flipCell (e.mask % 2 ^ 72) s
  else
    let buf := match s.decl e.job e.handleOrWord with | some d => d.buf | none => 0
    let k := devKey e.job e.handleOrWord buf e.offset
    if e.target = 2 then
      let old := ((s.w.inject.find? (fun x => x.1 == k)).map (fun x => x.2.2)).getD []
      storeSyms k tier (mixSyms old (errSyms { e with tier := tier })) s
    else match errLine s with
      | none => s
      | some l => flipLine l s

/-- ERR_GO written with arm (R496, R497): refused, armed, or fired at once by flip-now. -/
def errArm (s : State) : State :=
  let r := errReason s
  if r != 0 then s.onW (fun w => { w with err := { w.err with state := 3, reason := r } })
  else
    let tier := match errHome s with | some x => x.tier | none => 0
    let s2 := s.onW (fun w => { w with err := { w.err with reason := 0, tier := tier } })
    if s.w.err.mode = 2 then flipNow tier (fired s2) else s2.onW (fun w => { w with err := { w.err with state := 1 } })

/-- ERR_GO_ARM (R496). -/
def execErrGoArm (s : State) : Res := onWorld errArm s

end Sys2Proof.Machine
end

