-- ==== Sys2Proof/Machine/Reset.lean ====
section
/-! DEFINITION. What a reset keeps and loses (R458-R463), the survival record (R463), boot (R520-R522), escalation to sent off
(R472), the end of foul mode (R539), bringing the units up (R62). -/

namespace Sys2Proof.Machine

open Sys2Proof

/-! ### Control state -/

def State.power (s : State) : Power := s.ctl.power
def State.modPower (s : State) (f : Power → Power) : State := { s with ctl := { s.ctl with power := f s.ctl.power } }
def State.modClk (s : State) (f : Clk → Clk) : State := { s with ctl := { s.ctl with clk := f s.ctl.clk } }
def State.modHealth (s : State) (f : Health → Health) : State := { s with ctl := { s.ctl with health := f s.ctl.health } }
def State.modIdent (s : State) (f : Ident → Ident) : State := { s with ctl := { s.ctl with ident := f s.ctl.ident } }
def State.setUnits (s : State) (v : Nat) : State := { s with ctl := { s.ctl with unitEn := v } }
def State.modSl (s : State) (f : Sl → Sl) : State := s.onW (fun w => { w with sl := f w.sl })

/-- The module stands in sit-out, its clock running or not (R507, R508). -/
def inSitOut (s : State) : Bool :=
  s.power.phase = .sitOut || (s.power.bringup = .sitOutReturn && (s.power.phase = .waitRefclk || s.power.phase = .settling))

/-! ### The end of foul mode (R355, R496, R539) -/

/-- Every link is disarmed. -/
def disarmFoul (s : State) : State :=
  if s.w.foul.armed = 0 then s
  else flt0 0x3501 0x0A 0xFF 0 (s.onW (fun w => { w with foul := { w.foul with armed := 0, action := 0, rate := 0, ms := 0 } }))

/-- The authorisation of foul mode ends. -/
def endFoulAuth (s : State) : State :=
  if !s.w.sl.foulAuth then s
  else
    let s1 := s.onW (fun w => { w with
      sl := { w.sl with foulAuth := false, foulLeftS := 0 }
      err := if w.err.state = 1 then { w.err with state := 0 } else w.err })
    flt0 0x7403 0x09 0xFF 0 (disarmFoul s1)

/-! ### Firmware images and boot (R520-R522) -/

/-- The checks of R521 on the bytes of a slot. -/
def imageOk (d : Ident) (img : Bytes) : Bool :=
  let n := fld img 16 4
  let key := fld img 6 1
  let pub := (img.drop 128).take 96
  fld img 0 4 == 0x4957464B && fld img 4 2 == 1 && decide (n ≤ 16777216 - 512) && decide (512 + n ≤ img.length) &&
  (match d.keyDigests[key]? with
    | some g => decide (key < 4) && g == beNum (sha384 pub) && !bit d.revoked key
    | none => false) &&
  decide (d.svnFloor ≤ fld img 8 4) && decide (1 ≤ fld img 8 4) && decide (fld img 8 4 ≤ 64) &&
  ecdsaOk pub ((img.drop 224).take 96) (sha384 (img.take 128)) &&
  sha384 ((img.drop 512).take n) == (img.drop 32).take 48

/-- A slot passes verification; firmware and security version it holds; it asks for the floor to be raised. -/
def Flash.ok (d : Ident) : Flash → Bool
  | .factory => true
  | .held img => imageOk d img
def Flash.version : Flash → Nat
  | .factory => Config.factory 0 % 2 ^ 32
  | .held img => fld img 12 4
def Flash.svn : Flash → Nat
  | .factory => Config.factory 1 % 2 ^ 32
  | .held img => fld img 8 4
def Flash.raises : Flash → Bool
  | .factory => false
  | .held img => bit (fld img 7 1) 0
def Ident.slotOf (d : Ident) (b : Bool) : Flash := if b then d.slotB else d.slotA

/-- Firmware starts from a slot: event 0x7101, and the floor is raised where the image asks (R522 beats 3 and 4). -/
def startImage (slot fallback : Bool) (s : State) : State :=
  let f := s.ctl.ident.slotOf slot
  let s1 := flt 0x7101 0xFF 0xFF 0 { locCause (b2n slot) 0xFF with value := some f.svn } (s.modIdent (fun d => { d with
    slot := slot, fallback := fallback, failed := false, fwVer := f.version, svn := f.svn }))
  if f.raises && decide (s1.ctl.ident.svnFloor < f.svn) then
    flt 0x7104 0xFF 0xFF 0 locNone (s1.modIdent (fun d => { d with svnFloor := f.svn }))
  else s1

/-- The boot ROM (R522 beats 1 to 3). -/
def boot (s : State) : State :=
  let d := s.ctl.ident
  if (d.slotOf d.active).ok d then startImage d.active false s
  else if (d.slotOf (!d.active)).ok d then startImage (!d.active) true (flt 0x7102 0xFF 0xFF 0 locNone s)
  else flt0 0x7103 0xFF 0xFF 0 (s.modIdent (fun d => { d with fallback := true, failed := true, fwVer := 0, svn := 0 }))

/-! ### Bringing the units up (R62, R460 beat 7, R472) -/

/-- Units of a module sent off that stay enabled: command processor, queue controller, DMA, sideline (R472). -/
def sentOffUnits : Nat := 0x20B
/-- Every unit but the foul injector, and the CXL port only with a device (R62). The injector follows where foul mode was
authorised in sit-out (R541). -/
def allUnits (s : State) : Nat :=
  0x0FFF03FF + 2 ^ 32 * (0xFFFF000F + (if s.w.cxl.any (fun e => e.2.present) then 0x100 else 0)) + 2 ^ 64 * 0x000F00FF + 2 ^ 96 * 0x00000FFF

/-- The tier-2 packages are trained and in service (R234). -/
def packagesUp (s : State) : State :=
  s.onW (fun w => { w with lp := [0, 1, 2, 3].foldl (fun t n => tmod {} t n (fun l => { l with up := 0x3F })) w.lp })

/-- Memories leave self-refresh but on a module sent off (R460 beat 6, R472). Firmware enables the units, and queue 0 can be
enabled; after a failed boot nothing is (R522). -/
def unitsUp (s : State) : State :=
  if s.ctl.ident.failed then (s.setUnits 0).modPower (fun p => { p with phase := .run, ready := false, hostPortUp := !p.perst, selfRef := false })
  else
    let s1 := (s.modPower (fun p => { p with
      phase := .run, ready := true, reached := true, hostPortUp := !p.perst, selfRef := s.ctl.health.sentOff })).modHealth
      (fun h => { h with alive := 0xF })
    if s1.ctl.health.sentOff then s1.setUnits sentOffUnits
    else
      let s2 := packagesUp s1
      let s3 := s2.setUnits (allUnits s2 + if s2.w.sl.foulAuth then 2 ^ 0x0A else 0)
      s3.onW (fun w => { w with topo := (refreshPorts s3).w.topo, lk := (refreshPorts s3).w.lk })

/-- The module is sent off: the actions of R472. -/
def sendOff (count : Nat) (s : State) : State :=
  let s1 := s.modHealth (fun h => { h with sentOff := true })
  let s2 := event 0x0009 0xFF 0xFFFF 0 (count % 256) (flt0 0x5501 0xFF 0xFF 0 s1)
  let s3 := forAll ((List.range 24).filter (fun l => let k := (s2.link l).state; k != 0 && k != 4)) (fun l s => linkDown l 7 s) s2
  s3.setUnits (if s3.ctl.unitEn = 0 then 0 else sentOffUnits)

/-! ### What a warm reset keeps (R461) -/

/-- A cell across a warm reset: calibration, state, strikes, counts and a retirement decided. -/
def Cell.warm (c : Cell) : Cell :=
  { retired := c.retired, baseRel := c.baseRel, tap := c.tap, failTap := c.failTap, state := c.state, logical := c.logical, due := c.due
    ce := c.ce, ue := c.ue, strikeLo := c.strikeLo, strikes := c.strikes, excluded := c.excluded, exclGood := c.exclGood }

/-- A pseudo-channel across a reset (R229, R461): degraded and retired states. -/
def Pc.kept (p : Pc) : Pc := { state := if p.state = 1 then (if p.deg then 2 else 0) else p.state }

/-- A job that survives: declarations, homes, current set and modes, journal, undo log, scores, a save held in tier 2; the run only
where it is pre-empted with such a save. -/
def Job.warm (b : Job) : Job :=
  let saved := b.pstate = 2 && b.saveDva = 0
  { pstate := if saved then 2 else 0
    boundary := if saved then b.boundary else 0
    saveKib := if saved then b.saveKib else 0
    preStep := if saved then b.preStep else 0
    run := if saved then b.run else none
    cur := b.cur, place := b.place, setEpoch := b.setEpoch, modeEpoch := b.modeEpoch, prev := b.prev, epochFirst := b.epochFirst
    prevOld := b.prevOld, applied := b.applied, lastCommit := b.lastCommit, lastPrepared := b.lastPrepared
    k := b.k, chk := b.chk, compress := b.compress, forced := b.forced, consNext := b.consNext, consTillGood := b.consTillGood, consFrom := b.consFrom
    decls := b.decls, nextHandle := b.nextHandle, nextStep := b.nextStep, lastGood := b.lastGood, lastStarted := b.lastStarted
    jobGood := b.jobGood, jrn := b.jrn, undo := b.undo, scores := b.scores, tiers := b.tiers, resid := b.resid }

/-- An entry of the survival record (R463). -/
def survEntry (s : State) (j : Nat) : SurvJob :=
  let b := s.job j
  let ck := s.w.ck
  let writing := ck.job = j && ck.gen != 0
  let saved := b.pstate = 2 && b.saveDva = 0
  let beat2 := match b.run with
    | some r => (match r.phase with | .beats n => n = 2 && !r.rowsDone | _ => false)
    | none => false
  { job := j
    flags := 1 + 2 * b2n saved + 4 * b2n b.run.isSome + 8 * b2n beat2 + 16 * b2n writing +
      32 * b2n (s.w.stale.any (fun g => g.job == j && (s.decl j g.handle).isSome))
    pasid := b.pasid, lastGood := b.lastGood.getD 0
    stepInFlight := match b.run with | some r => r.step | none => 0
    setEpoch := b.setEpoch, modeEpoch := b.modeEpoch
    digest := match b.cur with | some t => t.digest | none => 0
    ckptGen := if writing then ck.gen else 0
    ckptChunks := if writing then ck.done.length else 0
    cut := if writing then ck.cut else 0
    boundary := if saved then b.boundary else 0
    saveKib := if saved then b.saveKib else 0 }

/-- Stale granules of declarations, and where there are more than 4,096 the stacks that hold them, with every tier-1 granule of
every declaration there (R466). -/
def staleOf (s : State) : List Gran × Nat :=
  let l := (s.w.stale.filter (fun g => (s.decl g.job g.handle).isSome)).eraseDups
  if l.length ≤ 4096 then (l, 0)
  else
    let st (g : Gran) : Nat := (homeOf s g.job g.handle (4096 * g.g)).place / 64
    let stks := (l.map st).eraseDups
    let all := (tkeys s.w.jobs).flatMap (fun j => (s.job j).decls.flatMap (fun e =>
      (List.range ((e.2.imageBytes + 4095) / 4096)).map (fun i => (⟨j, e.1, i⟩ : Gran))))
    ((l ++ all.filter (fun g => (homeOf s g.job g.handle (4096 * g.g)).tier = 1 && stks.contains (st g))).eraseDups,
      sumNat (stks.map (fun x => 2 ^ x)))

/-- Retired pseudo-channels (R463). -/
def retiredPcs (s : State) : List Nat := (s.w.pcs.filter (fun e => e.2.state = 3)).map (fun e => e.1)

/-- Bit flips in storage that survive are those of device memory; everything else of a unit is at its reset value (R461). -/
def warmWorld (s : State) (stale : List Gran) : World :=
  let w := s.w
  { free := w.free, out := w.out, flog := { w.flog with recs := (w.flog.recs.take 256).map (fun r => { r with old := true }) }
    sl := { w.sl with
      collector := false, sent := 0, foulAuth := false, foulLeftS := 0, held := [], drill := none, fw := none, outX := [], lastAckNs := 0 }
    ordNext := w.ordNext, host := w.host, hostAbsent := w.hostAbsent, hostPoison := w.hostPoison
    jobs := (w.jobs.filter (fun e => e.2.live || (survivor s e.1).isSome)).map (fun e => (e.1, e.2.warm))
    dev := w.dev, poison := w.poison, stale := stale, inject := w.inject
    cells := w.cells.map (fun e => (e.1, e.2.warm))
    stk := w.stk.map (fun e => (e.1, { ce := e.2.ce, ue := e.2.ue, tripped := e.2.tripped, level := (if e.2.tripped then 4 else 0) }))
    pcs := (w.pcs.map (fun e => (e.1, e.2.kept))).filter (fun e => e.2 != {})
    lanes := w.lanes, reloc := w.reloc
    lp := w.lp.map (fun e => (e.1, { ce := e.2.ce, ue := e.2.ue, held := e.2.held }))
    cxl := w.cxl.map (fun e => (e.1, { e.2 with linkUp := e.2.present }))
    se := w.se.map (fun e => (e.1, { undoBytes := e.2.undoBytes, undoSteps := e.2.undoSteps }))
    lk := w.lk.map (fun e => (e.1, { trains := e.2.trains, resent := e.2.resent, naks := e.2.naks, corr := e.2.corr, uncorr := e.2.uncorr }))
    ump := { disagree := w.ump.disagree, detect := w.ump.detect, newest := w.ump.newest, caps := w.ump.caps, drills := w.ump.drills }
    ck := { w.ck with state := 0, chunks := 0, stallMax := 0, ceTimes := [] }
    mr := { anchored := w.mr.anchored, good := w.mr.good, doneMib := w.mr.doneMib, doneB := w.mr.doneB, totalMib := w.mr.totalMib, ctx := w.mr.ctx
            dense := w.mr.dense, slots := w.mr.slots, pend := w.mr.pend, inSeeded := w.mr.inSeeded, inAnchored := w.mr.inAnchored
            resv := w.mr.resv, pendGib := w.mr.pendGib, callJob := w.mr.callJob, recovery := w.mr.recovery, missing := w.mr.missing
            pulled := w.mr.pulled, hotIn := w.mr.hotIn, gone := w.mr.gone, cold := w.mr.cold, owner := w.mr.owner
            cutKnown := w.mr.cutKnown } }

/-- Tables keep their canonical form: entries at their default are not listed. -/
def tidy (w : World) : World :=
  { w with
    cells := w.cells.filter (fun e => e.2 != cellDefault e.1)
    stk := w.stk.filter (fun e => e.2 != {})
    lp := w.lp.filter (fun e => e.2 != {})
    cxl := w.cxl.filter (fun e => e.2 != {})
    se := w.se.filter (fun e => e.2 != {})
    lk := w.lk.filter (fun e => e.2 != {})
    jobs := w.jobs.filter (fun e => e.2 != {}) }

/-- The settings after a reset: their reset values, with what the keep store and a warm reset keep (R461, R538). -/
def cfgAfter (s : State) (settle : Nat) : Cfg :=
  { settleUs := settle, sideSev := if s.w.sl.prov then s.cfg.provSev else 1, provSev := s.cfg.provSev }

/-- Keep-store records not yet acknowledged are sent again (R532). -/
def resendRecords (s : State) : State :=
  forAll ((s.w.flog.recs.filter (fun r => !r.sideSent && decide (s.cfg.sideSev ≤ r.sev))).reverse) (fun r s => slSend 0x02 r.sev r.idx r.bytes s) s

/-- The record of the newest event of a class. -/
def newestOf (s : State) (cls : Nat) : Nat := match s.w.flog.recs.find? (fun r => r.cls == cls) with | some r => r.idx | none => 0

/-- Warm resets that count in the window of R472. -/
def inWindow (s : State) (l : List Int) (windowS : Nat) : List Int :=
  l.filter (fun t => decide ((s.now : Int) - t ≤ (windowS : Int) * 1000000000))

/-- Granules whose cache lines cannot be written back become stale (R54, R466): those of tier 1. -/
def makeStale (l : List Gran) (s : State) : State :=
  let new := (l.filter (fun g => (s.decl g.job g.handle).isSome && (homeOf s g.job g.handle (4096 * g.g)).tier = 1 && !s.w.stale.contains g)).eraseDups
  if new.isEmpty then s
  else (s.onW (fun w => { w with stale := w.stale ++ new })).modHealth (fun h => { h with freshStale := true })

/-- A warm reset, beats 1 to 7 (R460). In sit-out it leads back to sit-out (R477, R510). -/
def warmReset (cause detail : Nat) (s : State) : State :=
  let h := s.ctl.health
  let asleep := s.power.phase = .sitOut
  let unit := detail % 256
  let t := s.now
  let s0 := endFoulAuth (flt 0x5401 unit 0xFF 0 (locCause cause unit) s)
  let stuck := if asleep || h.flushMiss = 2 then [] else dirtyGrans s0 (homeHeld s0)
  let s1 := makeStale stuck s0
  let flush := if stuck.isEmpty then h.flushMiss else max h.flushMiss 1
  let gone := staleOf s1
  let listed := if gone.2 = 0 then gone.1 else []
  let stamps := inWindow s1 (if cause = 9 then h.stamps else (t : Int) :: h.stamps) s.cfg.escWindowS
  let js := (List.range 64).filter (fun j => s1.live j || (survivor s1 j).isSome)
  let surv : Survival := {
    cause := cause, flush := flush, ns := t, causeDetail := detail, faultIdx := newestOf s1 0x5401
    warmInWindow := stamps.length, wholeStacks := gone.2, retiredPcs := retiredPcs s1
    jobs := js.map (fun j => if s1.live j then survEntry s1 j else (survivor s1 j).getD {})
    stale := listed.map (fun g => (g.job, g.handle, g.g)) }
  let s2 : State := { s1 with
    cfg := cfgAfter s1 s1.cfg.settleUs
    ctl := { s1.ctl with
      unitEn := 0, mctp := { s1.ctl.mctp with spdm := 0, version := 0 }, surv := surv
      clk := { s1.ctl.clk with synced := false, good := 0, slew := false, frozen := false, lost := false, lastSyncNs := 0 }
      power := { s1.power with
        capW := 1200, gate := 16, stkCap := false, limited := false, nowMv := (if asleep then 0 else 750), inMv := 0, inW := 0
        hubTenths := 0, arrTenths := 0, hottest := 0, inletTenths := 0, outletTenths := 0, sitPending := false
        wakePending := (if asleep then s1.power.wakePending else 0)
        dieTripped := false, ready := false, hostPortUp := false, aerAborts := 0, wakeLow := false, selfRef := true }
      health := { h with
        warmTotal := satAdd 16 h.warmTotal 1, inWindow := min stamps.length 255, lastCause := cause, recordValid := true
        flushTimeout := decide (0 < flush), stale := !gone.1.isEmpty, lastNs := t, alive := 0, stamps := stamps
        tripped := [], idleMs := [], resetDue := (if h.resetDue = cause then 0 else h.resetDue), flushMiss := 0, freshStale := false } }
    w := tidy (warmWorld s1 gone.1) }
  let s3 := if s1.ctl.health.freshStale then flt0 0x5403 0xFF 0xFF 0 s2 else s2
  let s4 := boot (resendRecords s3)
  let s5 := if !s4.ctl.ident.failed && !h.sentOff && decide (s.cfg.escLimit < stamps.length) then sendOff stamps.length s4 else s4
  { (if asleep then s5.setUnits 0 else unitsUp s5) with cfg := s2.cfg }

/-! ### What a cold reset keeps (R459, R461, R462, R488) -/

/-- The records restored from the keep store. -/
def coldFlog (f : Flog) : Flog :=
  let l := f.recs.take 256
  { head := l.length, kept := l.length, recs := l.zipIdx.map (fun p => { p.1 with idx := l.length - 1 - p.2, old := true, occ := p.1.occ }) }

/-- The sideline after a cold reset: what provisioning and enrolment left in the keep store. -/
def coldSl (x : Sl) : Sl :=
  let n : Sl := { fleetKey := x.fleetKey, authSeq := x.authSeq, prov := x.prov, coll := x.coll }
  if x.prov then { n with port := x.port, dhcp := x.dhcp, addr := if x.dhcp then 0 else x.addr, addrOk := !x.dhcp
                          netmask := if x.dhcp then 0 else x.netmask, gateway := if x.dhcp then 0 else x.gateway }
  else n

/-- All rails go off: everything but the keep store is lost (R459, R507, R552). -/
def railsOff (s : State) : State :=
  let h := s.ctl.health
  { s with
    cfg := cfgAfter s 1000
    ctl := {
      power := { phase := .off, pwrOk := false, perst := s.power.perst }
      health := { warmTotal := h.warmTotal, inWindow := h.inWindow, sentOff := h.sentOff, stamps := h.stamps.map (fun t => t - (s.now : Int)) }
      ident := { s.ctl.ident with fwVer := 0, svn := 0, slot := false, fallback := false, failed := false } }
    w := {
      free := s.w.free, out := s.w.out, flog := coldFlog s.w.flog, sl := coldSl s.w.sl, ordNext := s.w.ordNext
      host := s.w.host, hostAbsent := s.w.hostAbsent, hostPoison := s.w.hostPoison
      cells := (s.w.cells.filter (fun e => e.2.retired)).map (fun e => (e.1, { cellDefault e.1 with retired := true }))
      pcs := (s.w.pcs.map (fun e => (e.1, e.2.kept))).filter (fun e => e.2 != {})
      lanes := s.w.lanes } }

end Sys2Proof.Machine
end

