-- ==== Sys2Proof/Machine/Power.lean ====
section
/-! DEFINITION. Power-up and clock bring-up (R51-R55, R551-R556), warm-reset triggers and watchdogs (R458-R471), rate windows
(R41-R43), the power controller and thermal protection (R500-R507), sit-out (R508-R512). -/

namespace Sys2Proof.Machine

open Sys2Proof

/-! ### Power and clock bring-up -/

/-- Input power is applied and the straps are sampled (R548, R549, R551): a reserved strap value is logged. -/
def powerApplied (clkSettle cxlSplit smbAddr : Nat) (slMode : Bool) (rsvd : Nat) (s : State) : State :=
  let fresh := s.power.phase = .waitRefclk && s.power.bringup = .cold && !s.ctl.clk.locked && !s.ctl.clk.lost
  if !(s.power.phase = .off || fresh) then s
  else
    let st : Straps := { clkSettle := clkSettle % 4, cxlSplit := cxlSplit % 4, smbAddr := smbAddr % 8, slMode := slMode, rsvd := rsvd % 16 }
    let us := if st.clkSettle = 0 then 1000 else if st.clkSettle = 1 then 5000 else if st.clkSettle = 2 then 20000 else 100000
    let s1 : State := ({ s with cfg := { s.cfg with settleUs := us } }.modPower (fun p => { p with
      phase := .waitRefclk, bringup := .cold, pwrOk := true, nowMv := 750
      straps := { st with cxlSplit := if st.cxlSplit = 3 then 0 else st.cxlSplit } })).modSl (fun x => { x with mode := slMode })
    let s2 := if st.cxlSplit = 3 then flt 0x5120 0xFF 0xFF 0 (locCause 1 0xFF) s1 else s1
    if st.rsvd = 15 then s2 else flt 0x5120 0xFF 0xFF 0 (locCause 2 0xFF) s2

/-- The SMBus target address that the straps set (R524, R548). -/
def smbAddress (s : State) : Nat := 0x60 + s.power.straps.smbAddr

/-- The device clocks and CXL_PERST# that the module drives: those of devices the split can reach (R545). -/
def cxlDriven (s : State) (k : Nat) : Bool := decide (k < if s.power.straps.cxlSplit = 0 then 1 else if s.power.straps.cxlSplit = 1 then 2 else 4)

/-- POWER_APPLIED (R551). -/
def execPowerApplied (clkSettle cxlSplit smbAddr : Nat) (slMode : Bool) (rsvd : Nat) (s : State) : Res :=
  onAll (powerApplied clkSettle cxlSplit smbAddr slMode rsvd) s

/-- An input comparator fires: the event is written to the keep store and all rails go off (R507, R552). -/
def inputTrip (cls : Nat) (s : State) : State := if s.power.phase = .off then s else railsOff (flt0 cls 0xFF 0xFF 0 s)

/-- PWR_EN_LOW (R552). -/
def execPwrEnLow (s : State) : Res := onAll (inputTrip 0x4303) s

/-- UNDER_VOLTAGE (R507). -/
def execUnderVoltage (s : State) : Res := onAll (fun s => inputTrip 0x4303 s) s

/-- OVER_VOLTAGE (R507). -/
def execOverVoltage (s : State) : Res := onAll (inputTrip 0x4304) s

/-- REFCLK_DETECT (R51): the settle count starts. -/
def execRefclkDetect (s : State) : Res :=
  onCore (fun s => if s.power.phase = .waitRefclk then s.modPower (fun p => { p with phase := .settling }) else s) s

/-- The settle count ends: the PLLs start to lock; in sit-out only the timekeeper goes on (R53, R507). -/
def settled (s : State) : State :=
  if s.power.phase != .settling then s
  else if s.power.bringup = .sitOutReturn then
    (s.modPower (fun p => { p with phase := .sitOut })).modClk (fun c => { c with running := true })
  else s.modPower (fun p => { p with phase := .locking })

/-- SETTLE_DONE (R53). -/
def execSettleDone (s : State) : Res := onCore settled s

/-- All PLLs lock (R53 beats 4 and 5, R55): the crossings are empty; at a cold reset the timekeeper starts at 0; after a loss it
goes on from its kept value, and a warm reset of cause 6 is due. A loss before the cells were calibrated leads to their
calibration first (log 161). -/
def pllLock (s : State) : State :=
  if s.power.phase != .locking then s
  else if s.power.bringup = .cold then
    emptyXings ((s.modPower (fun p => { p with phase := .calibrating })).modClk (fun c => { c with locked := true, ns := 0, running := true, synced := false, frozen := false }))
  else
    let next : Power → Power := fun p => if p.uncal then { p with phase := .calibrating } else { p with phase := .run, bringup := .cold }
    emptyXings (((s.modPower next).modClk (fun c => { c with
      locked := true, running := true, synced := false, frozen := false })).modHealth (fun h => { h with resetDue := 6 }))

/-- PLL_LOCK (R53). -/
def execPllLock (s : State) : Res := onCore pllLock s

/-- Firmware maps the devices of the split in rising order until 2,048 GiB are mapped (R236, R238): device, width, speed, 256 B
flits, capacity. -/
def mapDevices (split : Nat) (l : List (Nat × Nat × Nat × Bool × Nat)) : Tab Cxl :=
  let n := if split = 0 then 1 else if split = 1 then 2 else 4
  ((List.range n).foldl (fun (acc : Tab Cxl × Nat) k =>
    match l.find? (fun (e : Nat × Nat × Nat × Bool × Nat) => e.1 == k) with
    | none => acc
    | some e =>
      let m := min e.2.2.2.2 (2048 - acc.2)
      (tput {} acc.1 k { present := true, linkUp := true, width := e.2.1 % 32, speed := e.2.2.1 % 16, flit256 := e.2.2.2.1
                         mapped := m, unmapped := e.2.2.2.2 - m }, acc.2 + m)) ([], 0)).1

/-- Calibration of all cells ends (R44, R45); the cold reset ends with boot (R53, R522). Where more active cells of a row fail
than it has bench cells, the lowest physical column is served first (log 160). No calibration ends while a die reads below 10 °C:
none starts then (R503). -/
def calibrationDone (common : Cal) (exceptions : List (Nat × Cal)) (cxl : List (Nat × Nat × Nat × Bool × Nat)) (s : State) : State :=
  if s.power.phase != .calibrating || s.power.coldDies then s
  else
    let cal (k : Nat) : Cal := match exceptions.find? (fun e => e.1 == k) with | some e => e.2 | none => common
    let s1 := forAll (List.range 576) (fun k s => calibrate k (cal k) s) s
    let out := (List.range 576).filter (fun k => (s1.cell k).retired && (s1.cell k).state != 3)
    let s2 := forAll (out.filter (fun k => (s1.cell k).state != 0) ++ out.filter (fun k => (s1.cell k).state = 0)) retireCell s1
    let s3 := forAll (List.range 576) setBase s2
    let s4 := s3.onW (fun w => { w with cxl := mapDevices s3.power.straps.cxlSplit cxl })
    let s5 := s4.modPower (fun p => { p with nowMv := 750, uncal := false })
    unitsUp (boot (if s5.power.bringup = .cold then flt0 0x5402 0xFF 0xFF 0 s5 else s5.modPower (fun p => { p with bringup := .cold })))

/-- CALIBRATION_DONE (R44). -/
def execCalibrationDone (common : Cal) (exceptions : List (Nat × Cal)) (cxl : List (Nat × Nat × Nat × Bool × Nat)) (s : State) : Res :=
  onCore (calibrationDone common exceptions cxl) s

/-- REFCLK is lost, or a PLL that holds lock loses it (R54, R507). During the settle count only detect and count start again
(R51). -/
def refclkLoss (lock : Bool) (s : State) : State :=
  let p := s.power.phase
  if p = .off || p = .waitRefclk || (lock && !s.ctl.clk.locked) then s
  else if p = .settling then s.modPower (fun p => { p with phase := .waitRefclk })
  else
    let s1 := s.modClk (fun c => { c with lost := true, lossCount := satAdd 8 c.lossCount 1 })
    let s2 := flt0 0x5101 0xFF 0xFF 0 s1
    let s3 := if p = .run then (makeStale (dirtyGrans s2 (fun _ => true)) s2).modHealth (fun h => { h with flushMiss := 2 }) else s2
    let s4 := forAll ((List.range 24).filter (fun l => let k := (s3.link l).state; k != 0 && k != 4)) (fun l s => linkDown l 2 s) s3
    let s5 := s4.onW (fun w => { w with cxl := (w.cxl.map (fun e => (e.1, { e.2 with linkUp := false }))).filter (fun e => e.2 != {}) })
    (s5.modClk (fun c => { c with locked := false, running := false, synced := false, frozen := true })).modPower (fun x => { x with
      phase := .waitRefclk, hostPortUp := false, ready := false, selfRef := true
      bringup := if p = .sitOut then .sitOutReturn else .refclkReturn })

/-- REFCLK_LOSS (R54). -/
def execRefclkLoss (lock : Bool) (s : State) : Res := onCore (refclkLoss lock) s

/-! ### PERST# and warm resets -/

/-- A reset trigger from the host port (R458, R510, R555): before readiness it only holds the host port. -/
def perstAssert (s : State) : State :=
  let s1 := s.modPower (fun p => { p with perst := true, hostPortUp := false })
  if s.power.reached && (s.power.phase = .run || s.power.phase = .sitOut) then s1.modHealth (fun h => { h with resetDue := 3 }) else s1

/-- PERST_ASSERT (R555). -/
def execPerstAssert (s : State) : Res := onCore perstAssert s

/-- PERST_RELEASE (R555): the host port trains. -/
def execPerstRelease (s : State) : Res :=
  onCore (fun s => s.modPower (fun p => { p with perst := false, hostPortUp := p.phase = .run || p.hostPortUp })) s

/-- A warm reset strikes (R460). Its detail names the unit, and for cause 5 the stuck cell (R463). -/
def warmResetEvent (cause unit detail : Nat) (s : State) : State :=
  let p := s.power.phase
  if !(decide (2 ≤ cause) && decide (cause ≤ 9)) || !(p = .run || p = .sitOut) then s
  else warmReset cause (unit % 256 + (if cause = 5 then 256 * (detail % 262144) else 0)) s

/-- WARM_RESET (R460). -/
def execWarmReset (cause unit detail : Nat) (s : State) : Res := onAll (warmResetEvent cause unit detail) s

/-- A line of a granule could not be written back within 2 ms of a flush (R460 beat 2). -/
def flushTimeout (g : Gran) (s : State) : State :=
  if s.power.phase != .run || !(dirtyGrans s (fun _ => true)).contains g then s else (makeStale [g] s).modHealth (fun h => { h with flushMiss := max h.flushMiss 1 })

/-- FLUSH_TIMEOUT (R460). -/
def execFlushTimeout (g : Gran) (s : State) : Res := onCore (flushTimeout g) s

/-! ### Watchdogs (R469) -/

/-- Firmware runs. -/
def running (s : State) : Bool := s.power.phase = .run && !s.ctl.ident.failed

/-- A control core misses its heartbeat: a warm reset of cause 4 is due. -/
def heartbeatMiss (core : Nat) (s : State) : State :=
  if !running s then s
  else (flt 0x5301 0x00 0xFF 0 (locCause 4 0x00) s).modHealth (fun h => { h with
    misses := satAdd 16 h.misses 1, alive := setBit h.alive (core % 4) false, resetDue := 4 })

/-- HEARTBEAT_WATCHDOG (R469). -/
def execHeartbeatWatchdog (core : Nat) (s : State) : Res := onCore (heartbeatMiss core) s

/-- A cell or engine makes no progress: a warm reset of cause 5 is due. -/
def stageStuck (unit die cell : Nat) (s : State) : State :=
  if !running s then s
  else
    let loc := if 0x50 ≤ unit && unit ≤ 0x53 then locCell (144 * (die % 4) + cell % 144) else locCause 5 unit
    (flt 0x5302 unit 0xFF 0 loc s).modHealth (fun h => { h with resetDue := 5 })

/-- STAGE_WATCHDOG (R469). -/
def execStageWatchdog (unit die cell : Nat) (s : State) : Res := onCore (stageStuck unit die cell) s

/-- An up link with frames waiting moves none: it goes down for cause 5 (R334). -/
def linkStuck (l : Nat) (s : State) : State :=
  if decide (l < 24) && (s.link l).state = 3 then linkDown l 5 (flt 0x5303 (0x30 + l) 0xFF 0 (locLink l (s.link l).port (s.link l).peerNode 5) s) else s

/-- LINK_WATCHDOG (R469). -/
def execLinkWatchdog (link : Nat) (s : State) : Res := onWorld (linkStuck link) s

/-- A job whose commands make no progress: tripped is set; nothing of the job changes. -/
def queueStuck (j : Nat) (s : State) : State :=
  let waits := s.w.inflight.any (fun r => r.hdr.job = j) || s.w.queues.any (fun e => e.2.fetched.any (fun p => p.hdr.job = j))
  if !(decide (j < 64) && running s && waits && (s.job j).pstate != 2) then s
  else (flt0 0x5304 0x00 j (s.stepOf j) s).modHealth (fun h => { h with
    tripped := tput false h.tripped j true, idleMs := tput 0 h.idleMs j (satAdd 32 (tget 0 h.idleMs j) (tget 5000 s.cfg.qwdBudget j)) })

/-- QUEUE_WATCHDOG (R469). -/
def execQueueWatchdog (job : Nat) (s : State) : Res := onCore (queueStuck job) s

/-! ### Rate windows (R41-R43) -/

/-- The any-cell column of R37 as core voltage in mV and rate in MHz. -/
def floorTable : List (Nat × Nat) := [(600, 950), (650, 1110), (700, 1270), (750, 1410), (800, 1550), (850, 1680)]

/-- The floor at a core voltage, times 50: linear between the rows (R38); beyond the table its end rows hold. -/
def floor50 (mv : Nat) : Nat :=
  let v := max 600 (min 850 mv)
  match floorTable.find? (fun e => decide (e.1 ≤ v) && decide (v < e.1 + 50)) with
  | some lo => (match floorTable.find? (fun e => e.1 == lo.1 + 50) with
    | some hi => 50 * lo.2 + (hi.2 - lo.2) * (v - lo.1)
    | none => 50 * lo.2)
  | none => 50 * 950

/-- The drift rule on one active cell (R42). A window with drift_en 0 ends a run below the threshold (log 162). -/
def driftRule (k m : Nat) (c : DieCfg) (s : State) : State :=
  let x := s.cell k
  if !c.driftEn || m = 0 then s.modCell k (fun x => { x with driftRun := 0 })
  else if x.rateMhz * 10000000 < x.baseRel * (1000 - c.driftTenths) * m then
    let s1 := s.modCell k (fun x => { x with driftRun := x.driftRun + 1 })
    if x.driftRun + 1 = c.persist then
      ckptAdvice 4 (flt 0x2101 (0x50 + k / 144) 0xFF 0 (locCell k) (s1.modCell k (fun x => { x with drift := true })))
    else s1
  else s.modCell k (fun x => { x with driftRun := 0 })

/-- The floor rule on one cell in service (R43): an active cell is due, a bench cell is withdrawn. A window with floor_en 0 ends a
run below the floor (log 162). -/
def floorRule (k mv : Nat) (c : DieCfg) (s : State) : State :=
  let x := s.cell k
  if !c.floorEn then s.modCell k (fun x => { x with floorRun := false })
  else if x.rateMhz * 50 < floor50 mv then
    if x.floorRun then s
    else
      let s1 := flt 0x2102 (0x50 + k / 144) 0xFF 0 (locCell k) (s.modCell k (fun x => { x with floorRun := true, belowFloor := true }))
      if x.state = 0 then s1.modCell k (fun x => { x with due := true }) else retireCell k s1
  else s.modCell k (fun x => { x with floorRun := false })

/-- A rate window of a die ends (R41): counts are handshakes of the window, by cell. rate_mhz is the floor of count over
window_us, at most 65,535 (log 163). -/
def rateWindow (d : Nat) (counts : List Nat) (s : State) : State :=
  let c := tget {} s.cfg.die d
  if !(decide (d < 4) && s.power.phase = .run && c.run) then s
  else
    let ks := (List.range 144).map (fun i => 144 * d + i)
    let s1 := s.onW (fun w => { w with dieSense := tput {} w.dieSense d { coreMv := min s.power.nowMv 4095, tjTenths := min (s.power.dieTenths.getD d 0) 4095 } })
    let s2 := forAll ks (fun k s => s.modCell k (fun x => { x with rateMhz := min (counts.getD (k % 144) 0 / max c.windowUs 1) 65535 })) s1
    let m := dieMedian s2 d
    let s2 := forAll (ks.filter (fun k => (s2.cell k).fresh)) setBase s2
    let s3 := forAll (ks.filter (fun k => (s2.cell k).state = 0)) (fun k s => driftRule k m c s) s2
    forAll (ks.filter (fun k => decide ((s3.cell k).state ≤ 1) && !(s3.cell k).retired)) (fun k s => floorRule k s3.power.nowMv c s) s3

/-- RATE_WINDOW_END (R41). -/
def execRateWindowEnd (die : Nat) (counts : List Nat) (s : State) : Res := onWorld (rateWindow die counts) s

/-! ### The power controller (R500-R504) -/

/-- An event written at most once per 60 s (R507, R514). -/
def flt60 (cls : Nat) (loc : Loc) (s : State) : State :=
  let o := s.once60 cls
  if o.1 then flt cls 0xFF 0xFF 0 loc o.2 else s

/-- The action of one sample (R500): latest power, 1 ms mean, hottest junction in tenths. -/
def powerLoop (ps pm t : Nat) (s : State) : State :=
  let p := s.power
  let lim := 10 * s.cfg.tjLimitC
  let s1 :=
    if p.capW < ps || lim < t then
      if 600 < p.nowMv then
        let s1 := s.modPower (fun p => { p with nowMv := p.nowMv - 5 })
        let s2 := if p.capW < ps then flt60 0x4101 locNone s1 else s1
        if lim < t then flt60 0x4201 locNone s2 else s2
      else if 8 < p.gate then flt60 0x4102 locNone (s.modPower (fun p => { p with gate := p.gate - 1 }))
      else if p.stkCap then s
      else flt60 0x4103 locNone (s.modPower (fun p => { p with stkCap := true }))
    else if pm * 100 < 97 * p.capW && t + 20 < lim then
      if p.stkCap then s.modPower (fun p => { p with stkCap := false })
      else if p.gate < 16 then s.modPower (fun p => { p with gate := p.gate + 1 })
      else if p.nowMv < s.cfg.targetMv then s.modPower (fun p => { p with nowMv := min (p.nowMv + 5) s.cfg.targetMv })
      else s
    else s
  s1.modPower (fun p => { p with limited := decide (p.nowMv < s.cfg.targetMv) && !(pm * 100 < 97 * p.capW && t + 20 < lim) })

/-- The hottest die: 0-3, 4 the hub; the lowest on a tie. -/
def hottestOf (l : List Nat) : Nat := (List.range l.length).foldl (fun b i => if l.getD b 0 < l.getD i 0 then i else b) 0

/-- One sample of input power, junctions and coolant (R500, R503, R504, R506, R507). -/
def powerSample (x : Sample) (s : State) : State :=
  if s.power.phase = .off then s
  else
    let dies := padTo4 x.tj
    let all := dies ++ [x.hub]
    let t := all.foldl max 0
    let arr := dies.foldl max 0
    let uj := s.power.energyRest + 10 * x.psW
    let s1 := s.modPower (fun p => { p with
      inMv := min x.inMv 65535, inW := min x.pmW 65535, hubTenths := min x.hub 4095, arrTenths := min arr 4095, hottest := hottestOf all
      dieTenths := dies, inletTenths := min x.inlet 4095, outletTenths := min x.outlet 4095
      diesBelow85 := all.all (fun v => decide (v < 850)), energyRest := uj % 1000000000
      energyKj := wrapAdd 32 p.energyKj (uj / 1000000000) })
    let s2 := if 42000 ≤ x.inMv && x.inMv < 44000 then flt60 0x4301 locNone s1 else s1
    let s3 := if 56000 < x.inMv && x.inMv ≤ 58000 then flt60 0x4302 locNone s2 else s2
    let s4 := if x.inlet < 150 || 400 < x.inlet then flt 0x4402 0xFF 0xFF 0 locNone s3 else s3
    let s5 := if x.inlet + 200 < x.outlet then flt 0x4401 0xFF 0xFF 0 locNone s4 else s4
    if s5.power.phase = .calibrating then
      let cold := all.any (fun v => decide (v < 100))
      let s6 := s5.modPower (fun p => { p with coldDies := cold })
      if cold then flt60 0x4205 locNone s6 else s6
    else if s5.power.phase != .run then s5
    else
      let s6 := if 1050 ≤ arr + 10 * s5.cfg.ckTjMarginC then ckptAdvice 3 s5 else s5
      let s7 := if s6.power.dieTripped && decide (t < 1000) then s6.modPower (fun p => { p with dieTripped := false }) else s6
      if s7.power.dieTripped then s7 else powerLoop x.psW x.pmW t s7
where
  padTo4 (l : List Nat) : List Nat := (List.range 4).map (fun i => l.getD i 0)

/-- POWER_SAMPLE (R500). -/
def execPowerSample (x : Sample) (s : State) : Res := onCore (powerSample x) s

/-- CAP_NOT_HELD (R502). -/
def execCapNotHeld (s : State) : Res :=
  onCore (fun s =>
    let p := s.power
    if p.phase = .run && decide (p.nowMv ≤ 600) && decide (p.gate ≤ 8) && p.stkCap then flt 0x4104 0xFF 0xFF 0 locNone s else s) s

/-- A logic die reaches 105 °C (R504, R507). -/
def dieTrip (die : Nat) (s : State) : State :=
  let unit := if die < 4 then 0x50 + die else 0xFF
  
  if inSitOut s then flt 0x4503 unit 0xFF 0 locNone s
  else if s.power.phase != .run then s
  else
    let s1 := s.modPower (fun p => { p with nowMv := min p.nowMv 600, gate := 8, stkCap := true, dieTripped := true, diesBelow85 := false })
    benchAdvice 4 unit (thermalStop unit (flt 0x4202 unit 0xFF 0 locNone s1))

/-- DIE_TRIP (R504). -/
def execDieTrip (die : Nat) (s : State) : Res := onCore (dieTrip die) s

/-! ### Sit-out -/

/-- Beats 1 to 5 of the entry (R509): units off, memories in self-refresh, settings retained, links and host port down, core rail
off. Queues, events and job contexts are empty from here on (R511). -/
def enterSitOut (thermal : Bool) (s : State) : State :=
  let s0 := endFoulAuth s
  let s1 := s0.setUnits 0
  let s2 := forAll ((List.range 24).filter (fun l => let k := (s1.link l).state; k != 0 && k != 4)) (fun l s => linkDown l 7 s) s1
  let s3 := flt0 0x4501 0xFF 0xFF 0 s2
  let keep : Retention := { capW := s3.power.capW, targetMv := s3.cfg.targetMv, tjLimitC := s3.cfg.tjLimitC }
  let gone := s3.w.jobs.filter (fun e => e.2.live)
  let s4 := forAll (gone.map (fun e => e.1)) releaseJob s3
  { s4 with
    cfg := { escLimit := s.cfg.escLimit, escWindowS := s.cfg.escWindowS, settleUs := s.cfg.settleUs, sideSev := s.cfg.sideSev
             provSev := s.cfg.provSev, targetMv := s.cfg.targetMv, tjLimitC := s.cfg.tjLimitC, wakeBench := s.cfg.wakeBench }
    ctl := { s4.ctl with
      unitEn := 0
      health := { s4.ctl.health with alive := 0, tripped := [], idleMs := [] }
      clk := { s4.ctl.clk with locked := false, synced := false, frozen := true, good := 0 }
      power := { s4.power with
        phase := .sitOut, retention := some keep, nowMv := 0, gate := 16, stkCap := false, limited := false, thermSit := thermal
        sitPending := false, ready := false, hostPortUp := false, dieTripped := false, selfRef := true } }
    w := tidy { (warmWorld s4 s4.w.stale) with
      sl := s4.w.sl, last60 := s4.w.last60
      topo := { node := s4.w.topo.node, plan := s4.w.topo.plan } } }

/-- THERMAL_SITOUT_TIMER (R504). -/
def execThermalSitoutTimer (still : Bool) (s : State) : Res :=
  onAll (fun s => if still && s.power.phase = .run && s.power.dieTripped then enterSitOut true (flt0 0x4203 0xFF 0xFF 0 s) else s) s

/-- SIT_OUT_ENTRY (R509). -/
def execSitOutEntry (s : State) : Res :=
  onAll (fun s => if s.power.sitPending && s.power.phase = .run then enterSitOut false s else s) s

/-- A wake source fires (R510, R512): 1 the sideline, 2 the bench bundle. -/
def wake (source : Nat) (s : State) : State :=
  if inSitOut s || s.power.sitPending then s.modPower (fun p => { p with wakePending := if p.wakePending = 0 then source else p.wakePending })
  else s

/-- BENCH_SIGNAL_DETECT (R510): armed, and never out of a thermal sit-out. -/
def execBenchSignalDetect (s : State) : Res :=
  onCore (fun s => if s.cfg.wakeBench && !(inSitOut s && s.power.thermSit) then wake 2 s else s) s

/-- The exit from sit-out (R511, R512): only with a wake and a running clock. -/
def sitOutExit (s : State) : State :=
  if !(s.power.phase = .sitOut && s.power.wakePending != 0) then s
  else
    let src := s.power.wakePending
    let r := s.power.retention.getD { capW := s.power.capW, targetMv := s.cfg.targetMv, tjLimitC := s.cfg.tjLimitC }
    let s1 : State := { s with
      cfg := { s.cfg with targetMv := r.targetMv, tjLimitC := r.tjLimitC }
      ctl := { s.ctl with clk := { s.ctl.clk with locked := true, synced := false, frozen := false } } }
    let s2 := s1.modPower (fun p => { p with
      capW := r.capW, nowMv := min 750 r.targetMv, gate := 16, stkCap := false, limited := false
      retention := none, wakePending := 0, lastWake := src, bringup := .cold })
    let s3 := s2.onW (fun w => { w with cxl := w.cxl.map (fun e => (e.1, { e.2 with linkUp := e.2.present })) })
    let s4 := unitsUp (boot (emptyXings s3))
    let s5 := flt 0x4502 0xFF 0xFF 0 (locCause src 0xFF) (s4.modPower (fun p => { p with wakeLow := true }))
    { s5 with cfg := s1.cfg }

/-- SIT_OUT_EXIT (R511). -/
def execSitOutExit (s : State) : Res := onAll sitOutExit s

/-- WAKE_RELEASE (R556). -/
def execWakeRelease (s : State) : Res := onCore (fun s => s.modPower (fun p => { p with wakeLow := false })) s

end Sys2Proof.Machine
end

