-- ==== Sys2Proof/Machine/Auth.lean ====
section
/-! DEFINITION. Authorisation records (R535-R538): their checks, what each kind does. REINSTATE and the sideline share them. -/

namespace Sys2Proof.Machine

open Sys2Proof

/-- The bytes of a public key, x then y, big-endian (R535). -/
def keyBytes (k : Nat × Nat) : Bytes := beBytes 48 k.1 ++ beBytes 48 k.2

/-- The argument of a kind (R535, R537, R538): a key, provisioning with its severity and zeros after it, or zeros. -/
def authBody (kind : Nat) (r : Bytes) : List (Nat × Bool) :=
  let clear (off n : Nat) : Nat × Bool := (off, fld r off n == 0)
  if kind = 6 then []
  else if kind = 7 then [(82, decide (1 ≤ fld r 82 1) && decide (fld r 82 1 ≤ 3)), clear 83 77]
  else [clear 64 96]

/-- Check 1 of R536 for a record that is to be of a kind. -/
def authFields (kind : Nat) (r : Bytes) : List (Nat × Bool) :=
  [(0, fld r 0 4 == 0x48545541), (4, fld r 4 2 == 1), (6, fld r 6 1 == kind), (7, fld r 7 1 == 1 || (fld r 7 1 == 2 && kind == 6)),
   (24, kind != 2 || (decide (1 ≤ fld r 24 4) && decide (fld r 24 4 ≤ 86400))), (28, kind != 3 || decide (fld r 28 1 < 144))] ++ authBody kind r

/-- The key a record's signer stands for (R529): the fleet key, or Krelen's enrolment key, which the fused digest names. -/
def signerKey (s : State) (r : Bytes) : Option Bytes :=
  if fld r 7 1 = 1 then s.w.sl.fleetKey.map keyBytes
  else match s.ctl.ident.enrolKey with
    | some k => if beNum (sha384 (keyBytes k)) = s.ctl.ident.enrolDigest then some (keyBytes k) else none
    | none => none

/-- The signature of a record verifies (R535). -/
def authSigned (s : State) (r : Bytes) : Bool :=
  match signerKey s r with
  | some k => ecdsaOk k ((r.drop 160).take 96) (sha384 (r.take 160))
  | none => false

/-- Checks 1 to 5 of R536: none, or status and detail. -/
def authFail (kind : Nat) (r : Bytes) (s : State) : Option (Nat × Nat) :=
  match firstBad (authFields kind r) with
  | some o => some (0x11, 2 ^ 31 + o)
  | none =>
    if fld r 8 8 = s.ctl.ident.serial && (signerKey s r).isSome && decide (s.w.sl.authSeq < fld r 16 8) && authSigned s r then none
    else some (0xA0, 0)

/-- The cell a kind 3 record names (R535). -/
def authCell (r : Bytes) : Nat := 144 * (fld r 29 1 % 4) + fld r 28 1

/-- The provisioning of a record is the one in force (R537). -/
def sameProvision (r : Bytes) (s : State) : Bool :=
  let x := s.w.sl
  let addr := fld r 64 4
  x.prov && (if addr = 0 then x.dhcp else !x.dhcp && x.addr == addr && x.netmask == fld r 68 4 && x.gateway == fld r 72 4) &&
  x.coll == fld r 76 4 && x.port == (if fld r 80 2 = 0 then 19271 else fld r 80 2) && s.cfg.sideSev == fld r 82 1

/-- Provision the sideline (R538). -/
def provision (r : Bytes) (s : State) : State :=
  let addr := fld r 64 4
  let sev := fld r 82 1
  let net (x : Sl) : Sl :=
    if addr = 0 then (if x.dhcp then x else { x with dhcp := true, addr := 0, addrOk := false, netmask := 0, gateway := 0 })
    else { x with dhcp := false, addr := addr, addrOk := true, netmask := fld r 68 4, gateway := fld r 72 4 }
  ({ s with cfg := { s.cfg with sideSev := sev, provSev := sev } }).modSl (fun x => { net x with
    prov := true, coll := fld r 76 4, port := if fld r 80 2 = 0 then 19271 else fld r 80 2 })

/-- Firmware enables the foul injector when it runs on a module in service (R62). -/
def enableInjector (s : State) : State :=
  if running s && !s.ctl.health.sentOff then s.setUnits (setBit s.ctl.unitEn 0x0A true) else s

/-- Check 6 and the action of a kind (R537): status, detail, state. -/
def authAct (kind : Nat) (r : Bytes) (s : State) : Nat × Nat × State :=
  if kind = 1 then
    if !s.ctl.health.sentOff then (1, 1, s)
    else
      let s1 := s.modHealth (fun h => { h with sentOff := false, inWindow := 0, stamps := [], resetDue := 9 })
      (0, 0, event 0x000A 0xFF 0xFFFF 0 0 (flt0 0x5502 0xFF 0xFF 0 s1))
  else if kind = 2 then (0, 0, enableInjector (s.modSl (fun x => { x with foulAuth := true, foulLeftS := fld r 24 4 })))
  else if kind = 3 then
    if !(s.cell (authCell r)).excluded then (1, 1, s)
    else (0, 0, s.modCell (authCell r) (fun c => { c with excluded := false, exclGood := 0, state := if c.retired then 3 else 1 }))
  else if kind = 4 then (0, 0, s.modHealth (fun h => { h with resetDue := 8 }))
  else if kind = 5 then
    if !(inSitOut s || s.power.sitPending) then (1, 1, s)
    else if inSitOut s && s.power.thermSit && !s.power.diesBelow85 then (0x80, 0, s)
    else (0, 0, wake 1 s)
  else if kind = 6 then
    let k := (beNum ((r.drop 64).take 48), beNum ((r.drop 112).take 48))
    if s.w.sl.fleetKey = some k then (1, 1, s)
    else (0, 0, flt0 0x7301 0x09 0xFF 0 (s.modSl (fun x => { x with fleetKey := some k })))
  else if kind = 7 then (if sameProvision r s then (1, 1, s) else (0, 0, provision r s))
  else if s.ctl.health.sentOff then (1, 1, s)
  else (0, 0, sendOff s.ctl.health.inWindow s)

/-- A record of a kind arrives (R536): a refusal changes nothing but the log; one that passes checks 1 to 5 uses up its sequence. -/
def authRun (kind : Nat) (r : Bytes) (s : State) : Nat × Nat × State :=
  match authFail kind r s with
  | some (st, d) => (st, d, flt 0x7202 0x09 0xFF 0 (locCause st 0x09) s)
  | none => authAct kind r (flt 0x7201 0x09 0xFF 0 (locCause kind 0x09) (s.modSl (fun x => { x with authSeq := fld r 16 8 })))

end Sys2Proof.Machine
end

