-- ==== Sys2Proof/Machine/Admin.lean ====
section
/-! DEFINITION. The remaining commands of the administrative queue: NOP, FENCE (R275), HEALTH_READ (R285, R463, R464), POWER_SET
(R509), RESET_MODULE (R284), REINSTATE (R473), DIAG_SNAPSHOT and DIAG_TRACE (R279, R285). -/

namespace Sys2Proof.Machine

open Sys2Proof

/-! ### NOP and FENCE -/

def runNop (h : Hdr) : State → State := startCmd (.nop h) 0x0001 h (fun s => okC s)

/-- NOP (R279). -/
def execNop (h : Hdr) (s : State) : Res := onWorld (runNop h) s

/-- FENCE's own part: it waits for everything earlier in its scope; module scope on queue 0 only (R275, R279). -/
def fenceOwn (h : Hdr) (scope : Nat) (s : State) : Cmd := if 2 < scope || (scope = 2 && h.q != 0) then badC s 16 else .later s scope 0

def runFence (h : Hdr) (scope : Nat) (s : State) : State :=
  let s1 := startCmd (.fence h scope) 0x0002 h (fenceOwn h scope) s
  settleFences s1.w.inflight.length s1

/-- FENCE (R275). -/
def execFence (h : Hdr) (scope : Nat) (s : State) : Res := onWorld (runFence h scope) s

/-! ### HEALTH_READ -/

/-- HL_QWD of a job (R464). -/
def qwdNum (s : State) (j : Nat) : Nat :=
  tget 5000 s.cfg.qwdBudget j % 2 ^ 20 + 2 ^ 20 * b2n (tget false s.ctl.health.tripped j) + 2 ^ 32 * tget 0 s.ctl.health.idleMs j

/-- HL_STATE as read (R464). -/
def hlState (s : State) : Nat :=
  let h := s.ctl.health
  b2n h.sentOff + 2 * b2n h.recordValid + 4 * b2n h.flushTimeout + 8 * b2n h.stale

/-- The HEALTH block as its registers lie (R464). -/
def healthBlock (s : State) : Bytes :=
  let h := s.ctl.health
  padTo 0x100 (layout [(8, h.warmTotal + 2 ^ 16 * h.inWindow + 2 ^ 24 * h.lastCause), (8, s.cfg.escLimit + 2 ^ 16 * s.cfg.escWindowS),
    (8, hlState s), (8, h.lastNs), (8, h.alive + 2 ^ 16 * h.misses)]) ++
  (List.range 64).flatMap (fun j => leBytes 8 (qwdNum s j))

/-- A job entry of R463. -/
def SurvJob.bytes (e : SurvJob) : Bytes :=
  layout [(1, e.job), (1, e.flags), (2, 0), (4, e.pasid), (8, e.lastGood), (8, e.stepInFlight), (4, e.setEpoch), (4, e.modeEpoch), (32, e.digest), (4, e.ckptGen), (4, e.ckptChunks), (8, e.cut), (2, e.boundary), (2, 0), (4, e.saveKib), (40, 0)]

/-- The survival record (R463). -/
def survBytes (v : Survival) : Bytes :=
  let entry (j : Nat) : Bytes := match v.jobs.find? (fun e => e.job == j) with | some e => e.bytes | none => zeros 128
  layout [(4, 0x44565253), (2, 1), (2, 256), (4, 256 + 8192 + 16 * v.stale.length), (1, v.cause), (1, v.flush), (2, v.jobs.length), (8, v.ns),
    (4, v.causeDetail), (4, v.faultIdx), (2, v.warmInWindow), (2, v.wholeStacks), (4, v.stale.length),
    (96, sumNat (v.retiredPcs.map (fun p => 2 ^ p))), (120, 0)] ++
  (List.range 64).flatMap entry ++ v.stale.flatMap (fun (g : Nat × Nat × Nat) => layout [(4, g.2.1), (1, g.1), (3, 0), (8, g.2.2)])

/-- HEALTH_READ's own part (R279, R285). -/
def healthReadOwn (h : Hdr) (buf len what : Nat) (s : State) : Cmd :=
  if 3 < what then badC s 28
  else if what = 0 then wholeWrite s h.job buf len (healthBlock s)
  else if what = 1 then (if s.live h.job then wholeWrite s h.job buf len (survEntry s h.job).bytes else badC s 8)
  else if what = 2 then
    if len < 64 then failC s 0x20 0 0xFF (leBytes 4 64)
    else
      let bs := ((s.w.flog.recs.take (len / 64)).reverse).flatMap FRec.bytes
      withWrite s h.job buf bs 16 (fun s => okC s (leBytes 4 bs.length))
  else wholeWrite s h.job buf len (survBytes s.ctl.surv)

def runHealthRead (h : Hdr) (buf len what : Nat) : State → State := startCmd (.healthRead h buf len what) 0x0801 h (healthReadOwn h buf len what)

/-- HEALTH_READ (R285). -/
def execHealthRead (h : Hdr) (buf len what : Nat) (s : State) : Res := onWorld (runHealthRead h buf len what) s

/-! ### POWER_SET, RESET_MODULE, REINSTATE -/

/-- A mirror is bound in either role (R455). -/
def mirrorBound (s : State) : Bool := s.w.mr.out != 0 || s.w.mr.inn != 0

/-- POWER_SET's own part (R509). -/
def powerSetOwn (cap state : Nat) (s : State) : Cmd :=
  if !(cap = 0 || (decide (900 ≤ cap) && decide (cap ≤ 1200))) then badC s 16
  else if 2 < state then badC s 18
  else if state = 1 && (s.w.jobs.any (fun e => e.2.live) || mirrorBound s) then failC s 0x30
  else if state = 1 && (s.w.stk.any (fun e => e.2.level == 4) || s.w.lp.any (fun e => e.2.held != 0)) then failC s 0x80
  else
    let s1 := s.modPower (fun p => { p with capW := if cap = 0 then p.capW else cap, sitPending := p.sitPending || state = 1 })
    if state = 1 || (cap != 0 && cap != s.power.capW) then okC s1 else noteC s 1

def runPowerSet (h : Hdr) (cap state : Nat) : State → State := startCmd (.powerSet h cap state) 0x0802 h (powerSetOwn cap state)

/-- POWER_SET (R509): the reply is written; sit-out entry follows as its own event. -/
def execPowerSet (h : Hdr) (cap state : Nat) (s : State) : Res := onCore (runPowerSet h cap state) s

/-- RESET_MODULE's own part: a warm reset of cause 2 is due (R284, R458). -/
def resetModuleOwn (kind : Nat) (s : State) : Cmd := if kind != 0 then badC s 16 else okC (s.modHealth (fun h => { h with resetDue := 2 }))

/-- An accepted RESET_MODULE raises its queue's vector whatever its flags ask (R284). -/
def runResetModule (h : Hdr) (kind : Nat) (s : State) : State :=
  startCmd (.resetModule h kind) 0x0803 (if kind = 0 && (commonFail s 0x0803 h).isNone then { h with irq := true } else h) (resetModuleOwn kind) s

/-- RESET_MODULE (R284). -/
def execResetModule (h : Hdr) (kind : Nat) (s : State) : Res := onCore (runResetModule h kind) s

/-- REINSTATE's own part: the record is one of kind 1 and 256 B (R473, R536). -/
def reinstateOwn (h : Hdr) (addr len : Nat) (s : State) : Cmd :=
  if len != 256 then badC (flt 0x7202 0x09 0xFF 0 (locCause 0x11 0x09) s) 24
  else withRead s h.job addr 256 16 (fun bs =>
    match authRun 1 bs s with
    | (st, d, s1) => failC s1 st d)

def runReinstate (h : Hdr) (addr len : Nat) : State → State := startCmd (.reinstate h addr len) 0x0804 h (reinstateOwn h addr len)

/-- REINSTATE (R473). -/
def execReinstate (h : Hdr) (addr len : Nat) (s : State) : Res := onCore (runReinstate h addr len) s

/-! ### Diagnostics -/

/-- Units that exist (R61). -/
def knownUnit (u : Nat) : Bool :=
  decide (u ≤ 0x0A) || (decide (0x10 ≤ u) && decide (u ≤ 0x1B)) || (decide (0x20 ≤ u) && decide (u ≤ 0x23)) || u = 0x28 ||
  (decide (0x30 ≤ u) && decide (u ≤ 0x47)) || (decide (0x50 ≤ u) && decide (u ≤ 0x53)) || (decide (0x60 ≤ u) && decide (u ≤ 0x6B))

/-- What a snapshot of a unit holds: the capture slots (R401), the pending CPER records (R534), else bytes the spec leaves open:
a free length and a free value (log 71). -/
def snapshot (u : Nat) (s : State) : Bytes × State :=
  if u = 0x05 then (s.w.ump.caps.flatMap (fun (e : Nat × Bytes) => e.2), s)
  else if u = 0x09 then (pendingCper s, s)
  else (let n := s.draw; let v := n.2.draw; (leBytes (n.1 % 2 ^ 32) v.1, v.2))

/-- A command names a disabled unit (R64). -/
def unitOffC (u : Nat) (s : State) : Cmd := failC (flt 0x5110 u 0xFF 0 (locCause 4 u) s) 0x13 0 u

/-- DIAG_SNAPSHOT's own part (R279, R285). -/
def diagSnapshotOwn (h : Hdr) (buf len unit : Nat) (s : State) : Cmd :=
  if !knownUnit unit then badC s 28
  else if !s.unitOn unit then unitOffC unit s
  else (let r := snapshot unit s; wholeWrite r.2 h.job buf len r.1)

def runDiagSnapshot (h : Hdr) (buf len unit : Nat) : State → State :=
  startCmd (.diagSnapshot h buf len unit) 0x0F01 h (diagSnapshotOwn h buf len unit)

/-- DIAG_SNAPSHOT (R285). -/
def execDiagSnapshot (h : Hdr) (buf len unit : Nat) (s : State) : Res := onWorld (runDiagSnapshot h buf len unit) s

/-- DIAG_TRACE's own part: tracing of a unit into a buffer starts or stops (R279); what a trace holds the spec does not say (log 71). -/
def diagTraceOwn (unit on buf len : Nat) (s : State) : Cmd :=
  if !knownUnit unit then badC s 16
  else if 1 < on then badC s 17
  else if !s.unitOn unit then unitOffC unit s
  else
    let rest := s.w.traces.filter (fun (e : Nat × Nat × Nat) => e.1 != unit)
    okC (s.onW (fun w => { w with traces := if on = 1 then (unit, buf, len) :: rest else rest }))

def runDiagTrace (h : Hdr) (unit on buf len : Nat) : State → State := startCmd (.diagTrace h unit on buf len) 0x0F02 h (diagTraceOwn unit on buf len)

/-- DIAG_TRACE (R279). -/
def execDiagTrace (h : Hdr) (unit on buf len : Nat) (s : State) : Res := onWorld (runDiagTrace h unit on buf len) s

end Sys2Proof.Machine
end

