-- ==== Sys2Proof/Machine/SetLoad.lean ====
section
/-! DEFINITION. SET_LOAD (R117-R120): check 4 of R119 over every record and descriptor, check 6 (R72, R77, R85, R92, R110, R112,
R145, R147, R151), check 8 (R83, R125, R245, R253), and what loading a set does. -/

namespace Sys2Proof.Machine

open Sys2Proof

/-! ### Descriptors -/

/-- Descriptors the records of a set name: (stage index, kind 0 gather, 1 row-optimizer, 2 collective, offset). -/
def descsOf (t : SetImg) : List (Nat × Nat × Nat) :=
  t.stages.flatMap (fun s =>
    if isLookup s then [(s.idx, 0, s.desc)]
    else if isScatter s then
      let c := fld t.img (s.desc + 28) 4
      (s.idx, 1, s.desc) :: (if c = 0 then [] else [(s.idx, 2, c)])
    else if isExchange s then [(s.idx, 2, s.desc)] else [])

/-- A descriptor lies within the image at a multiple of 64, off the tables and off descriptors of other kinds (R117). -/
def descAt (t : SetImg) (tabs : List (Nat × Nat × Nat)) (kind off : Nat) : Bool :=
  off != 0 && off % 64 == 0 && decide (off + 64 ≤ t.img.length) && tabs.all (fun u => apart (off, 64) (u.2.1, u.2.2)) &&
    (descsOf t).all (fun e => e.2.2 != off || e.2.1 == kind)

/-- Extents that spans and steps are judged against: those of the set's own job plan (R362). -/
def setExt (t : SetImg) : List Nat := planExt t.plan

/-- The checks of one descriptor (R245, R251, R253, R364); none where it does not lie in the image. -/
def descChecks (t : SetImg) (tabs : List (Nat × Nat × Nat)) (s : Stage) (kind off : Nat) : List (Nat × Bool) :=
  if !descAt t tabs kind off then []
  else
    let b := (t.img.drop off).take 64
    if kind = 0 then gatherChecks b off (fun id => id != 0 && t.tensors.any (fun r => r.id == id && r.role == 0 && r.fmt == 0x01))
    else if kind = 1 then
      rowOptChecks b off
        (fun n => match t.stage? n with
          | some l => isLookup l && l.table == s.table && fld t.img (l.desc + 2) 1 != 2
          | none => false)
        (fun c => descAt t tabs 2 c)
    else
      let ends : List (Nat × Bool) := [(4, [0, 1, 2, 6, 7]), (8, [4, 6])].map (fun o =>
        (off + o.1, fld b o.1 4 == 0 || o.2.contains (t.role? (fld b o.1 4))))
      collChecks b off (setExt t) (isScatter s) ++ ends

/-! ### Check 4 -/

/-- Place-of-use index and aux selectors of a stage (R112, R121, R137). -/
def moreStageChecks (t : SetImg) (so : Nat) (s : Stage) : List (Nat × Bool) :=
  let off := so + 64 * s.idx
  let sels := match t.fig? s with
    | some f => if isVector s && f.kind == 2 then (f.ops.flatMap opSources).filter (fun x => decide (20 ≤ x) && decide (x ≤ 23)) else []
    | none => []
  (off + 10, s.tied == 0xFFFF || (isProduct s && s.weight != 0)) :: sels.map (fun x => (off + 24 + 2 * (x - 20), s.par? (24 + 2 * (x - 20)) 2 != 0))

/-- A LOOKUP's figure puts out FP32, BF16 or FP16 (R245). -/
def lookupOut (figs : List (Nat × Fig)) (s : Stage) : List (Nat × Bool) :=
  match figs[s.fig]? with
  | some (o, f) => if isLookup s then [(o + 14, [0x01, 0x02, 0x03].contains f.oFmt)] else []
  | none => []

/-- Check 4 of R119, the records against one another. -/
def wiringChecks (t : SetImg) : List (Nat × Bool) :=
  let so := fld t.img 24 4
  let mo := fld t.img 28 4
  t.stages.zipIdx.flatMap (fun p => stageWiring t so p.2 p.1 (exchEnds t p.1)) ++
  t.streams.zipIdx.flatMap (fun p => strmWiring t mo p.2 p.1) ++ halfChecks t so mo

/-- Check 4 of R119, every record, descriptor, check table and plan on its own fields: a field that is wrong in itself is the
offending one, ahead of a record that fails only because of it (DEDUCED from R278, log 82). -/
def recordChecks (t : SetImg) (tabs : List (Nat × Nat × Nat)) : List (Nat × Bool) :=
  let img := t.img
  let so := fld img 24 4
  let mo := fld img 28 4
  let to_ := fld img 32 4
  let figs := figWalk (fld img 22 2) (fld img 36 4) (img.drop (fld img 36 4))
  let nchk := if t.chkOff = 0 then 0 else fld img (t.chkOff + 2) 2
  [(52, t.stepConst == 0 || t.tensors.any (fun r => r.id == t.stepConst && r.role == 7 && r.fmt == 0x01 && r.count == 8))] ++
  figs.zipIdx.flatMap (fun p => figChecks t p.2 p.1.1 p.1.2 (crc32 ((img.drop (p.1.1 + 32)).take (p.1.2.len - 32))) fmtKnown) ++
  t.stages.zipIdx.flatMap (fun p =>
    let kind := if isLookup p.1 then 0 else if isScatter p.1 then 1 else 2
    stageChecks t so p.2 p.1 nchk (descAt t tabs kind p.1.desc) ++ moreStageChecks t so p.1 ++ lookupOut figs p.1) ++
  t.streams.zipIdx.flatMap (fun p => strmChecks t mo p.2 p.1) ++
  t.tensors.zipIdx.flatMap (fun p => tensChecks t to_ p.2 p.1 fmtKnown) ++
  (descsOf t).flatMap (fun e => match t.stage? e.1 with
    | some s => descChecks t tabs s e.2.1 e.2.2
    | none => []) ++
  (if t.chkOff = 0 then [] else chkChecks (img.drop t.chkOff) t.chkOff) ++
  (if t.planOff = 0 then [] else planChecks (img.drop t.planOff) 1 t.planOff)

/-! ### Check 6 -/

/-- Formats of dY that a return stage takes, and whether it can form dW, by the forward pair (R151): none where no return stage
is possible. -/
def returnFmts (a w : Nat) : Option (List Nat × Bool) :=
  let ex := w == 0x18 || w == 0x19 || w == 0x1A
  if a == 0x01 && w == 0x01 then some ([0x01], true)
  else if a == 0x02 && w == 0x02 then some ([0x02], true)
  else if a == 0x03 && w == 0x03 then some ([0x03], true)
  else if a == 0x20 && w == 0x20 then some ([0x20], true)
  else if a == 0x02 && ex then some ([0x02], false)
  else if a == 0x04 || a == 0x05 then (if ex then some ([0x04, 0x05], false) else some ([0x04, 0x05], true))
  else if isMx a && isMx w then some ([0x02], true)
  else none

/-- Formats around a return stage (R145, R147, R151). -/
def returnChecks (t : SetImg) (so mo : Nat) (s : Stage) (f : Fig) : List (Nat × Bool) :=
  let e := s.idx + 0x8000
  let off := so + 64 * s.idx + 3
  let comp := bit f.acc 0
  let at_ (r : Strm) : Nat := mo + 32 * r.idx + 10
  if !s.grad then []
  else match returnFmts f.aFmt f.bFmt with
    | none => [(off, false)]
    | some (dy, both) =>
      [(off, both || s.frozen)] ++
      ((t.ins e).map (fun r => (at_ r, if r.dstPort = 0 then dy.contains r.fmt else r.fmt == f.aFmt))) ++
      ((t.outs e).map (fun r => (at_ r, if r.srcPort = 0 then (if comp then r.fmt == 0x01 else [0x01, 0x02, 0x03, 0x04, 0x05].contains r.fmt)
        else if comp then r.fmt == 0x01 else [0x01, 0x02, 0x03].contains r.fmt)))

/-- Tied uses of a weight: indices 0 to U - 1, each once, U from 2 to 64 (R112). -/
def tiedChecks (t : SetImg) (so : Nat) : List (Nat × Bool) :=
  let uses := t.stages.filter (fun s => isProduct s && s.tied != 0xFFFF)
  uses.map (fun s =>
    let l := (uses.filter (fun q => q.weight == s.weight)).map (fun q => q.tied)
    (so + 64 * s.idx + 10, decide (2 ≤ l.length) && decide (l.length ≤ 64) && sortNat l == List.range l.length))

/-- Streams of one output port ask for one block axis (R77). -/
def axisChecks (t : SetImg) (mo : Nat) : List (Nat × Bool) :=
  let mx := t.streams.filter (fun r => isMx r.fmt && r.src != 0xFFFF && t.role? r.tensor == 3)
  mx.map (fun r =>
    let l := (mx.filter (fun q => q.src == r.src && q.srcPort == r.srcPort)).filterMap (wantedAxis t)
    (mo + 32 * r.idx + 6, !(l.contains 0 && l.contains 1)))

/-- Check 6 of R119. -/
def formatChecks (t : SetImg) : List (Nat × Bool) :=
  let img := t.img
  let so := fld img 24 4
  let mo := fld img 28 4
  let figs := figWalk (fld img 22 2) (fld img 36 4) (img.drop (fld img 36 4))
  (t.stages.filter isProduct).flatMap (fun s => match figs[s.fig]? with
    | none => []
    | some (o, f) =>
      let wf := if s.weight = 0 then f.bFmt else (match t.tens? s.weight with | some r => r.fmt | none => f.bFmt)
      [(o + 12, pairOk f.aFmt f.bFmt), (o + 13, wf == f.bFmt),
       (o + 37, (!bit f.tr 0 || transposable f.aFmt) && (!bit f.tr 1 || transposable f.bFmt))] ++
      returnChecks t so mo s f) ++
  (figs.filter (fun e => e.2.kind == 1)).map (fun e => (e.1 + 8, accCtlOk e.2.acc e.2.aFmt e.2.bFmt)) ++ tiedChecks t so ++ axisChecks t mo

/-! ### Check 8 -/

/-- Check 8 of R119: every reference resolves, and the conditions on declarations hold. -/
def declaredChecks (s : State) (j : Nat) (t : SetImg) : List (Nat × Bool) :=
  let img := t.img
  let so := fld img 24 4
  let to_ := fld img 32 4
  t.tensors.zipIdx.flatMap (fun p =>
    let r := p.1
    let o := to_ + 16 * p.2
    if r.role = 3 then []
    else match s.decl j r.handle with
      | none => [(o + 4, false)]
      | some d => [(o + 2, (r.role == 5) == (d.kind == 1)), (o + 3, d.fmt == r.fmt), (o + 8, d.count == r.count)]) ++
  t.stages.flatMap (fun x =>
    let o := so + 64 * x.idx
    let dOf (id : Nat) : Option Decl := match t.tens? id with | some r => s.decl j r.handle | none => none
    if isProduct x then
      (match dOf x.weight, t.fig? x with
       | some d, some f => if d.fmt == 0x1A then [(o + 32, bit d.group 1 == (f.aFmt == 0x04 || f.aFmt == 0x05))] else []
       | _, _ => [])
    else if isLookup x then (match dOf x.table with | some d => [(o + 24, d.rowLen == x.pooled)] | none => [])
    else if isScatter x then
      (match dOf x.table with
       | some d => [(x.desc + 2, decide (stateNeed (fld img (x.desc + 2) 1) (elemBytes d.fmt) d.rowLen ≤ d.rowState))]
       | none => [])
    else [])

/-! ### Loading -/

/-- The set of an image under its computed digest (R118). -/
def loadImage (img : Bytes) : SetImg := { parseSet img with digest := leNum (sha256 (digestInput img)) }

/-- A set becomes current: placed whole, tier 1 spread afresh, its plan in force where the job holds the array (R120, R184, R191). -/
def setCurrent (j : Nat) (t : SetImg) (p : Place) (tiers : List (Nat × Nat × Nat)) (s : State) : State :=
  let b := s.job j
  let s1 := s.setJob j { (b.makeCurrent t p) with tiers := mergeTiers b t tiers, decls := settleHomes b t (gonePcs s), copies := [] }
  let s2 := s1.onW (fun w => { w with holder := if w.holder.isNone then some j else w.holder })
  formCopies true j (respread j t.names (syncPlan true s2))

/-- The units a set needs beside the arrays (R259, R384): the Reel engine for EXCHANGE stages, the stack engines for LOOKUP and
SCATTER. -/
def setUnits (t : SetImg) : List Nat :=
  (if t.stages.any isExchange then [0x06] else []) ++
    (if t.stages.any (fun x => isLookup x || isScatter x) then (List.range 12).map (fun i => 0x60 + i) else [])

/-- Reply of SET_LOAD: set epoch; 0 current, 1 staged. -/
def setReply (epoch staged : Nat) : Bytes := layout [(4, epoch), (1, staged)]

/-- Checks 2 to 10 of R119 on the bytes of an image, then the load; no set becomes current while another job holds the array
(R317). -/
def loadSet (j len : Nat) (img : Bytes) (s : State) : Cmd :=
  let b := s.job j
  let cl := if fld img 40 4 = 0 || 1024 < fld img (fld img 40 4 + 2) 2 then 16 else chkTableLen (img.drop (fld img 40 4))
  let pl := if fld img 44 4 = 0 then 64 else max 64 (fld img (fld img 44 4 + 8) 4)
  if fld img 8 4 != len then badC s 24
  else checkRec s (headerChecks img cl pl) (
    let t := loadImage img
    if fld img 64 32 != 0 && fld img 64 32 != t.digest then badRec s 64
    else if (match b.cur with | some c => c.digest == t.digest | none => false) then noteC s 1 (setReply b.setEpoch 0)
    else if (match b.staged with | some c => c.digest == t.digest | none => false) then noteC s 1 (setReply b.setEpoch 1)
    else checkRec s (recordChecks t (setTables img cl pl)) (
      checkRec s (wiringChecks t) (
      if namesPair t && !capable s 0x0011 then failC s 0x12 else
      checkRec s (formatChecks t) (
        checkRec s (graphChecks t (fld img 28 4)) (
          checkRec s (declaredChecks s j t) (
            match (setUnits t).find? (fun u => !s.unitOn u) with
            | some u => failC (flt 0x5110 u 0xFF 0 (locCause 4 u) s) 0x13 0 u
            | none => match placeJob s j t (if b.cur.isSome then 6 else 0) with
            | none => failC s 0x20
            | some (p, tiers) =>
              if b.run.isSome || (b.cur.isNone && heldByOther s j) then failC s 0x30
              else if b.cur.isSome then okC (s.setJob j { b with staged := some t, stagedPlace := p }) (setReply b.setEpoch 1)
              else
                let s1 := setCurrent j t p tiers s
                okC s1 (setReply (s1.job j).setEpoch 0)))))))

/-- SET_LOAD's own part: the image is read first (R314, R482). -/
def setLoadOwn (h : Hdr) (addr len : Nat) (s : State) : Cmd :=
  withRead s h.job addr (min len 16777216) 16 (fun img => loadSet h.job len img s)

def runSetLoad (h : Hdr) (addr len : Nat) : State → State := startCmd (.setLoad h addr len) 0x0301 h (setLoadOwn h addr len)

/-- SET_LOAD (R119). -/
def execSetLoad (h : Hdr) (addr len : Nat) (s : State) : Res := onWorld (runSetLoad h addr len) s

end Sys2Proof.Machine
end

