-- ==== Sys2Proof/Machine/Mirror.lean ====
section
/-! DEFINITION. The partner mirror (R419-R428) and the bench module: MIRROR_BIND, the messages of class 3, BENCH_CALL, the
hot-state pull and lazy restore (R433-R440). -/

namespace Sys2Proof.Machine

open Sys2Proof

def modMr (f : Mr → Mr) (s : State) : State := s.onW (fun w => { w with mr := f w.mr })

/-! ### MIRROR_BIND (R420, R421) -/

/-- Logical port 6 is up toward a node: at least one link, and every link that is up reports it (R420 check 2). -/
def partnerUp (s : State) (node : Nat) : Bool :=
  match (portEnts s).find? (fun e => e.port == 6) with
  | none => false
  | some e =>
    let up := (bitList e.mask 24).filter (fun l => (s.link l).state = 3)
    !up.isEmpty && up.all (fun l => (s.link l).peerNode = node)

/-- 512 GiB of tier 2 outside every declaration and reservation, and 512 GiB of mapped tier 3 (R27, R420 check 4). A binding in
force is replaced, so its own reservation does not count. -/
def mirrorRoom (s : State) : Bool :=
  let s0 := modMr (fun m => { m with resv := false }) s
  let used := sumNat ((tkeys s.w.jobs).map (fun j => tierBytes s0 j 2))
  decide (512 * gib ≤ tierCap s0 (s.w.holder.getD 0) 2 - used) && decide (512 ≤ sumNat (s.w.cxl.map (fun e => e.2.mapped)))

/-- Runs of 64 KiB of a byte image, with their offsets. -/
def runsOf (bs : Bytes) : List (Nat × Bytes) := (chunksOf 65536 bs).zipIdx.map (fun p => (65536 * p.2, p.1))

/-- Send the present content of every mirrored item of a job (R421, R438): dense tensors, residual buffers, step records, scores;
on a reseed the blocks written since the anchor too. -/
def seedJob (reseed : Bool) (j : Nat) (s : State) : State :=
  let b := s.job j
  match b.cur with
  | none => s
  | some t =>
    let kind := if reseed then 9 else 1
    let s1 := forAll (t.shardTens.filter (fun r => r.role != 5)) (fun r s => match s.decl j r.handle with
      | none => s
      | some d => forAll (runsOf (devRead s j r.handle d.buf 0 d.imageBytes)) (fun p s => mirrorSend j kind 2 r.id 1 p.1 0 0 p.2 s) s) s
    let s2 := forAll b.resid (fun r s => forAll (List.range 3) (fun i s => mirrorSend j kind 2 r.tensor 1 (residOff s j r.tensor i) 0 0 (residBytes r i) s) s) s1
    let s3 := forAll b.jrn (fun e s => mirrorSend j 4 2 0 1 e.step e.step 0 (stepRecord s j e (stepConsts s j)) s) s2
    let s4 := mirrorSend j 5 2 0 1 0 0 0 (scoreTable s3 j) s3
    if !reseed then s4
    else forAll (s4.w.mr.sent.filter (fun e => e.1 / 65536 = j)) (fun e s => match t.tens? (e.1 % 65536) with
      | none => s
      | some r => match s.decl j r.handle with
        | none => s
        | some d => mirrorSend j 3 2 r.id 1 e.2.1 e.2.2 0 (devRead s j r.handle 0 (e.2.1 * rowsPerBlock d * rowBytes d) 65536) s) s4

/-- Seed the partner: every job's items, then the end marker of the seed. -/
def seedAll (reseed : Bool) (s : State) : State :=
  mirrorSend 0xFF 6 2 0 0 0 0 0 [] (forAll ((List.range 64).filter (fun j => s.live j)) (seedJob reseed) s)

/-- Release the held image (R420). -/
def dropImage (m : Mr) : Mr :=
  { m with ctx := [], dense := [], slots := [], pend := [], inSeeded := false, inAnchored := false, noRoom := [], good := 0 }

/-- Bind as holder of a node's mirror (R421). Contents of the same node that a warm reset kept stand. -/
def bindIn (node : Nat) (s : State) : State :=
  modMr (fun m => { (if m.owner = node && m.resv then m else dropImage m) with
    inn := 1, inNode := node, owner := node, resv := true, pendGib := s.cfg.mrPendGib }) s

/-- MIRROR_BIND's own part (R420). -/
def mirrorBindOwn (node role : Nat) (s : State) : Cmd :=
  let mr := s.w.mr
  let placeOk := match s.w.topo.jobPlan with
    | none => true
    | some _ => (match myPlace s with
      | some e => standing s e.partner == node
      | none => false)
  if !(decide (role ≤ 1)) then badC s 18
  else if !partnerUp s node then failC s 0x60
  else if !placeOk then failC s 0x60
  else if role = 1 && !mirrorRoom s then failC s 0x20
  else if (tkeys s.w.jobs).any (fun j => (s.job j).run.isSome) then failC s 0x30
  else if role = 0 then
    (if mr.outNode = node && (mr.out = 1 || mr.out = 2) then noteC s 1
     else okC (flt0 0x6101 0x08 0xFF 0 (seedAll false (modMr (fun m => { m with out := 1, outNode := node, acked := 0, exposed := false, sent := [] }) s))))
  else if mr.inNode = node && (mr.inn = 1 || mr.inn = 2) then noteC s 1
  else okC (flt0 0x6101 0x08 0xFF 0 (bindIn node s))

def runMirrorBind (h : Hdr) (node role : Nat) : State → State := startCmd (.mirrorBind h node role) 0x0503 h (mirrorBindOwn node role)

/-- MIRROR_BIND (R420). -/
def execMirrorBind (h : Hdr) (node role : Nat) (s : State) : Res := onWorld (runMirrorBind h node role) s

/-! ### The holder's side (R424-R427) -/

/-- This module holds a mirror of a node that is not lost. -/
def holding (s : State) : Bool := (s.w.mr.inn = 1 || s.w.mr.inn = 2) && s.w.mr.inNode != 0xFFFF

/-- Send a class 3 message to the mirrored module: an acknowledgement (kind 7), with flags (R428). -/
def holderSend (j flags step : Nat) (s : State) : State :=
  sendMsg s.w.mr.inNode j 3 step (layout [(1, 7), (1, flags), (2, 0), (4, 0), (8, 0), (8, goodKnown (s.job j)), (8, 0), (8, 0)]) [] s

/-- A reservation stands above its warning level (R426). -/
def mirrorWarn (j : Nat) (s : State) : State :=
  if s.cfg.mrWarn * 524288 < 100 * max (hotMib s.w.mr) (coldMib s.w.mr) then
    let o := s.once60 0x6102
    ckptAdvice 5 (if o.1 then flt0 0x6102 0x08 (if j < 64 then j else 0xFF) 0 o.2 else s)
  else s

/-- Whether a delta finds room: row images in the pending log, a new block slot in either reservation (R426). -/
def deltaRoom (m : Mr) (kind key off : Nat) (data : Bytes) : Bool :=
  if kind = 2 then decide (sumNat ((m.pend.filter (fun d => d.kind = 2)).map (fun d => d.data.length)) + data.length ≤ m.pendGib * gib)
  else if kind = 3 then
    m.slots.any (fun x => x.tensor == key && x.block == off) || m.pend.any (fun d => d.kind = 3 && d.tensor == key && d.off == off) ||
      decide (hotMib m < 524288) || decide (coldMib m < 524288)
  else true

/-- A delta of a step arrives (R424): step records go to the context area, everything else is pending until the step is good.
Whether a block lay in tier 1 (R423) stands in no field of the message: a free value says it (log 181).
Without room the step is answered so and its further deltas are dropped (R426). -/
def deltaReceive (j step kind tensor off good : Nat) (data : Bytes) (s : State) : State :=
  if !holding s || 64 ≤ j then s
  else
    let s1 := mirrorGood j good s
    let key := mirKey j tensor
    if s1.w.mr.noRoom.contains (j, step) then s1
    else if kind = 4 then modMr (putCtx j 4 step data) s1
    else if !deltaRoom s1.w.mr kind key off data then
      holderSend j 1 step (flt0 0x6103 0x08 j step (modMr (fun m => { m with noRoom := (j, step) :: m.noRoom }) s1))
    else
      let d := if kind = 3 then s1.draw else (0, s1)
      mirrorWarn j (modMr (fun m => { m with pend := m.pend ++ [{ step := step, kind := kind, tensor := key, off := off, data := data, hot := bit d.1 0 }] }) d.2)

/-- MIRROR_DELTA_RECEIVE (R424). -/
def execMirrorDeltaReceive (job step kind tensor _items off good : Nat) (data : Bytes) (s : State) : Res :=
  onWorld (deltaReceive job step kind tensor off good data) s

/-- The end-of-step marker (R424): everything before it is durable here, and the step is acknowledged. -/
def endOfStep (j step good : Nat) (s : State) : State :=
  if !holding s || 64 ≤ j then s
  else
    let s1 := mirrorGood j good s
    if s1.w.mr.noRoom.contains (j, step) then modMr (fun m => { m with noRoom := m.noRoom.filter (fun e => e != (j, step)) }) s1
    else holderSend j 0 step s1

/-- MIRROR_END_OF_STEP (R424). -/
def execMirrorEndOfStep (job step good : Nat) (s : State) : Res := onWorld (endOfStep job step good) s

/-- An anchor arrives (R427): block slots last written at the cut or before are released. -/
def anchorIn (j cut : Nat) (s : State) : State :=
  if !holding s then s
  else modMr (fun m => { m with
    inAnchored := true, anchored := true
    slots := m.slots.filter (fun x => x.tensor / 65536 != j || decide (cut < x.step)) }) s

/-- MIRROR_ANCHOR (R427). -/
def execMirrorAnchor (job cut : Nat) (s : State) : Res := onWorld (anchorIn job cut) s

/-- Part of a seed arrives (R421, R438): it goes to the good image at once; the last part is acknowledged. A module that holds
no mirror answers that it has no room. -/
def seedIn (j kind tensor off : Nat) (data : Bytes) (last : Bool) (s : State) : State :=
  if !holding s then
    (if last && s.w.mr.outNode != 0xFFFF then
      sendMsg s.w.mr.outNode 0xFF 3 0 (layout [(1, 7), (1, 3), (2, 0), (4, 0), (8, 0), (8, 0), (8, 0), (8, 0)]) [] s
     else s)
  else
    let key := mirKey j tensor
    let s1 :=
      if 64 ≤ j then s
      else if kind = 4 then modMr (putCtx j 4 off data) s
      else if kind = 5 then modMr (putCtx j 5 0 data) s
      else if kind = 3 then (let d := s.draw; modMr (putSlot (bit d.1 0) key off 0 data) d.2)
      else if kind = 1 || kind = 9 then modMr (putDense key off data) s
      else s
    if !last then s1
    else flt0 0x6101 0x08 0xFF 0 (holderSend 0xFF 2 0 (modMr (fun m => { m with inn := 2, inSeeded := true }) s1))

/-- MIRROR_SEED (R421). -/
def execMirrorSeed (job kind tensor off : Nat) (data : Bytes) (last : Bool) (s : State) : Res :=
  onWorld (seedIn job kind tensor off data last) s

/-! ### The mirrored module's side -/

/-- The partner's acknowledgement (R408, R421, R426, R438): of a step's deltas, or with no job of the seed. -/
def ackIn (j step : Nat) (noRoom : Bool) (s : State) : State :=
  let mr := s.w.mr
  if !(mr.out = 1 || mr.out = 2) then s
  else if 64 ≤ j then
    if mr.out = 2 then s
    else if noRoom then modMr (fun m => { m with out := 0, outNode := 0xFFFF }) s
    else
      let s1 := flt0 0x6101 0x08 0xFF 0 (modMr (fun m => { m with out := 2, exposed := false }) s)
      if mr.exposed then flt0 0x6105 0x08 0xFF 0 s1 else s1
  else if noRoom then failStep j step { status := 0x20, unit := 0x08 } [] s
  else modMr (fun m => { m with acked := step }) (s.modJob j (fun b => b.modEntry step (fun e => { e with acked := true })))

/-- MIRROR_ACK (R424). -/
def execMirrorAck (job step : Nat) (noRoom : Bool) (s : State) : Res := onWorld (ackIn job step noRoom) s

/-! ### BENCH_CALL (R434) -/

/-- Blocks of the tables of a job's current set in decreasing score (R195, R436). -/
def allBlocks (s : State) (j : Nat) : List (Nat × Nat) :=
  match (s.job j).cur with
  | some t => rankBlocks (s.job j) (setTables' s j t)
  | none => []

/-- Send a class 4 message (R435). -/
def pullSend (node j kind section_ tensor items first step : Nat) (data : Bytes) (s : State) : State :=
  sendMsg node j 4 0 (layout [(1, kind), (1, section_), (2, tensor), (4, items), (8, first), (8, step)]) data s

/-- BENCH_CALL is accepted (R434, R438): both bindings with the partner, the blocks to bring in, the request. -/
def benchStart (j partner : Nat) (s : State) : State :=
  let fresh := s.w.mr.callJob != j
  let s1 := modMr (fun m => { m with
    out := 2, outNode := partner, cutKnown := true, callJob := j, callStart := s.now
    missing := if fresh then allBlocks s j else m.missing
    pulled := if fresh then [] else m.pulled, doneMib := if fresh then 0 else m.doneMib, doneB := if fresh then 0 else m.doneB, totalMib := if fresh then 0 else m.totalMib
    hotIn := false, gone := [], cold := [] }) s
  let s2 := if mirrorRoom s then (if s1.w.mr.inNode = partner && (s1.w.mr.inn = 1 || s1.w.mr.inn = 2) then s1 else bindIn partner s1)
    else flt0 0x6104 0x08 j 0 s1
  pullSend partner j 1 0 0 0 0 0 [] (flt0 0x6201 0x08 j 0 s2)

/-- BENCH_CALL's own part: checks 1 to 3 and 5 here; check 4 is the partner's to answer, and stands before check 5. -/
def benchCallOwn (failed partner : Nat) (s : State) : Cmd :=
  match s.w.holder, s.w.topo.jobPlan with
  | some j, some p => match p.places.find? (fun e => e.node == failed) with
    | none => badC s 16
    | some e =>
      let busy := (s.job j).run.isSome || !(s.job j).waiting.isEmpty
      if e.subst != s.w.topo.node then badC s 16
      else if standing s e.partner != partner || !partnerUp s partner then failC s 0x60
      else if s.w.topo.lost.contains partner then failC s 0x61
      else if s.w.mr.callJob = j && s.w.mr.hotIn && !busy then okC s (leBytes 4 0)
      else .later (if busy then pullSend partner j 1 0 0 0 0 0 [] s else benchStart j partner s) j (b2n busy)
  | _, _ => badC s 16

def runBenchCall (h : Hdr) (failed partner : Nat) : State → State := startCmd (.benchCall h failed partner) 0x0504 h (benchCallOwn failed partner)

/-- BENCH_CALL (R434). -/
def execBenchCall (h : Hdr) (failed partner : Nat) (s : State) : Res := onWorld (runBenchCall h failed partner) s

/-! ### The partner's answer (R435, R438) -/

/-- The node may pull the held image: it stands in for the mirrored module, or has already done so. -/
def mayPull (s : State) (node : Nat) : Bool :=
  let mr := s.w.mr
  mr.inSeeded && mr.inAnchored && (mr.inNode == node || (match s.w.topo.jobPlan with
    | some p => p.places.any (fun e => e.node == mr.inNode && e.subst == node)
    | none => false))

/-- Score of a block in the held score table (R435). -/
def heldScore (m : Mr) (j tensor block : Nat) : Nat :=
  match m.ctx.find? (fun e => e.1 == j && e.2.1 == 5) with
  | none => 0
  | some e => match (chunksOf 22 e.2.2.2).find? (fun r => fld r 0 2 == tensor && fld r 2 8 == block) with
    | some r => fld r 10 4
    | none => 0

/-- Slots of a job in one reservation, in decreasing score. -/
def slotsOf (m : Mr) (j : Nat) (hot : Bool) : List Slot :=
  sortBy (fun x => 2 ^ 32 - heldScore m j (x.tensor % 65536) x.block) (m.slots.filter (fun x => x.tensor / 65536 = j && x.hot == hot))

/-- Send the good image in order: context, dense, hot slots, the end; then the cold slots (R435, R436). -/
def sendImage (node j : Nat) (s : State) : State :=
  let m := s.w.mr
  let g := m.good
  let cold := slotsOf m j false
  let s1 := forAll (m.ctx.filter (fun e => e.1 = j)) (fun e s => pullSend node j 2 1 0 1 (2 ^ 63 * b2n (e.2.1 == 5) + e.2.2.1) g e.2.2.2 s) s
  let s2 := forAll (m.dense.filter (fun e => e.1 / 65536 = j)) (fun e s => pullSend node j 2 2 (e.1 % 65536) 1 e.2.1 g e.2.2 s) s1
  let s3 := forAll (slotsOf m j true) (fun x s => pullSend node j 2 3 (x.tensor % 65536) 1 x.block g x.image s) s2
  let s4 := pullSend node j 3 3 0 cold.length 0 g (cold.flatMap (fun x => layout [(2, x.tensor % 65536), (8, x.block)])) s3
  pullSend node j 3 4 0 0 0 g [] (forAll cold (fun x s => pullSend node j 2 4 (x.tensor % 65536) 1 x.block g x.image s) s4)

/-- A pull request arrives (R435): the image is sent, or an end of section 0 says that there is none (log 76). The mirror held
here goes on as the mirror of the module that stands in, which is seeded in turn (R438). -/
def pullRequest (j node : Nat) (s : State) : State :=
  if !mayPull s node then pullSend node j 3 0 0 0 0 0 [] s
  else
    let s1 := sendImage node j s
    let s2 := modMr (fun m => { m with inNode := node, inn := 2, owner := node }) s1
    if s2.w.mr.outNode = node && s2.w.mr.out = 2 then s2
    else seedAll true (modMr (fun m => { m with out := 1, outNode := node, exposed := true }) s2)

/-- HOT_STATE_PULL_REQUEST (R435). -/
def execHotStatePullRequest (job node _step : Nat) (s : State) : Res := onWorld (pullRequest job node) s

/-! ### The pulled state comes in (R435, R436) -/

/-- A mode from its bytes; the image of a set is parsed afresh and placed (R203). -/
def parseMode (s : State) (j : Nat) (b : Bytes) : ModeRec × Nat :=
  let nc := fld b 10 2
  let cl := fld b 12 4
  let il := fld b 16 4
  let img := (b.drop (24 + 8 * nc + cl)).take il
  let t := if il = 0 then none else some (loadImage img)
  let place := match t with
    | some x => (match placeJob s j x 0 with | some p => p.1 | none => {})
    | none => {}
  ({ epoch := fld b 0 4, setEpoch := fld b 4 4, k := fld b 8 1, forced := fld b 9 1 = 1, set := t, place := place
     compress := (List.range nc).map (fun i => (fld b (24 + 8 * i) 2, fld b (26 + 8 * i) 1, fld b (27 + 8 * i) 1, fld b (28 + 8 * i) 4))
     chk := (b.drop (24 + 8 * nc)).take cl, setSteps := fld b 20 4 }, 24 + 8 * nc + cl + il)

/-- A journal entry from its record (R406); entries after the recovery step are failed, for the replays (R432, R433). -/
def parseEntry (b : Bytes) (g : Nat) : Jrn :=
  let st := fld b 24 1
  { step := fld b 0 8, seed := fld b 8 8, setEpoch := fld b 16 4, modeEpoch := fld b 20 4, ended := bit st 0, plaus := bit st 1, acked := bit st 3
    good := bit st 4 || decide (fld b 0 8 ≤ g), failed := decide (g < fld b 0 8), conservative := bit st 6, replay := bit st 7, buf := fld b 25 1
    replays := fld b 26 1, nInputs := fld b 28 2, inputAddr := fld b 32 8, startNs := fld b 48 8, endNs := fld b 56 8 }

/-- A step record comes in: the journal entry, and from the newest record the modes and settings. -/
def recordIn (j g : Nat) (b : Bytes) (s : State) : State :=
  let e := parseEntry b g
  let job := s.job j
  let newest := job.jrn.all (fun x => decide (x.step ≤ e.step))
  let cs := fld b 68 4
  let cur := parseMode s j (b.drop (72 + 4 * cs))
  let prv := parseMode s j (b.drop (72 + 4 * cs + cur.2))
  let put (x : Job) : Job := { x with jrn := x.jrn.filter (fun y => y.step != e.step) ++ [e] }
  let take (x : Job) : Job := { x with
    modeEpoch := cur.1.epoch, lastPrepared := max x.lastPrepared cur.1.epoch, setEpoch := cur.1.setEpoch, k := cur.1.k, forced := cur.1.forced
    compress := cur.1.compress, chk := cur.1.chk, setSteps := cur.1.setSteps, pset := { freeze := fld b 64 1 = 1, migBudget := fld b 66 2 }
    prev := if !bit (fld b 65 1) 0 then none
      else some (if prv.1.set.isNone then { prv.1 with set := x.cur, place := x.place } else prv.1) }
  if g + 2 < e.step then s else s.modJob j (fun x => if newest then take (put x) else put x)

/-- Dense content comes in: the image of a tensor, or past it a residual buffer (R435). -/
def denseIn (j tensor off : Nat) (data : Bytes) (s : State) : State :=
  match (s.job j).cur.bind (fun t => t.tens? tensor) with
  | none => s
  | some r => match s.decl j r.handle with
    | none => s
    | some d =>
      if off < d.imageBytes then touch 0 true j r.handle d.buf off data.length (jobPut j r.handle d.buf off data s)
      else if data.isEmpty then s
      else s.modJob j (putResid tensor ((off - d.imageBytes) / data.length) ((chunksOf 4 data).map leNum))

/-- Streams that waited for a block resume, and accesses are served (R309, R313); the count of parks follows. -/
def blockCame (j : Nat) (s : State) : State :=
  let free := (parkedOn s j 3).filter (fun c => decide (c < 80) && (granFaults s (s.chan c) (s.chan c).done).all (fun f => f.1 != 3))
  let s1 := serveWaiting (forAll free resumeStream s)
  modMr (fun m => { m with parked := (parkedOn s1 j 3).length + (s1.w.apWait.filter (fun a => (missingAt s1 a.job a.handle a.off a.len).isSome)).length }) s1

/-- A block's image is written and the block is resident; the last one ends lazy restore (R436). -/
def blockIn (j tensor block : Nat) (data : Bytes) (s : State) : State :=
  match (s.job j).cur.bind (fun t => t.tens? tensor) with
  | none => s
  | some r => match s.decl j r.handle with
    | none => s
    | some d =>
      let n := min (rowsPerBlock d * rowBytes d) (d.imageBytes - block * rowsPerBlock d * rowBytes d)
      let s1 := modMr (fun m => { m with
        missing := m.missing.filter (fun e => e != (tensor, block)), cold := m.cold.filter (fun e => e != (tensor, block)) })
        (jobPut j r.handle 0 (block * rowsPerBlock d * rowBytes d) (data.take n) s)
      let s2 := blockCame j s1
      if s2.w.mr.missing.isEmpty && s2.w.mr.hotIn then flt0 0x6203 0x08 j 0 s2 else s2

/-- Lazy restore of a block fails (R437): what waits for it fails, and the step does. -/
def blockLost (j tensor block : Nat) (s : State) : State :=
  let s1 := failGone (modMr (fun m => { m with gone := ((tensor, block) :: m.gone).eraseDups }) (flt0 0x6204 0x08 j 0 s))
  match (s1.job j).run with
  | some r => failStep j r.step { status := 0x51, unit := 0x08 } [] s1
  | none => s1

/-- A cold or checkpoint block arrives, with its checks passed or not (R436, R437). -/
def lazyBlock (j tensor block : Nat) (ok : Bool) (data : Bytes) (s : State) : State :=
  if s.w.mr.callJob != j || !s.w.mr.missing.contains (tensor, block) || s.w.mr.gone.contains (tensor, block) then s
  else if ok then blockIn j tensor block data s else blockLost j tensor block s

/-- LAZY_RESTORE_BLOCK (R436). -/
def execLazyRestoreBlock (job tensor block : Nat) (_ckpt ok : Bool) (data : Bytes) (s : State) : Res :=
  onWorld (lazyBlock job tensor block ok data) s

/-- The pull is complete: the job stands at the recovery step, BENCH_CALL completes (R434, R438). -/
def pullEnd (j g : Nat) (cold : List (Nat × Nat)) (s : State) : State :=
  let left := s.w.mr.missing
  let s1 := s.modJob j (fun b => { b with
    lastGood := some g, lastStarted := some g, nextStep := some (g + 1), jobGood := g, consTillGood := true, consFrom := g + 1, consNext := true, topoDue := true, copies := [] })
  let s2 := modMr (fun m => { m with
    hotIn := true, recovery := g, totalMib := m.doneMib, missing := (allBlocks s1 j).filter left.contains, cold := cold.filter left.contains }) s1
  let us := (s.now - s.w.mr.callStart) / 1000
  let bound := s.w.mr.inNode = s.w.mr.outNode && (s.w.mr.inn = 1 || s.w.mr.inn = 2)
  let s3 := flt0 0x6202 0x08 j g s2
  let s4 := completeAll (fun r => r.op = 0x0504 && r.a = j) (b2n (!bound)) (if bound then 0 else 2) 0xFF (fun _ => leBytes 4 us) s3
  if left.isEmpty then flt0 0x6203 0x08 j 0 s4 else s4

/-- A class 4 message arrives at the bench module. -/
def pullData (j kind section_ tensor first g : Nat) (data : Bytes) (s : State) : State :=
  let calls := s.w.inflight.filter (fun r => r.op = 0x0504 && r.a = j)
  let key := (section_, tensor, first)
  if section_ = 4 then (if kind = 2 then lazyBlock j tensor first true data s else s)
  else if calls.isEmpty then s
  else if kind = 3 && section_ = 0 then
    completeAll (fun r => r.op = 0x0504 && r.a = j) 0x20 1 0xFF (fun _ => []) (modMr (fun m => { m with callJob := 0xFF, missing := [], pulled := [] }) s)
  else if calls.any (fun r => r.b = 1) then completeAll (fun r => r.op = 0x0504 && r.a = j && r.b = 1) 0x30 0 0xFF (fun _ => []) s
  else if s.w.mr.callJob != j then s
  else if kind = 3 then pullEnd j g ((chunksOf 10 data).map (fun r => (fld r 0 2, fld r 2 8))) s
  else if kind != 2 || s.w.mr.pulled.contains key then s
  else
    let s1 := modMr (fun m => { m with
      pulled := key :: m.pulled, doneB := m.doneB + data.length, doneMib := (m.doneB + data.length) / 1048576 }) s
    if section_ = 1 then
      (if 2 ^ 63 ≤ first then
        let rs := (chunksOf 22 data).map (fun r => (fld r 0 2, fld r 2 8, fld r 10 4, fld r 14 8))
        let s2 := s1.modJob j (fun b => { b with scores := (rs.filter (fun r => r.2.2.1 != 0)).map (fun r => (r.1, r.2.1, r.2.2.1)) })
        modMr (fun m => { m with sent := m.sent.filter (fun e => e.1 / 65536 != j) ++
          (rs.filter (fun r => r.2.2.2 != 0)).map (fun r => (mirKey j r.1, r.2.1, r.2.2.2 - 1)) }) s2
       else recordIn j g data s1)
    else if section_ = 2 then denseIn j tensor first data s1
    else if section_ = 3 then blockIn j tensor first data s1
    else s1

/-- HOT_STATE_PULL_DATA (R435). -/
def execHotStatePullData (job kind section_ tensor _items first step : Nat) (data : Bytes) (s : State) : Res :=
  onWorld (pullData job kind section_ tensor first step data) s

end Sys2Proof.Machine
end

