-- ==== Sys2Proof/Machine/Ckpt.lean ====
section
/-! DEFINITION. The checkpoint commands: CKPT_WRITE, the promenade and copy-before-write (R443-R448), the commit notice
(R449), CKPT_RESTORE (R452). -/

namespace Sys2Proof.Machine

open Sys2Proof

def modCk (f : Ck → Ck) (s : State) : State := s.onW (fun w => { w with ck := f w.ck })

/-! ### CKPT_WRITE (R443, R445) -/

/-- Places of the job plan in force; one with no plan. -/
def placesOf (s : State) : Nat := match s.w.topo.jobPlan with | some p => p.places.length | none => 1

/-- The replica-combine group under the set's first SCATTER stage, if any (R448). -/
def replicaGroup (s : State) (j : Nat) : Option Coll :=
  match (s.job j).cur with
  | none => none
  | some t => match t.stages.find? isScatter with
    | none => none
    | some st =>
      let o := fld (t.img.drop st.desc) 28 4
      if o = 0 then none else some (parseColl (t.img.drop o))

/-- Chunks are stored as frames (R447); dedupe group size and rank, 1 and 0 where there is none (R448). -/
def storeMode (s : State) (j flags : Nat) : Bool × Nat × Nat :=
  let n := placesOf s
  if 256 < n then (!bit flags 1, 1, 0)
  else if bit flags 0 then (false, 1, 0)
  else match replicaGroup s j with
    | some c => (false, max c.size 1, rankOf c (groupCoords s c))
    | none => (false, 1, 0)

/-- Check 1: the descriptor's fields (R443). -/
def ckptDescChecks (d : Bytes) : List (Nat × Bool) :=
  [(0, fld d 0 2 == 1), (2, decide (fld d 2 1 ≤ 1)), (3, decide (fld d 3 1 < 4)), (4, fld d 4 4 == 0), (16, fld d 2 1 == 1 || fld d 16 8 % 4096 == 0),
   (48, fld d 48 8 == 0 && fld d 56 8 == 0)]

/-- A CKPT_WRITE of a job's generation is in flight. -/
def ckptWriting (s : State) (j : Nat) : Bool := s.w.inflight.any (fun r => r.op = 0x0501 && r.hdr.job = j && r.b = 1)

/-- The engine works for another job: the command waits for it (log 77). -/
def engineBusy (s : State) (j : Nat) : Bool := (s.w.ck.state = 1 || s.w.ck.state = 3) && s.w.ck.job != j

/-- The write of a generation starts, or goes on after a reset or a fault: chunks are looked at afresh (R450). -/
def ckptOpen (j gen : Nat) (d : Bytes) (again : Bool) (s : State) : State :=
  let m := storeMode s j (fld d 3 1)
  modCk (fun c => { c with
    state := 1, chunks := 0, gen := gen, job := j, desc := d, again := again, done := [], wrote := 0, skipped := 0, leaves := [], stored := 0
    comp := m.1, group := m.2.1, rank := m.2.2, cut := if again then c.cut else fld d 8 8, armed := again && c.armed, lost := none }) s

/-- Whether the data area holds the shard and 4 KiB per chunk (R445 check 5). -/
def areaHolds (s : State) (j : Nat) (d : Bytes) : Bool :=
  let l := shardSects s j (fld d 8 8)
  decide (shardLen l + 4096 * chunkCount l ≤ fld d 24 8)

/-- Op 0 of the descriptor (R445). -/
def ckptWriteOwn (j gen : Nat) (d : Bytes) (s : State) : Cmd :=
  let ck := s.w.ck
  let c := fld d 8 8
  let mine := ck.job = j && ck.gen = gen && gen != 0
  if gen ≤ ck.anchored then badC s 24
  else if ck.lost = some (j, gen) then failC (modCk (fun k => { k with lost := none }) s) 0x52 (7 * 256) 0x05
  else if mine && ck.state = 2 then noteC s 3 (layout [(4, 0), (4, chunkCount ck.srcs)])
  else if mine && ck.state = 1 && ckptWriting s j then .later s gen 1
  else if mine then .later (ckptOpen j gen d ck.armed s) gen 1
  else if c != 0 && decide (c < (s.job j).lastStarted.getD 0) then badRec s 8
  else if ck.job = j && (ck.state = 1 || ck.state = 3) then failC s 0x30
  else if engineBusy s j then .wait s noPage 16
  else if !areaHolds s j d then failC s 0x20
  else .later (ckptOpen j gen d false s) gen 1

/-- A cut step that has ended already is asked for at once; a later one at its boundary (R445 beat 1). -/
def askCut (j : Nat) (s : State) : State :=
  let ck := s.w.ck
  let b := s.job j
  let ended := ck.cut != 0 && b.lastStarted = some ck.cut && b.run.isNone
  if ck.state = 1 && ck.job = j && !ck.armed && ended then ownHuddle j 1 ck.cut s else s

/-! ### The commit notice (R449) -/

/-- Address of the manifest slot of a generation. -/
def slotAddr (manifest gen : Nat) : Nat := manifest + 1048576 * (gen % 2)
/-- A slot is valid: its commit word equals its generation, its records match their digest. -/
def slotValid (hd recs : Bytes) : Bool := fld hd 12 4 == fld hd 8 4 && sha256 recs == (hd.drop 64).take 32

/-- The mirror is anchored at a cut (R427): the partner is told, and a block's next write goes out whole again. -/
def anchorAt (j cut : Nat) (s : State) : State :=
  let s1 := mirrorSend j 8 0 0 0 0 0 cut [] s
  modMr (fun m => { m with
    anchored := true, cutKnown := true, sent := m.sent.filter (fun e => e.1 / 65536 != j || decide (cut < e.2.2)) }) s1

/-- Op 1 of the descriptor (R449). The offset that a mismatch names within the slot is not given: the word that differs
(log 78). -/
def commitOwn (j gen : Nat) (d : Bytes) (s : State) : Cmd :=
  let slot := slotAddr (fld d 40 8) gen
  withRead s j slot 256 16 (fun hd =>
    withRead s j (slot + 256) (128 * fld hd 6 2) 16 (fun recs =>
      let k := myIndex s
      let mineD := (recs.drop (128 * k + 56)).take 32
      if fld hd 8 4 != gen then badRec s 8
      else if fld hd 12 4 != fld hd 8 4 then badRec s 12
      else if !slotValid hd recs then badRec s 64
      else match s.w.ck.digests.find? (fun e => e.1 == gen) with
        | some e =>
          if e.2 == mineD then
            let s1 := anchorAt j (fld hd 16 8) (modCk (fun c =>
              { c with anchored := gen, state := if c.gen = gen then 0 else c.state, gen := if c.gen = gen then 0 else c.gen, job := if c.gen = gen then 0xFF else c.job }) s)
            okC (flt0 0x6303 0x07 j (fld hd 16 8) s1)
          else badRec s (256 + 128 * k + 56)
        | none => badRec s (256 + 128 * k + 56)))

/-- CKPT_WRITE and the commit notice are one packet; the descriptor's op tells them apart (R443). -/
def ckptOwn (h : Hdr) (addr gen : Nat) (s : State) : Cmd :=
  withRead s h.job addr 64 16 (fun d =>
    checkRec s (ckptDescChecks d) (if fld d 2 1 = 0 then ckptWriteOwn h.job gen d s else commitOwn h.job gen d s))

def runCkpt (cmd : Instr) (h : Hdr) (addr gen : Nat) (s : State) : State := askCut h.job (startCmd cmd 0x0501 h (ckptOwn h addr gen) s)

/-- CKPT_WRITE (R445). -/
def execCkptWrite (h : Hdr) (addr gen : Nat) (s : State) : Res := onWorld (runCkpt (.ckptWrite h addr gen) h addr gen) s

/-- CKPT_COMMIT_NOTICE (R449). -/
def execCkptCommitNotice (h : Hdr) (addr gen : Nat) (s : State) : Res := onWorld (runCkpt (.ckptCommitNotice h addr gen) h addr gen) s

/-! ### The promenade (R442, R444, R445, R447, R448) -/

/-- Handle, buffer and offset of a device key. -/
def keySide (key : Nat) : Nat × Nat × Nat := (key / 2 ^ 49 % 2 ^ 32, key / 2 ^ 48 % 2, key % 2 ^ 48)

/-- Parts of chunk `i` in device memory: key and bytes. -/
def chunkParts (l : List Sect) (i : Nat) : List (Nat × Nat) :=
  (l.filter (fun x => x.kind != 2)).filterMap (fun x =>
    let p := sectPart x (chunkBytes * i) chunkBytes
    if p.2 = 0 then none else some (x.key + p.1, p.2))

/-- Promenade reads pass the cache as NORMAL (R214). -/
def partTouch (j : Nat) (p : Nat × Nat) (s : State) : State :=
  let q := keySide p.1
  touch 0 false j q.1 q.2.1 q.2.2 p.2 s

/-- Poison in a part of the cut image: the source of R482 and the unit that delivers it. -/
def partBad (s : State) (j : Nat) (p : Nat × Nat) : Option (Nat × Nat) :=
  let ck := s.w.ck
  let q := keySide p.1
  let gs := (List.range ((p.1 + p.2 - 1) / 65536 + 1 - p.1 / 65536)).map (fun i => p.1 / 65536 + i)
  let staged (g : Nat) : Bool := ck.staged.any (fun e => e.1 == g)
  let bad (g : Nat) : Bool :=
    if staged g then ck.stagedBad.contains g
    else let lo := max p.1 (65536 * g); s.isPoisoned j q.1 q.2.1 (lo % 2 ^ 48) (min (p.1 + p.2) (65536 * (g + 1)) - lo)
  let x := homeOf s j q.1 q.2.2
  if gs.any bad then
    some (if s.w.stale.any (fun g => g.job == j && g.handle == q.1 && decide (4096 * g.g < q.2.2 + p.2) && decide (q.2.2 < 4096 * (g.g + 1))) then 6 else x.tier, x.unit)
  else if !gs.all staged && (homesOf s j q.1 q.2.2 p.2).any (deviceDown s) then some (3, 0x28)
  else none

/-- A part can be read now: no home is held, no block is missing (R223, R227, R313). -/
def partFree (s : State) (j : Nat) (p : Nat × Nat) : Bool :=
  let q := keySide p.1
  rangeFree s j q.1 q.2.2 p.2 && (missingAt s j q.1 q.2.2 p.2).isNone

/-- The bytes stored for chunk `i`: the chunk, or its frame (R447). -/
def storedChunk (s : State) (i : Nat) : Bytes :=
  let bs := streamRead s (chunkBytes * i) (chunkLen s.w.ck.srcs i)
  if s.w.ck.comp then Config.zstdFrame (leNum (leafDigest bs)) else bs

/-- Offset of chunk `i` in the data area: frames lie in chunk order at multiples of 4 KiB (R447), chunks one after the other. -/
def storedAt (s : State) (i : Nat) : Nat :=
  if s.w.ck.comp then sumNat ((List.range i).map (fun k => roundUp (storedChunk s k).length 4096)) else chunkBytes * i

/-- Place index of the member that writes chunk `i` (R448). -/
def writerPlace (s : State) (j i : Nat) : Nat :=
  match replicaGroup s j, s.w.topo.jobPlan with
  | some c, some p => (match placeOf s p (groupNode s c (coordsOf c (i % max c.size 1))) with
    | some e => placeIndex p e
    | none => myIndex s)
  | _, _ => myIndex s

/-- Granules of a part whose bytes lie in done chunks only. -/
def granulesDone (l : List Sect) (done : List Nat) (p : Nat × Nat) : List Nat :=
  ((List.range ((p.1 + p.2 - 1) / 65536 + 1 - p.1 / 65536)).map (fun i => p.1 / 65536 + i)).filter (fun g =>
    l.all (fun x =>
      let lo := max x.key (65536 * g)
      let hi := min (x.key + x.bytes) (65536 * (g + 1))
      x.kind = 2 || hi ≤ lo ||
        (let a := (x.off + (lo - x.key)) / chunkBytes
         let b := (x.off + (hi - 1 - x.key)) / chunkBytes
         (List.range (b + 1 - a)).all (fun i => done.contains (a + i)))))

/-- Chunk `i` is done; its granules are free to be written. -/
def chunkDone (j i : Nat) (leaf : Bytes) (wrote skipped stored : Nat) (s : State) : State :=
  let parts := chunkParts s.w.ck.srcs i
  ckptFinish j (modCk (fun c => { c with
    done := c.done ++ [i], chunks := c.done.length + 1, leaves := c.leaves ++ [(i, leaf)], wrote := c.wrote + wrote, skipped := c.skipped + skipped
    stored := c.stored + stored, copied := (parts.flatMap (granulesDone c.srcs (i :: c.done)) ++ c.copied).eraseDups }) s)

/-- A progress record (R444). -/
def progressRec (state stored off : Nat) (leaf : Bytes) (place : Nat) : Bytes :=
  layout [(4, state), (4, stored), (8, off)] ++ leaf ++ layout [(2, place)] ++ zeros 14

/-- The promenade finishes a chunk: its digest, its bytes where this member writes them, its progress record. -/
def promenade (j i : Nat) (s : State) : State :=
  let ck := s.w.ck
  let c := 96 + i % 16
  let parts := chunkParts ck.srcs i
  if !(ck.state = 1 && ck.armed && ck.job = j && decide (i < chunkCount ck.srcs) && !ck.done.contains i && (s.chan c).state = 0 && parts.all (partFree s j)) then s
  else
  let s := forAll parts (partTouch j) s
  match parts.findSome? (partBad s j) with
    | some o => abandonCkpt 0x50 (o.1 * 256) o.2 0x190C s
    | none =>
      let leaf := leafDigest (streamRead s (chunkBytes * i) (chunkLen ck.srcs i))
      let prog := fld ck.desc 32 8 + 64 * i
      let put (addr : Nat) (bs : Bytes) (k : State → State) (s : State) : State :=
        match jobWrite s j addr bs with
        | (none, s1) => k s1
        | (some (kind, page, dva), s1) => ckptMiss c j kind page dva s1
      let write (s : State) : State :=
        if 1 < ck.group && i % ck.group != ck.rank then put prog (progressRec 2 0 0 leaf (writerPlace s j i)) (chunkDone j i leaf 0 0 0) s
        else
          let bs := storedChunk s i
          let off := storedAt s i
          put (fld ck.desc 16 8 + off) bs (put prog (progressRec 1 bs.length off leaf (myIndex s)) (chunkDone j i leaf 1 0 bs.length)) s
      if !ck.again then write s
      else match jobRead s j prog 64 with
        | .fault kind page dva => ckptMiss c j kind page dva s
        | .poison => write s
        | .ok r => if fld r 0 4 != 0 && (r.drop 16).take 32 == leaf then chunkDone j i leaf 0 1 (fld r 4 4) s else write s

/-- PROMENADE_CHUNK (R445). -/
def execPromenadeChunk (job chunk : Nat) (s : State) : Res := onWorld (through xHost (.promenadeChunk job chunk) (promenade job chunk)) s

/-- A write has reached an uncopied granule and waited for its copy (R446): the granule is staged, the stall is noted. -/
def copyBefore (j h g us : Nat) (s : State) : State :=
  let ck := s.w.ck
  let hit (x : Sect) : Bool := x.kind != 2 && (keySide x.key).1 = h && decide (65536 * g < x.bytes)
  match ck.srcs.find? hit with
  | none => s
  | some x =>
    let key := x.key / 65536 + g
    if !ck.armed || ck.job != j || ck.copied.contains key then s
    else modCk (fun c => { c with stallMax := min (max c.stallMax us) 65535 }) (stageGranule j h (keySide x.key).2.1 g s)

/-- COPY_BEFORE_WRITE (R446). -/
def execCopyBeforeWrite (job handle granule us : Nat) (s : State) : Res := onWorld (fabric (.copyBeforeWrite job handle granule us) (copyBefore job handle granule us)) s

/-! ### CKPT_RESTORE (R452) -/

/-- Why a chunk could not be read: a fault of a kind, page and DVA, poison, or a failed digest or frame. -/
inductive ReadErr where
  | fault (kind page dva : Nat)
  | poison
  | digest
  deriving DecidableEq, Repr

def rdOf : Rd → Except ReadErr Bytes
  | .ok bs => .ok bs
  | .fault k p a => .error (.fault k p a)
  | .poison => .error .poison

/-- Read chunk `i` of place `k` from its own or its writer's copy, and check its leaf (R448, R452). -/
def restoreChunk (s : State) (j k : Nat) (recs : Bytes) (len i : Nat) : Except ReadErr Bytes :=
  let rec_ (p : Nat) : Bytes := (recs.drop (128 * p)).take 128
  match rdOf (jobRead s j (fld (rec_ k) 48 8 + 64 * i) 64) with
  | .error e => .error e
  | .ok pr =>
    let w := if fld pr 0 4 = 2 then fld pr 48 2 else k
    match (if w = k then .ok pr else rdOf (jobRead s j (fld (rec_ w) 48 8 + 64 * i) 64)) with
    | .error e => .error e
    | .ok pw => match rdOf (jobRead s j (fld (rec_ w) 40 8 + fld pw 8 8) (fld pw 4 4)) with
      | .error e => .error e
      | .ok bs =>
        match (if bit (fld (rec_ w) 16 1) 0 then Config.zstdContent bs else some bs) with
        | none => .error .digest
        | some x => if x.length = len && leafDigest x == (pr.drop 16).take 32 then .ok x else .error .digest

/-- The chunks of a shard in order, or the first error. -/
def restoreChunks (s : State) (j k : Nat) (recs : Bytes) (l : List Sect) : List Nat → Except ReadErr (List Bytes)
  | [] => .ok []
  | i :: r => match restoreChunk s j k recs (chunkLen l i) i with
    | .error e => .error e
    | .ok x => match restoreChunks s j k recs l r with
      | .error e => .error e
      | .ok xs => .ok (x :: xs)

/-- Write the sections of a shard to their homes (R452). -/
def putSects (j c : Nat) (l : List Sect) (img : Bytes) (s : State) : State :=
  forAll l (fun x s =>
    let bs := (img.drop x.off).take x.bytes
    if x.kind = 2 then s.modJob j (putResid x.tensor ((c + 1) % 3) ((chunksOf 4 bs).map leNum))
    else imageWrite j (keySide x.key).1 0 bs s) s

/-- The job stands at the cut of the generation; its mirrors are anchored there and the partner is seeded afresh (R452). -/
def restored (j c : Nat) (s : State) : State :=
  let s1 := s.modJob j (fun b => { b with
    jrn := [], undo := [], accs := [], samps := [], scores := [], counts := [], lastGood := some c, lastStarted := some c, nextStep := some (c + 1)
    jobGood := c, consNext := true, topoDue := true, applied := none, copies := [] })
  let s2 := modMr (fun m => { m with
    anchored := true, cutKnown := true, sent := m.sent.filter (fun e => e.1 / 65536 != j)
    slots := m.slots.filter (fun x => x.tensor / 65536 != j), pend := m.pend.filter (fun d => d.tensor / 65536 != j)
    inAnchored := m.inAnchored || m.inNode != 0xFFFF
    out := if m.out = 2 then 1 else m.out
    missing := if m.callJob = j then [] else m.missing, gone := if m.callJob = j then [] else m.gone }) s1
  let s3 := mirrorSend j 8 0 0 0 0 0 c [] s2
  flt0 0x6501 0x07 j c (if s3.w.mr.out = 1 then seedAll false s3 else s3)

/-- CKPT_RESTORE's own part (R452). A generation of the job that is being written ends with it (log 79). -/
def restoreOwn (h : Hdr) (addr gen : Nat) (s : State) : Cmd :=
  let j := h.job
  let slot := slotAddr addr gen
  withRead s j slot 256 16 (fun hd =>
    withRead s j (slot + 256) (128 * fld hd 6 2) 16 (fun recs =>
      let ext := match s.w.topo.jobPlan with
        | some p => [p.places.length, p.ex, p.ey, p.ez]
        | none => [1, 1, 1, 1]
      let b := s.job j
      if !(slotValid hd recs && fld hd 8 4 == gen) then badC s 16
      else if [fld hd 6 2, fld hd 24 1, fld hd 25 1, fld hd 26 1] != ext then failC s 0x60
      else if (match b.cur with
        | some t => t.digest != fld hd 32 32
        | none => true) then badC s 24
      else if b.run.isSome || !b.waiting.isEmpty then failC s 0x30
      else if engineBusy s j then .wait s noPage 16
      else
        let c := fld hd 16 8
        let k := myIndex s
        let l := shardSects s j c
        match restoreChunks s j k recs l (List.range (chunkCount l)) with
        | .error (.fault kind page dva) => faultC s j kind page dva 16
        | .error .poison => poisonC s j
        | .error .digest => failC (flt0 0x6502 0x07 j c s) 0x51 0 0x07
        | .ok xs =>
          if rootDigest (xs.map leafDigest) != (recs.drop (128 * k + 56)).take 32 then failC (flt0 0x6502 0x07 j c s) 0x51 0 0x07
          else
            let s1 := if s.w.ck.job = j && s.w.ck.gen != 0 && s.w.ck.state != 2 then abandonCkpt 0x52 (7 * 256) 0x05 0x6304 s else s
            okC (restored j c (putSects j c l xs.flatten s1)) (leBytes 8 c)))

def runCkptRestore (h : Hdr) (addr gen : Nat) : State → State := startCmd (.ckptRestore h addr gen) 0x0502 h (restoreOwn h addr gen)

/-- CKPT_RESTORE (R452). -/
def execCkptRestore (h : Hdr) (addr gen : Nat) (s : State) : Res := onWorld (runCkptRestore h addr gen) s

end Sys2Proof.Machine
end

