-- ==== Sys2Proof/Machine/Report.lean ====
section
/-! DEFINITION. The placement report (R204, R205): position, stage, tensor and region records from a placement. -/

namespace Sys2Proof.Machine

open Sys2Proof

/-- Plane keys of all cells of a placement: the positions', then the pins'. -/
def Place.cells (pl : Place) (t : SetImg) : List Nat :=
  ((List.range pl.p).flatMap (fun i => rectKeys (fun a => pl.rows.getD a 0) (positionRect pl.rows.length pl.p i)) ++
    (t.stages.filter (fun s => s.pinned)).flatMap (fun s => rectKeys id (pinRect s))).eraseDups

def posRecord (pl : Place) (i : Nat) : Bytes :=
  let r := positionRect pl.rows.length pl.p i
  let mine := (List.range pl.chunks.length).filter (fun c => c % pl.p = i)
  let w := ((rectKeys (fun a => pl.rows.getD a 0) r).map (tget 0 pl.load)).foldl max 0
  layout [(1, i), (1, pl.rows.getD r.1 0), (1, r.2.1), (1, r.2.2.1), (1, r.2.2.2), (1, pl.v), (2, 0)] ++
    layout ((List.range 8).map (fun k => (2, match mine[k]? with | some c => (pl.chunks.getD c []).headD 0xFFFF | none => 0xFFFF))) ++ layout [(4, w), (4, 0)]

/-- Home tier of a tensor in a placement; 2 where it has none. -/
def Place.tierOf (pl : Place) (id : Nat) : Nat := match pl.homes.find? (fun x => x.kind == 0 && x.id == id) with | some x => x.tier | none => 2

/-- A stage record. A return stage shows the K-parts of its dX where it has them (R148). -/
def stageRecord (t : SetImg) (pl : Place) (st : Stage) (ret : Bool) : Bytes :=
  let e := if ret then st.idx + 0x8000 else st.idx
  let pos := if st.pinned then 0xFF else endChunk t pl.chunks st.idx % max pl.p 1
  let r := if st.pinned then pinRect st else let q := positionRect pl.rows.length (max pl.p 1) pos; (pl.rows.getD q.1 0, q.2)
  let d := (pl.div.find? (fun d => d.stage == st.idx)).getD { stage := st.idx, axis := 0 }
  let keys := d.at_.map (fun c => c.1)
  let depth := ((t.ins e).map (fun q => tget 8 pl.depths q.idx)).foldl max 0
  let split := if ret && d.backPart != 0xFF then (4, d.backPart) else (d.axis, d.kpart)
  layout [(2, e), (1, pos), (1, min keys.length 255), (1, r.1), (1, r.2.1), (1, r.2.2.1), (1, r.2.2.2), (1, split.1), (1, split.2),
    (1, (keys.map (tget 100 pl.classes)).foldl min 150), (1, if isProduct st && st.weight != 0 then (if pl.held.contains st.idx then 1 else pl.tierOf st.weight + 1) else 0),
    (4, if ret then d.backShare else d.share), (2, depth), (1, (keys.map (tget 0 pl.figs)).foldl max 0), (13, 0)]

/-- Blocks of a table in a tier. -/
def blocksIn (l : List Nat) (n tier : Nat) : Nat := if tier = 2 then n - l.length else (l.filter (fun c => min 3 c = tier)).length

/-- Capacity placed into and bytes placed of a tier. -/
def tierUse (s : State) (j : Nat) (t : SetImg) (pl : Place) (k : Nat) : Nat × Nat :=
  (pl.caps.getD (k - 1) 0, sumNat ((pl.homes.filter (fun x => x.tier = k)).map (fun x => x.bytes)) +
    65536 * sumNat ((setTables' s j t).map (fun x => blocksIn (((s.job j).tiers.filter (fun e => e.1 == x.1)).map (fun e => e.2.2)) (tableBlocks x.2) k)))

/-- A tensor record; ID 0 stands for a declaration that the set does not name. -/
def tensorRecord (s : State) (j : Nat) (t : SetImg) (pl : Place) (id h : Nat) (d : Decl) : Bytes :=
  let b := s.job j
  let key := if id = 0 then h else id
  let codes := if id = 0 then d.blocks.map (fun e => e.2) else (b.tiers.filter (fun e => e.1 == id)).map (fun e => e.2.2)
  let mib (k : Nat) : Nat :=
    if d.kind = 1 then blocksIn codes (tableBlocks d) k / 16
    else if id = 0 then (if d.tier = k then d.imageBytes * (if d.dbl then 2 else 1) / 1048576 else 0)
    else sumNat ((pl.homes.filter (fun x => x.kind = 0 && x.id = id && x.tier = k)).map (fun x => x.bytes)) / 1048576
  let copies := sumNat ((pl.div.filter (fun x => pl.held.contains x.stage && ((t.stage? x.stage).getD {}).weight == id)).map (fun x => sumNat ((x.weights t (fun _ => d.imageBytes)).map (fun e => e.2))))
  let store := if id = 0 then 0 else if d.pin = 1 then tget 0 pl.pinned id else copies
  layout [(2, id), (2, (37 * key) % 96), (4, h), (1, d.pin), (1, max 1 (((b.replicas.filter (fun e => e.1 == id)).map (fun e => e.2.2)).foldl max 0)), (2, (37 * key) % max d.live.length 1),
    (4, store / 1024), (4, mib 1), (4, mib 2), (4, mib 3), (4, 0)]

/-- Bytes of a region in use under a placement: part stacks outside cell store, streams past the cut, and the rest whole. -/
def regionUse (t : SetImg) (pl : Place) (x : HomeItem) : Nat :=
  if x.kind = 1 then sumNat ((pl.div.flatMap (fun d => (d.partShare t).filter (fun e => !pl.partCells.contains e.1))).map (fun e => e.2))
  else if x.kind = 2 then sumNat (((retained t).filter (fun q => !pl.kept.contains q.idx)).map (fun q => keptBytes q * flight t pl.chunks pl.p pl.v q.dst))
  else x.bytes

/-- The records of a report: positions, stages, tensors, regions. -/
def reportRecords (s : State) (j : Nat) (t : SetImg) (pl : Place) : List Bytes × List Bytes × List Bytes × List Bytes :=
  let b := s.job j
  let rets := t.stages.filter (fun st => isProduct st && st.grad && t.train)
  let tens := t.tensors.filterMap (fun r => (s.decl j r.handle).map (fun d => tensorRecord s j t pl r.id r.handle d))
  let others := (b.decls.filter (fun e => !t.tensors.any (fun r => r.handle == e.1))).map (fun e => tensorRecord s j t pl 0 e.1 e.2)
  let reg (kind tier id reserved used : Nat) : Bytes := layout [(1, kind), (1, tier), (2, id), (4, 0), (8, reserved), (8, used), (8, 0)]
  let regs := (pl.homes.filter (fun x => x.kind != 0)).map (fun x => reg x.kind x.tier x.id x.bytes (regionUse t pl x))
  ((List.range pl.p).map (posRecord pl), t.stages.map (fun st => stageRecord t pl st false) ++ rets.map (fun st => stageRecord t pl st true),
    tens ++ others, regs ++ [reg 7 2 0 (undoReserve t) (sumNat (b.undo.map (fun u => 16 + u.image.length))),
      reg 8 1 0 (20971520 * (livePcs s).length) (4096 * s.w.reloc.length)])

/-- The report of a placement (R204). -/
def report (s : State) (j : Nat) (t : SetImg) (pl : Place) (cause : Nat) : Bytes :=
  let b := s.job j
  let r := reportRecords s j t pl
  let body := r.1.flatten ++ r.2.1.flatten ++ r.2.2.1.flatten ++ r.2.2.2.flatten
  let m := medianRate s
  let cells := (pl.cells t).length
  let last := pl.kept.getLast?
  let layer : Nat := match last with
    | some k => (match t.streams[k]? with | some q => ((t.stage? (q.dst % 0x8000)).getD {}).layer | none => 0)
    | none => 0
  layout [(4, 0x54525043), (2, 1), (2, 256), (4, 256 + body.length), (4, t.setId), (4, b.setEpoch), (4, b.modeEpoch), (8, pl.fromStep)] ++ sha256 body ++
    leBytes 32 pl.inputs ++ layout [(1, pl.p), (1, pl.v), (1, cause), (1, pl.short), (4, pl.w), (4, tPipe t.mb pl.p pl.v pl.w (m * pl.heavy / 100)), (2, bubble t.mb pl.p pl.v),
    (2, if cells * pl.w = 0 then 0 else min 10000 (pl.total * 10000 / (cells * pl.w))), (4, pl.period), (2, r.1.length), (2, r.2.1.length), (2, r.2.2.1.length), (2, r.2.2.2.length),
    (2, last.getD 0xFFFF), (2, layer), (8, pl.spill)] ++ layout ((List.range 10).map (fun k => (4, min (pl.bridge.getD k 0 * m / max pl.period 1) (2 ^ 32 - 1)))) ++
    layout ((List.range 3).flatMap (fun k => let u := tierUse s j t pl (k + 1); [(8, u.1), (8, u.2)])) ++
    layout (b.moves.map (fun x => (4, x))) ++ zeros 12 ++ body

/-- The provisional home of a declaration that no set names (R183): its pinned tier, or tier 2 for a dense tensor; a table its
share of each tier under R195, in what the job's placement and its other unnamed tables leave. -/
def provisional (s : State) (j : Nat) (d : Decl) : Decl :=
  let b := s.job j
  if d.kind != 1 then { d with tier := (if d.pin ≤ 1 then 2 else d.pin - 1), gone := gonePcs s }
  else
    let named (h : Nat) : Bool := match b.cur with | some t => t.tensors.any (fun r => r.handle == h) | none => false
    let others := (b.decls.filter (fun e => e.2.kind = 1 && !named e.1)).map (fun e => e.2)
    let caps := (match b.cur with | some t => capsOf s j t | none => (List.range 3).map (fun k => tierCap s j (k + 1)))
    let used (k : Nat) : Nat :=
      sumNat ((b.place.homes.filter (fun x => b.cur.isSome && x.tier = k)).map (fun x => x.bytes)) / 65536 +
      (if k = 2 then sumNat (others.map (fun x => tableBlocks x - x.blocks.length)) else sumNat (others.map (fun x => (x.blocks.filter (fun e => min 3 e.2 = k)).length))) +
      (b.tiers.filter (fun e => min 3 e.2.2 = k)).length
    let room := (List.range 3).map (fun k => caps.getD k 0 / 65536 - used (k + 1))
    { d with gone := gonePcs s, blocks := (match tierBlocks { b with scores := [] } [(0, d)] room (t3Devices s) with
        | some l => l.map (fun e => e.2)
        | none => []) }

end Sys2Proof.Machine
end

