-- ==== Sys2Proof/Machine/Declare.lean ====
section
/-! DEFINITION. TENSOR_DECLARE (R181-R183), PLACE_SET (R201) and PLACEMENT_REPORT (R204, R285). -/

namespace Sys2Proof.Machine

open Sys2Proof

/-! ### TENSOR_DECLARE -/

/-- The declaration a record describes (R181); what a dense tensor reserves is left at its default. -/
def parseDecl (b : Bytes) : Decl :=
  let tab := fld b 2 1 = 1
  { kind := fld b 2 1, fmt := fld b 3 1, count := fld b 4 8, rowLen := fld b 12 4, style := fld b 16 1, pin := fld b 17 1
    group := fld b 18 1, kAxis := fld b 19 1, dbl := !tab && bit (fld b 21 1) 0
    reps := if tab then max 1 (fld b 20 1) else 1, noMigrate := tab && bit (fld b 21 1) 1
    rowState := if tab then fld b 22 2 else 0, t1Min := if tab then fld b 24 2 else 0 }

/-- Formats that have groups or a block axis (R77, R83, R181). -/
def grouped (f : Nat) : Bool := f == 0x18 || f == 0x19
def hasAxis (f : Nat) : Bool := isMx f || grouped f || f == 0x1A

/-- The checks of a declaration record (R181, R182, R194, R242). -/
def declChecks (b : Bytes) : List (Nat × Bool) :=
  let tab := fld b 2 1 == 1
  let f := fld b 3 1
  let g := fld b 18 1
  [(0, fld b 0 2 == 1), (2, decide (fld b 2 1 ≤ 1)), (3, if tab then [0x01, 0x02, 0x03, 0x04, 0x05].contains f else fmtKnown f),
   (4, decide (1 ≤ fld b 4 8)),
   (12, decide (1 ≤ fld b 12 4) && decide (fld b 12 4 ≤ 16384) && (tab || fld b 4 8 % max (fld b 12 4) 1 == 0) &&
     (!tab || decide (rowBytes (parseDecl b) ≤ 65536))),
   (16, decide (fld b 16 1 ≤ 5) && (fld b 16 1 == 4) == tab), (17, decide (fld b 17 1 ≤ 4)),
   (18, if grouped f then decide (1 ≤ g) && decide (g ≤ 3) else if f == 0x1A then decide (g ≤ 3) else g == 0),
   (19, decide (fld b 19 1 ≤ (if hasAxis f then 1 else 0))), (20, !tab || decide (fld b 20 1 ≤ 4)),
   (22, !tab || (decide (fld b 22 2 ≤ 256) && fld b 22 2 % 4 == 0)), (24, !tab || decide (fld b 24 2 ≤ 1000))]

/-- Bytes of a declaration with both buffers. -/
def Decl.total (d : Decl) : Nat := d.imageBytes * (if d.dbl then 2 else 1)

/-- Bytes a pin can hold, and those that declarations with this pin hold already (R183). -/
def pinCap (s : State) (j pin : Nat) : Nat := if pin = 1 then storeBytes * (activeCells s).length else tierCap s j (pin - 1)
def pinUsed (s : State) (pin : Nat) : Nat :=
  sumNat (s.w.jobs.map (fun e => sumNat ((e.2.decls.filter (fun d => d.2.pin == pin)).map (fun d => d.2.total))))
def pinFits (s : State) (j : Nat) (d : Decl) : Bool := d.pin = 0 || decide (pinUsed s d.pin + d.total ≤ pinCap s j d.pin)

/-- Declare a tensor whose record has passed its checks, with its provisional home (R183). -/
def declare (j : Nat) (d : Decl) (s : State) : Cmd :=
  if s.installed < s.declared + d.total + s.reserved || !pinFits s j d then failC s 0x20
  else
    let n := (s.job j).nextHandle
    okC (s.modJob j (fun b => { b with decls := tput {} b.decls n (provisional s j d), nextHandle := n + 1 })) (leBytes 4 n)

/-- TENSOR_DECLARE's own part. -/
def tensorDeclareOwn (h : Hdr) (addr : Nat) (s : State) : Cmd :=
  withRead s h.job addr 64 16 (fun b => checkRec s (declChecks b) (declare h.job (parseDecl b) s))

def runTensorDeclare (h : Hdr) (addr : Nat) : State → State := startCmd (.tensorDeclare h addr) 0x0204 h (tensorDeclareOwn h addr)

/-- TENSOR_DECLARE (R183). -/
def execTensorDeclare (h : Hdr) (addr : Nat) (s : State) : Res := onWorld (runTensorDeclare h addr) s

/-! ### PLACE_SET -/

/-- The checks of a record (R201). -/
def psetChecks (s : State) (j : Nat) (b : Bytes) : List (Nat × Bool) :=
  let keep (off w dflt lo hi : Nat) : Nat × Bool := (off, fld b off w == dflt || (decide (lo ≤ fld b off w) && decide (fld b off w ≤ hi)))
  [(0, decide (fld b 0 1 ≤ 1)), keep 1 1 0xFF 0 1, keep 2 2 0xFFFF 0 200, (4, fld b 0 1 != 1 || (s.decl j (fld b 4 4)).isSome),
   keep 8 1 0xFF 0 4, keep 9 1 0xFF 1 4, keep 10 2 0xFFFF 0 1000, keep 12 1 0xFF 0 1]

/-- The job can be placed under new settings: pins hold, and its current set finds a placement. -/
def trialPlace (s : State) (j : Nat) (b : Job) : Option Place :=
  let s1 := s.setJob j b
  if !b.decls.all (fun e => e.2.pin = 0 || decide (pinUsed s1 e.2.pin ≤ pinCap s1 j e.2.pin)) then none
  else match b.cur with
    | some t => (placeJob s1 j t 4).map (fun x => x.1)
    | none => some b.place

/-- PLACE_SET with a record that has passed its checks: a trial, then at once or at the next boundary (R201). -/
def placeSet (j : Nat) (r : Bytes) (s : State) : Cmd :=
  let b := s.job j
  let pend := b.psPending.foldl (fun b r => applyPSet r b) b
  let new := applyPSet r pend
  let re := bit (fld r 13 1) 0
  if re && b.run.isSome then failC s 0x30
  else match trialPlace s j new with
    | none => failC s 0x20
    | some p =>
      if new == pend && !re then noteC s 1
      else if b.run.isSome then okC (s.setJob j { b with psPending := b.psPending ++ [r] })
      else
        let s1 := s.setJob j { pinTables s new with psPending := [], place := p }
        okC (if re then respread j (fun _ => true) s1 else s1)

/-- PLACE_SET's own part. -/
def placeSetOwn (h : Hdr) (addr : Nat) (s : State) : Cmd :=
  withRead s h.job addr 32 16 (fun r => checkRec s (psetChecks s h.job r) (placeSet h.job r s))

def runPlaceSet (h : Hdr) (addr : Nat) : State → State := startCmd (.placeSet h addr) 0x0205 h (placeSetOwn h addr)

/-- PLACE_SET (R201). -/
def execPlaceSet (h : Hdr) (addr : Nat) (s : State) : Res := onWorld (runPlaceSet h addr) s

/-! ### PLACEMENT_REPORT -/

/-- PLACEMENT_REPORT's own part: a job without the set asked for has no report (log 74). -/
def placementReportOwn (h : Hdr) (buf len which : Nat) (s : State) : Cmd :=
  let b := s.job h.job
  match (if which = 0 then b.cur.map (fun t => report s h.job t b.place b.place.cause)
    else if which = 1 then b.staged.map (fun t => report s h.job t b.stagedPlace 6) else none) with
  | some bs => wholeWrite s h.job buf len bs
  | none => badC s 28

def runPlacementReport (h : Hdr) (buf len which : Nat) : State → State :=
  startCmd (.placementReport h buf len which) 0x0206 h (placementReportOwn h buf len which)

/-- PLACEMENT_REPORT (R204). -/
def execPlacementReport (h : Hdr) (buf len which : Nat) (s : State) : Res := onWorld (runPlacementReport h buf len which) s

end Sys2Proof.Machine
end

