-- ==== Sys2Proof/Machine/Links.lean ====
section
/-! DEFINITION. The links: training, identity and discovery (R334, R340-R344), frames, credits and retry (R325-R330), messages
arriving (R331, R332), detours (R348), lost and substituted nodes (R347, R350), time synchronisation (R352, R353), foul mode
(R354, R355), TOPOLOGY_PLAN (R339), UNIT_EN (R62, R63). -/

namespace Sys2Proof.Machine

open Sys2Proof

/-! ### Identity and discovery -/

/-- The identity record this module sends on a link (R340). -/
def identityOf (s : State) (l : Nat) : Bytes :=
  let e := portOfLink s l
  layout [(2, s.w.topo.node), (1, l), (1, match e with | some e => e.port | none => 0xFF), (1, match e with | some e => e.role | none => 0),
    (1, if s.w.mr.bench then 2 else 0), (2, 0), (8, s.ctl.ident.serial)] ++ planDigest s ++ zeros 16

/-- How a held link is judged (R342, R344): 0 up, 1 up as the allowed substitute, 2 extra, 3 wrong peer; 4 a bench link, which
stays held and writes no event (R25). -/
def judge (s : State) (l : Nat) : Nat :=
  let k := s.link l
  match portOfLink s l with
  | none => 2
  | some e =>
    if s.w.topo.plan.isNone then 2
    else if e.role = 8 then 4
    else match expectPeer s e with
      | .nobody => 2
      | .tray => if k.peerKind = 1 then 0 else 3
      | .node n role sub =>
        let same := k.peerDigest == beNum (planDigest s) && k.peerRole = role && !s.w.topo.lost.contains k.peerNode
        if same && k.peerNode = standing s n then 0
        else if same && sub != 0xFFFF && k.peerNode = sub then 1
        else 3

/-- Map a substitute to the place of a node (R347). A bench module that stands in starts conservative steps (R160). -/
def substitute (node old : Nat) (s : State) : State :=
  if s.w.topo.subs.contains (node, old) then s
  else
    let s1 := s.onW (fun w => { w with topo := { w.topo with subs := w.topo.subs.filter (fun e => e.2 != old && e.1 != node) ++ [(node, old)] } })
    match s1.w.holder with
    | some j => s1.modJob j Job.switchedIn
    | none => s1

/-- Barriers and huddles combine anew after the members of a job have changed. -/
def membersChanged (s : State) : State :=
  match s.w.holder with
  | some j => hudAdvance j (barAdvance j s)
  | none => s

/-- Judge a held link whose peer is known (R342). -/
def judgeLink (l : Nat) (s : State) : State :=
  let k := s.link l
  if k.state != 2 then s
  else
    let v := judge s l
    let loc := locLink l k.port k.peerNode 0
    let s1 := s.modLink l (fun k => { k with judged := true, verdict := v })
    let up (s : State) : State := s.modLink l (fun k => { k with state := 3, accepted := true, lastValid := s.now })
    if v = 0 then relink (flt 0x3101 (0x30 + l) 0xFF 0 loc (up s1))
    else if v = 1 then
      (match (portOfLink s l).map (expectPeer s) with
       | some (.node n _ _) =>
         let s2 := relink (flt 0x3205 (0x30 + l) 0xFF 0 loc (up (substitute k.peerNode n s1)))
         match s2.w.holder, s2.w.topo.jobPlan with
         | some j, some p =>
           let place := (p.places.findIdx? (fun e => e.node == n)).getD 0
           membersChanged (controlAll j 0 8 0 k.peerNode (s2.job j).modeEpoch 0 place 0 s2)
         | _, _ => s2
       | _ => s1)
    else if v = 4 then s1
    else relink (flt (if v = 2 then 0x3203 else 0x3204) (0x30 + l) 0xFF 0 loc s1)

/-- Ports of a LINK_DISCOVER mask by state, and its links held as extra or wrong (R344). -/
def discovered (s : State) (mask : Nat) : Nat × Nat × Nat :=
  let ents := (portEnts s).filter (fun e => bit mask e.port)
  let upAll (e : PortEnt) : Bool := linksUp s e = popCount e.mask 24
  (sumNat ((ents.filter upAll).map (fun e => 2 ^ e.port)), sumNat ((ents.filter (fun e => !upAll e && 0 < linksUp s e)).map (fun e => 2 ^ e.port)),
    sumNat ((ents.flatMap (fun e => bitList e.mask 24)).filter (fun l => (s.link l).state = 2 && (s.link l).judged && ((s.link l).verdict = 2 || (s.link l).verdict = 3))
      |>.map (fun l => 2 ^ l)))

/-- LINK_DISCOVER commands none of whose links trains or waits for its judgement any more complete. -/
def settleDiscover (s : State) : State :=
  let open_ (r : Run) : Bool := ((portEnts s).filter (fun e => bit r.a e.port)).any (fun e => (bitList e.mask 24).any (fun l =>
    let k := s.link l; k.state = 1 || (k.state = 2 && !k.judged)))
  forAll (s.w.inflight.filter (fun r => r.op = 0x0701 && !open_ r)) (fun r s =>
    let d := discovered s r.a
    let asked := (List.range 12).filter (fun p => bit r.a p)
    let ok := asked.all (fun p => bit d.1 p)
    complete r (if ok then 0 else 1) (if ok then 0 else 2) 0xFF (layout [(2, d.1), (2, d.2.1), (4, d.2.2)]) s) s

/-- Signal on all lanes (R334): an off or failed link trains while attempts are left. -/
def signalDetect (l : Nat) (s : State) : State :=
  if 24 ≤ l then s
  else
    let s1 := s.modLink l (fun k => { k with sig := true })
    let k := s1.link l
    if linkUsable s l && (k.state = 0 || (k.state = 4 && decide (k.fails < (tget {} s.cfg.lk l).trainFail))) then startTraining l s1 else s1

/-- LINK_SIGNAL_DETECT (R334). -/
def execLinkSignalDetect (link : Nat) (s : State) : Res := onWorld (signalDetect link) s

/-- The time master is synchronised once any link is held or up (R353). -/
def masterSync (s : State) : State :=
  let isMaster := match s.w.topo.plan with
    | some p => p.master = p.node
    | none => false
  if isMaster && (List.range 24).any (fun l => (s.link l).state = 2 || (s.link l).state = 3) then
    (s.modClk (fun c => { c with synced := true })).onW (fun w => { w with topo := { w.topo with hops := 0, upLink := 0x1F } })
  else s

/-- Training ends (R334, R336), and the link's crossing goes on from its shadow copy (R60): held with full credits and the identity
sent, or down, for good after train_fail attempts. A foul action that takes every frame lets no training succeed (R354). -/
def linkTrained (l : Nat) (ok : Bool) (ppm : Int) (s : State) : State :=
  let k := s.link l
  if 24 ≤ l || k.state != 1 then s
  else if ok && !foulAll s l then
    let fast := 3000 < ppm.natAbs
    let s1 := (s.modXing (xLink l) Xing.localReset).modLink l (fun k => { k with
      state := 2, lock := true, trains := satAdd 8 k.trains 1, fails := 0, ppmTenths := ppm, ppmOver := fast, badRun := [0, 0, 0, 0], lastValid := s.now
      vc := (List.range 8).map (fun v => (v, ({ credits := vcBuffer v, queued := (tget {} k.vc v).queued } : Vc))) })
    let s2 := if fast then flt 0x3105 (0x30 + l) 0xFF 0 (locLink l k.port k.peerNode 0) s1 else s1
    settleDiscover (masterSync (queueFrames l [{ vc := 7, first := true, last := true, src := s.w.topo.node, data := padTo 2560 (identityOf s l) }] s2))
  else
    let s1 := s.modLink l (fun k => { k with fails := k.fails + 1 })
    let s2 := linkDown l 4 s1
    settleDiscover (if k.fails + 1 = (tget {} s.cfg.lk l).trainFail then flt 0x3103 (0x30 + l) 0xFF 0 (locLink l k.port k.peerNode 4) s2 else s2)

/-- LINK_TRAINED (R334). -/
def execLinkTrained (link : Nat) (ok : Bool) (ppmTenths : Int) (s : State) : Res := onCore (linkTrained link ok ppmTenths) s

/-- The peer's identity arrives (R340, R342): the link is judged, or returns to up with the peer it had (R334). -/
def linkIdentity (l : Nat) (d : Bytes) (s : State) : State :=
  let k := s.link l
  if 24 ≤ l || !(k.state = 2 || k.state = 3) then s
  else
    let node := fld d 0 2
    let back := k.accepted && k.peerNode = node && k.serial = fld d 8 8 && !s.w.topo.lost.contains node
    let s1 := s.modLink l (fun k => { k with
      peerNode := node, peerLink := fld d 2 1, peerPort := fld d 3 1 % 16, peerRole := fld d 4 1, peerKind := fld d 5 1 % 4, serial := fld d 8 8
      peerDigest := beNum ((d.drop 16).take 32) })
    if k.state = 3 then s1
    else if back then
      settleDiscover (relink (flt 0x3101 (0x30 + l) 0xFF 0 (locLink l k.port node 0) (s1.modLink l (fun k => { k with
        state := 3, judged := true, verdict := 0, lastValid := s.now }))))
    else settleDiscover (judgeLink l s1)

/-- LINK_IDENTITY (R342). -/
def execLinkIdentity (link : Nat) (ident : Bytes) (s : State) : Res := onWorld (linkIdentity link ident) s

/-- LINK_DISCOVER's own part. -/
def linkDiscoverOwn (mask : Nat) (s : State) : Cmd := if 4096 ≤ mask then badC s 16 else .later s mask 0

/-- LINK_DISCOVER (R344): its down and held links train afresh. -/
def runLinkDiscover (h : Hdr) (mask : Nat) (s : State) : State :=
  let s1 := startCmd (.linkDiscover h mask) 0x0701 h (linkDiscoverOwn mask) s
  if s.w.ordNext < s1.w.ordNext && s1.w.inflight.any (fun r => r.ord == s.w.ordNext) then
    let ls := ((portEnts s1).filter (fun e => bit mask e.port)).flatMap (fun e => bitList e.mask 24)
    settleDiscover (forAll ls (fun l s =>
      let k := s.link l
      if linkUsable s l && (k.state = 2 || k.state = 4) then startTraining l (s.modLink l (fun k => { k with fails := 0, accepted := false })) else s) s1)
  else s1

/-- LINK_DISCOVER (R344). -/
def execLinkDiscover (h : Hdr) (mask : Nat) (s : State) : Res := onWorld (runLinkDiscover h mask) s

/-- LK_CMD.retrain is written (R334): the link leaves service, if it was in it, and trains. -/
def lkRetrain (l : Nat) (s : State) : State :=
  if !linkUsable s l then s
  else
    let k := s.link l
    if k.state = 1 then s
    else startTraining l ((if k.state = 2 || k.state = 3 then linkDown l 6 s else s).modLink l (fun k => { k with fails := 0 }))

/-- LK_CMD_RETRAIN (R334). -/
def execLkCmdRetrain (link : Nat) (s : State) : Res :=
  onCore (if link < 24 then hostWrite (0x30 + link) (lkRetrain link) else id) s

/-- No valid frame for dead_us (R334). -/
def linkDead (l : Nat) (s : State) : State :=
  if decide (l < 24) && ((s.link l).state = 2 || (s.link l).state = 3) then linkDown l 1 s else s

/-- LINK_DEAD_TIMER (R334). -/
def execLinkDeadTimer (link : Nat) (s : State) : Res := onWorld (linkDead link) s

/-- A 1 s window of retries ends (R336). -/
def retryWindow (l : Nat) (s : State) : State :=
  if 24 ≤ l then s
  else
    let k := s.link l
    let run := if (tget {} s.cfg.lk l).retryThr < k.retryWin then k.winBase + 1 else 0
    let s1 := s.modLink l (fun k => { k with retryWin := 0, winBase := run % 10 })
    if run = 10 then ckptAdvice 2 (flt 0x3104 (0x30 + l) 0xFF 0 (locLink l k.port k.peerNode 0) s1) else s1

/-- LINK_RETRY_WINDOW (R336). -/
def execLinkRetryWindow (link : Nat) (s : State) : Res := onWorld (retryWindow link) s

/-- Host software writes the detour of a port (R348, R357). -/
def detourWrite (k v : Nat) (s : State) : State :=
  if 12 ≤ k then s
  else
    let p := s.port k
    let via := if bits v 39 36 ≤ 11 then bits v 39 36 else p.via
    let valid := bit v 40
    let s1 := s.onW (fun w => { w with topo := { w.topo with ports := tput {} w.topo.ports k { p with via := via, dvalid := valid, host := valid } } })
    if p.dvalid != valid || (valid && p.via != via) then flt 0x3302 0xFF 0xFF 0 (locLink 0xFF k p.peer (if valid then via else 0xFF)) s1 else s1

/-- TP_PORT_DETOUR_WRITE (R348). -/
def execTpPortDetourWrite (port value : Nat) (s : State) : Res := onWorld (detourWrite port value) s

/-! ### Acknowledgements of messages (R332) -/

/-- A message is acknowledged. -/
def ackMessage (src cls seq : Nat) (s : State) : State :=
  s.onW (fun w => { w with msgs := { w.msgs with kept := w.msgs.kept.filter (fun m => !(m.dst == src && m.cls == cls && m.seq == seq)) } })

/-- MESSAGE_ACK (R332): a sequence and those a bit map names above it. -/
def execMessageAck (src cls seq map : Nat) (s : State) : Res :=
  onWorld (forAll (seq :: (bitList map 64).map (fun i => wrapAdd 32 seq (1 + i))) (fun q s => ackMessage src cls q s)) s

/-- ACK_DELAY_TIMER (R332). -/
def execAckDelayTimer (src : Nat) (s : State) : Res := onWorld (sendAck src) s

/-- 5 ms without an acknowledgement (R332): the message goes out again; after the third unanswered resend its node is lost. -/
def resendMessage (dst cls seq : Nat) (s : State) : State :=
  match s.w.msgs.kept.find? (fun m => m.dst == dst && m.cls == cls && m.seq == seq) with
  | none => s
  | some m =>
    if 3 ≤ m.resends then failGone (declareLost dst s)
    else
      let m1 := { m with resends := m.resends + 1 }
      launch m1 0xFF (s.onW (fun w => { w with msgs := { w.msgs with kept := w.msgs.kept.map (fun x => if x == m then m1 else x) } }))

/-- MESSAGE_RESEND_TIMER (R332). -/
def execMessageResendTimer (dst cls seq : Nat) (s : State) : Res := onWorld (resendMessage dst cls seq) s

/-! ### Frames (R325-R332) -/

/-- A whole message arrives at its destination (R332): acknowledged, duplicates dropped; a job message of another epoch is held
unacknowledged (R179). What a new message does is the command of its class. -/
def deliver (m : Msg) (epoch : Nat) (s : State) : State :=
  if m.cls = 6 then
    forAll (chunksOf 8 m.data) (fun e s => ackMessage m.src (fld e 0 1) (fld e 4 4) s) s
  else if decide (m.job < 64) && epoch != epochTag s m.job && !s.w.msgs.seen.contains (m.src, m.cls, m.seq) then
    if s.w.msgs.held.contains (epoch, m) then s else s.onW (fun w => { w with msgs := { w.msgs with held := w.msgs.held ++ [(epoch, m)] } })
  else acceptMsg m s

/-- Dimension that a link's port runs along. -/
def linkDim (s : State) (l : Nat) : Option Nat := ((portOfLink s l).bind (fun e => roleDim e.role)).map (fun x => x.1)

/-- A message passes through this module (R345-R349); one with no way on is undeliverable. -/
def forward (m : Msg) (l vc det epoch : Nat) (s : State) : State :=
  let lost := flt 0x3303 0xFF 0xFF 0 (locLink l (s.link l).port m.dst 0)
    (s.onW (fun w => { w with topo := { w.topo with undeliv := satAdd 16 w.topo.undeliv 1 } }))
  match route s m.dst m.cls vc (linkDim s l) det with
  | none => lost
  | some (e, v, d) => (match pickLink s e with
    | some o => queueFrames o (msgFrames m v epoch d) s
    | none => lost)

/-- The message that a run of frame data holds (R331). -/
def parseMsg (bs : Bytes) : Msg :=
  { src := fld bs 0 2, dst := fld bs 2 2, job := fld bs 4 1, cls := fld bs 5 1, seq := fld bs 12 4, step := fld bs 16 8
    spec := (bs.drop 24).take 40, data := (bs.drop 64).take (fld bs 8 4) }

/-- Same message by source, class and sequence (R332). -/
def sameHead (a b : Bytes) : Bool := fld a 0 2 == fld b 0 2 && fld a 5 1 == fld b 5 1 && fld a 12 4 == fld b 12 4

/-- A good message frame is taken on its virtual channel. -/
def takeFrame (l ctl : Nat) (data : Bytes) (s : State) : State :=
  let vc := bits ctl 4 2
  let k := s.link l
  let partOf : Bytes := match k.rx.find? (fun e => e.1 == vc) with
    | some e => e.2
    | none => []
  let put (bs : Option Bytes) (s : State) : State := s.modLink l (fun k => { k with
    rx := k.rx.filter (fun e => e.1 != vc) ++ (match bs with | some b => [(vc, b)] | none => []) })
  if k.state != 3 then s
  else if bit ctl 76 then put none s
  else
    let s1 := if bit ctl 5 then s.onW (fun w => { w with lk := w.lk.map (fun e => (e.1, { e.2 with rx := e.2.rx.filter (fun x => !sameHead x.2 data) })) }) else s
    if !bit ctl 5 && partOf.isEmpty then s1
    else
      let all := if bit ctl 5 then data else partOf ++ data
      if !bit ctl 6 then put (some all) s1
      else
        let m := parseMsg all
        let s2 := put none s1
        if fld all 6 2 * 2560 != all.length || all.length < 64 + fld all 8 4 then s2
        else if m.dst = s2.w.topo.node then deliver m (bits ctl 18 11) s2
        else forward m l vc (bits ctl 75 68) (bits ctl 18 11) s2

/-- The peer's acknowledgement (R330): frames up to it leave the replay buffer. -/
def hopAck (l ack : Nat) (s : State) : State :=
  let k := s.link l
  match k.replay.findIdx? (fun f => f.seq == ack) with
  | some i => drainTx (k.txq.length) l (s.modLink l (fun k => { k with replay := k.replay.drop (i + 1) }))
  | none => s

/-- The peer refuses a frame (R330): everything still kept goes out again in order; a frame already resent 8 times ends it. -/
def hopNak (l : Nat) (s : State) : State :=
  let k := s.link l
  if k.replay.any (fun f => decide (8 ≤ f.resends)) then linkDown l 3 s
  else
    let again := k.replay.map (fun f => { f with resends := f.resends + 1 })
    forAll again (sendFrame l) (s.modLink l (fun k => { k with
      replay := again, resent := satAdd 32 k.resent again.length, retryWin := k.retryWin + again.length }))

/-- Credits come back over the link's crossing as a count (R59, R329). -/
def hopCredit (l vc n : Nat) (s : State) : State :=
  signal (xLink l) (fun s => drainTx (s.link l).txq.length l (s.modLink l (fun k => { k with
    vc := tmod {} k.vc vc (fun v => { v with credits := min (v.credits + n) (vcBuffer vc) }) }))) s

/-- Refuse a frame: once per bad frame (R330). -/
def sendNak (l : Nat) (s : State) : State :=
  (s.modLink l (fun k => { k with rxBad := true, naks := satAdd 32 k.naks 1 })).emit (.hop l 2 (s.link l).rxSeq)

/-- CRC of a frame (R327): over its data and control bits [51:0] and [79:68]. -/
def frameCrc (data : Bytes) (ctl : Nat) : Nat := crc16 data (bits ctl 51 0 + 2 ^ 52 * bits ctl 79 68) 64

/-- A frame arrives (R325-R330): symbols corrected, lanes whose codeword is uncorrectable as a mask. -/
def frameReceive (l : Nat) (frame : Bytes) (corrected bad : Nat) (s : State) : State :=
  let k := s.link l
  if 24 ≤ l || !(k.state = 2 || k.state = 3) then s
  else
    let badRun := (List.range 4).map (fun i => if bit bad i then k.badRun.getD i 0 + 1 else 0)
    let s1 := s.modLink l (fun k => { k with corr := satAdd 32 k.corr corrected, uncorr := satAdd 32 k.uncorr (popCount bad 4), badRun := badRun })
    if badRun.any (fun n => decide (3 ≤ n)) then linkDown l 2 s1
    else
      let data := frame.take 2560
      let ctl := leNum ((frame.drop 2560).take 10)
      if bad % 16 != 0 || frame.length != 2570 || frameCrc data ctl != bits ctl 67 52 then sendNak l s1
      else
        let kind := bits ctl 1 0
        let seq := bits ctl 30 19
        let s2 := s1.modLink l (fun k => { k with lastValid := s.now })
        let carries := kind = 1 || kind = 2
        if carries && seq != (k.rxSeq + 1) % 4096 then (if k.rxBad then s2 else sendNak l s2)
        else
          let s3 := hopCredit l (bits ctl 46 44) (bits ctl 51 47) (hopAck l (bits ctl 42 31) s2)
          let s4 := if bit ctl 43 then hopNak l s3 else s3
          if !carries || !((s4.link l).state = 2 || (s4.link l).state = 3) then s4
          else
            let s5 := (s4.modLink l (fun k => { k with rxSeq := seq, rxBad := false, frames := wrapAdd 64 k.frames 1 })).emit (.hop l 1 seq)
            let s6 := s5.emit (.hop l 3 (bits ctl 4 2))
            if kind = 1 then takeFrame l ctl data s6 else s6

/-- FRAME_RECEIVE (R330). -/
def execFrameReceive (link : Nat) (frame : Bytes) (corrected bad : Nat) (s : State) : Res := onWorld (frameReceive link frame corrected bad) s

/-! ### Lost and substituted nodes -/

/-- Every link whose expected peer is a node has been out of up for lost_ms (R350). -/
def peerLost (node : Nat) (s : State) : State :=
  let es := (portEnts s).filter (fun e => portPeer s e = node)
  if node != 0xFFFF && !es.isEmpty && es.all (fun e => linksUp s e = 0) then failGone (declareLost node s) else s

/-- PEER_LOST_TIMER (R350). -/
def execPeerLostTimer (node : Nat) (s : State) : Res := onWorld (peerLost node) s

/-- LOST_NOTICE (R350): the finder has told every module. -/
def execLostNotice (node : Nat) (s : State) : Res := onWorld (fun s => failGone (lose false node s)) s

/-- A substitute stands at a place (R347). -/
def substituteNotice (node place : Nat) (s : State) : State :=
  match s.w.topo.jobPlan with
  | none => s
  | some p => match p.places[place]? with
    | none => s
    | some e => if e.subst = node && node != 0xFFFF then membersChanged (relink (substitute node e.node s)) else s

/-- SUBSTITUTE_NOTICE (R347). -/
def execSubstituteNotice (node place : Nat) (s : State) : Res := onWorld (substituteNotice node place) s

/-! ### TOPOLOGY_PLAN -/

/-- TOPOLOGY_PLAN's own part (R286, R338, R339). -/
def topologyPlanOwn (h : Hdr) (addr len : Nat) (s : State) : Cmd :=
  if (List.range 64).any (fun j => s.live j && (s.job j).cur.isSome) then failC s 0x30
  else if 256 < len || len < 64 then badC s 24
  else withRead s h.job addr len 16 (fun b =>
    checkRec s (planChecks b 0 0 ++ [(8, fld b 8 4 == len)])
      (if (match s.w.topo.plan with | some p => p.img == b | none => false) then noteC s 1
       else
         let p := parsePlan b
         okC (replan (s.onW (fun w => { w with topo := { w.topo with
           plan := some p, node := p.node
           hops := if p.master = p.node then 0 else 255, upLink := 0x1F } })))))

def runTopologyPlan (h : Hdr) (addr len : Nat) : State → State := startCmd (.topologyPlan h addr len) 0x0702 h (topologyPlanOwn h addr len)

/-- TOPOLOGY_PLAN (R339). -/
def execTopologyPlan (h : Hdr) (addr len : Nat) (s : State) : Res := onCore (fun s => masterSync (runTopologyPlan h addr len s)) s

/-! ### Time synchronisation (R352, R353) -/

/-- The link of the peer nearest to the master, the lower number on a tie; hop counts come with the exchanges. -/
def upstream (s : State) : Option Nat :=
  ((List.range 24).filter (fun l => (s.link l).state = 2 || (s.link l).state = 3)).foldl (fun acc l =>
    match acc with
    | none => some l
    | some b => if (s.link l).peerHops < (s.link b).peerHops then some l else some b) none

/-- Whether this module is the time master. -/
def isMaster (s : State) : Bool := match s.w.topo.plan with | some p => p.master = p.node | none => false

/-- Once per ms a request goes to the upstream peer (R352). -/
def timeRequest (s : State) : State :=
  if isMaster s || !s.ctl.clk.running then s
  else match upstream s with
    | none => s.onW (fun w => { w with topo := { w.topo with upLink := 0x1F, hops := 255 } })
    | some l => (s.onW (fun w => { w with topo := { w.topo with upLink := l, t1 := s.now } })).emit (.time l s.now 0 0)

/-- TIME_SYNC_REQUEST (R352). -/
def execTimeSyncRequest (s : State) : Res := onWorld timeRequest s

/-- The reply of the upstream peer (R352): the offset, the rate it leads to, steps and slews. -/
def timeReply (t1 t2 t3 t4 hops : Nat) (adj : Int) (s : State) : State :=
  if s.w.topo.upLink = 0x1F || isMaster s || !s.ctl.clk.running then s
  else
    let l := s.w.topo.upLink
    let off : Int := (((t2 : Int) - t1) - ((t4 : Int) - t3)) / 2
    let lim (x m : Int) : Int := max (-m) (min m x)
    let s1 := (s.modLink l (fun k => { k with peerHops := min hops 255 })).onW (fun w => { w with topo := { w.topo with
      offsetNs := lim off 2147483647, adj := lim adj 2147483, hops := min (hops + 1) 255 } })
    if 1000 ≤ off then
      flt0 0x3402 0xFF 0xFF 0 (s1.modClk (fun c => { c with ns := wrapAdd 64 c.ns off.toNat, synced := false, good := 0, lastSyncNs := c.ns }))
    else if off ≤ -1000 && !s1.ctl.clk.slew then
      flt0 0x3402 0xFF 0xFF 0 (s1.modClk (fun c => { c with slew := true, synced := false, good := 0, lastSyncNs := c.ns }))
    else
      let n := if off.natAbs < 20 then s1.ctl.clk.good + 1 else 0
      s1.modClk (fun c => { c with slew := c.slew && n = 0, good := n, synced := c.synced || decide (16 ≤ n), lastSyncNs := c.ns })

/-- TIME_SYNC_REPLY (R352). -/
def execTimeSyncReply (t1 t2 t3 t4 hops : Nat) (adj : Int) (s : State) : Res := onCore (timeReply t1 t2 t3 t4 hops adj) s

/-- No exchange has completed for 100 ms (R353). -/
def timeLoss (s : State) : State :=
  if isMaster s || !s.ctl.clk.running then s
  else flt0 0x3401 0xFF 0xFF 0 (s.modClk (fun c => { c with synced := false, good := 0 }))

/-- TIME_SYNC_LOSS (R353). -/
def execTimeSyncLoss (s : State) : Res := onCore timeLoss s

/-! ### Foul mode (R354, R355) -/

/-- FOUL_ARM's own part. -/
def foulArmOwn (mask action rate ms : Nat) (s : State) : Cmd :=
  if 3 < action then badC s 20
  else if 2 ^ 24 ≤ mask || (action != 0 && mask = 0) then badC s 16
  else if 30 < rate then badC s 21
  else if action != 0 && !(decide (1 ≤ ms) && decide (ms ≤ 3600000)) then badC s 24
  else if !s.w.sl.foulAuth then failC s 0xA0
  else if action = 0 then okC (disarmFoul s)
  else okC (flt0 0x3501 0x0A 0xFF 0 (s.onW (fun w => { w with foul := { armed := mask, action := action, rate := rate, ms := ms, hits := 0 } })))

def runFoulArm (h : Hdr) (mask action rate ms : Nat) : State → State := startCmd (.foulArm h mask action rate ms) 0x0703 h (foulArmOwn mask action rate ms)

/-- FOUL_ARM (R354). -/
def execFoulArm (h : Hdr) (mask action rate ms : Nat) (s : State) : Res := onWorld (runFoulArm h mask action rate ms) s

/-- FOUL_DURATION_EXPIRY (R354). -/
def execFoulDurationExpiry (s : State) : Res := onWorld disarmFoul s

/-- FOUL_AUTH_EXPIRY (R539). -/
def execFoulAuthExpiry (s : State) : Res := onWorld endFoulAuth s

/-! ### UNIT_EN (R61-R63) -/

/-- Implemented bits of UNIT_ENk. -/
def unitMask (k : Nat) : Nat := if k = 0 then 0x0FFF07FF else if k = 1 then 0xFFFF010F else if k = 2 then 0x000F00FF else if k = 3 then 0xFFF else 0

/-- Firmware writes UNIT_ENk: a link whose bit it clears goes off and counts as down for its port (R360), one whose bit it sets
trains where its signal stands (R334). -/
def unitEnWrite (k v : Nat) (s : State) : State :=
  if !(s.power.phase = .run && !s.ctl.ident.failed) || 4 ≤ k then s
  else
    let low := s.ctl.unitEn % 2 ^ (32 * k)
    let new := low + 2 ^ (32 * k) * (v.land (unitMask k)) + 2 ^ (32 * (k + 1)) * (s.ctl.unitEn / 2 ^ (32 * (k + 1)))
    let off := (List.range 24).filter (fun l => s.unitOn (0x30 + l) && !bit new (0x30 + l))
    let s1 := forAll off (fun l s =>
      let st := (s.link l).state
      (if st = 0 || st = 4 then s else linkDown l 7 s).modLink l (fun k => { k with state := 0 })) (s.setUnits new)
    let s2 := wakeLinks s1
    if off.isEmpty then s2 else relink s2

/-- UNIT_EN_WRITE (R63). -/
def execUnitEnWrite (k value : Nat) (s : State) : Res := onCore (unitEnWrite k value) s

end Sys2Proof.Machine
end

