-- ==== Sys2Proof/Machine/Mctp.lean ====
section
/-! DEFINITION. The management bus: MCTP control requests (R524) and the SPDM responder (R525-R527). The byte layouts of the
answers are those of DSP0236 and DSP0274, which the spec names and does not lay out (log 73). -/

namespace Sys2Proof.Machine

open Sys2Proof

def State.modMctp (s : State) (f : Mctp → Mctp) : State := { s with ctl := { s.ctl with mctp := f s.ctl.mctp } }

/-- The bus runs in every power state except Off (R524). -/
def onBus (f : State → State) (s : State) : State := if s.power.phase = .off then s else f s

/-! ### MCTP control (R524) -/

/-- An answer of the control protocol: message type 0x00, command code, completion code, data. -/
def ctlAnswer (cmd code : Nat) (data : Bytes) (s : State) : State := s.emit (.mctp (layout [(1, 0x00), (1, 0), (1, cmd), (1, code)] ++ data))

/-- Set Endpoint ID: operations set and force take an endpoint ID; others, and IDs that are not assignable, are invalid data. -/
def setEid (op eid : Nat) (s : State) : State :=
  if op % 4 ≤ 1 && decide (8 ≤ eid) && decide (eid ≤ 0xFE) then
    ctlAnswer 0x01 0x00 (layout [(1, 0), (1, eid), (1, 0)]) (s.modMctp (fun m => { m with eid := eid }))
  else ctlAnswer 0x01 0x02 (layout [(1, 0x10), (1, s.ctl.mctp.eid), (1, 0)]) s

/-- SET_ENDPOINT_ID (R524). -/
def execSetEndpointId (op eid : Nat) (s : State) : Res := onCore (onBus (setEid op eid)) s

/-- GET_ENDPOINT_ID (R524). -/
def execGetEndpointId (s : State) : Res :=
  onWorld (onBus (fun s => ctlAnswer 0x02 0x00 (layout [(1, s.ctl.mctp.eid), (1, 0), (1, 0)]) s)) s

/-- The versions of a message type: of the base, of control and of SPDM one each, the number free; of any other none (0x80). -/
def versionsOf (typ : Nat) (s : State) : State :=
  if typ = 0xFF || typ = 0x00 || typ = 0x05 then (let d := s.draw; ctlAnswer 0x04 0x00 (layout [(1, 1), (4, d.1)]) d.2)
  else ctlAnswer 0x04 0x80 (layout [(1, 0)]) s

/-- GET_MCTP_VERSION_SUPPORT (R524). -/
def execGetMctpVersionSupport (typ : Nat) (s : State) : Res := onWorld (onBus (versionsOf typ)) s

/-- GET_MESSAGE_TYPE_SUPPORT (R524): SPDM, in addition to control. -/
def execGetMessageTypeSupport (s : State) : Res := onWorld (onBus (ctlAnswer 0x05 0x00 (layout [(1, 1), (1, 0x05)]))) s

/-! ### SPDM (R525, R527) -/

/-- A message of the responder. -/
def spdmSend (ver code p1 p2 : Nat) (data : Bytes) (s : State) : State :=
  s.emit (.mctp (layout [(1, 0x05), (1, ver), (1, code), (1, p1), (1, p2)] ++ data))

/-- ERROR with a code: 0x01 InvalidRequest, 0x04 UnexpectedRequest. -/
def spdmError (e : Nat) (s : State) : State := spdmSend s.ctl.mctp.version 0x7F e 0 [] s

/-- Boot, a reset under way, and entry to or exit from sit-out (R527). -/
def spdmBusy (s : State) : Bool :=
  let p := s.power
  p.sitPending || (p.phase != .run && !inSitOut s) || (inSitOut s && p.wakePending != 0)

/-- A request other than GET_VERSION: ResponseNotReady while busy, UnexpectedRequest out of sequence, else its answer. -/
def spdmRequest (need : Nat) (f : State → State) (s : State) : State :=
  if spdmBusy s then (let d := s.draw; spdmSend s.ctl.mctp.version 0x7F 0x42 0 (leBytes 4 d.1) d.2)
  else if s.ctl.mctp.spdm < need then spdmError 0x04 s
  else f s

/-- GET_VERSION: versions 1.2 and 1.3; the exchange starts anew. -/
def spdmVersion (s : State) : State :=
  spdmSend 0x10 0x04 0 0 (layout [(1, 0), (1, 2), (2, 0x1200), (2, 0x1300)]) (s.modMctp (fun m => { m with spdm := 1, version := 0x10 }))

/-- GET_VERSION (R525). -/
def execGetVersion (s : State) : Res := onCore (onBus spdmVersion) s

/-- GET_CAPABILITIES: CERT_CAP, CHAL_CAP, MEAS_CAP with signature; the version is the requester's choice of the two, the time
exponent and the sizes are free. -/
def spdmCapabilities (s : State) : State :=
  let v := s.draw
  let t := v.2.draw
  let n := t.2.draw
  let ver := 0x12 + v.1 % 2
  spdmSend ver 0x61 0 0 (layout [(1, 0), (1, t.1), (2, 0), (4, 0x16), (8, n.1)]) (n.2.modMctp (fun m => { m with spdm := 2, version := ver }))

/-- GET_CAPABILITIES (R525). -/
def execGetCapabilities (s : State) : Res := onCore (onBus (spdmRequest 1 spdmCapabilities)) s

/-- NEGOTIATE_ALGORITHMS: ECDSA P-384 (bit 7) and SHA-384 (bit 1) are selected where both are offered. -/
def spdmAlgorithms (asym hash : Nat) (s : State) : State :=
  if bit asym 7 && bit hash 1 then
    spdmSend s.ctl.mctp.version 0x63 0 0
      (layout [(2, 36), (1, 1), (1, 0), (4, 0x4), (4, 0x80), (4, 0x2), (12, 0), (1, 0), (1, 0), (2, 0)]) (s.modMctp (fun m => { m with spdm := 3 }))
  else spdmError 0x01 s

/-- NEGOTIATE_ALGORITHMS (R525). -/
def execNegotiateAlgorithms (asym hash : Nat) (s : State) : Res := onCore (onBus (spdmRequest 2 (spdmAlgorithms asym hash))) s

/-- SHA-384 of the slot 0 chain. -/
def chainDigest : Bytes := sha384 Config.certChain

/-- GET_DIGESTS (R525): slot 0 only. -/
def execGetDigests (s : State) : Res :=
  onWorld (onBus (spdmRequest 3 (fun s => spdmSend s.ctl.mctp.version 0x01 0 0x01 chainDigest s))) s

/-- GET_CERTIFICATE: a portion of the slot 0 chain. -/
def spdmCertificate (slot off len : Nat) (s : State) : State :=
  let all := Config.certChain
  if slot != 0 || decide (all.length ≤ off) then spdmError 0x01 s
  else
    let d := (all.drop off).take (min len 0xFFFF)
    spdmSend s.ctl.mctp.version 0x02 0 0 (layout [(2, d.length), (2, all.length - off - d.length)] ++ d) s

/-- GET_CERTIFICATE (R525). -/
def execGetCertificate (slot off len : Nat) (s : State) : Res := onWorld (onBus (spdmRequest 3 (spdmCertificate slot off len))) s

/-- A signature of the device key over a transcript: what it reads as is free. -/
def signature (s : State) : Bytes × State := (let d := s.draw; (beBytes 96 (Config.deviceSign d.1).toNat, d.2))
/-- A nonce of the responder, free. -/
def nonceOf (s : State) : Bytes × State := (let d := s.draw; (leBytes 32 d.1, d.2))

/-- CHALLENGE: chain digest, nonce, no opaque data, signature. -/
def spdmChallenge (slot : Nat) (s : State) : State :=
  if slot != 0 then spdmError 0x01 s
  else
    let n := nonceOf s
    let g := signature n.2
    spdmSend s.ctl.mctp.version 0x03 0 0x01 (chainDigest ++ n.1 ++ layout [(2, 0)] ++ g.1) g.2

/-- CHALLENGE (R525): the requester's nonce goes into the transcript that is signed. -/
def execChallenge (slot : Nat) (_nonce : Bytes) (s : State) : Res := onWorld (onBus (spdmRequest 3 (spdmChallenge slot))) s

/-! ### Measurements (R526) -/

/-- Digest of what the spec names and does not lay out. -/
def measuredDigest (block content : Nat) : Bytes := beBytes 48 (Config.measured block content)

/-- The SHA-384 digest a measurement block carries (R526, R527). -/
def measurement (i : Nat) (s : State) : Bytes :=
  let d := s.ctl.ident
  if i = 1 then beBytes 48 Config.romDigest.toNat
  else if i = 2 then measuredDigest 2 (leNum (d.keyDigests.flatMap (beBytes 48) ++ layout [(1, d.revoked), (1, d.svnFloor)]))
  else if i = 3 then
    if d.failed then zeros 48
    else match d.slotOf d.slot with
      | .factory => measuredDigest 3 0
      | .held img => sha384 (img.take (512 + fld img 16 4))
  else if i = 4 then (if d.failed then zeros 48 else measuredDigest 4 (b2n d.slot + 2 * d.fwVer + 2 ^ 33 * d.svn))
  else if i = 5 then (match s.w.sl.fleetKey with | some k => sha384 (beBytes 48 k.1 ++ beBytes 48 k.2) | none => zeros 48)
  else if i = 6 then sha384 (s.w.ump.drills.flatMap (fun x => sha384 x.img))
  else if i = 7 then measuredDigest 7 (b2n s.w.sl.foulAuth + 2 * b2n s.ctl.health.sentOff + 4 * s.w.sl.authSeq)
  else match s.w.topo.plan with
    | some p => sha384 p.img
    | none => zeros 48

/-- A DMTF measurement block: index, specification, size; value type, size and digest. -/
def measBlock (i : Nat) (s : State) : Bytes :=
  let typ := if i = 1 then 0 else if i = 2 then 2 else if i = 3 then 1 else 3
  layout [(1, i), (1, 1), (2, 51), (1, typ), (2, 48)] ++ measurement i s

/-- GET_MEASUREMENTS: block 0 asks for the count, 0xFF for all; a signature where one is wanted. -/
def spdmMeasurements (index : Nat) (signed : Bool) (s : State) : State :=
  let l := if index = 0xFF then (List.range 8).map (· + 1) else if 1 ≤ index && index ≤ 8 then [index] else []
  if index != 0 && l.isEmpty then spdmError 0x01 s
  else
    let r := l.flatMap (fun i => measBlock i s)
    let n := nonceOf s
    let g := if signed then signature n.2 else ([], n.2)
    spdmSend s.ctl.mctp.version 0x60 (if index = 0 then 8 else 0) 0 (layout [(1, l.length), (3, r.length)] ++ r ++ n.1 ++ layout [(2, 0)] ++ g.1) g.2

/-- GET_MEASUREMENTS (R526). -/
def execGetMeasurements (index : Nat) (signed : Bool) (_nonce : Bytes) (s : State) : Res :=
  onWorld (onBus (spdmRequest 3 (spdmMeasurements index signed))) s

end Sys2Proof.Machine
end

