-- ==== Sys2Proof/Machine/Pri.lean ====
section
/-! DEFINITION. The host's answers to translation and page requests (R298-R300) and what they release or fail (R271, R309,
R314). -/

namespace Sys2Proof.Machine

open Sys2Proof

/-- A Translation Completion (R298): a present page is cached; one that is not present may be asked for (R300). -/
def atsCompletion (j host size phys access : Nat) (present : Bool) (s : State) : State :=
  if !(s.live j && (s.job j).ats) then s
  else
    let ps := (List.range (max (size / 4096) 1)).map (fun i => host / 4096 + i)
    if present then
      s.onW (fun w => { w with
        hostAbsent := w.hostAbsent.filter (fun p => !(decide (host / 4096 ≤ p) && decide (p < host / 4096 + ps.length)))
        mmu := { w.mmu with atc := ({ job := j, host := host, size := size, phys := phys, access := access % 4 } :: w.mmu.atc).take 16384 } })
    else
      let s1 := s.onW (fun w => { w with hostAbsent := ((host / 4096) :: w.hostAbsent).eraseDups })
      let wanted := s.w.mmu.maps.any (fun m => m.job == j && m.demand && decide (m.host ≤ host) && decide (host < m.host + m.len))
      if (s.job j).pri && wanted then pageRequest j (host / 4096) s1 else s1

/-- ATS_TRANSLATION_COMPLETION (R298). -/
def execAtsTranslationCompletion (job host size phys access : Nat) (present : Bool) (s : State) : Res :=
  onWorld (atsCompletion job host size phys access present) s

/-- ATS_INVALIDATION (R299): the cached translations go, the Invalidation Completion is sent. -/
def atsInvalidation (j host size : Nat) (s : State) : State :=
  (s.onW (fun w => { w with mmu := { w.mmu with
    invDone := wrapAdd 32 w.mmu.invDone 1
    atc := w.mmu.atc.filter (fun e => !(e.job == j && decide (e.host < host + size) && decide (host < e.host + e.size))) } })).emit (.ats 3 j host)

def execAtsInvalidation (job host size : Nat) (s : State) : Res := onWorld (atsInvalidation job host size) s

/-! ### What waits for a page -/

/-- Host page of an address of a queue's rings. -/
def ringPage (s : State) (q a : Nat) : Option Nat :=
  if (s.queue q).addrHost then some (a / 4096) else (mapOf s (s.queue q).job a).map (fun m => (m.host + (a - m.dva)) / 4096)
/-- Address of the slot a queue fetches next, and of the one its next reply goes to. -/
def fetchAddr (c : Queue) : Nat := c.cmdBase + 64 * (c.cmdHead % 2 ^ c.cmdLog2)
def replyAddr (c : Queue) : Nat := c.rplBase + 32 * (c.rplTail % 2 ^ c.rplLog2)

/-- Queues of a job whose fetch, or whose oldest reply, waits for a host page. -/
def fetchesOn (s : State) (j page : Nat) : List Nat :=
  (tkeys s.w.queues).filter (fun q => let c := s.queue q; c.fetchParked && c.job == j && ringPage s q (fetchAddr c) == some page)
def repliesOn (s : State) (j page : Nat) : List Nat :=
  (tkeys s.w.queues).filter (fun q => let c := s.queue q; !c.parked.isEmpty && c.job == j && ringPage s q (replyAddr c) == some page)

/-- Send requests for what is parked and has none outstanding, as slots allow (R300). -/
def requestMore (s : State) : State :=
  let s1 := forAll ((List.range 128).filter (fun c => (s.chan c).state = 2 && (s.chan c).kind = 2)) (fun c s =>
    match mapOf s (s.chan c).job (s.chan c).parkAt with
    | some m => pageRequest (s.chan c).job ((m.host + ((s.chan c).parkAt - m.dva)) / 4096) s
    | none => s) s
  let s2 := forAll (s1.w.waits.filter (fun x => !x.ready)) (fun x s => pageRequest x.hdr.job x.page s) s1
  forAll ((tkeys s2.w.queues).filter (fun q => (s2.queue q).fetchParked || !(s2.queue q).parked.isEmpty)) (fun q s =>
    match ringPage s q (if (s.queue q).fetchParked then fetchAddr (s.queue q) else replyAddr (s.queue q)) with
    | some p => pageRequest (s.queue q).job p s
    | none => s) s2

/-- Write the parked replies of a queue again, oldest first (R271). -/
def retryReplies (q : Nat) (s : State) : State :=
  let l := (s.queue q).parked
  forAll l (fun e s => putReply e.1 e.2 s) (s.modQueue q (fun c => { c with parked := [] }))

/-- A page has been made present: streams resume, commands may go on, fetches and replies are tried again. -/
def pageCame (j page : Nat) (s : State) : State :=
  let chans := parkedPage s j page
  let qs := repliesOn s j page
  let fs := fetchesOn s j page
  let s1 := s.onW (fun w => { w with
    hostAbsent := w.hostAbsent.filter (fun p => p != page)
    waits := w.waits.map (fun x => if x.hdr.job = j && x.page = page then { x with ready := true } else x) })
  let s2 := forAll chans (fun c s => if 80 ≤ c && c < 112 then userUnpark c s else resumeStream c s) s1
  let s3 := forAll fs (fun q s => s.modQueue q (fun c => { c with fetchParked := false })) s2
  startWaiting j (ckptFinish j (forAll qs retryReplies s3))

/-- A page cannot be made present (R271, R300, R314): every owner's outcome. -/
def pageLost (j page : Nat) (s : State) : State :=
  let chans := parkedPage s j page
  let qs := repliesOn s j page
  let fs := fetchesOn s j page
  let step := match (s.job j).waiting with
    | e :: _ => (match (copyInputs j e.2 s).1 with
      | some (2, g, a) => if g = page then some a else none
      | _ => none)
    | [] => none
  let report := match ctxOf s j with
    | some c => (match reportMiss j c s with
      | some (2, g, a) => if g = page && c.r.phase == .beats 2 then some (c, a) else none
      | _ => none)
    | none => none
  let ws := s.w.waits.filter (fun x => x.hdr.job = j && x.page = page)
  let s1 := forAll chans (fun c s => if c < 80 then parkFail c s else if c < 96 then userUnpark c s else if 96 ≤ c && c < 112 then ckptFault c j 2 (s.chan c).parkAt s else quarterFail c s) s
  let s2 := forAll ws (fun x s =>
    let s := flt 0x1802 0x03 (if j < 64 then j else 0xFF) 0 (locDma 0xFF 2 x.dva) (s.onW (fun w => { w with waits := w.waits.filter (fun y => y != x) }))
    completeAll (fun r => r.ord == x.ord) 0x40 x.off 0x02 (fun _ => []) s) s1
  let s3 := forAll fs (fun q s => haltQueue q 6 s) s2
  let s4 := forAll qs (fun q s => haltQueue q 7 s) s3
  let s5 := match report with
    | some (c, a) => reportLost j c 2 a s4
    | none => s4
  match step with
  | some a => failWaiting j 0x40 0 0x02 0xFFFF (flt 0x1802 0x03 j 0 (locDma (inputChan s j) 2 a) s5)
  | none => s5

/-- A request of the module's is outstanding; the answer takes its slot back. -/
def takeRequest (j page : Nat) (s : State) : State :=
  s.onW (fun w => { w with mmu := { w.mmu with priOut := w.mmu.priOut.filter (fun e => e != (j, page)) } })

/-- The response to a page request group (R300); one for no outstanding request is ignored. -/
def prgResponse (j host code : Nat) (s : State) : State :=
  let page := host / 4096
  if !s.w.mmu.priOut.contains (j, page) then s
  else
    let s1 := takeRequest j page s
    let s2 := if code = 0 then pageCame j page s1 else pageLost j page s1
    let s3 := if code ≤ 1 then s2 else flt0 0x1804 0x02 (if j < 64 then j else 0xFF) 0 (s2.onW (fun w => { w with mmu := { w.mmu with priStopped := true } }))
    settleDestroy (requestMore s3)

/-- PRG_RESPONSE (R300). -/
def execPrgResponse (job host code : Nat) (s : State) : Res := onWorld (prgResponse job host code) s

/-- No response within pri_timeout_ms (R300, R315). -/
def priTimeout (j host : Nat) (s : State) : State :=
  if !s.w.mmu.priOut.contains (j, host / 4096) then s else settleDestroy (requestMore (pageLost j (host / 4096) (takeRequest j (host / 4096) s)))

/-- PRI_TIMEOUT (R300). -/
def execPriTimeout (job host : Nat) (s : State) : Res := onWorld (priTimeout job host) s

/-- The host rewrites the enable of the PRI capability (R300): Page Requests go out again. -/
def priEnable (en : Bool) (s : State) : State :=
  if en then requestMore (s.onW (fun w => { w with mmu := { w.mmu with priStopped := false } }))
  else s.onW (fun w => { w with mmu := { w.mmu with priStopped := true } })

/-- PRI_CAPABILITY_ENABLE_WRITE (R300). -/
def execPriCapabilityEnableWrite (en : Bool) (s : State) : Res := onWorld (priEnable en) s

end Sys2Proof.Machine
end

