-- ==== Sys2Proof/Machine/Umpire.lean ====
section
/-! DEFINITION. UMPIRE_CONFIG (R390, R394), drill sets (R403, R404), SELFTEST (R405, R558). -/

namespace Sys2Proof.Machine

open Sys2Proof

/-! ### UMPIRE_CONFIG -/

/-- Stage a sampling exponent and, when one is given, a check table (R176, R286, R390). -/
def stageUmpire (j k : Nat) (tab : Option Bytes) (s : State) : Cmd :=
  let b := s.job j
  let same := k = b.stK.getD b.k && (match tab with
    | some t => t == b.stChk.getD b.chk
    | none => true)
  if same then noteC s 1
  else okC (s.modJob j (fun b => { b with stK := some k, stChk := match tab with
    | some t => some t
    | none => b.stChk }))

/-- UMPIRE_CONFIG's own part. -/
def umpireConfigOwn (h : Hdr) (k table : Nat) (s : State) : Cmd :=
  if 10 < k then badC s 16
  else if table = 0 then stageUmpire h.job k none s
  else withRead s h.job table 16 24 (fun hd =>
    let n := if fld hd 2 2 ≤ 1024 then chkTableLen hd else 16
    withRead s h.job table n 24 (fun bs => checkRec s (chkChecks bs 0) (stageUmpire h.job k (some bs) s)))

def runUmpireConfig (h : Hdr) (k table : Nat) : State → State := startCmd (.umpireConfig h k table) 0x0601 h (umpireConfigOwn h k table)

/-- UMPIRE_CONFIG (R390). -/
def execUmpireConfig (h : Hdr) (k table : Nat) (s : State) : Res := onWorld (runUmpireConfig h k table) s

/-! ### Drill images -/

/-- Length of a pattern record (R403). -/
def patternLen (p : Bytes) : Nat := 32 + fld p 12 4 + (if bit (fld p 4 4) 0 then 2048 else 1024)

/-- Walk the pattern records: their checks, and where they end. -/
def patternChecks : Nat → Nat → Bytes → List (Nat × Bool) × Nat
  | 0, off, _ => ([], off)
  | n + 1, off, img =>
    let p := img.drop off
    let own := [(off, fmtKnown (fld p 0 1)), (off + 1, fmtKnown (fld p 1 1)), (off + 12, decide (fld p 12 4 ≤ 65536))]
    if 65536 < fld p 12 4 then (own, off) else (let r := patternChecks n (off + patternLen p) img; (own ++ r.1, r.2))

/-- Check 1 of R404. -/
def drillChecks (img : Bytes) : List (List (Nat × Bool)) :=
  let n := fld img 12 2
  let w := patternChecks (if n ≤ 4096 then n else 0) 128 img
  [[(0, fld img 0 4 == 0x4C4C5244), (4, fld img 4 2 == 1), (6, 1 ≤ fld img 6 1), (8, fld img 8 4 == img.length && decide (img.length ≤ 16777216) && decide (128 ≤ img.length)),
    (12, decide (1 ≤ n) && decide (n ≤ 4096))], w.1 ++ [(16, decide (w.2 ≤ fld img 16 4) && decide (fld img 16 4 ≤ img.length))]]

/-- Drill store: 64 MiB, 16 sets (R404). -/
def drillRoom (s : State) (img : Bytes) : Bool :=
  let l := s.w.ump.drills.filter (fun d => d.num != fld img 6 1)
  decide (l.length < 16) && decide (sumNat (l.map (fun d => d.img.length)) + img.length ≤ 67108864)

/-- A drill image arrives, by DRILL_LOAD or over the sideline (R404, R533): status and detail. -/
def drillStore (img : Bytes) (s : State) : Nat × Nat × State :=
  match firstFail (drillChecks img) with
  | some o => (0x11, 2 ^ 31 + o, s)
  | none =>
    if Config.drillSigned (leNum (sha256 img)) % 2 = 0 then (0xA0, 0, s)
    else if !drillRoom s img then (0x20, 0, s)
    else
      let n := fld img 6 1
      (0x00, 0, s.onW (fun w => { w with ump := { w.ump with
        drills := sortBy (fun d => d.num) ({ num := n, img := img } :: w.ump.drills.filter (fun d => d.num != n)) } }))

/-- DRILL_LOAD's own part (R284, R404). -/
def drillLoadOwn (h : Hdr) (addr len : Nat) (s : State) : Cmd :=
  if 16777216 < len then badRec s 8
  else withRead s h.job addr len 16 (fun img =>
    match drillStore img s with
    | (0x00, _, s1) => okC s1 [BitVec.ofNat 8 (fld img 6 1)]
    | (st, d, _) => failC s st d)

def runDrillLoad (h : Hdr) (addr len : Nat) : State → State := startCmd (.drillLoad h addr len) 0x0604 h (drillLoadOwn h addr len)

/-- DRILL_LOAD (R404). -/
def execDrillLoad (h : Hdr) (addr len : Nat) (s : State) : Res := onWorld (runDrillLoad h addr len) s

/-! ### SELFTEST -/

/-- A job with a current set holds the array and is not pre-empted (R405). -/
def arrayHeld (s : State) : Bool :=
  match s.w.holder with
  | some j => (s.job j).cur.isSome && (s.job j).pstate != 2
  | none => false

/-- SELFTEST's own part (R284, R405). -/
def selftestOwn (scope set : Nat) (s : State) : Cmd :=
  if 2 < scope then badC s 16
  else if set != 0 && !s.w.ump.drills.any (fun d => d.num == set) then badC s 17
  else if scope = 0 && arrayHeld s then failC s 0x30
  else .later s scope set

def runSelftest (h : Hdr) (scope set : Nat) : State → State := startCmd (.selftest h scope set) 0x0603 h (selftestOwn scope set)

/-- SELFTEST (R405). -/
def execSelftest (h : Hdr) (scope set : Nat) (s : State) : Res := onWorld (runSelftest h scope set) s

/-- A cell that a self-test of a scope runs on (R405). -/
def testedCell (s : State) (scope k : Nat) : Bool :=
  let c := s.cell k
  decide (k < 576) && !c.retired &&
    (scope = 0 || (scope = 1 && (if s.w.holder.isNone then c.state = 1 else c.state = 2 && !c.excluded)))

/-- The oldest self-test ends with what failed (R405). -/
def selftestDone (cells links : List Nat) (hot : Bool) (s : State) : State :=
  match s.w.inflight.find? (fun r => r.op = 0x0603) with
  | none => s
  | some r =>
    let bad := (cells.eraseDups).filter (testedCell s r.a)
    let low := if r.a = 2 then (links.eraseDups).filter (fun l => decide (l < 24) && ((s.link l).state = 2 || (s.link l).state = 3)) else []
    let s1 := forAll bad (fun k s => retireCell k (flt 0x250A 0x05 0xFF 0 (locCell k) s)) s
    let s2 := forAll low (fun l s => flt 0x250B (0x30 + l) 0xFF 0 (locLink l (s.link l).port (s.link l).peerNode 0) s) s1
    let s3 := if r.a = 0 && !hot then flt0 0x250C 0x05 0xFF 0 s2 else s2
    complete r 0 0 0xFF (leBytes 4 (bad.length + low.length)) s3

/-- SELFTEST_COMPLETE (R405). -/
def execSelftestComplete (cells links : List Nat) (hot : Bool) (s : State) : Res := onWorld (fabric (.selftestComplete cells links hot) (selftestDone cells links hot)) s

end Sys2Proof.Machine
end

