-- ==== Sys2Proof/Machine/Queue.lean ====
section
/-! DEFINITION. QUEUE_FETCH: the arbiter grants one turn (R269, R270), packets are read (R271, R272), and fetched packets
start in the order of R275 under their fence flags (R273). -/

namespace Sys2Proof.Machine

open Sys2Proof

/-! ### Starting what a packet holds -/

/-- Start the command of a packet; a row that comes in no packet does not start here. Only six commands change more than the world. -/
def startEnrel (c : Instr) (s : State) : State :=
  match c with
  | .nop h => worldOnly (runNop h) s
  | .fence h scope => worldOnly (runFence h scope) s
  | .jobCreate h job pasid flags => runJobCreate h job pasid flags s
  | .jobDestroy h => runJobDestroy h s
  | .jobPreempt h => worldOnly (runJobPreempt h) s
  | .jobResume h => worldOnly (runJobResume h) s
  | .memMap h dva len host page access demand => worldOnly (runMemMap h dva len host page access demand) s
  | .memUnmap h dva len => worldOnly (runMemUnmap h dva len) s
  | .dmaCopy h src dst len srcH dstH => worldOnly (runDmaCopy h src dst len srcH dstH) s
  | .tensorDeclare h addr => worldOnly (runTensorDeclare h addr) s
  | .placeSet h addr => worldOnly (runPlaceSet h addr) s
  | .placementReport h buf len which => worldOnly (runPlacementReport h buf len which) s
  | .setLoad h addr len => worldOnly (runSetLoad h addr len) s
  | .stepRun h step seed list entries flags report => worldOnly (runStepRun h step seed list entries flags report) s
  | .stepAbort h => worldOnly (runStepAbort h) s
  | .modePrepare h epoch => worldOnly (runModePrepare h epoch) s
  | .modeCommit h epoch step => worldOnly (runModeCommit h epoch step) s
  | .collCompress h tensor mode k block => worldOnly (runCollCompress h tensor mode k block) s
  | .collRun h addr => worldOnly (collGo h addr) s
  | .ckptWrite h addr gen => worldOnly (runCkpt (.ckptWrite h addr gen) h addr gen) s
  | .ckptCommitNotice h addr gen => worldOnly (runCkpt (.ckptCommitNotice h addr gen) h addr gen) s
  | .ckptRestore h addr gen => worldOnly (runCkptRestore h addr gen) s
  | .mirrorBind h node role => worldOnly (runMirrorBind h node role) s
  | .benchCall h failed partner => worldOnly (runBenchCall h failed partner) s
  | .huddle h reason boundary => worldOnly (runHuddle h reason boundary) s
  | .umpireConfig h k table => worldOnly (runUmpireConfig h k table) s
  | .letReplay h step => worldOnly (runLetReplay h step) s
  | .selftest h scope set => worldOnly (runSelftest h scope set) s
  | .drillLoad h addr len => worldOnly (runDrillLoad h addr len) s
  | .linkDiscover h mask => worldOnly (runLinkDiscover h mask) s
  | .topologyPlan h addr len => masterSync (runTopologyPlan h addr len s)
  | .foulArm h mask action rate ms => worldOnly (runFoulArm h mask action rate ms) s
  | .healthRead h buf len what => worldOnly (runHealthRead h buf len what) s
  | .powerSet h cap state => runPowerSet h cap state s
  | .resetModule h kind => runResetModule h kind s
  | .reinstate h addr len => runReinstate h addr len s
  | .diagSnapshot h buf len unit => worldOnly (runDiagSnapshot h buf len unit) s
  | .diagTrace h unit on buf len => worldOnly (runDiagTrace h unit on buf len) s
  | _ => s

/-- A packet with an opcode that is not known: checks 1 and 2 of R280. -/
def startUnknown (h : Hdr) (op : Nat) (s0 : State) : State :=
  let ord := s0.w.ordNext
  let s := (s0.modQueue h.q (fun c => { c with inflight := c.inflight + 1 })).onW (fun w => { w with ordNext := ord + 1 })
  complete { hdr := h, op := op, ord := ord } (if s.ctl.health.sentOff then 0x90 else 0x10) 0 0xFF [] s

/-- Start a fetched packet. -/
def startPkt (p : Pkt) (s : State) : State := match p.cmd with | some c => startEnrel c s | none => startUnknown p.hdr p.op s

/-! ### When a fetched packet may start (R273, R275) -/

/-- Commands that change job state (R279, issue S). -/
def opState (op : Nat) : Bool :=
  [0x0101, 0x0102, 0x0103, 0x0104, 0x0201, 0x0202, 0x0204, 0x0205, 0x0301, 0x0302, 0x0304, 0x0305, 0x0401, 0x0402, 0x0501, 0x0502,
   0x0503, 0x0504, 0x0505, 0x0601, 0x0602].contains op

/-- An inline command of the queue has not been replied to. -/
def inlineHeld (s : State) (q : Nat) : Bool :=
  s.w.inflight.any (fun r => r.hdr.q = q && !opAsync r.op) || (s.queue q).parked.any (fun e => !opAsync (fld e.2 4 2))

/-- Whether the packet at the front of queue `q` may start. -/
def pktMayStart (s : State) (q : Nat) (p : Pkt) : Bool :=
  !inlineHeld s q &&
  !(p.hdr.fence && (s.w.inflight.any (fun r => r.hdr.q = q) || !(s.queue q).parked.isEmpty)) &&
  !(p.hdr.jobFence && s.w.inflight.any (fun r => r.hdr.job = p.hdr.job)) &&
  !(opState p.op && s.w.waits.any (fun x => opState x.op && x.hdr.job = p.hdr.job))

/-- The packet to start next: of those at the front of a queue that may start, the one fetched first. -/
def nextStart (s : State) : Option (Nat × Pkt) :=
  s.w.queues.foldl (fun b e => match e.2.fetched with
    | p :: _ => if pktMayStart s e.1 p && (match b with | some y => decide (p.ord < y.2.ord) | none => true) then some (e.1, p) else b
    | [] => b) none

/-- A waiting command goes on: its page has come, or the checkpoint engine is free for it. -/
def waitReady (s : State) (x : Wait) : Bool :=
  if x.page = noPage then !(s.w.ck.state = 1 || s.w.ck.state = 3) || s.w.ck.job = x.hdr.job else x.ready

/-- Start a waiting command again, in its old place in the order. -/
def restart (x : Wait) (s : State) : State :=
  let old := s.w.ordNext
  let s1 := (s.modQueue x.hdr.q (fun c => { c with inflight := c.inflight - 1 })).onW (fun w => { w with
    waits := w.waits.filter (fun y => y.ord != x.ord), inflight := w.inflight.filter (fun r => r.ord != x.ord), ordNext := x.ord })
  (startEnrel x.cmd s1).onW (fun w => { w with ordNext := old })

/-- Start the fetched packets that nothing holds, oldest first. -/
def startAll : Nat → State → State
  | 0, s => s
  | n + 1, s => match nextStart s with
    | some (q, p) => startAll n (startPkt p (s.modQueue q (fun c => { c with fetched := c.fetched.drop 1 })))
    | none => s

/-! ### The arbiter (R269, R270) -/

/-- Packets that can be fetched from a queue: unfetched ones, up to its free reply slots. -/
def canFetch (s : State) (q : Nat) : Nat :=
  let c := s.queue q
  if c.state != 1 || c.fetchParked then 0
  else min ((c.cmdTail + 65536 - c.cmdHead) % 65536) (2 ^ c.rplLog2 - ((c.rplTail + 65536 - c.rplHead) % 65536 + c.inflight + c.fetched.length))

/-- Read a packet of a queue; false: the queue parked or halted (R271). -/
def fetchOne (q : Nat) (s : State) : Bool × State :=
  let c := s.queue q
  match ringRead q (fetchAddr c) 64 s with
  | .ok bs =>
    let ord := s.w.ordNext
    let p : Pkt := { hdr := packetHdr q bs, op := fld bs 0 2, cmd := decodePacket q bs, ord := ord }
    (true, (s.modQueue q (fun c => { c with cmdHead := wrapAdd 16 c.cmdHead 1, fetched := c.fetched ++ [p] })).onW (fun w => { w with ordNext := ord + 1 }))
  | .fault k page a =>
    let s1 := notePark 0xFF (queueJob s q) k a s
    (false, if k = 2 then pageRequest c.job page (s1.modQueue q (fun c => { c with fetchParked := true })) else haltQueue q 6 s1)
  | .poison => (false, haltQueue q 6 s)

/-- Read up to `n` packets of a queue: how many, and the state. -/
def fetchMany (q : Nat) : Nat → State → Nat × State
  | 0, s => (0, s)
  | n + 1, s => match fetchOne q s with
    | (true, s1) => (let r := fetchMany q n s1; (r.1 + 1, r.2))
    | (false, s1) => (0, s1)

/-- Weight of a class. -/
def weightOf (s : State) (cls : Nat) : Nat :=
  if cls = 0 then s.cfg.w0 else if cls = 1 then s.cfg.w1 else if cls = 2 then s.cfg.w2 else s.cfg.w3

/-- The ready queue of a class whose turn it is: the next above the last served, else the lowest. -/
def turnOf (s : State) (cls : Nat) : Option Nat :=
  let l := (tkeys s.w.queues).filter (fun q => q != 0 && (s.queue q).cls = cls && canFetch s q != 0)
  match l.find? (fun q => decide (tget 0 s.w.qarb.last cls < q)) with
  | some q => some q
  | none => l.head?

/-- The next turn: class, credit and queue. A class with no ready queue gives what it has left to the next one of the round. -/
def arbitrate (s : State) : Nat → Nat → Nat → Option (Nat × Nat × Nat)
  | 0, _, _ => none
  | n + 1, cls, credit =>
    match (if credit = 0 then none else turnOf s cls) with
    | some q => some (cls, credit, q)
    | none =>
      let c1 := (cls + 1) % 4
      arbitrate s n c1 (weightOf s c1 + (if c1 = 0 then 0 else credit))

/-- One turn of the arbiter. -/
def grant (s : State) : State :=
  if canFetch s 0 != 0 then (fetchMany 0 (min 8 (canFetch s 0)) s).2
  else match arbitrate s 8 s.w.qarb.cls s.w.qarb.credit with
    | none => s
    | some (cls, credit, q) =>
      let r := fetchMany q (min 8 (min credit (canFetch s q))) s
      r.2.onW (fun w => { w with qarb := { w.qarb with cls := cls, credit := credit - r.1, last := tput 0 w.qarb.last cls q } })

/-- A turn of fetching, then every start it allows. A queue controller that firmware has disabled fetches nothing more and
finishes the packets it holds (R63). -/
def queueFetch (s : State) : State :=
  let s1 := if s.unitOn 0x01 then worldOnly grant s else s
  let s2 := forAll (s1.w.waits.filter (waitReady s1)) (fun x s => if s.w.waits.any (fun y => y.ord == x.ord) then restart x s else s) s1
  worldOnly settleDestroy (startAll (sumNat (s2.w.queues.map (fun e => e.2.fetched.length))) s2)

/-- QUEUE_FETCH (R269). -/
def execQueueFetch (s : State) : Res := onCore (through xHost .queueFetch queueFetch) s

end Sys2Proof.Machine
end

