-- ==== Sys2Proof/Machine/Registers.lean ====
section
/-! DEFINITION. Writes to registers: the blocks of BAR0 (R65), each register's fields with their ranges (R564), the parts of
a register that a narrower write leaves alone, and the units whose windows take nothing while they are disabled (R64). -/

namespace Sys2Proof.Machine

open Sys2Proof

/-! ### A write as its two words -/

/-- A write seen in its 8 B slot: the words written at the slot and 4 B above it; none: not written. -/
structure Wr where
  lo : Option Nat
  hi : Option Nat
  deriving DecidableEq, Repr

/-- The write of `width` bytes at `off` in its slot. -/
def wrOf (off width v : Nat) : Wr :=
  if width = 8 then ⟨some (v % 2 ^ 32), some (v / 2 ^ 32 % 2 ^ 32)⟩
  else if off % 8 = 0 then ⟨some (v % 2 ^ 32), none⟩
  else ⟨none, some (v % 2 ^ 32)⟩

/-- What a register of 64 bits would hold after the write, over its value now. -/
def Wr.onto (w : Wr) (now : Nat) : Nat := w.lo.getD (now % 2 ^ 32) + 2 ^ 32 * w.hi.getD (now / 2 ^ 32)

/-- Act on the low word, the high word, or the whole register, where the write reaches it. -/
def Wr.onLo (w : Wr) (f : Nat → State → State) (s : State) : State := match w.lo with | some v => f v s | none => s
def Wr.onHi (w : Wr) (f : Nat → State → State) (s : State) : State := match w.hi with | some v => f v s | none => s
def Wr.on64 (w : Wr) (now : Nat) (f : Nat → State → State) (s : State) : State := f (w.onto now) s

/-- Change the settings. -/
def State.modCfg (s : State) (f : Cfg → Cfg) : State := { s with cfg := f s.cfg }

/-! ### Blocks without a unit -/

/-- HEALTH (R464). -/
def healthReg (o : Nat) (w : Wr) (s : State) : State :=
  if o = 0x008 then w.onLo (fun v s => s.modCfg (fun c => { c with
    escLimit := pick 1 15 (bits v 7 0) c.escLimit, escWindowS := pick 60 65535 (bits v 31 16) c.escWindowS })) s
  else if 0x100 ≤ o && o < 0x300 then
    let j := (o - 0x100) / 8
    w.onLo (fun v s =>
      let s1 := s.modCfg (fun c => { c with qwdBudget := tput 5000 c.qwdBudget j (pick 1000 600000 (bits v 19 0) (tget 5000 c.qwdBudget j)) })
      if bit v 20 then s1.modHealth (fun h => { h with tripped := tput false h.tripped j false }) else s1) s
  else s

/-- POWER (R513). Core voltage stands at or below its target (R500). -/
def powerReg (o : Nat) (w : Wr) (s : State) : State :=
  if o = 0x000 then w.onLo (fun v s => s.modPower (fun p => { p with capW := pick 900 1200 (bits v 15 0) p.capW })) s
  else if o = 0x008 then w.onLo (fun v s =>
    let s1 := s.modCfg (fun c => { c with targetMv := pick 600 850 (bits v 11 0) c.targetMv })
    s1.modPower (fun p => { p with nowMv := min p.nowMv s1.cfg.targetMv })) s
  else if o = 0x020 then w.onLo (fun v s => s.modCfg (fun c => { c with tjLimitC := pick 85 103 (bits v 7 0) c.tjLimitC })) s
  else if o = 0x030 then w.onLo (fun v s => s.modCfg (fun c => { c with wakeBench := bit v 0 })) s
  else s

/-- CLOCKREF (R52). -/
def clockReg (o : Nat) (w : Wr) (s : State) : State :=
  if o = 0x000 then w.onLo (fun v s => s.modCfg (fun c => { c with settleUs := pick 1000 500000 (bits v 19 0) c.settleUs })) s
  else if o = 0x008 then w.onLo (fun v s => if bit v 1 then s.modClk (fun c => { c with lost := false }) else s) s
  else if o = 0x010 then w.on64 s.ctl.clk.ns (fun v s => s.modClk (fun c => { c with ns := v })) s
  else s

/-- UNIT_EN and EVENT: UNIT_EN is firmware's (R62); the event ring (R288, R289). -/
def eventReg (o : Nat) (w : Wr) (s : State) : State :=
  let ev (s : State) (f : Ev → Ev) : State := s.onW (fun x => { x with ev := f x.ev })
  if o = 0x100 then w.on64 s.w.ev.base (fun v s => if s.w.ev.en then s else ev s (fun e => { e with base := v })) s
  else if o = 0x108 then w.onLo (fun v => worldOnly (writeEvCfg v)) s
  else if o = 0x110 then w.onLo (fun v s => s.modCfg (fun c => { c with evMask := v })) s
  else if o = 0x118 then w.onLo (fun v s => ev s (fun e => { e with head := bits v 31 16 })) s
  else s

/-- FAULTLOG: the log's window, retirement, the injector (R489, R494, R497). -/
def faultReg (o : Nat) (w : Wr) (s : State) : State :=
  let ret (s : State) (f : Ret → Ret) : State := s.onW (fun x => { x with ret := f x.ret })
  let err (s : State) (f : Err → Err) : State := s.onW (fun x => { x with err := f x.err })
  if o = 0x008 then w.onLo (fun v s => s.modCfg (fun c => { c with flogBase := v })) s
  else if o = 0x010 then w.onLo (fun v s => s.modCfg (fun c => { c with sideSev := pick 1 3 (bits v 1 0) c.sideSev })) s
  else if o = 0x200 then
    w.onHi (fun v s => ret s (fun r => { r with index := v }))
      (w.onLo (fun v s => ret s (fun r => { r with tier := pick 1 3 (bits v 1 0) r.tier, bank := bit v 2, place := bits v 31 16 })) s)
  else if o = 0x208 then w.onLo (fun v s =>
    let s1 := if bit v 0 then worldOnly retAdd s else s
    if bit v 1 then worldOnly retClear s1 else s1) s
  else if o = 0x300 then
    w.onHi (fun v s => err s (fun e => { e with handleOrWord := v }))
      (w.onLo (fun v s => err s (fun e => { e with
        target := pick 1 3 (bits v 2 0) e.target, mode := pick 1 3 (bits v 4 3) e.mode, job := bits v 13 8, c := bits v 23 16, die := bits v 25 24 })) s)
  else if o = 0x308 then w.on64 s.w.err.offset (fun v s => err s (fun e => { e with offset := v })) s
  else if o = 0x310 then w.on64 (s.w.err.mask % 2 ^ 64) (fun v s => err s (fun e => { e with mask := v + 2 ^ 64 * (e.mask / 2 ^ 64) })) s
  else if o = 0x318 then w.on64 (s.w.err.mask / 2 ^ 64) (fun v s => err s (fun e => { e with mask := e.mask % 2 ^ 64 + 2 ^ 64 * v })) s
  else if o = 0x320 then w.onLo (fun v s => err s (fun e => { e with pat := bits v 7 0 })) s
  else if o = 0x328 then w.on64 s.w.err.check (fun v s => err s (fun e => { e with check := v })) s
  else if o = 0x330 then w.onLo (fun v s => if bit v 0 then worldOnly errArm s else s) s
  else s

/-- TOPO (R357). -/
def topoReg (o : Nat) (w : Wr) (s : State) : State :=
  if o = 0x008 then w.onLo (fun v s => s.modCfg (fun c => { c with
    lostMs := pick 5 40 (bits v 15 0) c.lostMs, deadUs := pick 20 1000 (bits v 31 16) c.deadUs })) s
  else if 0x100 ≤ o && o < 0x160 then w.onHi (fun v s => worldOnly (detourWrite ((o - 0x100) / 8) (2 ^ 32 * v)) s) s
  else s

/-- The MSI-X table (R291): unmasking an entry whose vector is pending fires it (layout PRESUMED, log 9). -/
def msixReg (o : Nat) (w : Wr) (s : State) : State :=
  let v := o / 16
  let set (s : State) (f : Msix → Msix) : State := s.onW (fun x => { x with msix := tmod {} x.msix v f })
  if o % 16 = 0 then w.on64 (tget {} s.w.msix v).addr (fun a s => set s (fun e => { e with addr := a })) s
  else
    w.onHi (fun m s =>
      let s1 := set s (fun e => { e with masked := bit m 0 })
      if !bit m 0 && (tget {} s1.w.msix v).pending then fireVector v (set s1 (fun e => { e with pending := false })) else s1)
      (w.onLo (fun d s => set s (fun e => { e with data := d })) s)

/-! ### Blocks of units -/

/-- MMU (R303). -/
def mmuReg (o : Nat) (w : Wr) (s : State) : State :=
  let ap (a : Nat) (s : State) (f : Ap → Ap) : State := s.onW (fun x => { x with mmu := { x.mmu with ap := tmod {} x.mmu.ap a f } })
  if o = 0x000 then w.onLo (fun v s => s.modCfg (fun c => { c with priTimeoutMs := pick 10 60000 (bits v 15 0) c.priTimeoutMs })) s
  else if 0x100 ≤ o && o < 0x200 then
    let a := (o - 0x100) / 16
    if o % 16 = 0 then
      w.onHi (fun v s => ap a s (fun x => { x with job := bits v 5 0, en := bit v 6 })) (w.onLo (fun v s => ap a s (fun x => { x with handle := v })) s)
    else w.on64 (tget {} s.w.mmu.ap a).offset (fun v s => ap a s (fun x => { x with offset := v / 4096 * 4096 })) s
  else if 0x1000 ≤ o && o < 0x2000 && o % 64 = 8 then
    let j := (o - 0x1000) / 64
    w.on64 (s.job j).saveDva (fun v s => if (s.job j).pstate = 0 && v % 65536 = 0 then s.modJob j (fun b => { b with saveDva := v }) else s) s
  else s

/-- The value of QC_CFG (R264). -/
def cfgValue (c : Queue) : Nat :=
  c.cmdLog2 + 2 ^ 4 * c.rplLog2 + 2 ^ 8 * c.cls + 2 ^ 16 * c.job + 2 ^ 22 * b2n c.addrHost + 2 ^ 24 * b2n c.en + 2 ^ 32 * c.vector +
    2 ^ 48 * c.coalCount + 2 ^ 56 * c.coalUs

/-- QCTX (R264). -/
def qctxReg (o : Nat) (w : Wr) (s : State) : State :=
  let q := o / 64
  let c := s.queue q
  if o % 64 = 0x00 then w.on64 c.cmdBase (fun v s => if c.state = 0 then s.setQueue q { c with cmdBase := v } else s) s
  else if o % 64 = 0x08 then w.on64 c.rplBase (fun v s => if c.state = 0 then s.setQueue q { c with rplBase := v } else s) s
  else if o % 64 = 0x10 then w.on64 (cfgValue c) (fun v => worldOnly (writeQcCfg q v)) s
  else s

/-- QARB (R269). -/
def qarbReg (o : Nat) (w : Wr) (s : State) : State :=
  if o = 0 then w.onLo (fun v s => s.modCfg (fun c => { c with
    w0 := pick 1 255 (bits v 7 0) c.w0, w1 := pick 1 255 (bits v 15 8) c.w1, w2 := pick 1 255 (bits v 23 16) c.w2, w3 := pick 1 255 (bits v 31 24) c.w3 })) s
  else s

/-- STACK of stack `st` (R230); the thresholds stand or fall together (R225). -/
def stackReg (st o : Nat) (w : Wr) (s : State) : State :=
  let set (s : State) (f : StkCfg → StkCfg) : State := s.modCfg (fun c => { c with stk := tmod {} c.stk st f })
  if o = 0x00 then w.onLo (fun v s => set s (fun c => { c with keepWays := bits v 3 0, laneThr := pick 1 255 (bits v 15 8) c.laneThr })) s
  else if o = 0x10 then w.onLo (fun v s =>
    let a := bits v 7 0
    let b := bits v 15 8
    let d := bits v 23 16
    if 60 ≤ a && a < b && b < d && d ≤ 104 then set s (fun c => { c with warmC := a, hotC := b, critC := d }) else s) s
  else if o = 0x30 then w.onLo (fun v => worldOnly (fun s => serveWaiting (retrainWrite st v s))) s
  else s

/-- LINK of link `l` (R356). -/
def linkReg (l o : Nat) (w : Wr) (s : State) : State :=
  if o = 0x008 then
    w.onHi (fun v s => if bit v 0 then worldOnly (lkRetrain l) s else s)
      (w.onLo (fun v s => s.modCfg (fun c => { c with lk := tmod {} c.lk l (fun k => { k with
        retryThr := pick 1 65535 (bits v 15 0) k.retryThr, trainFail := pick 1 15 (bits v 19 16) k.trainFail }) })) s)
  else s

/-- REEL (R385). -/
def reelReg (o : Nat) (w : Wr) (s : State) : State :=
  if o = 0 then w.onLo (fun v s => s.modCfg (fun c => { c with
    huddleMs := pick 50 5000 (bits v 15 0) c.huddleMs, slowMs := pick 1 10000 (bits v 31 16) c.slowMs })) s
  else s

/-- ARRAY of die `d` (R40) and the engines of its stacks (R260). -/
def arrayReg (d o : Nat) (w : Wr) (s : State) : State :=
  let set (s : State) (f : DieCfg → DieCfg) : State := s.modCfg (fun c => { c with die := tmod {} c.die d f })
  let cell (k v : Nat) (s : State) : State := if bit v 16 || bit v 17 then s.modCell k (fun c => { c with
      belowFloor := c.belowFloor && !bit v 16, drift := c.drift && !bit v 17 }) else s
  if o = 0x100 then
    w.onHi (fun v s => set s (fun c => { c with windowUs := pick 100 10000 (bits v 15 0) c.windowUs }))
      (w.onLo (fun v s => set s (fun c => { c with run := bit v 0, driftEn := bit v 1, floorEn := bit v 2 })) s)
  else if o = 0x108 then w.onLo (fun v s => set s (fun c => { c with
    driftTenths := pick 5 200 (bits v 7 0) c.driftTenths, persist := pick 1 255 (bits v 15 8) c.persist })) s
  else if 0x400 ≤ o && o < 0x640 then
    let k := 144 * d + (o - 0x400) / 4
    w.onHi (cell (k + 1)) (w.onLo (cell k) s)
  else if o = 0x2000 || o = 0x2100 || o = 0x2200 then
    let st := 3 * d + (o - 0x2000) / 0x100
    w.onLo (fun v s => s.modCfg (fun c => { c with seWarn := tput 75 c.seWarn st (pick 50 95 (bits v 7 0) (tget 75 c.seWarn st)) })) s
  else s

/-- UMPIRE (R416). -/
def umpireReg (o : Nat) (w : Wr) (s : State) : State :=
  if o = 0 then w.onLo (fun v s => s.modCfg (fun c => { c with rotPeriod := pick 8 4096 (bits v 15 0) c.rotPeriod, depth := pick 2 8 (bits v 19 16) c.depth })) s
  else s

/-- CKPT (R454). -/
def ckptReg (o : Nat) (w : Wr) (s : State) : State :=
  if o = 0x40 then w.onLo (fun v s => s.modCfg (fun c => { c with
    ckCeThr := pick 1 65535 (bits v 15 0) c.ckCeThr, ckWindowMin := pick 1 60 (bits v 23 16) c.ckWindowMin
    ckTjMarginC := pick 1 20 (bits v 31 24) c.ckTjMarginC })) s
  else s

/-- MIRROR (R455): `bench` is written only while no job holds the array. -/
def mirrorReg (o : Nat) (w : Wr) (s : State) : State :=
  if o = 0 then w.onLo (fun v s =>
    let s1 := s.modCfg (fun c => { c with mrWarn := pick 50 95 (bits v 7 0) c.mrWarn, mrPendGib := pick 4 64 (bits v 15 8) c.mrPendGib })
    if s1.w.holder.isNone then s1.onW (fun x => { x with mr := { x.mr with bench := bit v 16 } }) else s1) s
  else s

/-! ### The map of BAR0 (R65) -/

/-- The unit whose window holds an offset. -/
def windowUnit (off : Nat) : Option Nat :=
  if off < 0x20000 then none
  else if off < 0x40000 then some 0x0A
  else if off < 0x80000 then some 0x02
  else if off < 0x100000 then some 0x03
  else if off < 0x200000 then some 0x01
  else if off < 0x2C0000 then some (0x10 + (off - 0x200000) / 0x10000)
  else if 0x300000 ≤ off && off < 0x380000 then some (0x20 + (off - 0x300000) / 0x20000)
  else if 0x380000 ≤ off && off < 0x400000 then some 0x28
  else if 0x400000 ≤ off && off < 0x460000 then some (0x30 + (off - 0x400000) / 0x4000)
  else if 0x480000 ≤ off && off < 0x500000 then some 0x06
  else if 0x500000 ≤ off && off < 0x600000 then some (0x50 + (off - 0x500000) / 0x40000)
  else if 0x900000 ≤ off && off < 0xA00000 then some 0x05
  else if 0xA00000 ≤ off && off < 0xA80000 then some 0x07
  else if 0xA80000 ≤ off && off < 0xB00000 then some 0x08
  else if 0xB00000 ≤ off && off < 0xC00000 then some 0x09
  else none

/-- The write reaches the register at `off`, a multiple of 8; an offset with no writable field takes nothing (R11). -/
def slotWrite (off : Nat) (w : Wr) (s : State) : State :=
  if 0x1000 ≤ off && off < 0x2000 then healthReg (off - 0x1000) w s
  else if 0x2000 ≤ off && off < 0x3000 then powerReg (off - 0x2000) w s
  else if 0x3000 ≤ off && off < 0x4000 then clockReg (off - 0x3000) w s
  else if 0x4000 ≤ off && off < 0x5000 then eventReg (off - 0x4000) w s
  else if 0x10000 ≤ off && off < 0x20000 then faultReg (off - 0x10000) w s
  else if 0x40000 ≤ off && off < 0x80000 then mmuReg (off - 0x40000) w s
  else if 0x100000 ≤ off && off < 0x180000 then qctxReg (off - 0x100000) w s
  else if 0x180000 ≤ off && off < 0x200000 then qarbReg (off - 0x180000) w s
  else if 0x200000 ≤ off && off < 0x2C0000 then stackReg ((off - 0x200000) / 0x10000) (off % 0x10000) w s
  else if 0x400000 ≤ off && off < 0x460000 then linkReg ((off - 0x400000) / 0x4000) (off % 0x4000) w s
  else if 0x460000 ≤ off && off < 0x480000 then topoReg (off - 0x460000) w s
  else if 0x480000 ≤ off && off < 0x500000 then reelReg (off - 0x480000) w s
  else if 0x500000 ≤ off && off < 0x600000 then arrayReg ((off - 0x500000) / 0x40000) (off % 0x40000) w s
  else if 0x900000 ≤ off && off < 0xA00000 then umpireReg (off - 0x900000) w s
  else if 0xA00000 ≤ off && off < 0xA80000 then ckptReg (off - 0xA00000) w s
  else if 0xA80000 ≤ off && off < 0xB00000 then mirrorReg (off - 0xA80000) w s
  else if 0x1000000 ≤ off && off < 0x1008000 then msixReg (off - 0x1000000) w s
  else s

/-- A write to BAR0 through the unit its window belongs to. -/
def registerWrite (off width v : Nat) (s : State) : State :=
  if !(width = 4 || width = 8) || off % width != 0 then s
  else match windowUnit off with
    | none => slotWrite (off / 8 * 8) (wrOf off width v) s
    | some u => hostWrite u (slotWrite (off / 8 * 8) (wrOf off width v)) s

/-- REGISTER_WRITE (R564). -/
def execRegisterWrite (off width value : Nat) (s : State) : Res := onAll (registerWrite off width value) s

end Sys2Proof.Machine
end

