-- ==== Sys2Proof/Machine/Sideline.lean ====
section
/-! DEFINITION. The sideline: outgoing records and their acknowledgement (R531, R532), incoming transfers (R533, R523), the
authorisation records of every kind (R535-R538), its link and its address (R528, R541). -/

namespace Sys2Proof.Machine

open Sys2Proof

/-! ### Outgoing records -/

/-- POWER and IDENT registers as a heartbeat carries them (R513, R515, R531). -/
def pwIn (s : State) : Nat := s.power.inMv + 2 ^ 16 * s.power.inW + 2 ^ 32 * s.power.energyKj
def pwTj (s : State) : Nat := s.power.hubTenths + 2 ^ 12 * s.power.arrTenths + 2 ^ 24 * s.power.hottest
def idBoot (s : State) : Nat :=
  let d := s.ctl.ident
  b2n d.slot + 2 * b2n d.fallback + 4 * b2n d.failed + 2 ^ 8 * d.svnFloor
def idFw (s : State) : Nat := s.ctl.ident.fwVer + 2 ^ 32 * s.ctl.ident.svn

/-- SL_STATUS as read, and SL_FLEET.key_id: the first 8 B of the SHA-384 of the fleet key (R540). -/
def slStatus (s : State) : Nat :=
  let x := s.w.sl
  b2n x.link + 2 * b2n x.mode + 4 * b2n x.addrOk + 8 * b2n x.collector + 2 ^ 16 * x.held.length
def slKeyId (s : State) : Nat := match s.w.sl.fleetKey with | some k => fld (sha384 (keyBytes k)) 0 8 | none => 0

/-- A second passes: the heartbeat goes out, the collector's last acknowledgement ages, foul time runs down (R531, R539, R540). -/
def heartbeat (s : State) : State :=
  if s.power.phase = .off then s
  else
    let s1 := slOnce 0x01 1 (layout [(8, hlState s), (8, pwIn s), (8, pwTj s), (8, idBoot s), (8, idFw s)]) s
    (s1.onW (fun w => { w with foul := { w.foul with ms := w.foul.ms - 1000 } })).modSl (fun x => { x with
      collector := x.collector && decide (s.now < x.lastAckNs + 5000000000), foulLeftS := if x.foulAuth then x.foulLeftS - 1 else x.foulLeftS })

/-- SIDELINE_HEARTBEAT (R531). -/
def execSidelineHeartbeat (s : State) : Res := onWorld heartbeat s

/-- A held record goes out again (R532). -/
def resendHeld (r : SlRec) (s : State) : State :=
  if !s.slUp then s
  else
    (s.modSl (fun x => { x with
      sent := wrapAdd 32 x.sent 1, held := updWhere (fun (q : SlRec) => q.seq == r.seq) (fun q => { q with resends := q.resends + 1 }) x.held })).emit
      (.sideline r.seq r.kind r.sev (slDatagram s r.kind r.seq r.payload))

/-- A record's resend interval ends. -/
def resendDue (seq : Nat) (s : State) : State :=
  match s.w.sl.held.find? (fun r => r.seq == seq) with
  | some r => resendHeld r s
  | none => s

/-- SIDELINE_RESEND (R532). -/
def execSidelineResend (seq : Nat) (s : State) : Res := onWorld (resendDue seq) s

/-- The collector acknowledges an outgoing record: it is no longer held, and a fault-log record carries its mark (R486, R532). -/
def slAcked (seq : Nat) (s : State) : State :=
  if !s.slUp then s
  else
    let idx := match s.w.sl.held.find? (fun r => r.seq == seq) with | some r => r.idx | none => 2 ^ 32
    let drop (l : List (Nat × Bytes × List Nat)) : List (Nat × Bytes × List Nat) :=
      (l.map (fun (e : Nat × Bytes × List Nat) => (e.1, e.2.1, e.2.2.filter (fun q => q != seq)))).filter (fun (e : Nat × Bytes × List Nat) => !e.2.2.isEmpty)
    s.onW (fun w => { w with
      sl := { w.sl with held := w.sl.held.filter (fun r => r.seq != seq), outX := drop w.sl.outX, collector := true, lastAckNs := s.now }
      flog := { w.flog with recs := updWhere (fun (r : FRec) => r.idx == idx) (fun r => { r with sideSent := true }) w.flog.recs } })

/-- SIDELINE_ACK (R532). -/
def execSidelineAck (seq : Nat) (s : State) : Res := onWorld (slAcked seq) s

/-! ### Incoming records -/

/-- An incoming record is handled once and acknowledged with its status; a repeated sequence is acknowledged again (R532). -/
def slArrive (seq : Nat) (run : State → Nat × State) (s : State) : State :=
  let ack (st : Nat) : State → State := slOnce 0x04 1 (layout [(4, seq), (1, st), (3, 0)])
  if !s.slUp then s
  else match s.w.sl.handled.find? (fun e => e.1 == seq) with
    | some e => ack e.2 s
    | none =>
      let r := run s
      ack r.1 (r.2.modSl (fun x => { x with handled := (seq, r.1) :: x.handled }))

/-- The intervals cover every byte below `total` (R533). -/
def covered (l : List (Nat × Nat)) (total : Nat) : Bool :=
  decide (total ≤ (sortBy (fun (e : Nat × Nat) => e.1) l).foldl (fun r (e : Nat × Nat) => if e.1 ≤ r then max r (e.1 + e.2) else r) 0)

/-- A chunk joins the open transfer of its type, or a new transfer ID discards that one (R533): none where the payload is no
chunk of a transfer of at most 16 MiB (log 72). -/
def chunkIn (open_ : Option Xfer) (p : Bytes) : Option Xfer :=
  let id := fld p 0 4
  let total := fld p 4 4
  let off := fld p 8 4
  let d := p.drop 16
  let x : Xfer := match open_ with
    | some x => if x.id = id then x else { id := id, total := total }
    | none => { id := id, total := total }
  if decide (16 ≤ p.length) && decide (d.length ≤ 1368) && decide (off + d.length ≤ total) && decide (total ≤ 16777216) && x.total = total then
    some { x with data := mwrite x.data off d, got := (off, d.length) :: x.got }
  else none

/-- A drill image arrives by chunks; the last to arrive carries DRILL_LOAD's status (R404, R533). -/
def drillChunk (p : Bytes) (s : State) : Nat × State :=
  match chunkIn s.w.sl.drill p with
  | none => (0x11, s)
  | some x =>
    if !covered x.got x.total then (0, s.modSl (fun y => { y with drill := some x }))
    else match drillStore (mread x.data 0 x.total) (s.modSl (fun y => { y with drill := none })) with
      | (0x00, _, s1) => (0, s1)
      | (st, _, s1) => (st, flt 0x7203 0x09 0xFF 0 (locCause st 0x09) s1)

/-- SIDELINE_DRILL_CHUNK (R533). -/
def execSidelineDrillChunk (seq : Nat) (payload : Bytes) (s : State) : Res := onWorld (slArrive seq (drillChunk payload)) s

/-- The slot that is not running (R523). -/
def idleSlot (d : Ident) : Bool := if d.failed then !d.active else !d.slot
def Ident.putSlot (d : Ident) (b : Bool) (f : Flash) : Ident := if b then { d with slotB := f } else { d with slotA := f }

/-- A firmware image arrives by chunks, each written to the idle slot; the whole image passes R521 and is marked active, or is
refused (R523, R533). -/
def firmwareChunk (p : Bytes) (s : State) : Nat × State :=
  match chunkIn s.w.sl.fw p with
  | none => (0x11, s)
  | some x =>
    let b := idleSlot s.ctl.ident
    let img := mread x.data 0 x.total
    let s1 := s.modIdent (fun d => d.putSlot b (.held img))
    if !covered x.got x.total then (0, s1.modSl (fun y => { y with fw := some x }))
    else
      let s2 := s1.modSl (fun y => { y with fw := none })
      if imageOk s2.ctl.ident img then (0, flt0 0x7204 0x09 0xFF 0 (s2.modIdent (fun d => { d with active := b })))
      else (0xA0, flt 0x7203 0x09 0xFF 0 (locCause 0xA0 0x09) s2)

/-- SIDELINE_FIRMWARE_CHUNK (R533). -/
def execSidelineFirmwareChunk (seq : Nat) (payload : Bytes) (s : State) : Res := onCore (slArrive seq (firmwareChunk payload)) s

/-! ### Authorisation records over the sideline (R536, R537) -/

/-- A record that is to be of a kind arrives; the acknowledgement carries its status. -/
def authArrive (kind seq : Nat) (r : Bytes) : State → State :=
  slArrive seq (fun s => match authRun kind r s with | (st, _, s1) => (st, s1))

/-- AUTH_REINSTATE (R473, R537). -/
def execAuthReinstate (seq : Nat) (record : Bytes) (s : State) : Res := onCore (authArrive 1 seq record) s

/-- AUTH_FOUL (R537, R539). -/
def execAuthFoul (seq : Nat) (record : Bytes) (s : State) : Res := onCore (authArrive 2 seq record) s

/-- AUTH_END_EXCLUSION (R399, R537). -/
def execAuthEndExclusion (seq : Nat) (record : Bytes) (s : State) : Res := onWorld (authArrive 3 seq record) s

/-- AUTH_RESET (R458, R537). -/
def execAuthReset (seq : Nat) (record : Bytes) (s : State) : Res := onCore (authArrive 4 seq record) s

/-- AUTH_WAKE (R510, R537). -/
def execAuthWake (seq : Nat) (record : Bytes) (s : State) : Res := onCore (authArrive 5 seq record) s

/-- AUTH_ENROL (R529, R537). -/
def execAuthEnrol (seq : Nat) (record : Bytes) (s : State) : Res := onWorld (authArrive 6 seq record) s

/-- AUTH_PROVISION (R538). -/
def execAuthProvision (seq : Nat) (record : Bytes) (s : State) : Res := onAll (authArrive 7 seq record) s

/-- AUTH_SEND_OFF (R472, R537). -/
def execAuthSendOff (seq : Nat) (record : Bytes) (s : State) : Res := onCore (authArrive 8 seq record) s

/-! ### Link and address -/

/-- The sideline's link goes up or down; records that waited are sent when it comes up (R541). -/
def slLink (up : Bool) (s : State) : State :=
  if s.power.phase = .off || s.w.sl.link = up then s
  else
    let s1 := s.modSl (fun x => { x with link := up })
    if up then forAll s1.w.sl.held resendHeld s1 else s1

/-- SIDELINE_LINK_CHANGE (R541). -/
def execSidelineLinkChange (up : Bool) (s : State) : Res := onWorld (slLink up) s

/-- DHCPv4 grants an address (R528): taken unless a provisioning record has set a static one. -/
def dhcpGrant (addr mask gateway : Nat) (s : State) : State :=
  if !(s.slUp && s.w.sl.dhcp) then s
  else s.modSl (fun x => { x with
    addr := addr % 2 ^ 32, netmask := mask % 2 ^ 32, gateway := gateway % 2 ^ 32, addrOk := addr % 2 ^ 32 != 0 })

/-- DHCPV4_ADDRESS (R528). -/
def execDhcpv4Address (addr mask gateway : Nat) (s : State) : Res := onWorld (dhcpGrant addr mask gateway) s

end Sys2Proof.Machine
end

