-- ==== Sys2Proof/Machine/Dispatch.lean ====
section
/-! DEFINITION. Which meaning each command has. -/

namespace Sys2Proof.Machine

open Sys2Proof

/-- The effect of a command on everything but the queue of waiting commands. -/
def exec (i : Instr) (s : State) : Host.Outcome State Fault Refusal :=
  match i with
  | .nop h => Sys2Proof.Machine.execNop h s
  | .fence h scope => Sys2Proof.Machine.execFence h scope s
  | .jobCreate h job pasid flags => Sys2Proof.Machine.execJobCreate h job pasid flags s
  | .jobDestroy h => Sys2Proof.Machine.execJobDestroy h s
  | .jobPreempt h => Sys2Proof.Machine.execJobPreempt h s
  | .preemptBoundaryReached job => Sys2Proof.Machine.execPreemptBoundaryReached job s
  | .preemptSaveDone job => Sys2Proof.Machine.execPreemptSaveDone job s
  | .jobResume h => Sys2Proof.Machine.execJobResume h s
  | .resumeRestoreDone job => Sys2Proof.Machine.execResumeRestoreDone job s
  | .memMap h dva len host page access demand => Sys2Proof.Machine.execMemMap h dva len host page access demand s
  | .memUnmap h dva len => Sys2Proof.Machine.execMemUnmap h dva len s
  | .dmaCopy h src dst len srcH dstH => Sys2Proof.Machine.execDmaCopy h src dst len srcH dstH s
  | .dmaGranuleDone ch granule => Sys2Proof.Machine.execDmaGranuleDone ch granule s
  | .streamPark ch granule kind => Sys2Proof.Machine.execStreamPark ch granule kind s
  | .tensorDeclare h addr => Sys2Proof.Machine.execTensorDeclare h addr s
  | .placeSet h addr => Sys2Proof.Machine.execPlaceSet h addr s
  | .placementReport h buf len which => Sys2Proof.Machine.execPlacementReport h buf len which s
  | .setLoad h addr len => Sys2Proof.Machine.execSetLoad h addr len s
  | .stepRun h step seed list entries flags report => Sys2Proof.Machine.execStepRun h step seed list entries flags report s
  | .stepAbort h => Sys2Proof.Machine.execStepAbort h s
  | .modePrepare h epoch => Sys2Proof.Machine.execModePrepare h epoch s
  | .modeCommit h epoch step => Sys2Proof.Machine.execModeCommit h epoch step s
  | .collCompress h tensor mode k block => Sys2Proof.Machine.execCollCompress h tensor mode k block s
  | .collRun h addr => Sys2Proof.Machine.execCollRun h addr s
  | .ckptWrite h addr gen => Sys2Proof.Machine.execCkptWrite h addr gen s
  | .ckptCommitNotice h addr gen => Sys2Proof.Machine.execCkptCommitNotice h addr gen s
  | .ckptRestore h addr gen => Sys2Proof.Machine.execCkptRestore h addr gen s
  | .mirrorBind h node role => Sys2Proof.Machine.execMirrorBind h node role s
  | .benchCall h failed partner => Sys2Proof.Machine.execBenchCall h failed partner s
  | .huddle h reason boundary => Sys2Proof.Machine.execHuddle h reason boundary s
  | .umpireConfig h k table => Sys2Proof.Machine.execUmpireConfig h k table s
  | .letReplay h step => Sys2Proof.Machine.execLetReplay h step s
  | .selftest h scope set => Sys2Proof.Machine.execSelftest h scope set s
  | .drillLoad h addr len => Sys2Proof.Machine.execDrillLoad h addr len s
  | .linkDiscover h mask => Sys2Proof.Machine.execLinkDiscover h mask s
  | .topologyPlan h addr len => Sys2Proof.Machine.execTopologyPlan h addr len s
  | .foulArm h mask action rate ms => Sys2Proof.Machine.execFoulArm h mask action rate ms s
  | .healthRead h buf len what => Sys2Proof.Machine.execHealthRead h buf len what s
  | .powerSet h cap state => Sys2Proof.Machine.execPowerSet h cap state s
  | .resetModule h kind => Sys2Proof.Machine.execResetModule h kind s
  | .reinstate h addr len => Sys2Proof.Machine.execReinstate h addr len s
  | .diagSnapshot h buf len unit => Sys2Proof.Machine.execDiagSnapshot h buf len unit s
  | .diagTrace h unit on buf len => Sys2Proof.Machine.execDiagTrace h unit on buf len s
  | .queueEnable q value => Sys2Proof.Machine.execQueueEnable q value s
  | .queueDisable q value => Sys2Proof.Machine.execQueueDisable q value s
  | .dbCmdTail q tail => Sys2Proof.Machine.execDbCmdTail q tail s
  | .dbRplHead q head => Sys2Proof.Machine.execDbRplHead q head s
  | .queueFetch => Sys2Proof.Machine.execQueueFetch s
  | .coalesceTimer q => Sys2Proof.Machine.execCoalesceTimer q s
  | .eventRingEnable value => Sys2Proof.Machine.execEventRingEnable value s
  | .unitEnWrite k value => Sys2Proof.Machine.execUnitEnWrite k value s
  | .disabledUnitAccess unit access => Sys2Proof.Machine.execDisabledUnitAccess unit access s
  | .registerWrite off width value => Sys2Proof.Machine.execRegisterWrite off width value s
  | .apertureAccess write ap off len data => Sys2Proof.Machine.execApertureAccess write ap off len data s
  | .stkRetrain stack value => Sys2Proof.Machine.execStkRetrain stack value s
  | .lkCmdRetrain link => Sys2Proof.Machine.execLkCmdRetrain link s
  | .tpPortDetourWrite port value => Sys2Proof.Machine.execTpPortDetourWrite port value s
  | .retGoAdd => Sys2Proof.Machine.execRetGoAdd s
  | .retGoClear => Sys2Proof.Machine.execRetGoClear s
  | .errGoArm => Sys2Proof.Machine.execErrGoArm s
  | .atsTranslationCompletion job host size phys access present => Sys2Proof.Machine.execAtsTranslationCompletion job host size phys access present s
  | .atsInvalidation job host size => Sys2Proof.Machine.execAtsInvalidation job host size s
  | .prgResponse job host code => Sys2Proof.Machine.execPrgResponse job host code s
  | .priTimeout job host => Sys2Proof.Machine.execPriTimeout job host s
  | .powerApplied clkSettle cxlSplit smbAddr slMode rsvd => Sys2Proof.Machine.execPowerApplied clkSettle cxlSplit smbAddr slMode rsvd s
  | .pwrEnLow => Sys2Proof.Machine.execPwrEnLow s
  | .underVoltage => Sys2Proof.Machine.execUnderVoltage s
  | .overVoltage => Sys2Proof.Machine.execOverVoltage s
  | .refclkDetect => Sys2Proof.Machine.execRefclkDetect s
  | .settleDone => Sys2Proof.Machine.execSettleDone s
  | .pllLock => Sys2Proof.Machine.execPllLock s
  | .calibrationDone common exceptions cxl => Sys2Proof.Machine.execCalibrationDone common exceptions cxl s
  | .refclkLoss lock => Sys2Proof.Machine.execRefclkLoss lock s
  | .perstAssert => Sys2Proof.Machine.execPerstAssert s
  | .perstRelease => Sys2Proof.Machine.execPerstRelease s
  | .warmReset cause unit detail => Sys2Proof.Machine.execWarmReset cause unit detail s
  | .flushTimeout g => Sys2Proof.Machine.execFlushTimeout g s
  | .heartbeatWatchdog core => Sys2Proof.Machine.execHeartbeatWatchdog core s
  | .stageWatchdog unit die cell => Sys2Proof.Machine.execStageWatchdog unit die cell s
  | .linkWatchdog link => Sys2Proof.Machine.execLinkWatchdog link s
  | .queueWatchdog job => Sys2Proof.Machine.execQueueWatchdog job s
  | .rateWindowEnd die counts => Sys2Proof.Machine.execRateWindowEnd die counts s
  | .visitStart job pos => Sys2Proof.Machine.execVisitStart job pos s
  | .streamItem job strm mb idx flips side => Sys2Proof.Machine.execStreamItem job strm mb idx flips side s
  | .residueMismatch job st prod mb tile => Sys2Proof.Machine.execResidueMismatch job st prod mb tile s
  | .tileReadout job st prod mb tile cell err => Sys2Proof.Machine.execTileReadout job st prod mb tile cell err s
  | .sampleCompare job st prod mb tile err => Sys2Proof.Machine.execSampleCompare job st prod mb tile err s
  | .thirdComputationDone job st prod mb tile err => Sys2Proof.Machine.execThirdComputationDone job st prod mb tile err s
  | .lookupBag job st mb bag => Sys2Proof.Machine.execLookupBag job st mb bag s
  | .scatterRow job st mb row => Sys2Proof.Machine.execScatterRow job st mb row s
  | .stepBoundary job => Sys2Proof.Machine.execStepBoundary job s
  | .updateStageStart job st => Sys2Proof.Machine.execUpdateStageStart job st s
  | .rowOptimizerUpdate job => Sys2Proof.Machine.execRowOptimizerUpdate job s
  | .boundaryPlacement job failed cals => Sys2Proof.Machine.execBoundaryPlacement job failed cals s
  | .modeApply job unit => Sys2Proof.Machine.execModeApply job unit s
  | .stepBarrierEntry job => Sys2Proof.Machine.execStepBarrierEntry job s
  | .stepBarrierExit job => Sys2Proof.Machine.execStepBarrierExit job s
  | .stepBarrierSlow job => Sys2Proof.Machine.execStepBarrierSlow job s
  | .stepCalledGood job step => Sys2Proof.Machine.execStepCalledGood job step s
  | .stepBarrierUp job src step applied failed good count node => Sys2Proof.Machine.execStepBarrierUp job src step applied failed good count node s
  | .stepBarrierDown job step applied failed good count node => Sys2Proof.Machine.execStepBarrierDown job step applied failed good count node s
  | .calledGoodUpdate job src good => Sys2Proof.Machine.execCalledGoodUpdate job src good s
  | .huddleRequest job src reason boundary good => Sys2Proof.Machine.execHuddleRequest job src reason boundary good s
  | .huddleUp job src boundary count => Sys2Proof.Machine.execHuddleUp job src boundary count s
  | .huddleDown job boundary count => Sys2Proof.Machine.execHuddleDown job boundary count s
  | .huddleTimeout job => Sys2Proof.Machine.execHuddleTimeout job s
  | .preemptionNotice job node front => Sys2Proof.Machine.execPreemptionNotice job node front s
  | .lostNotice node => Sys2Proof.Machine.execLostNotice node s
  | .substituteNotice node place => Sys2Proof.Machine.execSubstituteNotice node place s
  | .reelDataReceive job stage mb serial crc pass first units fmt comp rank data => Sys2Proof.Machine.execReelDataReceive job stage mb serial crc pass first units fmt comp rank data s
  | .mirrorDeltaReceive job step kind tensor items off good data => Sys2Proof.Machine.execMirrorDeltaReceive job step kind tensor items off good data s
  | .mirrorEndOfStep job step good => Sys2Proof.Machine.execMirrorEndOfStep job step good s
  | .mirrorAck job step noRoom => Sys2Proof.Machine.execMirrorAck job step noRoom s
  | .mirrorAnchor job cut => Sys2Proof.Machine.execMirrorAnchor job cut s
  | .mirrorSeed job kind tensor off data last => Sys2Proof.Machine.execMirrorSeed job kind tensor off data last s
  | .hotStatePullRequest job node step => Sys2Proof.Machine.execHotStatePullRequest job node step s
  | .hotStatePullData job kind section_ tensor items first step data => Sys2Proof.Machine.execHotStatePullData job kind section_ tensor items first step data s
  | .lazyRestoreBlock job tensor block ckpt ok data => Sys2Proof.Machine.execLazyRestoreBlock job tensor block ckpt ok data s
  | .promenadeChunk job chunk => Sys2Proof.Machine.execPromenadeChunk job chunk s
  | .copyBeforeWrite job handle granule us => Sys2Proof.Machine.execCopyBeforeWrite job handle granule us s
  | .messageAck src cls seq map => Sys2Proof.Machine.execMessageAck src cls seq map s
  | .ackDelayTimer src => Sys2Proof.Machine.execAckDelayTimer src s
  | .messageResendTimer dst cls seq => Sys2Proof.Machine.execMessageResendTimer dst cls seq s
  | .linkSignalDetect link => Sys2Proof.Machine.execLinkSignalDetect link s
  | .linkTrained link ok ppmTenths => Sys2Proof.Machine.execLinkTrained link ok ppmTenths s
  | .linkIdentity link ident => Sys2Proof.Machine.execLinkIdentity link ident s
  | .frameReceive link frame corrected bad => Sys2Proof.Machine.execFrameReceive link frame corrected bad s
  | .linkDeadTimer link => Sys2Proof.Machine.execLinkDeadTimer link s
  | .linkRetryWindow link => Sys2Proof.Machine.execLinkRetryWindow link s
  | .peerLostTimer node => Sys2Proof.Machine.execPeerLostTimer node s
  | .timeSyncRequest => Sys2Proof.Machine.execTimeSyncRequest s
  | .timeSyncReply t1 t2 t3 t4 hops adj => Sys2Proof.Machine.execTimeSyncReply t1 t2 t3 t4 hops adj s
  | .timeSyncLoss => Sys2Proof.Machine.execTimeSyncLoss s
  | .foulDurationExpiry => Sys2Proof.Machine.execFoulDurationExpiry s
  | .foulAuthExpiry => Sys2Proof.Machine.execFoulAuthExpiry s
  | .stackTempSample stack tenths => Sys2Proof.Machine.execStackTempSample stack tenths s
  | .stackTrip stack => Sys2Proof.Machine.execStackTrip stack s
  | .stackHot2s stack => Sys2Proof.Machine.execStackHot2s stack s
  | .phaseSignal count => Sys2Proof.Machine.execPhaseSignal count s
  | .pcRetrainDone stack pc ok badLanes => Sys2Proof.Machine.execPcRetrainDone stack pc ok badLanes s
  | .lpddrTrip pkg => Sys2Proof.Machine.execLpddrTrip pkg s
  | .lpddrTripExit pkg => Sys2Proof.Machine.execLpddrTripExit pkg s
  | .cxlTimeout dev g => Sys2Proof.Machine.execCxlTimeout dev g s
  | .cxlLinkDown dev => Sys2Proof.Machine.execCxlLinkDown dev s
  | .powerSample sample => Sys2Proof.Machine.execPowerSample sample s
  | .capNotHeld => Sys2Proof.Machine.execCapNotHeld s
  | .dieTrip die => Sys2Proof.Machine.execDieTrip die s
  | .thermalSitoutTimer still => Sys2Proof.Machine.execThermalSitoutTimer still s
  | .sitOutEntry => Sys2Proof.Machine.execSitOutEntry s
  | .benchSignalDetect => Sys2Proof.Machine.execBenchSignalDetect s
  | .sitOutExit => Sys2Proof.Machine.execSitOutExit s
  | .patrolScrub found => Sys2Proof.Machine.execPatrolScrub found s
  | .demandScrub found => Sys2Proof.Machine.execDemandScrub found s
  | .sidelineHeartbeat => Sys2Proof.Machine.execSidelineHeartbeat s
  | .sidelineResend seq => Sys2Proof.Machine.execSidelineResend seq s
  | .sidelineAck seq => Sys2Proof.Machine.execSidelineAck seq s
  | .sidelineDrillChunk seq payload => Sys2Proof.Machine.execSidelineDrillChunk seq payload s
  | .sidelineFirmwareChunk seq payload => Sys2Proof.Machine.execSidelineFirmwareChunk seq payload s
  | .authReinstate seq record => Sys2Proof.Machine.execAuthReinstate seq record s
  | .authFoul seq record => Sys2Proof.Machine.execAuthFoul seq record s
  | .authEndExclusion seq record => Sys2Proof.Machine.execAuthEndExclusion seq record s
  | .authReset seq record => Sys2Proof.Machine.execAuthReset seq record s
  | .authWake seq record => Sys2Proof.Machine.execAuthWake seq record s
  | .authEnrol seq record => Sys2Proof.Machine.execAuthEnrol seq record s
  | .authProvision seq record => Sys2Proof.Machine.execAuthProvision seq record s
  | .authSendOff seq record => Sys2Proof.Machine.execAuthSendOff seq record s
  | .setEndpointId op eid => Sys2Proof.Machine.execSetEndpointId op eid s
  | .getEndpointId => Sys2Proof.Machine.execGetEndpointId s
  | .getMctpVersionSupport typ => Sys2Proof.Machine.execGetMctpVersionSupport typ s
  | .getMessageTypeSupport => Sys2Proof.Machine.execGetMessageTypeSupport s
  | .getVersion => Sys2Proof.Machine.execGetVersion s
  | .getCapabilities => Sys2Proof.Machine.execGetCapabilities s
  | .negotiateAlgorithms asym hash => Sys2Proof.Machine.execNegotiateAlgorithms asym hash s
  | .getDigests => Sys2Proof.Machine.execGetDigests s
  | .getCertificate slot off len => Sys2Proof.Machine.execGetCertificate slot off len s
  | .challenge slot nonce => Sys2Proof.Machine.execChallenge slot nonce s
  | .getMeasurements index signed nonce => Sys2Proof.Machine.execGetMeasurements index signed nonce s
  | .wakeRelease => Sys2Proof.Machine.execWakeRelease s
  | .priCapabilityEnableWrite en => Sys2Proof.Machine.execPriCapabilityEnableWrite en s
  | .packageTemperatureReport pkg c => Sys2Proof.Machine.execPackageTemperatureReport pkg c s
  | .sidelineLinkChange up => Sys2Proof.Machine.execSidelineLinkChange up s
  | .dhcpv4Address addr mask gateway => Sys2Proof.Machine.execDhcpv4Address addr mask gateway s
  | .selftestComplete cells links hot => Sys2Proof.Machine.execSelftestComplete cells links hot s

end Sys2Proof.Machine
end

