-- ==== Sys2Proof/Machine/Step.lean ====
section
/-! DEFINITION. One step: the command at the front of the queue runs; with no command waiting the timekeeper counts. -/

namespace Sys2Proof.Machine

open Sys2Proof

/-- The block with no command waiting: one nanosecond passes on a running timekeeper (R50, R52; log 2). -/
def idle (s : State) : State := { s with ctl := { s.ctl with clk := if s.ctl.clk.running then { s.ctl.clk with ns := wrapAdd 64 s.ctl.clk.ns 1 } else s.ctl.clk } }

/-- Take the command at the front of the queue and run it with the queue's rest; idle on an empty queue. -/
def step (s : State) : Host.Outcome State Fault Refusal :=
  match s.pending with
  | [] => .next (idle s)
  | c :: r => exec c { s with pending := r }

/-- The state with the command a word spells at the front of its queue; unchanged where the word spells none. -/
def State.withFetchWord (s : State) (nbits w : Nat) : State :=
  match Sys2Proof.decodeTableWord nbits w with
  | some c => { s with pending := c :: s.pending }
  | none => s

end Sys2Proof.Machine
end

