-- ==== Sys2Proof/Safety.lean ====
section
/-! DEFINITION. What every step of the module keeps: the settings stay in their ranges; and which parts of the state a
shared operation may touch at all. -/

namespace Sys2Proof.Machine

open Sys2Proof

/-- A value of a range. -/
def within (lo hi v : Nat) : Bool := decide (lo ≤ v) && decide (v ≤ hi)

/-- Every ranged setting holds a value of its range (R40, R52, R230, R260, R269, R303, R356, R357, R385, R416, R454, R455,
R464, R489, R513, R564). -/
def Cfg.ranged (c : Cfg) : Bool :=
  within 1 15 c.escLimit && within 60 65535 c.escWindowS && c.qwdBudget.all (fun e => within 1000 600000 e.2) &&
  within 1000 500000 c.settleUs && c.die.all (fun e => within 100 10000 e.2.windowUs && within 5 200 e.2.driftTenths && within 1 255 e.2.persist) &&
  c.lk.all (fun e => within 1 65535 e.2.retryThr && within 1 15 e.2.trainFail) && within 5 40 c.lostMs && within 20 1000 c.deadUs &&
  within 50 5000 c.huddleMs && within 1 10000 c.slowMs && within 8 4096 c.rotPeriod && within 2 8 c.depth &&
  within 1 65535 c.ckCeThr && within 1 60 c.ckWindowMin && within 1 20 c.ckTjMarginC && within 50 95 c.mrWarn && within 4 64 c.mrPendGib &&
  c.seWarn.all (fun e => within 50 95 e.2) && within 1 3 c.sideSev && within 1 3 c.provSev && within 1 255 c.w0 && within 1 255 c.w1 && within 1 255 c.w2 &&
  within 1 255 c.w3 && within 10 60000 c.priTimeoutMs

/-- `t` differs from `s` at most in what reporting writes: the fault log, the sideline's held records, the event ring, the
interrupt table, what has been sent out, host memory, the counts at the crossings and the once-a-minute marks (R289, R291, R486, R532). -/
def OnlyLog (s t : State) : Prop :=
  t = { s with w := { s.w with
    flog := t.w.flog, sl := { s.w.sl with nextSeq := t.w.sl.nextSeq, held := t.w.sl.held, sent := t.w.sl.sent, dropped := t.w.sl.dropped }, ev := { s.w.ev with en := t.w.ev.en, err := t.w.ev.err, tail := t.w.ev.tail, lost := t.w.ev.lost }, msix := t.w.msix, out := t.w.out, host := t.w.host, last60 := t.w.last60, xings := t.w.xings } }

/-- `t` differs from `s` at most in what replying writes: the reports above, the queue contexts, the commands in flight, and
where the reply page is absent the job's fault count and the outstanding Page Requests (R271, R276, R300, R313). -/
def OnlyReply (s t : State) : Prop :=
  t = { s with w := { s.w with
    flog := t.w.flog, sl := { s.w.sl with nextSeq := t.w.sl.nextSeq, held := t.w.sl.held, sent := t.w.sl.sent, dropped := t.w.sl.dropped }, ev := { s.w.ev with en := t.w.ev.en, err := t.w.ev.err, tail := t.w.ev.tail, lost := t.w.ev.lost }, msix := t.w.msix, out := t.w.out, host := t.w.host, last60 := t.w.last60, xings := t.w.xings, queues := t.w.queues, inflight := t.w.inflight, mmu := { s.w.mmu with priOut := t.w.mmu.priOut }, jobs := t.w.jobs } }

/-! ### The terms claims about Enrel commands use -/

/-- The state a command's checks and effect start from: the command is counted in its queue and has taken its place in the
order of acceptance (R264, R275). -/
def counted (h : Hdr) (s : State) : State :=
  (s.modQueue h.q (fun c => { c with inflight := c.inflight + 1 })).onW (fun w => { w with ordNext := s.w.ordNext + 1 })

/-- A command of opcode `op` passes checks 1 to 6 of R280. -/
def Ready (op : Nat) (h : Hdr) (s : State) : Prop := commonFail (counted h s) op h = none

/-- The record of a command that has just been accepted. -/
def accepts (op : Nat) (h : Hdr) (s : State) (a b : Nat) : Run := { hdr := h, op := op, ord := s.w.ordNext, a := a, b := b }

/-- The command is replied to with a status, detail, unit and result after its effect has made `s1` (R276). -/
def finish (op : Nat) (h : Hdr) (s : State) (status detail unit : Nat) (result : Bytes) (s1 : State) : State :=
  complete (accepts op h s 0 0) status detail unit result s1

/-- The command is accepted and runs on: it stands among the commands in flight (R275). -/
def runsOn (op : Nat) (h : Hdr) (s : State) (a b : Nat) (s1 : State) : State :=
  s1.onW (fun w => { w with inflight := w.inflight ++ [accepts op h s a b] })

end Sys2Proof.Machine

/-- The opcode and the common fields of an Enrel command (R272, R279); none for a row that arrives in no packet. -/
def Sys2Proof.Claims.heading (c : Sys2Proof.Instr) : Option (Nat × Sys2Proof.Hdr) :=
  match c with
  | .nop h => some (0x0001, h)
  | .fence h _ => some (0x0002, h)
  | .jobCreate h _ _ _ => some (0x0101, h)
  | .jobDestroy h => some (0x0102, h)
  | .jobPreempt h => some (0x0103, h)
  | .jobResume h => some (0x0104, h)
  | .memMap h _ _ _ _ _ _ => some (0x0201, h)
  | .memUnmap h _ _ => some (0x0202, h)
  | .dmaCopy h _ _ _ _ _ => some (0x0203, h)
  | .tensorDeclare h _ => some (0x0204, h)
  | .placeSet h _ => some (0x0205, h)
  | .placementReport h _ _ _ => some (0x0206, h)
  | .setLoad h _ _ => some (0x0301, h)
  | .stepRun h _ _ _ _ _ _ => some (0x0302, h)
  | .stepAbort h => some (0x0303, h)
  | .modePrepare h _ => some (0x0304, h)
  | .modeCommit h _ _ => some (0x0305, h)
  | .collCompress h _ _ _ _ => some (0x0401, h)
  | .collRun h _ => some (0x0402, h)
  | .ckptWrite h _ _ => some (0x0501, h)
  | .ckptCommitNotice h _ _ => some (0x0501, h)
  | .ckptRestore h _ _ => some (0x0502, h)
  | .mirrorBind h _ _ => some (0x0503, h)
  | .benchCall h _ _ => some (0x0504, h)
  | .huddle h _ _ => some (0x0505, h)
  | .umpireConfig h _ _ => some (0x0601, h)
  | .letReplay h _ => some (0x0602, h)
  | .selftest h _ _ => some (0x0603, h)
  | .drillLoad h _ _ => some (0x0604, h)
  | .linkDiscover h _ => some (0x0701, h)
  | .topologyPlan h _ _ => some (0x0702, h)
  | .foulArm h _ _ _ _ => some (0x0703, h)
  | .healthRead h _ _ _ => some (0x0801, h)
  | .powerSet h _ _ => some (0x0802, h)
  | .resetModule h _ => some (0x0803, h)
  | .reinstate h _ _ => some (0x0804, h)
  | .diagSnapshot h _ _ _ => some (0x0F01, h)
  | .diagTrace h _ _ _ _ => some (0x0F02, h)
  | _ => none
end

