-- ==== Sys2Proof/Certificates/Slice0/Obligations.lean ====
section
/-! DEFINITION. What is claimed of the module: statements for the provers. Enrel commands are claimed in the terms of
Sys2Proof/Safety.lean: `Ready` (checks 1 to 6 of R280 pass), `counted` (the state the command's own part starts from),
`finish` (it is replied to), `runsOn` (it is accepted and runs on). -/

open Sys2Proof Sys2Proof.Machine

/-- The keys of a table stand rising, each once. -/
def Sys2Proof.Claims.rising {α : Type} (t : Tab α) : Prop := (tkeys t).Pairwise (· < ·)

/-- A record of a kind passes checks 1 to 5 of R536 when it arrives over an open sideline under a new sequence. -/
def Sys2Proof.Claims.arrives (kind seq : Nat) (r : Bytes) (s : State) : Prop :=
  s.slUp = true ∧ (∀ e ∈ s.w.sl.handled, e.1 ≠ seq) ∧ authFail kind r s = none

/-- The record has been used up and acknowledged with a status (R532, R536). -/
def Sys2Proof.Claims.used (seq : Nat) (r : Bytes) (status : Nat) (s t : State) : Prop :=
  t.w.sl.authSeq = fld r 16 8 ∧ t.w.sl.handled = (seq, status) :: s.w.sl.handled ∧ t.pending = s.pending

/-- Nothing waits for a page of the host: no stream is parked, no command, reply or fetch is held (R271, R309, R314). -/
def Sys2Proof.Claims.nothingHeld (s : State) : Prop :=
  (∀ c < 128, (s.chan c).state ≠ 2) ∧ s.w.waits = [] ∧ s.w.inflight = [] ∧ s.w.ck.state = 0 ∧
  (∀ e ∈ s.w.queues, e.2.parked = [] ∧ e.2.fetchParked = false) ∧ (∀ e ∈ s.w.jobs, e.2.waiting = [] ∧ e.2.run = none)

/-- A SET_LOAD packet passes the common checks and its image can be read, of the length it states (checks 1 and 2 of R119). -/
def Sys2Proof.Claims.imageRead (h : Hdr) (addr len : Nat) (img : Bytes) (s : State) : Prop :=
  Ready 0x0301 h s ∧ len ≤ 16777216 ∧ pktRead (counted h s) h.job addr len = .ok img ∧ fld img 8 4 = len

/-- Lengths of the check table and of the plan that an image names (R117). -/
def Sys2Proof.Claims.chkLen (img : Bytes) : Nat := if fld img 40 4 = 0 ∨ 1024 < fld img (fld img 40 4 + 2) 2 then 16 else chkTableLen (img.drop (fld img 40 4))
def Sys2Proof.Claims.planLen (img : Bytes) : Nat := if fld img 44 4 = 0 then 64 else max 64 (fld img (fld img 44 4 + 8) 4)

/-- The header and the digest of an image are right (checks 2 and 3 of R119). -/
def Sys2Proof.Claims.headed (img : Bytes) : Prop :=
  firstBad (headerChecks img (Sys2Proof.Claims.chkLen img) (Sys2Proof.Claims.planLen img)) = none ∧ (fld img 64 32 = 0 ∨ fld img 64 32 = (loadImage img).digest)

/-- An image passes checks 2 to 9 of R119, is neither current nor staged, its units are enabled and no step of its job runs. -/
def Sys2Proof.Claims.loadable (h : Hdr) (img : Bytes) (s : State) : Prop :=
  let t := loadImage img
  Sys2Proof.Claims.headed img ∧ (∀ c, (s.job h.job).cur = some c → c.digest ≠ t.digest) ∧ (∀ c, (s.job h.job).staged = some c → c.digest ≠ t.digest) ∧
    firstBad (recordChecks t (setTables img (Sys2Proof.Claims.chkLen img) (Sys2Proof.Claims.planLen img))) = none ∧ firstBad (wiringChecks t) = none ∧
    firstBad (formatChecks t) = none ∧ firstBad (graphChecks t (fld img 28 4)) = none ∧
    firstBad (declaredChecks (counted h s) h.job t) = none ∧ (∀ u ∈ setUnits t, s.unitOn u = true) ∧ (s.job h.job).run = none

/-- A gradient that COLL_COMPRESS may name: a REDUCE_SCATTER of the current or the staged set takes it, in a format of R370. -/
def Sys2Proof.Claims.compressible (s : State) (j tensor : Nat) : Prop :=
  ∃ t, ((s.job j).cur = some t ∨ (s.job j).staged = some t) ∧ ∃ c ∈ setColls t, c.op = 1 ∧ c.src = tensor ∧ (c.fmt = 0x01 ∨ c.fmt = 0x02 ∨ c.fmt = 0x03)

/-- Nothing holds the next step of a job: none runs, no pre-emption, no huddle cut, no barrier entry, its ports and its
placement are settled. -/
def Sys2Proof.Claims.freeToStart (s : State) (j : Nat) : Prop :=
  mayStart s j = true ∧ (s.job j).topoDue = false ∧ (s.job j).noRoom = false ∧ s.w.mr.out = 0

/-- `t` keeps the settings, the control state and every other job of `s`. -/
def Sys2Proof.Claims.jobOnly (j : Nat) (s t : State) : Prop :=
  t.cfg = s.cfg ∧ t.ctl = s.ctl ∧ ∀ k, k ≠ j → t.job k = s.job k

/-- The visit before the next one of a position is done, and no cut stands before a forward one (R168, R171). -/
def Sys2Proof.Claims.visitMay (c : Ctx) (pos : Nat) (v : Visit) : Prop :=
  (tget 0 c.r.visits pos = 0 ∨ ∀ u, (c.order pos)[tget 0 c.r.visits pos - 1]? = some u → c.visitDone u = true) ∧
  (v.fwd = true → ∀ x, c.r.cut = some x → v.mb < x)

/-- The tile of a stage end as the run holds it. -/
def Sys2Proof.Claims.tileOf (r : StepRun) (e prod m tile : Nat) : Option Tile :=
  r.tiles.find? (fun x => x.st == e && x.prod == prod && x.mb == m && x.tile == tile)

/-- The module is the only member of its jobs: no job plan is in force and its own node is not lost. -/
def Sys2Proof.Claims.alone (s : State) : Prop := s.w.topo.jobPlan = none ∧ s.w.topo.node ∉ s.w.topo.lost

/-- No command of these opcodes stands in flight for a job. -/
def Sys2Proof.Claims.answered (ops : List Nat) (j : Nat) (t : State) : Prop := ∀ x ∈ t.w.inflight, x.op ∈ ops → x.hdr.job ≠ j

/-- The identity record a peer sent is kept (R340). -/
def Sys2Proof.Claims.peerTold (l : Nat) (d : Bytes) (s : State) : State :=
  s.modLink l (fun k => { k with peerNode := fld d 0 2, peerLink := fld d 2 1, peerPort := fld d 3 1 % 16, peerRole := fld d 4 1, peerKind := fld d 5 1 % 4
                                 serial := fld d 8 8, peerDigest := beNum ((d.drop 16).take 32) })

/-- A link as a frame with these uncorrectable lanes leaves its counts (R336). -/
def Sys2Proof.Claims.lanesRun (s : State) (l bad : Nat) : List Nat :=
  (List.range 4).map (fun i => if bit bad i then (s.link l).badRun.getD i 0 + 1 else 0)
def Sys2Proof.Claims.symbolsCounted (l corrected bad : Nat) (s : State) : State :=
  s.modLink l (fun k => { k with corr := satAdd 32 k.corr corrected, uncorr := satAdd 32 k.uncorr (popCount bad 4), badRun := Sys2Proof.Claims.lanesRun s l bad })
/-- A frame's control bits, and that it decodes with a good CRC (R327, R330). -/
def Sys2Proof.Claims.ctlOf (frame : Bytes) : Nat := leNum ((frame.drop 2560).take 10)
def Sys2Proof.Claims.frameGood (frame : Bytes) (bad : Nat) : Prop :=
  bad % 16 = 0 ∧ frame.length = 2570 ∧ frameCrc (frame.take 2560) (Sys2Proof.Claims.ctlOf frame) = bits (Sys2Proof.Claims.ctlOf frame) 67 52

/-- What the module goes on with once a command has been answered: what waits behind it may start. -/
def Sys2Proof.Claims.goesOn (c : Instr) : State → State :=
  match c with
  | .fence _ _ => fun s => settleFences s.w.inflight.length s
  | .dmaCopy _ _ _ _ _ _ => fun s => dmaDispatch s.w.dmaWait.length s
  | .stepRun h _ _ _ _ _ _ => startWaiting h.job
  | .letReplay h _ => startWaiting h.job
  | .jobResume h => startWaiting h.job
  | .ckptWrite h _ _ => askCut h.job
  | .ckptCommitNotice h _ _ => askCut h.job
  | .topologyPlan _ _ _ => masterSync
  | _ => id

/-- For every command c, rest of queue r and state s: a step of s with c in front of r is exec of c on s with the queue r.
With no command waiting a running timekeeper counts one nanosecond and nothing else changes (the idle tick is the
model's choice, log 2). A word of the command table spells no command, so it leaves the state alone. -/
def Obligations.StepRunsTheFrontCommand : Prop :=
  (∀ (c : Instr) (r : List Instr) (s : State), step { s with pending := c :: r } = exec c { s with pending := r }) ∧
  (∀ (s : State), s.pending = [] → s.ctl.clk.running = false → step s = .next s) ∧
  (∀ (s : State), s.pending = [] → s.ctl.clk.running = true →
    step s = .next { s with ctl := { s.ctl with clk := { s.ctl.clk with ns := (s.ctl.clk.ns + 1) % 2 ^ 64 } } }) ∧
  (∀ (s : State) (nbits w : Nat), s.withFetchWord nbits w = s)

/-- For every command and state, well-formed or not, exec answers a next state, never a fault and never a refusal, and the
commands that wait are those that waited. The model has no stop: what the spec calls an error is a reply, a fault-log
record or an ignored event. -/
def Obligations.CommandsNeverTouchTheQueueNorStop : Prop :=
  ∀ (c : Instr) (s : State), ∃ t, exec c s = .next t ∧ t.pending = s.pending

/-- NOP: a packet that passes the common checks is replied to with status OK and has no other effect. FENCE with an
allowed scope and nothing in flight is replied to with OK; with a command of its scope in flight (and no other fence)
it is accepted and stands in flight without a reply. HEALTH_READ writes the HEALTH block (what 0) or the survival
record (what 3) whole to a present host buffer, replies OK with its length, and replies NO_RESOURCE with the length
needed when the buffer is shorter. POWER_SET takes a new cap in range, and with state 1 on an idle module makes
sit-out entry due. RESET_MODULE of kind 0 makes a warm reset of cause 2 due and raises the vector. DIAG_SNAPSHOT of
the Umpire writes its capture records. DIAG_TRACE starts and stops tracing of an enabled unit. Each is replied to and
changes nothing else. Where the spec leaves a point open it states the model's own choice (logs 19, 116, 148). -/
def Obligations.AdministrativeCommandsComplete : Prop :=
  ((∀ (h : Hdr) (s : State), Ready 0x0001 h s → exec (.nop h) s = .next (finish 0x0001 h s 0 0 0xFF [] (counted h s))) ∧
  (∀ (h : Hdr) (scope : Nat) (s : State), Ready 0x0002 h s → scope ≤ 2 → (scope = 2 → h.q = 0) → s.w.inflight = [] →
    exec (.fence h scope) s = .next (putReply h (replyBytes h 0x0002 0 0 0xFF []) (counted h s))) ∧
  (∀ (h : Hdr) (scope : Nat) (s : State) (x : Run), Ready 0x0002 h s → scope ≤ 2 → (scope = 2 → h.q = 0) →
    (∀ r ∈ s.w.inflight, r.op ≠ 0x0002) → x ∈ s.w.inflight → x.ord < s.w.ordNext →
    (scope = 0 → x.hdr.q = h.q) → (scope = 1 → x.hdr.job = h.job) →
    exec (.fence h scope) s = .next (runsOn 0x0002 h s scope 0 (counted h s)))) ∧
  ((∀ (h : Hdr) (buf len what : Nat) (bs : Bytes) (s : State), Ready 0x0801 h s → h.job = 0xFFFF →
    (what = 0 ∧ bs = healthBlock s ∨ what = 3 ∧ bs = survBytes s.ctl.surv) → bs.length ≤ len → s.hostOk buf bs.length = true →
    exec (.healthRead h buf len what) s = .next (finish 0x0801 h s 0 0 0xFF (leBytes 4 bs.length) ((counted h s).hostPut buf bs))) ∧
  (∀ (h : Hdr) (buf len what : Nat) (bs : Bytes) (s : State), Ready 0x0801 h s → h.job = 0xFFFF →
    (what = 0 ∧ bs = healthBlock s ∨ what = 3 ∧ bs = survBytes s.ctl.surv) → len < bs.length →
    exec (.healthRead h buf len what) s = .next (finish 0x0801 h s 0x20 0 0xFF (leBytes 4 bs.length) (counted h s))) ∧
  (∀ (h : Hdr) (cap : Nat) (s : State), Ready 0x0802 h s → 900 ≤ cap → cap ≤ 1200 → cap ≠ s.ctl.power.capW →
    exec (.powerSet h cap 0) s = .next (finish 0x0802 h s 0 0 0xFF [] ((counted h s).modPower (fun p => { p with capW := cap })))) ∧
  (∀ (h : Hdr) (s : State), Ready 0x0802 h s → (∀ e ∈ s.w.jobs, e.2.live = false) → s.w.mr.out = 0 → s.w.mr.inn = 0 → (∀ e ∈ s.w.stk, e.2.level ≠ 4) →
    (∀ e ∈ s.w.lp, e.2.held = 0) →
    exec (.powerSet h 0 1) s = .next (finish 0x0802 h s 0 0 0xFF [] ((counted h s).modPower (fun p => { p with sitPending := true })))) ∧
  (∀ (h : Hdr) (s : State), h.q = 0 → Ready 0x0803 h s →
    exec (.resetModule h 0) s = .next (finish 0x0803 { h with irq := true } s 0 0 0xFF [] ((counted h s).modHealth (fun x => { x with resetDue := 2 })))) ∧
  (∀ (h : Hdr) (buf len : Nat) (bs : Bytes) (s : State), Ready 0x0F01 h s → h.job = 0xFFFF → s.unitOn 0x05 = true →
    bs = s.w.ump.caps.flatMap (fun e => e.2) → bs.length ≤ len → s.hostOk buf bs.length = true →
    exec (.diagSnapshot h buf len 0x05) s = .next (finish 0x0F01 h s 0 0 0xFF (leBytes 4 bs.length) ((counted h s).hostPut buf bs))) ∧
  (∀ (h : Hdr) (unit on buf len : Nat) (s : State), Ready 0x0F02 h s → knownUnit unit = true → s.unitOn unit = true → on ≤ 1 →
    exec (.diagTrace h unit on buf len) s = .next (finish 0x0F02 h s 0 0 0xFF [] ((counted h s).onW (fun w => { w with
      traces := (if on = 1 then [(unit, buf, len)] else []) ++ w.traces.filter (fun e => e.1 != unit) })))))

/-- Whatever command completes, with whatever status, detail, unit and result, on a running queue whose rings are host
addresses and whose reply page is present, with no FENCE in flight: the slot of the reply tail then holds the 32 bytes
of R276 (sequence, opcode, status, phase, queue, unit, detail, result), the reply tail and the done count advance, the
last sequence is the packet's, and every host byte outside the slot is as before. -/
def Obligations.ReplyIsWrittenToItsSlot : Prop :=
  ∀ (op : Nat) (h : Hdr) (s : State) (status detail unit : Nat) (result : Bytes) (s1 : State),
    (s1.queue h.q).state = 1 → (s1.queue h.q).addrHost = true → (s1.queue h.q).parked = [] → (∀ r ∈ s1.w.inflight, r.op ≠ 0x0002) →
    Sys2Proof.Claims.rising s1.w.queues → Memory.wf s1.w.host = true →
    s1.hostOk ((s1.queue h.q).rplBase + 32 * ((s1.queue h.q).rplTail % 2 ^ (s1.queue h.q).rplLog2)) 32 = true →
    (let t := finish op h s status detail unit result s1
     let c := s1.queue h.q
     let slot := c.rplBase + 32 * (c.rplTail % 2 ^ c.rplLog2)
     mread t.w.host slot 32 = layout [(4, h.seq), (2, op), (1, status), (1, 1 - c.rplTail / 2 ^ c.rplLog2 % 2), (2, h.q), (1, unit), (1, 0), (4, detail)] ++ padTo 16 result ∧
     (∀ a, a < slot ∨ slot + 32 ≤ a → mget t.w.host a = mget s1.w.host a) ∧
     (t.queue h.q).rplTail = wrapAdd 16 c.rplTail 1 ∧ (t.queue h.q).done = wrapAdd 32 c.done 1 ∧ (t.queue h.q).lastSeq = h.seq)

/-- HEALTH_READ with what 2 and a buffer of at least 64 B writes the newest records, as many as fit whole, the oldest of
them first, 64 bytes each, and replies OK with the bytes written; with a smaller buffer it writes nothing, replies
NO_RESOURCE and gives 64 as the length needed. Where the spec leaves a point open it states the model's own choice
(log 116). -/
def Obligations.HealthReadWritesOnlyWhole : Prop :=
  ∀ (h : Hdr) (buf len : Nat) (s : State), Ready 0x0801 h s → h.job = 0xFFFF →
    (let n := min (len / 64) s.w.flog.recs.length
     let bs := ((s.w.flog.recs.take n).reverse).flatMap FRec.bytes
     (64 ≤ len → s.hostOk buf (64 * n) = true → bs.length = 64 * n ∧
       exec (.healthRead h buf len 2) s = .next (finish 0x0801 h s 0 0 0xFF (leBytes 4 (64 * n)) ((counted h s).hostPut buf bs))) ∧
     (len < 64 → exec (.healthRead h buf len 2) s = .next (finish 0x0801 h s 0x20 0 0xFF (leBytes 4 64) (counted h s))))

/-- For each of the eight kinds, a record that passes checks 1 to 5 of R536 over an open sideline under a new sequence
raises SL_AUTHSEQ to its sequence, is acknowledged with status 0 and acts: 1 ends the sent-off state and makes a warm
reset of cause 9 due; 2 authorises foul mode for its duration; 3 ends the exclusion of the cell it names; 4 makes a
warm reset of cause 8 due; 5 wakes a module in sit-out; 6 enrols the fleet key it carries; 7 provisions the sideline
with its collector, port and severity; 8 sends the module off. No kind but 7 changes a setting. Where the spec leaves
a point open it states the model's own choice (logs 118, 119, 123). -/
def Obligations.AuthorisationRecordsAct : Prop :=
  (∀ (seq : Nat) (r : Bytes) (s : State), Sys2Proof.Claims.arrives 1 seq r s → s.ctl.health.sentOff = true →
    ∃ t, exec (.authReinstate seq r) s = .next t ∧ Sys2Proof.Claims.used seq r 0 s t ∧ t.cfg = s.cfg ∧
      t.ctl.health = { s.ctl.health with sentOff := false, inWindow := 0, stamps := [], resetDue := 9 }) ∧
  (∀ (seq : Nat) (r : Bytes) (s : State), Sys2Proof.Claims.arrives 2 seq r s →
    ∃ t, exec (.authFoul seq r) s = .next t ∧ Sys2Proof.Claims.used seq r 0 s t ∧ t.cfg = s.cfg ∧
      t.w.sl.foulAuth = true ∧ t.w.sl.foulLeftS = fld r 24 4 ∧
      (s.ctl.power.phase = .run → s.ctl.ident.failed = false → s.ctl.health.sentOff = false → t.unitOn 0x0A = true)) ∧
  (∀ (seq : Nat) (r : Bytes) (s : State), Sys2Proof.Claims.arrives 3 seq r s → Sys2Proof.Claims.rising s.w.cells →
    (s.cell (authCell r)).excluded = true →
    ∃ t, exec (.authEndExclusion seq r) s = .next t ∧ Sys2Proof.Claims.used seq r 0 s t ∧ t.cfg = s.cfg ∧ t.ctl = s.ctl ∧
      (t.cell (authCell r)).excluded = false ∧ (t.cell (authCell r)).exclGood = 0) ∧
  (∀ (seq : Nat) (r : Bytes) (s : State), Sys2Proof.Claims.arrives 4 seq r s →
    ∃ t, exec (.authReset seq r) s = .next t ∧ Sys2Proof.Claims.used seq r 0 s t ∧ t.cfg = s.cfg ∧ t.ctl.health = { s.ctl.health with resetDue := 8 }) ∧
  (∀ (seq : Nat) (r : Bytes) (s : State), Sys2Proof.Claims.arrives 5 seq r s → s.ctl.power.phase = .sitOut → s.ctl.power.thermSit = false →
    s.ctl.power.wakePending = 0 →
    ∃ t, exec (.authWake seq r) s = .next t ∧ Sys2Proof.Claims.used seq r 0 s t ∧ t.cfg = s.cfg ∧ t.ctl.power = { s.ctl.power with wakePending := 1 }) ∧
  (∀ (seq : Nat) (r : Bytes) (s : State), Sys2Proof.Claims.arrives 6 seq r s →
    s.w.sl.fleetKey ≠ some (beNum ((r.drop 64).take 48), beNum ((r.drop 112).take 48)) →
    ∃ t, exec (.authEnrol seq r) s = .next t ∧ Sys2Proof.Claims.used seq r 0 s t ∧ t.cfg = s.cfg ∧ t.ctl = s.ctl ∧
      t.w.sl.fleetKey = some (beNum ((r.drop 64).take 48), beNum ((r.drop 112).take 48))) ∧
  (∀ (seq : Nat) (r : Bytes) (s : State), Sys2Proof.Claims.arrives 7 seq r s → s.w.sl.prov = false →
    ∃ t, exec (.authProvision seq r) s = .next t ∧ Sys2Proof.Claims.used seq r 0 s t ∧ t.ctl = s.ctl ∧
      t.cfg = { s.cfg with sideSev := fld r 82 1, provSev := fld r 82 1 } ∧ t.w.sl.prov = true ∧ t.w.sl.coll = fld r 76 4 ∧
      t.w.sl.port = (if fld r 80 2 = 0 then 19271 else fld r 80 2)) ∧
  (∀ (seq : Nat) (r : Bytes) (s : State), Sys2Proof.Claims.arrives 8 seq r s → s.ctl.health.sentOff = false →
    (∀ l < 24, (s.link l).state = 0 ∨ (s.link l).state = 4) →
    ∃ t, exec (.authSendOff seq r) s = .next t ∧ Sys2Proof.Claims.used seq r 0 s t ∧ t.cfg = s.cfg ∧
      t.ctl.health = { s.ctl.health with sentOff := true } ∧ t.ctl.unitEn = (if s.ctl.unitEn = 0 then 0 else 0x20B))

/-- REINSTATE on queue 0 with a readable 256 B record: where a check of R536 fails, the command is replied to with that
status (AUTH_REQUIRED for checks 2 to 5), event 0x7202 is written and no setting and no control state changes; where
the record verifies on a module sent off, sent_off and in_window are cleared, the escalation window is emptied, events
0x5502 and 0x000A are written in that order after 0x7201, a warm reset of cause 9 is due and the reply is OK; on a
module not sent off the reply is OK_NOTE with detail 1 and no control state changes. Where the spec leaves a point
open it states the model's own choice (logs 117, 119). -/
def Obligations.ReinstateByCommand : Prop :=
  ∀ (h : Hdr) (addr : Nat) (r : Bytes) (s : State), Ready 0x0804 h s → h.job = 0xFFFF → s.hostOk addr 256 = true → s.hostBad addr 256 = false →
    r = mread s.w.host addr 256 →
    (∀ st d, authFail 1 r (counted h s) = some (st, d) →
      exec (.reinstate h addr 256) s = .next (finish 0x0804 h s st d 0xFF [] (flt 0x7202 0x09 0xFF 0 (locCause st 0x09) (counted h s)))) ∧
    (authFail 1 r (counted h s) = none →
      (let s1 := flt 0x7201 0x09 0xFF 0 (locCause 1 0x09) ((counted h s).modSl (fun x => { x with authSeq := fld r 16 8 }))
       (s.ctl.health.sentOff = false → exec (.reinstate h addr 256) s = .next (finish 0x0804 h s 0x01 1 0xFF [] s1)) ∧
       (s.ctl.health.sentOff = true → exec (.reinstate h addr 256) s = .next (finish 0x0804 h s 0 0 0xFF []
         (event 0x000A 0xFF 0xFFFF 0 0 (flt 0x5502 0xFF 0xFF 0 locNone
           (s1.modHealth (fun x => { x with sentOff := false, inWindow := 0, stamps := [], resetDue := 9 })))))))) ∧
    (∀ st d, authFail 1 r (counted h s) = some (st, d) → (∃ o, st = 0x11 ∧ d = 2 ^ 31 + o) ∨ (st = 0xA0 ∧ d = 0))

/-- On a module whose sideline is up: a heartbeat is sent under the next sequence, in the datagram of R530; a held record
goes out again and its resend count rises; an acknowledged record is no longer held and the collector is known; a
first chunk of a drill or firmware transfer that does not complete it opens the transfer and is acknowledged with 0; a
link that was down comes up with nothing held; an address granted by DHCPv4 is taken. For every incoming sideline row
(drill and firmware chunks, the eight authorisation kinds): where the sequence stands among those handled with a
status, the next state differs only by the acknowledgement with that status, which takes the next outgoing sequence.
Where the spec leaves a point open it states the model's own choice (logs 72, 120, 121). -/
def Obligations.SidelineRecordsComplete : Prop :=
  ((∀ (s : State), s.slUp = true →
    ∃ t, exec .sidelineHeartbeat s = .next t ∧ t.cfg = s.cfg ∧ t.ctl = s.ctl ∧ t.w.sl.nextSeq = wrapAdd 32 s.w.sl.nextSeq 1 ∧
      t.w.sl.sent = wrapAdd 32 s.w.sl.sent 1 ∧ t.w.out = .sideline s.w.sl.nextSeq 0x01 1 (slDatagram s 0x01 s.w.sl.nextSeq
        (layout [(8, hlState s), (8, pwIn s), (8, pwTj s), (8, idBoot s), (8, idFw s)])) :: s.w.out) ∧
  (∀ (seq : Nat) (r : SlRec) (s : State), s.slUp = true → s.w.sl.held.find? (fun x => x.seq == seq) = some r →
    ∃ t, exec (.sidelineResend seq) s = .next t ∧ t.cfg = s.cfg ∧ t.ctl = s.ctl ∧ t.w.out = .sideline r.seq r.kind r.sev (slDatagram s r.kind r.seq r.payload) :: s.w.out ∧
      t.w.sl.held = s.w.sl.held.map (fun x => if x.seq == r.seq then { x with resends := x.resends + 1 } else x)) ∧
  (∀ (seq : Nat) (s : State), s.slUp = true →
    ∃ t, exec (.sidelineAck seq) s = .next t ∧ t.cfg = s.cfg ∧ t.ctl = s.ctl ∧ (∀ x ∈ t.w.sl.held, x.seq ≠ seq) ∧
      (∀ x ∈ s.w.sl.held, x.seq ≠ seq → x ∈ t.w.sl.held) ∧ t.w.sl.collector = true ∧ t.w.sl.lastAckNs = s.ctl.clk.ns) ∧
  (∀ (seq : Nat) (p : Bytes) (x : Xfer) (s : State), s.slUp = true → (∀ e ∈ s.w.sl.handled, e.1 ≠ seq) →
    chunkIn s.w.sl.drill p = some x → covered x.got x.total = false →
    ∃ t, exec (.sidelineDrillChunk seq p) s = .next t ∧ t.cfg = s.cfg ∧ t.ctl = s.ctl ∧ t.w.sl.drill = some x ∧ t.w.sl.handled = (seq, 0) :: s.w.sl.handled) ∧
  (∀ (seq : Nat) (p : Bytes) (x : Xfer) (s : State), s.slUp = true → (∀ e ∈ s.w.sl.handled, e.1 ≠ seq) →
    chunkIn s.w.sl.fw p = some x → covered x.got x.total = false →
    ∃ t, exec (.sidelineFirmwareChunk seq p) s = .next t ∧ t.cfg = s.cfg ∧ t.w.sl.fw = some x ∧ t.w.sl.handled = (seq, 0) :: s.w.sl.handled ∧
      t.ctl.ident = s.ctl.ident.putSlot (idleSlot s.ctl.ident) (.held (mread x.data 0 x.total))) ∧
  (∀ (s : State), s.ctl.power.phase ≠ .off → s.w.sl.link = false → s.w.sl.held = [] →
    exec (.sidelineLinkChange true) s = .next { s with w := { s.w with sl := { s.w.sl with link := true } } }) ∧
  (∀ (addr mask gateway : Nat) (s : State), s.slUp = true → s.w.sl.dhcp = true →
    exec (.dhcpv4Address addr mask gateway) s = .next { s with w := { s.w with sl := { s.w.sl with
      addr := addr % 2 ^ 32, netmask := mask % 2 ^ 32, gateway := gateway % 2 ^ 32, addrOk := addr % 2 ^ 32 != 0 } } })) ∧
  (∀ (c : Instr) (seq st : Nat) (p : Bytes) (s : State),
    (c = .sidelineDrillChunk seq p ∨ c = .sidelineFirmwareChunk seq p ∨ c = .authReinstate seq p ∨ c = .authFoul seq p ∨ c = .authEndExclusion seq p ∨
     c = .authReset seq p ∨ c = .authWake seq p ∨ c = .authEnrol seq p ∨ c = .authProvision seq p ∨ c = .authSendOff seq p) →
    s.slUp = true → s.w.sl.handled.find? (fun e => e.1 == seq) = some (seq, st) →
    exec c s = .next { s with w := { s.w with
      sl := { s.w.sl with nextSeq := wrapAdd 32 s.w.sl.nextSeq 1, sent := wrapAdd 32 s.w.sl.sent 1 }
      out := .sideline s.w.sl.nextSeq 0x04 1 (slDatagram s 0x04 s.w.sl.nextSeq (layout [(4, seq), (1, st), (3, 0)])) :: s.w.out } })

/-- With the bus powered: Set Endpoint ID with an assignable ID (operation set or force) is taken and answered; Get
Endpoint ID answers the ID in force; Get MCTP Version Support of a supported type answers one version (its number is
free, log 73); Get Message Type Support answers SPDM beside control. Nothing else changes. Where the spec leaves a
point open it states the model's own choice (log 73). -/
def Obligations.ManagementBusAnswers : Prop :=
  (∀ (op eid : Nat) (s : State), s.ctl.power.phase ≠ .off → op % 4 ≤ 1 → 8 ≤ eid → eid ≤ 0xFE →
    exec (.setEndpointId op eid) s = .next (ctlAnswer 0x01 0x00 (layout [(1, 0), (1, eid), (1, 0)])
      { s with ctl := { s.ctl with mctp := { s.ctl.mctp with eid := eid } } })) ∧
  (∀ (s : State), s.ctl.power.phase ≠ .off →
    exec .getEndpointId s = .next (ctlAnswer 0x02 0x00 (layout [(1, s.ctl.mctp.eid), (1, 0), (1, 0)]) s)) ∧
  (∀ (typ : Nat) (s : State), s.ctl.power.phase ≠ .off → (typ = 0xFF ∨ typ = 0x00 ∨ typ = 0x05) →
    exec (.getMctpVersionSupport typ) s = .next (ctlAnswer 0x04 0x00 (layout [(1, 1), (4, Config.freeValue s.w.free)])
      { s with w := { s.w with free := s.w.free + 1 } })) ∧
  (∀ (s : State), s.ctl.power.phase ≠ .off → exec .getMessageTypeSupport s = .next (ctlAnswer 0x05 0x00 (layout [(1, 1), (1, 0x05)]) s))

/-- GET_VERSION opens the exchange with versions 1.2 and 1.3. On a module in service: GET_CAPABILITIES after it and
NEGOTIATE_ALGORITHMS offering ECDSA P-384 and SHA-384 advance the exchange; then GET_DIGESTS answers the digest of the
slot 0 chain, GET_CERTIFICATE a part of that chain (InvalidRequest for an offset past its end), CHALLENGE and an
unsigned GET_MEASUREMENTS of one block are answered. Values the spec leaves open (times, sizes, nonces, signatures)
are free. None of them changes anything but the exchange, the free counter and what is sent. While the responder is
busy (the module is neither in service nor in sit-out, or sit-out entry or exit is due), each of the six requests
other than GET_VERSION is answered by ERROR with code ResponseNotReady (0x42) under the version in force; only the
free counter and what is sent change, so the exchange does not advance. Where the spec leaves a point open it states
the model's own choice (logs 4, 73). -/
def Obligations.SpdmExchangeRuns : Prop :=
  ((∀ (s : State), s.ctl.power.phase ≠ .off →
    exec .getVersion s = .next (spdmSend 0x10 0x04 0 0 (layout [(1, 0), (1, 2), (2, 0x1200), (2, 0x1300)])
      { s with ctl := { s.ctl with mctp := { s.ctl.mctp with spdm := 1, version := 0x10 } } })) ∧
  (∀ (s : State), s.ctl.power.phase = .run → s.ctl.power.sitPending = false → 1 ≤ s.ctl.mctp.spdm →
    ∃ t, exec .getCapabilities s = .next t ∧ t.ctl.mctp.spdm = 2 ∧ (t.ctl.mctp.version = 0x12 ∨ t.ctl.mctp.version = 0x13) ∧
      t.cfg = s.cfg ∧ t.w.out.length = s.w.out.length + 1) ∧
  (∀ (asym hash : Nat) (s : State), s.ctl.power.phase = .run → s.ctl.power.sitPending = false → 2 ≤ s.ctl.mctp.spdm → bit asym 7 = true → bit hash 1 = true →
      exec (.negotiateAlgorithms asym hash) s = .next (spdmSend s.ctl.mctp.version 0x63 0 0
        (layout [(2, 36), (1, 1), (1, 0), (4, 0x4), (4, 0x80), (4, 0x2), (12, 0), (1, 0), (1, 0), (2, 0)])
        { s with ctl := { s.ctl with mctp := { s.ctl.mctp with spdm := 3 } } })) ∧
  (∀ (s : State), s.ctl.power.phase = .run → s.ctl.power.sitPending = false → 3 ≤ s.ctl.mctp.spdm →
    exec .getDigests s = .next (spdmSend s.ctl.mctp.version 0x01 0 0x01 chainDigest s)) ∧
  (∀ (off len : Nat) (s : State), s.ctl.power.phase = .run → s.ctl.power.sitPending = false → 3 ≤ s.ctl.mctp.spdm → exec (.getCertificate 0 off len) s = .next (if Config.certChain.length ≤ off then spdmError 0x01 s
        else spdmSend s.ctl.mctp.version 0x02 0 0 (layout [(2, min (min len 0xFFFF) (Config.certChain.length - off)),
          (2, Config.certChain.length - off - min (min len 0xFFFF) (Config.certChain.length - off))] ++ (Config.certChain.drop off).take (min len 0xFFFF)) s)) ∧
  (∀ (nonce : Bytes) (s : State), s.ctl.power.phase = .run → s.ctl.power.sitPending = false → 3 ≤ s.ctl.mctp.spdm → ∃ d, exec (.challenge 0 nonce) s = .next (spdmSend s.ctl.mctp.version 0x03 0 0x01 (chainDigest ++ d)
        { s with w := { s.w with free := s.w.free + 2 } })) ∧
  (∀ (i : Nat) (nonce : Bytes) (s : State), s.ctl.power.phase = .run → s.ctl.power.sitPending = false → 3 ≤ s.ctl.mctp.spdm → 1 ≤ i → i ≤ 8 → ∃ d, exec (.getMeasurements i false nonce) s = .next (spdmSend s.ctl.mctp.version 0x60 0 0
        (layout [(1, 1), (3, (measBlock i s).length)] ++ measBlock i s ++ d) { s with w := { s.w with free := s.w.free + 1 } }))) ∧
  (∀ (c : Instr) (s : State),
    (c = .getCapabilities ∨ (∃ a h, c = .negotiateAlgorithms a h) ∨ c = .getDigests ∨ (∃ x y z, c = .getCertificate x y z) ∨ (∃ x n, c = .challenge x n) ∨
     (∃ i b n, c = .getMeasurements i b n)) →
    s.ctl.power.phase ≠ .off → spdmBusy s = true →
    exec c s = .next { s with w := { s.w with
      free := s.w.free + 1
      out := .mctp (layout [(1, 0x05), (1, s.ctl.mctp.version), (1, 0x7F), (1, 0x42), (1, 0)] ++ leBytes 4 (Config.freeValue s.w.free)) :: s.w.out } })

/-- From Off, power applied with legal straps samples them, sets the settle delay they name and waits for REFCLK; detect
starts the settle count, its end starts PLL locking, the lock of a cold start begins calibration with the timekeeper
at 0; the lock after a loss goes on from the kept time with a warm reset of cause 6 due; either empties every
crossing. PWR_EN low, under-voltage and over-voltage write their event and drop all rails. PERST# asserted on a module
that has been ready makes a warm reset of cause 3 due; its release lets the host port train; WAKE# is released. Where
the spec leaves a point open it states the model's own choice (logs 3, 133, 134). -/
def Obligations.PowerAndClockBringUp : Prop :=
  (∀ (cs xs smb : Nat) (m : Bool) (s : State), s.ctl.power.phase = .off → cs < 4 → xs < 3 → smb < 8 →
    exec (.powerApplied cs xs smb m 15) s = .next { s with
      cfg := { s.cfg with settleUs := if cs = 0 then 1000 else if cs = 1 then 5000 else if cs = 2 then 20000 else 100000 }
      ctl := { s.ctl with power := { s.ctl.power with
        phase := .waitRefclk, bringup := .cold, pwrOk := true, nowMv := 750
        straps := { clkSettle := cs, cxlSplit := xs, smbAddr := smb, slMode := m, rsvd := 15 } } }
      w := { s.w with sl := { s.w.sl with mode := m } } }) ∧
  (∀ (s : State), s.ctl.power.phase = .waitRefclk →
    exec .refclkDetect s = .next { s with ctl := { s.ctl with power := { s.ctl.power with phase := .settling } } }) ∧
  (∀ (s : State), s.ctl.power.phase = .settling → s.ctl.power.bringup ≠ .sitOutReturn →
    exec .settleDone s = .next { s with ctl := { s.ctl with power := { s.ctl.power with phase := .locking } } }) ∧
  (∀ (s : State), s.ctl.power.phase = .locking → s.ctl.power.bringup = .cold →
    exec .pllLock s = .next { s with
      ctl := { s.ctl with
        power := { s.ctl.power with phase := .calibrating }
        clk := { s.ctl.clk with locked := true, ns := 0, running := true, synced := false, frozen := false } }
      w := { s.w with xings := [], stalled := [] } }) ∧
  (∀ (s : State), s.ctl.power.phase = .locking → s.ctl.power.bringup = .refclkReturn → s.ctl.power.uncal = false →
    exec .pllLock s = .next { s with
      ctl := { s.ctl with
        power := { s.ctl.power with phase := .run, bringup := .cold }
        clk := { s.ctl.clk with locked := true, running := true, synced := false, frozen := false }
        health := { s.ctl.health with resetDue := 6 } }
      w := { s.w with xings := [], stalled := [] } }) ∧
  (∀ (s : State), s.ctl.power.phase ≠ .off →
    exec .pwrEnLow s = .next (railsOff (flt 0x4303 0xFF 0xFF 0 locNone s)) ∧
    exec .underVoltage s = .next (railsOff (flt 0x4303 0xFF 0xFF 0 locNone s)) ∧
    exec .overVoltage s = .next (railsOff (flt 0x4304 0xFF 0xFF 0 locNone s))) ∧
  (∀ (s : State), s.ctl.power.reached = true → s.ctl.power.phase = .run →
    exec .perstAssert s = .next { s with ctl := { s.ctl with
      power := { s.ctl.power with perst := true, hostPortUp := false }, health := { s.ctl.health with resetDue := 3 } } }) ∧
  (∀ (s : State), s.ctl.power.phase = .run →
    exec .perstRelease s = .next { s with ctl := { s.ctl with power := { s.ctl.power with perst := false, hostPortUp := true } } }) ∧
  (∀ (s : State), exec .wakeRelease s = .next { s with ctl := { s.ctl with power := { s.ctl.power with wakeLow := false } } })

/-- From every powered state, PWR_EN low, under-voltage and over-voltage lead to Off with power good released and nothing
in service: no queue, job, device memory, mapping, mode or unit is left and the timekeeper is back at its reset value,
while the serial, fuses, flash slots, the sent-off state, the reset counts, the newest 256 fault-log records in order
and the retirement of cells are kept. Host memory is not the module's and is left as the event record found it. Where
the spec leaves a point open it states the model's own choice (logs 3, 127). -/
def Obligations.RailsOffKeepsTheKeepStore : Prop :=
  ∀ (c : Instr) (s : State), (c = .pwrEnLow ∨ c = .underVoltage ∨ c = .overVoltage) → s.ctl.power.phase ≠ .off →
    ∃ t, exec c s = .next t ∧ t.ctl.power.phase = .off ∧ t.ctl.power.pwrOk = false ∧ t.ctl.unitEn = 0 ∧ t.ctl.clk = {} ∧ t.ctl.surv = {} ∧
      t.w.queues = [] ∧ t.w.jobs = [] ∧ t.w.dev = [] ∧ t.w.mmu = {} ∧ t.w.inflight = [] ∧ t.w.waits = [] ∧ t.w.dma = [] ∧ t.w.msgs = {} ∧
      t.ctl.ident.serial = s.ctl.ident.serial ∧ t.ctl.ident.slotA = s.ctl.ident.slotA ∧ t.ctl.ident.slotB = s.ctl.ident.slotB ∧
      t.ctl.ident.svnFloor = s.ctl.ident.svnFloor ∧ t.ctl.health.sentOff = s.ctl.health.sentOff ∧ t.ctl.health.warmTotal = s.ctl.health.warmTotal ∧
      t.w.sl.fleetKey = s.w.sl.fleetKey ∧ t.w.sl.authSeq = s.w.sl.authSeq ∧
      t.w.flog.recs.length ≤ 256 ∧ (∀ r ∈ t.w.flog.recs, r.old = true) ∧ (∀ e ∈ t.w.cells, e.2.retired = true) ∧
      (∀ e ∈ s.w.cells, e.2.retired = true → ∃ e' ∈ t.w.cells, e'.1 = e.1 ∧ e'.2.retired = true)

/-- CALIBRATION_DONE in the calibration phase with no die below 10 °C, and SIT_OUT_EXIT in sit-out with a wake, end in the
run phase with the settings as they stood (the exit restores the retained core voltage target and junction limit),
ready exactly when boot succeeded, and with no unit enabled when it failed; the exit also records what woke the module
and drives WAKE# low. Where the spec leaves a point open it states the model's own choice (logs 132, 133). -/
def Obligations.CalibrationAndSitOutExitBringTheModuleUp : Prop :=
  (∀ (common : Cal) (ex : List (Nat × Cal)) (cxl : List (Nat × Nat × Nat × Bool × Nat)) (s : State), s.ctl.power.phase = .calibrating → s.ctl.power.coldDies = false →
    ∃ t, exec (.calibrationDone common ex cxl) s = .next t ∧ t.ctl.power.phase = .run ∧ t.cfg = s.cfg ∧ t.ctl.power.ready = !t.ctl.ident.failed ∧
      (t.ctl.ident.failed = true → t.ctl.unitEn = 0) ∧ (t.ctl.ident.failed = false → t.ctl.health.alive = 0xF)) ∧
  (∀ (r : Retention) (s : State), s.ctl.power.phase = .sitOut → s.ctl.power.wakePending ≠ 0 → s.ctl.power.retention = some r →
    ∃ t, exec .sitOutExit s = .next t ∧ t.ctl.power.phase = .run ∧ t.cfg = { s.cfg with targetMv := r.targetMv, tjLimitC := r.tjLimitC } ∧
      t.ctl.power.capW = r.capW ∧ t.ctl.power.lastWake = s.ctl.power.wakePending ∧ t.ctl.power.wakePending = 0 ∧ t.ctl.power.wakeLow = true ∧
      t.ctl.power.ready = !t.ctl.ident.failed ∧ (t.ctl.ident.failed = true → t.ctl.unitEn = 0))

/-- REFCLK_LOSS, of the clock or (row operand true) of a PLL that holds lock, with no link in use on a module in service:
event 0x5101 is logged, the lost flag is set and the losses are counted, the timekeeper stops, PLL lock is gone, the
crossings are frozen, memory is in self-refresh, the host port is down, queue 0 is not ready, and the module waits for
REFCLK with a warm reset of cause 6 to follow its return; the settings stand. -/
def Obligations.ClockLossStopsTheModule : Prop :=
  ∀ (lock : Bool) (s : State), s.ctl.power.phase = .run → (lock = true → s.ctl.clk.locked = true) → (∀ l < 24, (s.link l).state = 0 ∨ (s.link l).state = 4) →
    ∃ t, exec (.refclkLoss lock) s = .next t ∧ t.cfg = s.cfg ∧ t.ctl.power.phase = .waitRefclk ∧ t.ctl.power.bringup = .refclkReturn ∧
      t.ctl.power.hostPortUp = false ∧ t.ctl.power.ready = false ∧ t.ctl.clk.lost = true ∧ t.ctl.clk.locked = false ∧ t.ctl.clk.running = false ∧ t.ctl.clk.frozen = true ∧ t.ctl.power.selfRef = true ∧
      t.ctl.clk.ns = s.ctl.clk.ns ∧ t.ctl.clk.lossCount = satAdd 8 s.ctl.clk.lossCount 1 ∧ t.ctl.health.flushMiss = 2

/-- WARM_RESET of a cause 2 to 9 on a module in service: the survival record names the cause, the time and the unit; it is
marked valid, the reset is counted and the last cause is kept; settings are at their reset values but for the settle
delay and a provisioned severity; device memory stands byte for byte; no queue context, mapping, DMA channel, command
in flight or waiting access is left. Where the spec leaves a point open it states the model's own choice (logs 56,
128, 129, 130). -/
def Obligations.WarmResetLeavesASurvivalRecord : Prop :=
  ∀ (cause unit detail : Nat) (s : State), 2 ≤ cause → cause ≤ 9 → s.ctl.power.phase = .run →
    ∃ t, exec (.warmReset cause unit detail) s = .next t ∧
      t.ctl.surv.cause = cause ∧ t.ctl.surv.ns = s.ctl.clk.ns ∧ t.ctl.surv.causeDetail % 256 = unit % 256 ∧ t.ctl.health.recordValid = true ∧ t.ctl.health.lastCause = cause ∧
      t.ctl.health.lastNs = s.ctl.clk.ns ∧ t.ctl.health.warmTotal = satAdd 16 s.ctl.health.warmTotal 1 ∧
      t.cfg = { settleUs := s.cfg.settleUs, sideSev := if s.w.sl.prov then s.cfg.provSev else 1, provSev := s.cfg.provSev } ∧
      t.w.dev = s.w.dev ∧ t.w.queues = [] ∧ t.w.mmu = {} ∧ t.w.dma = [] ∧ t.w.inflight = [] ∧ t.w.waits = [] ∧ t.w.apWait = [] ∧
      t.ctl.mctp.spdm = 0 ∧ t.ctl.clk.ns = s.ctl.clk.ns

/-- On a module whose firmware runs: a missed heartbeat counts, marks its core and makes a reset of cause 4 due; a stuck
cell or engine makes a reset of cause 5 due; a job with a command in flight has its watchdog flag set and nothing else
of it changes; a stuck link that is up goes down; a flush timeout of a granule that holds dirty lines makes it stale
under R465 and marks the next reset's flush. Where the spec leaves a point open it states the model's own choice (logs
55, 130). -/
def Obligations.WatchdogsAndFlush : Prop :=
  (∀ (core : Nat) (s : State), s.ctl.power.phase = .run → s.ctl.ident.failed = false →
    ∃ t, exec (.heartbeatWatchdog core) s = .next t ∧ t.cfg = s.cfg ∧
      t.ctl.health = { s.ctl.health with misses := satAdd 16 s.ctl.health.misses 1, alive := setBit s.ctl.health.alive (core % 4) false, resetDue := 4 } ∧
      t.w.flog.head = (flt 0x5301 0x00 0xFF 0 (locCause 4 0x00) s).w.flog.head) ∧
  (∀ (unit die cell : Nat) (s : State), s.ctl.power.phase = .run → s.ctl.ident.failed = false →
    ∃ t, exec (.stageWatchdog unit die cell) s = .next t ∧ t.cfg = s.cfg ∧ t.ctl.health = { s.ctl.health with resetDue := 5 }) ∧
  (∀ (l : Nat) (s : State), l < 24 → Sys2Proof.Claims.rising s.w.lk → (s.link l).state = 3 →
    ∃ t, exec (.linkWatchdog l) s = .next t ∧ t.cfg = s.cfg ∧ t.ctl = s.ctl ∧ (t.link l).state = 4 ∧ (t.link l).replay = [] ∧ (t.link l).txq = []) ∧
  (∀ (job : Nat) (r : Run) (s : State), job < 64 → s.ctl.power.phase = .run → s.ctl.ident.failed = false → r ∈ s.w.inflight → r.hdr.job = job →
    (s.job job).pstate ≠ 2 → Sys2Proof.Claims.rising s.ctl.health.tripped →
    ∃ t, exec (.queueWatchdog job) s = .next t ∧ t.cfg = s.cfg ∧ t.w.jobs = s.w.jobs ∧ t.w.queues = s.w.queues ∧ t.w.inflight = s.w.inflight ∧
      tget false t.ctl.health.tripped job = true) ∧
  (∀ (g : Gran) (s : State), s.ctl.power.phase = .run → g ∈ dirtyGrans s (fun _ => true) →
    exec (.flushTimeout g) s = .next ((makeStale [g] s).modHealth (fun h => { h with flushMiss := max h.flushMiss 1 })))

/-- POWER_SAMPLE on a powered module reads input voltage, power, junctions and coolant into their registers, saturated to
their fields, and changes no setting. In service, with no die tripped and the input power above the cap, the core
voltage falls by 5 mV while it stands above 600 mV. CAP_NOT_HELD with every step spent writes event 0x4104. DIE_TRIP
in service with no job on the array sets the core to at most 600 mV, the gate to half and the stack cap. Where the
spec leaves a point open it states the model's own choice (logs 107, 135). -/
def Obligations.PowerControllerActs : Prop :=
  (∀ (x : Sample) (s : State), s.ctl.power.phase ≠ .off →
    ∃ t, exec (.powerSample x) s = .next t ∧ t.cfg = s.cfg ∧ t.ctl.power.inMv = min x.inMv 65535 ∧ t.ctl.power.inW = min x.pmW 65535 ∧
      t.ctl.power.hubTenths = min x.hub 4095 ∧ t.ctl.power.inletTenths = min x.inlet 4095 ∧ t.ctl.power.outletTenths = min x.outlet 4095 ∧
      t.ctl.power.phase = s.ctl.power.phase ∧ t.ctl.power.capW = s.ctl.power.capW ∧ t.ctl.unitEn = s.ctl.unitEn ∧
      (s.ctl.power.phase = .run → s.ctl.power.dieTripped = false → s.ctl.power.capW < x.psW → 600 < s.ctl.power.nowMv →
        t.ctl.power.nowMv = s.ctl.power.nowMv - 5 ∧ t.ctl.power.gate = s.ctl.power.gate ∧ t.ctl.power.stkCap = s.ctl.power.stkCap)) ∧
  (∀ (s : State), s.ctl.power.phase = .run → s.ctl.power.nowMv ≤ 600 → s.ctl.power.gate ≤ 8 → s.ctl.power.stkCap = true →
    exec .capNotHeld s = .next (flt 0x4104 0xFF 0xFF 0 locNone s)) ∧
  (∀ (die : Nat) (s : State), die ≤ 4 → s.ctl.power.phase = .run → s.w.holder = none →
    ∃ t, exec (.dieTrip die) s = .next t ∧ t.cfg = s.cfg ∧ t.ctl.unitEn = s.ctl.unitEn ∧
      t.ctl.power = { s.ctl.power with nowMv := min s.ctl.power.nowMv 600, gate := 8, stkCap := true, dieTripped := true, diesBelow85 := false })

/-- SIT_OUT_ENTRY once accepted, and THERMAL_SITOUT_TIMER with a die still hot, lead to the sit-out phase with every unit
disabled, the core rail off, the host port down, the input cap, voltage target and junction limit in the retention
store, and no queue, mapping or command left; only the thermal entry is marked thermal. BENCH_SIGNAL_DETECT, armed,
makes a wake of source 2 due in sit-out. Where the spec leaves a point open it states the model's own choice (logs
132, 148). -/
def Obligations.SitOutIsEnteredAndWoken : Prop :=
  (∀ (s : State), s.ctl.power.sitPending = true → s.ctl.power.phase = .run →
    ∃ t, exec .sitOutEntry s = .next t ∧ t.ctl.power.phase = .sitOut ∧ t.ctl.power.thermSit = false ∧ t.ctl.power.sitPending = false ∧ t.ctl.unitEn = 0 ∧
      t.ctl.power.nowMv = 0 ∧ t.ctl.power.hostPortUp = false ∧ t.ctl.power.ready = false ∧
      (∃ r, t.ctl.power.retention = some r ∧ r.targetMv = s.cfg.targetMv ∧ r.tjLimitC = s.cfg.tjLimitC ∧ r.capW = s.ctl.power.capW) ∧
      t.cfg.targetMv = s.cfg.targetMv ∧ t.w.queues = [] ∧ t.w.mmu = {} ∧ t.w.inflight = [] ∧ t.w.waits = []) ∧
  (∀ (s : State), s.ctl.power.dieTripped = true → s.ctl.power.phase = .run →
    ∃ t, exec (.thermalSitoutTimer true) s = .next t ∧ t.ctl.power.phase = .sitOut ∧ t.ctl.power.thermSit = true ∧ t.ctl.unitEn = 0 ∧
      t.ctl.power.nowMv = 0 ∧ t.w.queues = [] ∧ t.w.inflight = []) ∧
  (∀ (s : State), s.cfg.wakeBench = true → s.ctl.power.phase = .sitOut → s.ctl.power.thermSit = false → s.ctl.power.wakePending = 0 →
    exec .benchSignalDetect s = .next { s with ctl := { s.ctl with power := { s.ctl.power with wakePending := 2 } } })

/-- RATE_WINDOW_END of a running die in service, with the drift and floor rules off: each of its 144 cells holds the
handshakes it counted divided by the window length in microseconds, saturated to 16 bits; no cell of another die and
no control state changes. Where the spec leaves a point open it states the model's own choice (log 137). -/
def Obligations.RateWindowIsMeasured : Prop :=
  ∀ (die : Nat) (counts : List Nat) (s : State), die < 4 → s.ctl.power.phase = .run → (tget {} s.cfg.die die).run = true →
    (tget {} s.cfg.die die).driftEn = false → (tget {} s.cfg.die die).floorEn = false → Sys2Proof.Claims.rising s.w.cells →
    ∃ t, exec (.rateWindowEnd die counts) s = .next t ∧ t.cfg = s.cfg ∧ t.ctl = s.ctl ∧
      (∀ i < 144, (t.cell (144 * die + i)).rateMhz = min (counts.getD i 0 / max (tget {} s.cfg.die die).windowUs 1) 65535) ∧
      (∀ k, k / 144 ≠ die → t.cell k = s.cell k)

/-- QUEUE_ENABLE on a queue of state 0, queue controller enabled: where the sizes are 2^4 to 2^15, the reply ring is no
smaller, both bases are 4 KiB aligned, queue 0 has class 0 and host addresses and any other queue a live job, the
context takes the written fields, its pointers and counters are 0 and it runs; where a check fails the code of the
first is in err and the queue stays in state 0. QUEUE_DISABLE on a running queue: with nothing in flight and nothing
fetched it is in state 0, otherwise it drains (state 3). Nothing but the context changes. Where the spec leaves a
point open it states the model's own choice (log 94). -/
def Obligations.QueueContextIsEnabledAndDisabled : Prop :=
  (∀ (q v : Nat) (c : Queue) (s : State), q < 8192 → s.unitOn 0x01 = true → (s.queue q).state = 0 → c = cfgFields (setBit v 24 true) (s.queue q) → 4 ≤ c.cmdLog2 →
    c.cmdLog2 ≤ c.rplLog2 → c.rplLog2 ≤ 15 → c.cmdBase % 4096 = 0 → c.rplBase % 4096 = 0 → (q = 0 → c.cls = 0 ∧ c.addrHost = true) → (q ≠ 0 → s.live c.job = true) →
    exec (.queueEnable q v) s = .next (s.setQueue q { c with
      en := true, err := 0, state := 1, cmdTail := 0, cmdHead := 0, rplTail := 0, rplHead := 0, done := 0, lastSeq := 0
      unsig := 0, fetched := [], parked := [], fetchParked := false })) ∧
  (∀ (q v : Nat) (c : Queue) (s : State), q < 8192 → s.unitOn 0x01 = true → (s.queue q).state = 0 → c = cfgFields (setBit v 24 true) (s.queue q) → 
    c.cmdLog2 < 4 ∨ 15 < c.cmdLog2 ∨ c.rplLog2 < 4 ∨ 15 < c.rplLog2 → exec (.queueEnable q v) s = .next (s.setQueue q { c with en := true, err := 1 })) ∧
  (∀ (q v : Nat) (c : Queue) (s : State), q < 8192 → s.unitOn 0x01 = true → (s.queue q).state = 0 → c = cfgFields (setBit v 24 true) (s.queue q) → 
    4 ≤ c.rplLog2 → c.rplLog2 < c.cmdLog2 → c.cmdLog2 ≤ 15 → exec (.queueEnable q v) s = .next (s.setQueue q { c with en := true, err := 2 })) ∧
  (∀ (q v e : Nat) (c : Queue) (s : State), q < 8192 → s.unitOn 0x01 = true → (s.queue q).state = 0 → c = cfgFields (setBit v 24 true) (s.queue q) → 
    enableErr s q c = some e → exec (.queueEnable q v) s = .next (s.setQueue q { c with en := true, err := e })) ∧
  (∀ (q v : Nat) (s : State), q < 8192 → s.unitOn 0x01 = true → (s.queue q).state = 1 → Sys2Proof.Claims.rising s.w.queues →
    ∃ t, exec (.queueDisable q v) s = .next t ∧ { t with w := { t.w with queues := s.w.queues } } = s ∧
      (t.queue q).en = false ∧ (t.queue q).fetchParked = false ∧
      (t.queue q).state = (if (s.queue q).inflight = 0 ∧ (s.queue q).fetched = [] then 0 else 3) ∧
      (t.queue q).cmdTail = (s.queue q).cmdTail ∧ (t.queue q).rplTail = (s.queue q).rplTail ∧
      (∀ k, k ≠ q → t.queue k = s.queue k))

/-- With the queue controller enabled: DB_CMD_TAIL with a new tail that leaves at most the ring's size unfetched moves the
tail and nothing else; the same tail again moves nothing; a tail that leaves more halts the queue with error 5 and the
tail as written; DB_RPL_HEAD moves the head and nothing else. On a queue that is disabled or halted either write is
dropped and counted. Each doorbell is counted at the host port's crossing (R59). Where the spec leaves a point open it
states the model's own choice (log 59). -/
def Obligations.DoorbellsMoveTheirPointers : Prop :=
  (∀ (q v : Nat) (s : State), q < 8192 → v < 65536 → s.unitOn 0x01 = true → (s.queue q).state = 1 ∨ (s.queue q).state = 3 →
    (v ≠ (s.queue q).cmdTail → (v + 65536 - (s.queue q).cmdHead) % 65536 ≤ 2 ^ (s.queue q).cmdLog2 →
      exec (.dbCmdTail q v) s = .next ((s.modXing xHost Xing.event).setQueue q { (s.queue q) with cmdTail := v })) ∧
    (v = (s.queue q).cmdTail → exec (.dbCmdTail q v) s = .next (s.modXing xHost Xing.event)) ∧
    (v ≠ (s.queue q).cmdTail → 2 ^ (s.queue q).cmdLog2 < (v + 65536 - (s.queue q).cmdHead) % 65536 → Sys2Proof.Claims.rising s.w.queues →
      ∃ t, exec (.dbCmdTail q v) s = .next t ∧ t.cfg = s.cfg ∧ t.ctl = s.ctl ∧
        t.queue q = { (s.queue q) with cmdTail := v, state := 2, err := 5, fetchParked := false } ∧ (∀ k, k ≠ q → t.queue k = s.queue k)) ∧
    exec (.dbRplHead q v) s = .next ((s.modXing xHost Xing.event).setQueue q { (s.queue q) with rplHead := v })) ∧
  (∀ (q v : Nat) (s : State), q < 8192 → s.unitOn 0x01 = true → (s.queue q).state = 0 ∨ (s.queue q).state = 2 →
    (let t := (s.modXing xHost Xing.event).onW (fun w => { w with qarb := { w.qarb with dropped := min (w.qarb.dropped + 1) 65535 } })
     exec (.dbCmdTail q v) s = .next t ∧ exec (.dbRplHead q v) s = .next t))

/-- EVENT_RING_ENABLE takes a size of 2^4 to 2^15 and keeps the size held where the value is outside (R564). With a size
in range and a 4 KiB aligned base: the ring is enabled, without error, its tail, head and lost count 0; otherwise it
is disabled with error 1; nothing outside the ring's registers changes. COALESCE_TIMER on a queue with a coalescing
time and replies not signalled clears their count and fires the vector: with the vector unmasked, one interrupt
message is sent. Where the spec leaves a point open it states the model's own choice (log 84). -/
def Obligations.EventRingAndCoalescing : Prop :=
  (∀ (v : Nat) (s : State),
    ∃ t, exec (.eventRingEnable v) s = .next t ∧ { t with w := { t.w with ev := s.w.ev } } = s ∧
      t.w.ev.log2 = pick 4 15 (v % 16) s.w.ev.log2 ∧ t.w.ev.vector = v / 65536 % 2048 ∧ t.w.ev.base = s.w.ev.base ∧
      (4 ≤ t.w.ev.log2 → t.w.ev.log2 ≤ 15 → s.w.ev.base % 4096 = 0 → t.w.ev.en = true ∧ t.w.ev.err = 0 ∧ t.w.ev.tail = 0 ∧ t.w.ev.head = 0 ∧ t.w.ev.lost = 0) ∧
      (t.w.ev.log2 < 4 ∨ 15 < t.w.ev.log2 ∨ s.w.ev.base % 4096 ≠ 0 → t.w.ev.en = false ∧ t.w.ev.err = 1)) ∧
  (∀ (q : Nat) (s : State), (s.queue q).coalUs ≠ 0 → (s.queue q).unsig ≠ 0 → (tget {} s.w.msix (s.queue q).vector).masked = false →
    exec (.coalesceTimer q) s = .next { s with w := { s.w with
      xings := tmod {} s.w.xings xHost Xing.event
      queues := tput {} s.w.queues q { (s.queue q) with unsig := 0 }
      out := .msix (s.queue q).vector (tget {} s.w.msix (s.queue q).vector).addr (tget {} s.w.msix (s.queue q).vector).data :: s.w.out } }) ∧
  (∀ (q : Nat) (s : State), (s.queue q).coalUs = 0 ∨ (s.queue q).unsig = 0 → exec (.coalesceTimer q) s = .next s)

/-- For every command that comes in a packet, starting the packet leads to the state that exec of the command answers.
With one packet to fetch on queue 0, whose bytes can be read, and nothing in flight, fetched, parked or waiting
elsewhere, QUEUE_FETCH (crossings clocked) passes the host crossing once, advances the command head by one and starts
that packet; a JOB_DESTROY whose queues are drained then completes. With the queue controller disabled, nothing
fetched and nothing waiting, it fetches nothing: only such a JOB_DESTROY completes. Where the spec leaves a point open
it states the model's own choice (logs 20, 37). -/
def Obligations.FetchStartsTheCommand : Prop :=
  (∀ (c : Instr) (s : State), (encodePacket c).isSome = true → exec c s = .next (startEnrel c s)) ∧
  (∀ (bs : Bytes) (s : State), s.ctl.clk.frozen = false → s.unitOn 0x01 = true → s.w.waits = [] → s.w.inflight = [] → (∀ e ∈ s.w.queues, e.2.fetched = []) →
    (s.queue 0).parked = [] → Sys2Proof.Claims.rising s.w.queues → canFetch s 0 = 1 → ringRead 0 (fetchAddr (s.queue 0)) 64 s = .ok bs →
    (let p : Pkt := { hdr := packetHdr 0 bs, op := fld bs 0 2, cmd := decodePacket 0 bs, ord := s.w.ordNext }
     let s1 := ((s.modXing xHost (Xing.pass 1)).setQueue 0 { (s.queue 0) with cmdHead := wrapAdd 16 (s.queue 0).cmdHead 1 }).onW (fun w => { w with ordNext := s.w.ordNext + 1 })
     exec (.queueFetch) s = .next (worldOnly settleDestroy (startPkt p s1)))) ∧
  (∀ (s : State), s.ctl.clk.frozen = false → s.unitOn 0x01 = false → s.w.waits = [] → (∀ e ∈ s.w.queues, e.2.fetched = []) →
    exec (.queueFetch) s = .next (worldOnly settleDestroy (s.modXing xHost (Xing.pass 1))))

/-- REGISTER_WRITE never changes UNIT_EN, the identity store or the management bus, and a write within the UNIT_EN block
changes nothing. A write of 4 bytes to POWER's cap register takes a cap of 900 to 1,200 W and leaves the cap
otherwise. An aligned write to the window of a disabled unit is dropped, counted as an abort and recorded as 0x5110;
DISABLED_UNIT_ACCESS does the same for a write, answers a read with Completer Abort, traps a firmware access on its
core with the unit in the trap record, and changes nothing of an enabled unit. UNIT_EN_WRITE by the firmware of a
module in service writes the implemented bits of its register and no other; with no link switched off and none to be
trained nothing else changes. Where the spec leaves a point open it states the model's own choice (logs 21, 22, 155). -/
def Obligations.RegistersTakeTheirFields : Prop :=
  (∀ (off width v : Nat) (s : State), ∃ t, exec (.registerWrite off width v) s = .next t ∧ t.ctl.unitEn = s.ctl.unitEn ∧
    t.ctl.ident = s.ctl.ident ∧ t.ctl.mctp = s.ctl.mctp ∧ t.ctl.surv = s.ctl.surv ∧ t.ctl.power.phase = s.ctl.power.phase ∧
    t.ctl.health.sentOff = s.ctl.health.sentOff) ∧
  (∀ (off width v : Nat) (s : State), 0x4000 ≤ off → off < 0x4100 → exec (.registerWrite off width v) s = .next s) ∧
  (∀ (v : Nat) (s : State),
    exec (.registerWrite 0x2000 4 v) s = .next { s with ctl := { s.ctl with power := { s.ctl.power with
      capW := if 900 ≤ v % 65536 ∧ v % 65536 ≤ 1200 then v % 65536 else s.ctl.power.capW } } }) ∧
  (∀ (off width v u : Nat) (s : State), width = 4 ∨ width = 8 → off % width = 0 → windowUnit off = some u → s.unitOn u = false →
    (let t := flt 0x5110 u 0xFF 0 (locCause 2 u) { s with ctl := { s.ctl with power := { s.ctl.power with aerAborts := s.ctl.power.aerAborts + 1 } } }
     exec (.registerWrite off width v) s = .next t ∧ exec (.disabledUnitAccess u .hostWrite) s = .next t)) ∧
  (∀ (u : Nat) (s : State),
    (s.unitOn u = false →
      exec (.disabledUnitAccess u .hostRead) s = .next (flt 0x5110 u 0xFF 0 (locCause 1 u) (s.emit (.completion 1 []))) ∧
      (∀ core < 4, exec (.disabledUnitAccess u (.firmware core)) s = .next (flt 0x5110 u 0xFF 0 (locCause 3 u)
        { s with ctl := { s.ctl with traps := tput 0 s.ctl.traps core (u + 1) } })) ∧
      exec (.disabledUnitAccess u .fromUnit) s = .next (flt 0x5110 u 0xFF 0 (locCause 5 u) s)) ∧
    (∀ a, s.unitOn u = true → exec (.disabledUnitAccess u a) s = .next s)) ∧
  (∀ (k v new : Nat) (s : State), k < 4 → s.ctl.power.phase = .run → s.ctl.ident.failed = false →
    new = s.ctl.unitEn % 2 ^ (32 * k) + 2 ^ (32 * k) * (v.land (unitMask k)) + 2 ^ (32 * (k + 1)) * (s.ctl.unitEn / 2 ^ (32 * (k + 1))) →
    ∃ t, exec (.unitEnWrite k v) s = .next t ∧ t.cfg = s.cfg ∧ t.ctl.unitEn = new) ∧
  (∀ (k v new : Nat) (s : State), k < 4 → s.ctl.power.phase = .run → s.ctl.ident.failed = false →
    new = s.ctl.unitEn % 2 ^ (32 * k) + 2 ^ (32 * k) * (v.land (unitMask k)) + 2 ^ (32 * (k + 1)) * (s.ctl.unitEn / 2 ^ (32 * (k + 1))) →
    (∀ l < 24, s.unitOn (0x30 + l) = true → bit new (0x30 + l) = true) → (∀ l < 24, (s.link l).state = 0 → (s.link l).sig = false) →
    exec (.unitEnWrite k v) s = .next { s with ctl := { s.ctl with unitEn := new } })

/-- JOB_CREATE that passes the common checks: of a context not live, not being destroyed and with no surviving state, the
context is live with the PASID and flags of the packet and its save address, everything else at its reset value, and
the result is the job and epoch 1; of a live context, OK_NOTE detail 1 with the same PASID and flags and BUSY_JOB with
others; a context number from 64 is refused. JOB_DESTROY on queue 0 of a live job with no queue, every channel free
and nothing in flight completes: the context is at its reset value, no mapping, cached translation, stale granule or
byte of device memory of the job is left, its apertures are closed and it holds the array no more. JOB_DESTROY of a
context not live answers OK_NOTE. Where the spec leaves a point open it states the model's own choice (log 102). -/
def Obligations.JobContextsAreCreatedAndDestroyed : Prop :=
  (∀ (h : Hdr) (job pasid flags : Nat) (s : State), Ready 0x0101 h s →
    (job < 64 → (∀ r ∈ s.w.inflight, r.op ≠ 0x0102) → (s.job job).live = false → survivor s job = none →
      exec (.jobCreate h job pasid flags) s = .next (finish 0x0101 h s 0 0 0xFF (layout [(1, job), (3, 0), (4, 1)])
        ((counted h s).setJob job { live := true, pasid := pasid % 2 ^ 20, ats := bit flags 0, pri := bit flags 1, saveDva := (s.job job).saveDva }))) ∧
    (job < 64 → (∀ r ∈ s.w.inflight, r.op ≠ 0x0102) → (s.job job).live = true →
      exec (.jobCreate h job pasid flags) s = .next
        (if (s.job job).pasid = pasid % 2 ^ 20 ∧ (s.job job).ats = bit flags 0 ∧ (s.job job).pri = bit flags 1 then
          finish 0x0101 h s 0x01 1 0xFF (layout [(1, job), (3, 0), (4, (s.job job).modeEpoch)]) (counted h s)
         else finish 0x0101 h s 0x30 0 0xFF [] (counted h s))) ∧
    (64 ≤ job → exec (.jobCreate h job pasid flags) s = .next (finish 0x0101 h s 0x11 16 0xFF [] (counted h s)))) ∧
  (∀ (h : Hdr) (s : State), Ready 0x0102 h s → h.q = 0 → s.w.inflight = [] → s.w.waits = [] → s.live h.job = true →
    s.w.dma = [] → (∀ e ∈ s.w.queues, e.1 ≠ 0 → e.2.job = h.job → e.2.state = 0) → Sys2Proof.Claims.rising s.w.jobs →
    ∃ t, exec (.jobDestroy h) s = .next t ∧ t.cfg = s.cfg ∧ t.job h.job = {} ∧ t.w.inflight = [] ∧ t.w.holder ≠ some h.job ∧
      (∀ m ∈ t.w.mmu.maps, m.job ≠ h.job) ∧ (∀ m ∈ t.w.mmu.atc, m.job ≠ h.job) ∧ (∀ e ∈ t.w.mmu.ap, e.2.job = h.job → e.2.en = false) ∧
      (∀ g ∈ t.w.stale, g.job ≠ h.job) ∧ (∀ e ∈ t.w.dev, e.1 / 2 ^ 81 ≠ h.job) ∧ (∀ m ∈ s.w.mmu.maps, m.job ≠ h.job → m ∈ t.w.mmu.maps)) ∧
  (∀ (h : Hdr) (s : State), Ready 0x0102 h s → s.w.inflight = [] → s.live h.job = false →
    exec (.jobDestroy h) s = .next (finish 0x0102 h s 0x01 1 0xFF [] (releaseSurvivor h.job (counted h s))))

/-- JOB_PREEMPT of a job that runs and holds no huddle sets pstate 1 and stands in flight; of a pre-empted job it answers
OK_NOTE with the step and boundary of the cut. A notice of another module sets pstate 1 and takes that module's front.
PREEMPT_BOUNDARY_REACHED of a job with no step running starts the save for boundary 0 of its next step, a quarter on
each of the channels 120 to 123, of at most 2,600 MiB. PREEMPT_SAVE_DONE sets pstate 2, frees the channels, releases
the array and completes every JOB_PREEMPT of the job (these three with the crossings clocked). JOB_RESUME of a
pre-empted job with a free array takes the array and starts the four restore streams; RESUME_RESTORE_DONE sets pstate
0 and completes it. Where the spec leaves a point open it states the model's own choice (logs 96, 101, 154). -/
def Obligations.PreemptionStopsAndResumesTheJob : Prop :=
  (∀ (h : Hdr) (s : State), Ready 0x0103 h s →
    ((s.job h.job).pstate = 2 → exec (.jobPreempt h) s = .next (finish 0x0103 h s 0x01 1 0xFF
      (layout [(8, (s.job h.job).preStep), (2, (s.job h.job).boundary)]) (counted h s))) ∧
    ((s.job h.job).pstate = 0 → preemptDeferred s h.job = false → Sys2Proof.Claims.rising s.w.jobs →
      ∃ t, exec (.jobPreempt h) s = .next t ∧ t.cfg = s.cfg ∧ t.ctl = s.ctl ∧ (t.job h.job).pstate = 1 ∧ accepts 0x0103 h s 0 0 ∈ t.w.inflight ∧
        (∀ k, k ≠ h.job → t.job k = s.job k))) ∧
  (∀ (j node front : Nat) (s : State), s.live j = true → (s.job j).pstate = 0 → preemptDeferred s j = false → node ≠ s.w.topo.node → Sys2Proof.Claims.rising s.w.jobs →
    ∃ t, exec (.preemptionNotice j node front) s = .next t ∧ t.cfg = s.cfg ∧ t.ctl = s.ctl ∧ (t.job j).pstate = 1 ∧ (node, front) ∈ (t.job j).fronts ∧
      (∀ k, k ≠ j → t.job k = s.job k)) ∧
  (∀ (j : Nat) (s : State), s.ctl.clk.frozen = false → s.live j = true → (s.job j).pstate = 1 → (s.job j).run = none → saving s j = false → frontsKnown s j = true →
    Sys2Proof.Claims.rising s.w.jobs → Sys2Proof.Claims.rising s.w.dma →
    ∃ t, exec (.preemptBoundaryReached j) s = .next t ∧ t.cfg = s.cfg ∧ t.ctl = s.ctl ∧ (t.job j).preStep = (s.job j).nextStep.getD 0 ∧ (t.job j).boundary = 0 ∧
      1 ≤ (t.job j).saveKib ∧ (t.job j).saveKib ≤ 2662400 ∧ (∀ i < 4, t.chan (120 + i) = quarter (t.job j) j i true) ∧
      (∀ c, c < 120 ∨ 123 < c → t.chan c = s.chan c)) ∧
  (∀ (j : Nat) (s : State), s.ctl.clk.frozen = false → (s.job j).pstate = 1 → saving s j = true → (∀ i < 4, (s.chan (120 + i)).state ≤ 1 ∧ (s.chan (120 + i)).job = j) →
    quartersMapped s = true → Sys2Proof.Claims.rising s.w.jobs → Sys2Proof.Claims.rising s.w.dma →
    ∃ t, exec (.preemptSaveDone j) s = .next t ∧ t.cfg = s.cfg ∧ t.ctl = s.ctl ∧ (t.job j).pstate = 2 ∧ t.w.holder ≠ some j ∧ t.w.dev = s.w.dev ∧
      (∀ i < 4, (t.chan (120 + i)).state = 0) ∧ (∀ r ∈ t.w.inflight, r.op = 0x0103 → r.hdr.job ≠ j)) ∧
  (∀ (h : Hdr) (s : State), Ready 0x0104 h s →
    ((s.job h.job).pstate = 0 → (s.job h.job).waiting = [] → ∃ d, exec (.jobResume h) s = .next (finish 0x0104 h s 0x01 1 0xFF (leBytes 8 d) (counted h s))) ∧
    ((s.job h.job).pstate = 2 → (s.job h.job).cur = none → (s.w.holder = none ∨ s.w.holder = some h.job) → saving s h.job = false →
      Sys2Proof.Claims.rising s.w.dma →
      ∃ t, exec (.jobResume h) s = .next t ∧ t.cfg = s.cfg ∧ t.ctl = s.ctl ∧ t.w.holder = some h.job ∧ accepts 0x0104 h s 0 0 ∈ t.w.inflight ∧
        (∀ i < 4, t.chan (120 + i) = quarter (s.job h.job) h.job i false) ∧ t.job h.job = s.job h.job)) ∧
  (∀ (j : Nat) (r : Run) (s : State), s.ctl.clk.frozen = false → r ∈ s.w.inflight → r.op = 0x0104 → r.hdr.job = j → (∀ i < 4, (s.chan (120 + i)).state ≤ 1) → quartersMapped s = true →
    (s.job j).waiting = [] → Sys2Proof.Claims.rising s.w.jobs →
    ∃ t, exec (.resumeRestoreDone j) s = .next t ∧ t.cfg = s.cfg ∧ t.ctl = s.ctl ∧ (t.job j).pstate = 0 ∧ (∀ x ∈ t.w.inflight, x.op = 0x0104 → x.hdr.job ≠ j))

/-- MEM_MAP: a range that passes the checks of R296 and is new adds one mapping; the identical mapping again is OK_NOTE
detail 1; a table without room is NO_RESOURCE. MEM_UNMAP of a range with no whole page of the job is OK_NOTE detail 1;
otherwise, with no stream parked, each mapping of the job keeps what is left of it (its pages wholly inside the range
are cut out), mappings of other jobs stand, and of its mappings that lost a page no cached translation is left. A
Translation Completion with present set caches one entry; an Invalidation drops every cached translation of the job it
touches, counts itself and sends the completion. With nothing held, the answer to an outstanding Page Request ends the
request; code 0 also makes the page present, and code 2 stops Page Requests with event 0x1804; pri_timeout ends the
request; rewriting the enable lets requests go out again. Where the spec leaves a point open it states the model's own
choice (logs 10, 108, 111). -/
def Obligations.MappingsAndTranslation : Prop :=
  (∀ (h : Hdr) (dva len host page access demand : Nat) (m : Mapping) (s : State), Ready 0x0201 h s → page ≤ 2 →
    dva % pageBytes page = 0 → len % pageBytes page = 0 → host % pageBytes page = 0 → 0x10000 ≤ dva → len ≠ 0 → dva + len ≤ 2 ^ 48 →
    access % 4 ≠ 0 → (demand % 2 = 1 → (s.job h.job).ats = true ∧ (s.job h.job).pri = true) →
    m = { job := h.job, dva := dva, len := len, host := host, page := page, access := access % 4, demand := bit demand 0 } →
    (∀ x ∈ s.w.mmu.maps, x.job = h.job → x.dva + x.len ≤ dva ∨ dva + len ≤ x.dva) → mapEntries s + len / pageBytes page ≤ 262144 →
    exec (.memMap h dva len host page access demand) s = .next (finish 0x0201 h s 0 0 0xFF []
      ((counted h s).onW (fun w => { w with mmu := { w.mmu with maps := w.mmu.maps ++ [m] } })))) ∧
  (∀ (h : Hdr) (dva len host page access demand : Nat) (m : Mapping) (s : State), Ready 0x0201 h s → page ≤ 2 →
    dva % pageBytes page = 0 → len % pageBytes page = 0 → host % pageBytes page = 0 → 0x10000 ≤ dva → len ≠ 0 → dva + len ≤ 2 ^ 48 →
    access % 4 ≠ 0 → (demand % 2 = 1 → (s.job h.job).ats = true ∧ (s.job h.job).pri = true) →
    m = { job := h.job, dva := dva, len := len, host := host, page := page, access := access % 4, demand := bit demand 0 } →
    m ∈ s.w.mmu.maps → exec (.memMap h dva len host page access demand) s = .next (finish 0x0201 h s 0x01 1 0xFF [] (counted h s))) ∧
  (∀ (h : Hdr) (dva len host page access demand : Nat) (m : Mapping) (s : State), Ready 0x0201 h s → page ≤ 2 →
    dva % pageBytes page = 0 → len % pageBytes page = 0 → host % pageBytes page = 0 → 0x10000 ≤ dva → len ≠ 0 → dva + len ≤ 2 ^ 48 →
    access % 4 ≠ 0 → (demand % 2 = 1 → (s.job h.job).ats = true ∧ (s.job h.job).pri = true) →
    m = { job := h.job, dva := dva, len := len, host := host, page := page, access := access % 4, demand := bit demand 0 } →
    (∀ x ∈ s.w.mmu.maps, x.job = h.job → x.dva + x.len ≤ dva ∨ dva + len ≤ x.dva) → 262144 < mapEntries s + len / pageBytes page → m ∉ s.w.mmu.maps →
    exec (.memMap h dva len host page access demand) s = .next (finish 0x0201 h s 0x20 0 0xFF [] (counted h s))) ∧
  (∀ (h : Hdr) (dva len : Nat) (s : State), Ready 0x0202 h s → (∀ m ∈ s.w.mmu.maps, m.job = h.job → (cutMapping dva (dva + len) m).2 = false) →
    exec (.memUnmap h dva len) s = .next (finish 0x0202 h s 0x01 1 0xFF [] (counted h s))) ∧
  (∀ (h : Hdr) (dva len : Nat) (s : State), Ready 0x0202 h s → (∀ c < 128, (s.chan c).state ≠ 2) →
      (∃ m ∈ s.w.mmu.maps, m.job = h.job ∧ (cutMapping dva (dva + len) m).2 = true) →
      ∃ t s1, exec (.memUnmap h dva len) s = .next t ∧ t = finish 0x0202 h s 0 0 0xFF [] s1 ∧ { s1 with w := { s1.w with mmu := (counted h s).w.mmu } } = counted h s ∧
        s1.w.mmu.maps = s.w.mmu.maps.flatMap (fun m => if m.job = h.job then (cutMapping dva (dva + len) m).1 else [m]) ∧
        (∀ e ∈ s1.w.mmu.atc, e ∈ s.w.mmu.atc) ∧ (∀ e ∈ s.w.mmu.atc, e.job ≠ h.job → e ∈ s1.w.mmu.atc) ∧
        (∀ e ∈ s1.w.mmu.atc, ∀ m ∈ s.w.mmu.maps, e.job = h.job → m.job = h.job → (cutMapping dva (dva + len) m).2 = true →
          e.host + e.size ≤ m.host ∨ m.host + m.len ≤ e.host)) ∧
  (∀ (j host size phys access : Nat) (s : State), s.live j = true → (s.job j).ats = true → s.w.mmu.atc.length < 16384 →
    ∃ t, exec (.atsTranslationCompletion j host size phys access true) s = .next t ∧ t.cfg = s.cfg ∧ t.ctl = s.ctl ∧
      t.w.mmu.atc = { job := j, host := host, size := size, phys := phys, access := access % 4 } :: s.w.mmu.atc ∧ t.w.mmu.maps = s.w.mmu.maps) ∧
  (∀ (j host size : Nat) (s : State),
    exec (.atsInvalidation j host size) s = .next { s with w := { s.w with
      out := .ats 3 j host :: s.w.out
      mmu := { s.w.mmu with
        invDone := (s.w.mmu.invDone + 1) % 2 ^ 32
        atc := s.w.mmu.atc.filter (fun e => !(e.job == j && decide (e.host < host + size) && decide (host < e.host + e.size))) } } }) ∧
  (∀ (j host : Nat) (s : State), (j, host / 4096) ∈ s.w.mmu.priOut → Sys2Proof.Claims.nothingHeld s →
    (let mmu := { s.w.mmu with priOut := s.w.mmu.priOut.filter (fun e => e != (j, host / 4096)) }
     exec (.prgResponse j host 0) s = .next { s with w := { s.w with mmu := mmu, hostAbsent := s.w.hostAbsent.filter (fun p => p != host / 4096) } } ∧
     exec (.prgResponse j host 1) s = .next { s with w := { s.w with mmu := mmu } } ∧
     exec (.prgResponse j host 2) s = .next (flt 0x1804 0x02 (if j < 64 then j else 0xFF) 0 locNone { s with w := { s.w with mmu := { mmu with priStopped := true } } }) ∧
     exec (.priTimeout j host) s = .next { s with w := { s.w with mmu := mmu } })) ∧
  (∀ (j host : Nat) (s : State), (j, host / 4096) ∉ s.w.mmu.priOut → ∀ code, exec (.prgResponse j host code) s = .next s ∧ exec (.priTimeout j host) s = .next s) ∧
  (∀ (s : State), Sys2Proof.Claims.nothingHeld s → ∀ en, exec (.priCapabilityEnableWrite en) s = .next { s with w := { s.w with mmu := { s.w.mmu with priStopped := !en } } })

/-- DMA_COPY that passes the checks of R306 takes the lowest of channels 0 to 79 that is free, as the next in acceptance
order, and waits when none is free. DMA_GRANULE_DONE (with the crossings clocked; each granule passes the host port's
crossing, and while that stands frozen its entry is kept there) of the next granule of a running stream writes its
bytes to the other side and advances the done count; a granule above it is kept apart and the done count stands; the
last granule completes the command with the bytes copied and frees the channel. STREAM_PARK with a fault of kind 2
that a Page Request may mend parks the stream at that address, discards what lies above the park point, counts the
fault and keeps the done count. Where the spec leaves a point open it states the model's own choice (logs 26, 30, 33). -/
def Obligations.DmaStreamsMoveGranulesInOrder : Prop :=
  (∀ (h : Hdr) (src dst len srcH dstH c : Nat) (x : Chan) (s : State), Ready 0x0203 h s → len ≠ 0 → len % 64 = 0 → len ≤ 2 ^ 40 → srcH ≠ 0 ∨ dstH ≠ 0 →
    (srcH = 0 → src % 64 = 0 ∧ src + len ≤ 2 ^ 48) → (dstH = 0 → dst % 64 = 0 ∧ dst + len ≤ 2 ^ 48) →
    sideOk s h.job srcH src len = true → sideOk s h.job dstH dst len = true → (srcH = dstH → src + len ≤ dst ∨ dst + len ≤ src) →
    usedRole s h.job dstH = none → (∀ k, usedRole s h.job srcH = some k → k = 4 ∨ k = 6) → (s.w.inflight.filter (fun r => r.op = 0x0203 && r.hdr.job = h.job)).length < 1024 → s.w.dmaWait = [] →
    x = { job := h.job, queue := h.q, len := len, total := (len + 4095) / 4096, src := ⟨srcH, src⟩, dst := ⟨dstH, dst⟩ } →
    c < 80 → (s.chan c).state = 0 → (∀ k < c, (s.chan k).state ≠ 0) →
    exec (.dmaCopy h src dst len srcH dstH) s = .next (((runsOn 0x0203 h s 0 0 (counted h s)).setChan c { x with state := 1, seq := s.w.ordNext }).onW
      (fun w => { w with dmaLast := h.job }))) ∧
  (∀ (h : Hdr) (src dst len srcH dstH : Nat) (x : Chan) (s : State), Ready 0x0203 h s → len ≠ 0 → len % 64 = 0 → len ≤ 2 ^ 40 → srcH ≠ 0 ∨ dstH ≠ 0 →
    (srcH = 0 → src % 64 = 0 ∧ src + len ≤ 2 ^ 48) → (dstH = 0 → dst % 64 = 0 ∧ dst + len ≤ 2 ^ 48) →
    sideOk s h.job srcH src len = true → sideOk s h.job dstH dst len = true → (srcH = dstH → src + len ≤ dst ∨ dst + len ≤ src) →
    usedRole s h.job dstH = none → (∀ k, usedRole s h.job srcH = some k → k = 4 ∨ k = 6) → (s.w.inflight.filter (fun r => r.op = 0x0203 && r.hdr.job = h.job)).length < 1024 → s.w.dmaWait = [] →
    x = { job := h.job, queue := h.q, len := len, total := (len + 4095) / 4096, src := ⟨srcH, src⟩, dst := ⟨dstH, dst⟩ } →
    (∀ c < 80, (s.chan c).state ≠ 0) →
    exec (.dmaCopy h src dst len srcH dstH) s = .next ((runsOn 0x0203 h s 0 0 (counted h s)).onW (fun w => { w with dmaWait := [(s.w.ordNext, x)] }))) ∧
  (∀ (c g : Nat) (bs : Bytes) (x : Chan) (s s0 s1 : State), s.ctl.clk.frozen = false → c < 80 → x = s.chan c → x.state = 1 → x.done ≤ g → g < x.total → g < x.done + 16 →
    g ∉ x.above → granReady s x g = true → granOff s x g = none →
    s0 = (if x.src.handle = 0 then s.modXing xHost (Xing.pass 1) else readDev 0 x.job x.src.handle (granAt x.src g) (granLen x g) (s.modXing xHost (Xing.pass 1))) →
    s1 = (if x.dst.handle = 0 then (jobWrite s0 x.job (granAt x.dst g) bs).2 else imageWrite x.job x.dst.handle (granAt x.dst g) bs s0) →
    granRead s0 x g = .ok bs → hostPoisons s0 x g = false → g = x.done → x.above = [] → g + 1 < x.total →
    exec (.dmaGranuleDone c g) s = .next (s1.setChan c { x with done := g + 1 })) ∧
  (∀ (c g : Nat) (bs : Bytes) (x : Chan) (s s0 s1 : State), s.ctl.clk.frozen = false → c < 80 → x = s.chan c → x.state = 1 → x.done ≤ g → g < x.total → g < x.done + 16 →
    g ∉ x.above → granReady s x g = true → granOff s x g = none →
    s0 = (if x.src.handle = 0 then s.modXing xHost (Xing.pass 1) else readDev 0 x.job x.src.handle (granAt x.src g) (granLen x g) (s.modXing xHost (Xing.pass 1))) →
    s1 = (if x.dst.handle = 0 then (jobWrite s0 x.job (granAt x.dst g) bs).2 else imageWrite x.job x.dst.handle (granAt x.dst g) bs s0) →
    granRead s0 x g = .ok bs → hostPoisons s0 x g = false → x.done < g → x.done ∉ x.above →
    exec (.dmaGranuleDone c g) s = .next (s1.setChan c { x with above := g :: x.above })) ∧
  (∀ (c g : Nat) (bs : Bytes) (x : Chan) (s s0 s1 : State), s.ctl.clk.frozen = false → c < 80 → x = s.chan c → x.state = 1 → x.done ≤ g → g < x.total → g < x.done + 16 →
    g ∉ x.above → granReady s x g = true → granOff s x g = none →
    s0 = (if x.src.handle = 0 then s.modXing xHost (Xing.pass 1) else readDev 0 x.job x.src.handle (granAt x.src g) (granLen x g) (s.modXing xHost (Xing.pass 1))) →
    s1 = (if x.dst.handle = 0 then (jobWrite s0 x.job (granAt x.dst g) bs).2 else imageWrite x.job x.dst.handle (granAt x.dst g) bs s0) →
    granRead s0 x g = .ok bs → hostPoisons s0 x g = false → g = x.done → x.above = [] → g + 1 = x.total →
    exec (.dmaGranuleDone c g) s = .next (dmaEnd c 0x00 0 0xFF (s1.setChan c { x with done := g + 1 }))) ∧
  (∀ (c g kind : Nat) (s : State), c < 80 → (s.chan c).state ≠ 1 → exec (.streamPark c g kind) s = .next s ∧
    (s.ctl.clk.frozen = false → exec (.dmaGranuleDone c g) s = .next (s.modXing xHost (Xing.pass 1)))) ∧
  (∀ (c g : Nat) (s : State), s.ctl.clk.frozen = true → (s.xing xHost).held.length < 32 →
    exec (.dmaGranuleDone c g) s = .next (s.modXing xHost (fun x => { x with wr := (x.wr + 1) % 64, held := x.held ++ [.dmaGranuleDone c g] }))) ∧
  (∀ (c g a page : Nat) (s : State), c < 80 → (s.chan c).state = 1 → (s.chan c).done ≤ g → g < (s.chan c).total → g < (s.chan c).done + 16 →
    (granFaults s (s.chan c) g).find? (fun f => f.1 == 2) = some (2, a, page) → canRequest s (s.chan c).job a = true →
    Sys2Proof.Claims.rising s.w.dma → Sys2Proof.Claims.rising s.w.jobs →
    ∃ t, exec (.streamPark c g 2) s = .next t ∧ t.cfg = s.cfg ∧ t.ctl = s.ctl ∧ t.chan c = { (s.chan c) with state := 2, above := [], parkAt := a, kind := 2 } ∧
      (∀ k, k ≠ c → t.chan k = s.chan k) ∧ page ∈ t.w.hostAbsent ∧
      t.job (s.chan c).job = { (s.job (s.chan c).job) with faults := satAdd 32 (s.job (s.chan c).job).faults 1, parked := satAdd 8 (s.job (s.chan c).job).parked 1, lastFault := a })

/-- APERTURE_ACCESS through an enabled aperture of a live job onto a declaration, within its byte image, with every home
enabled and nothing held: a write completes: it puts its bytes at offset + o of the image; a read completes: it sends
one completion with the image's bytes, marked as poisoned where they are. Through an aperture that is off, names no
live job or no declaration, or reaches beyond the image, a read completes with Unsupported Request and a write does
nothing. Where a home's unit is disabled the access meets R64. Where the spec leaves a point open it states the
model's own choice (logs 5, 51). -/
def Obligations.AperturesReachDeclarations : Prop :=
  (∀ (ap off len : Nat) (data : Bytes) (x : Ap) (d : Decl) (s : State),
    x = tget {} s.w.mmu.ap ap → ap < 16 → x.en = true → s.live x.job = true → s.decl x.job x.handle = some d →
    data ≠ [] → x.offset + off + data.length ≤ d.imageBytes →
    (homesOf s x.job x.handle (x.offset + off) data.length).all (fun h => s.unitOn h.unit) = true →
    missingAt s x.job x.handle (x.offset + off) data.length = none → rangeFree s x.job x.handle (x.offset + off) data.length = true →
    (∀ y ∈ s.w.apWait, y.job ≠ x.job ∨ y.handle ≠ x.handle) →
    exec (.apertureAccess true ap off len data) s = .next (imageWrite x.job x.handle (x.offset + off) data s)) ∧
  (∀ (ap off len : Nat) (data : Bytes) (x : Ap) (d : Decl) (s s1 : State),
    x = tget {} s.w.mmu.ap ap → ap < 16 → x.en = true → s.live x.job = true → s.decl x.job x.handle = some d →
    0 < len → x.offset + off + len ≤ d.imageBytes →
    (homesOf s x.job x.handle (x.offset + off) len).all (fun h => s.unitOn h.unit) = true →
    missingAt s x.job x.handle (x.offset + off) len = none → rangeFree s x.job x.handle (x.offset + off) len = true →
    (∀ y ∈ s.w.apWait, y.job ≠ x.job ∨ y.handle ≠ x.handle) → s1 = readDev 0 x.job x.handle (x.offset + off) len s →
    exec (.apertureAccess false ap off len data) s = .next (match imageBad s1 x.job x.handle (x.offset + off) len with
      | none => s1.emit (.completion 0 (imageRead s1 x.job x.handle (x.offset + off) len))
      | some o => (flt 0x1907 o.2 x.job 0 { handle := x.handle, off := x.offset + off } s1).emit
        (.completion 3 (imageRead s1 x.job x.handle (x.offset + off) len)))) ∧
  (∀ (ap off len : Nat) (data : Bytes) (x : Ap) (d : Decl) (s : State),
    x = tget {} s.w.mmu.ap ap → ap < 16 → x.en = true → s.live x.job = true → s.decl x.job x.handle = some d →
    (∀ h, data ≠ [] → x.offset + off + data.length ≤ d.imageBytes →
      (homesOf s x.job x.handle (x.offset + off) data.length).find? (fun h => !s.unitOn h.unit) = some h →
      exec (.apertureAccess true ap off len data) s = .next (disabledHit h.unit true s)) ∧
    (∀ h, 0 < len → x.offset + off + len ≤ d.imageBytes →
      (homesOf s x.job x.handle (x.offset + off) len).find? (fun h => !s.unitOn h.unit) = some h →
      exec (.apertureAccess false ap off len data) s = .next (disabledHit h.unit false s)) ∧
    (0 < len → d.imageBytes < x.offset + off + len → exec (.apertureAccess false ap off len data) s = .next (s.emit (.completion 2 []))) ∧
    (d.imageBytes < x.offset + off + data.length → exec (.apertureAccess true ap off len data) s = .next s)) ∧
  (∀ (ap off len : Nat) (data : Bytes) (s : State),
    16 ≤ ap ∨ (tget {} s.w.mmu.ap ap).en = false ∨ s.live (tget {} s.w.mmu.ap ap).job = false ∨
      s.decl (tget {} s.w.mmu.ap ap).job (tget {} s.w.mmu.ap ap).handle = none →
    (0 < len → exec (.apertureAccess false ap off len data) s = .next (s.emit (.completion 2 []))) ∧
    exec (.apertureAccess true ap off len data) s = .next s)

/-- STACK_TEMP_SAMPLE of an enabled stack that is not tripped reads the temperature and sets the level: from level 0 the
highest threshold reached, and a level is kept while the temperature lies less than 3 °C below its threshold.
STACK_TRIP holds the stack at level 4, writes 0x1304 and raises bench advice; the running step of the job that holds
the array fails with THERMAL_LIMIT and a huddle of reason 5 is asked for. STACK_HOT_2S on a stack still hot writes
0x1305 and advice. PHASE_SIGNAL sets the phase bit of every stack and the deferred bit of those at level 3. Where the
spec leaves a point open it states the model's own choice (logs 106, 107, 109). -/
def Obligations.StackThermalLadder : Prop :=
  (∀ (st t : Nat) (c : StkCfg) (s : State), st < 12 → t < 4096 → s.unitOn (0x10 + st) = true → (s.stack st).tripped = false → Sys2Proof.Claims.rising s.w.stk →
    c = tget {} s.cfg.stk st →
     ∃ s', exec (.stackTempSample st t) s = .next s' ∧ s'.cfg = s.cfg ∧ s'.ctl = s.ctl ∧ (s'.stack st).tempTenths = t ∧ (s'.stack st).level = levelOf c (s.stack st).level t ∧
       ((s.stack st).level = 0 → (s'.stack st).level = if 1050 ≤ t then 4 else if 10 * c.critC ≤ t then 3 else if 10 * c.hotC ≤ t then 2 else if 10 * c.warmC ≤ t then 1 else 0) ∧
       (∀ k, 1 ≤ k → k ≤ 4 → (s.stack st).level = k → levelTenths c k < t + 30 → k ≤ (s'.stack st).level) ∧
       (∀ k, k ≠ st → s'.stack k = s.stack k)) ∧
  (∀ (st : Nat) (s : State), st < 12 → s.unitOn (0x10 + st) = true → (s.stack st).tripped = false → s.w.holder = none →
    exec (.stackTrip st) s = .next (benchAdvice 1 (0x10 + st) (flt 0x1304 (0x10 + st) 0xFF 0 (locStack st (s.stack st).tempTenths)
      (s.modStack st (fun x => { x with tripped := true, level := 4, deferred := false, waves := false }))))) ∧
  (∀ (st j : Nat) (r : StepRun) (s : State), st < 12 → s.unitOn (0x10 + st) = true → (s.stack st).tripped = false → s.w.holder = some j → (s.job j).run = some r →
    r.fail = none → hudOf s j = none → s.w.topo.jobPlan = none → Sys2Proof.Claims.rising s.w.stk → Sys2Proof.Claims.rising s.w.jobs →
    ∃ t, exec (.stackTrip st) s = .next t ∧ t.cfg = s.cfg ∧ t.ctl = s.ctl ∧ (t.stack st).tripped = true ∧ (t.stack st).level = 4 ∧
      (t.job j).run = some { r with fail := some { status := 0x80, unit := 0x10 + st } } ∧ (∃ h ∈ t.w.reel.huds, h.job = j ∧ h.reason = 5)) ∧
  (∀ (st : Nat) (s : State), st < 12 → s.unitOn (0x10 + st) = true → 10 * (tget {} s.cfg.stk st).hotC ≤ (s.stack st).tempTenths → s.w.holder = none →
    exec (.stackHot2s st) s = .next (benchAdvice 1 (0x10 + st) (flt 0x1305 (0x10 + st) 0xFF 0 (locStack st (s.stack st).tempTenths) s))) ∧
  (∀ (n : Nat) (s : State), Sys2Proof.Claims.rising s.w.stk →
    ∃ t, exec (.phaseSignal n) s = .next t ∧ t.cfg = s.cfg ∧ t.ctl = s.ctl ∧ t.w.reel.phases = n ∧
      (∀ st, st < 12 → t.stack st = { (s.stack st) with phase := decide (0 < n), deferred := (s.stack st).level = 3 && decide (0 < n) }))

/-- STK_RETRAIN with go on an enabled stack with nothing held, requested or tripped, for a live pseudo-channel trained
more than 100 ms ago or never, holds it (state 1) and no other; without go it changes nothing. PC_RETRAIN_DONE of a
held one with no failed lanes ends the hold: it is live when the trims converged and it was not degraded, else
degraded; it is trained now at the stack's temperature and counted. A lane that fails takes the first spare of its
channel, and the sibling retrains next. Where the spec leaves a point open it states the model's own choice (logs 105,
106). -/
def Obligations.RetrainingHoldsAndSteers : Prop :=
  (∀ (st q : Nat) (s : State), st < 12 → q < 64 → s.unitOn (0x10 + st) = true → (∀ k < 64, (s.pc (64 * st + k)).state ≠ 1 ∧ (s.pc (64 * st + k)).requested = false) →
    (s.pc (64 * st + q)).state = 0 → (s.stack st).tripped = false → (s.stack st).waves = false →
    ((s.pc (64 * st + q)).trained = false ∨ (s.pc (64 * st + q)).trainNs + 100000000 ≤ s.ctl.clk.ns) → Sys2Proof.Claims.rising s.w.pcs →
    (∃ t, exec (.stkRetrain st (256 + q)) s = .next t ∧ t.cfg = s.cfg ∧ t.ctl = s.ctl ∧ (t.pc (64 * st + q)).state = 1 ∧ (t.pc (64 * st + q)).requested = false ∧
      (∀ p, p ≠ 64 * st + q → t.pc p = s.pc p)) ∧
    exec (.stkRetrain st q) s = .next s) ∧
  (∀ (st q : Nat) (ok : Bool) (s : State), st < 12 → q < 64 → (s.pc (64 * st + q)).state = 1 → (s.pc (64 * st + q)).requested = false → (s.pc (64 * st + q)).failLanes = [] →
    (s.stack st).tripped = false → s.w.apWait = [] → Sys2Proof.Claims.rising s.w.pcs → Sys2Proof.Claims.rising s.w.lanes →
    (∃ t, exec (.pcRetrainDone st q ok []) s = .next t ∧ t.cfg = s.cfg ∧ t.ctl = s.ctl ∧
      (t.pc (64 * st + q)).state = (if ok = true ∧ (s.pc (64 * st + q)).deg = false then 0 else 2) ∧ (t.pc (64 * st + q)).hold = 0 ∧
      (t.pc (64 * st + q)).retrains = min ((s.pc (64 * st + q)).retrains + 1) 255 ∧ (t.pc (64 * st + q)).trained = true ∧
      (t.pc (64 * st + q)).trainNs = s.ctl.clk.ns ∧ (t.pc (64 * st + q)).trainTenths = (s.stack st).tempTenths ∧ (∀ c, tget {} t.w.lanes c = tget {} s.w.lanes c)) ∧
    (∀ l, l < 72 → tget {} s.w.lanes (32 * st + q / 2) = {} → (s.pc (64 * st + q / 2 * 2 + (1 - q % 2))).state = 0 →
      ∃ t, exec (.pcRetrainDone st q ok [l]) s = .next t ∧ (tget {} t.w.lanes (32 * st + q / 2)).spare0 = l ∧ (tget {} t.w.lanes (32 * st + q / 2)).failed = 1 ∧
        ((t.pc (64 * st + q / 2 * 2 + (1 - q % 2))).requested = true ∨ (t.pc (64 * st + q / 2 * 2 + (1 - q % 2))).state = 1)))

/-- PACKAGE_TEMPERATURE_REPORT keeps the package's temperature, saturated to 8 bits, and doubles its refresh above 85 °C.
LPDDR_TRIP of an enabled package with the array free puts it in self-refresh, once, and touches no job;
LPDDR_TRIP_EXIT ends it. CXL_LINK_DOWN of a device up with the array free takes the device down, writes 0x1601 and
raises advice. CXL_TIMEOUT counts a poisoned response and, where no stream reads the granule, fails the running step
of its job with POISON_CONSUMED of tier 3. Where the spec leaves a point open it states the model's own choice (logs
99, 100, 107). -/
def Obligations.TierTwoAndThreeEvents : Prop :=
  (∀ (pkg c : Nat) (s : State), pkg < 24 →
    exec (.packageTemperatureReport pkg c) s = .next { s with w := { s.w with lp := tput {} s.w.lp (pkg / 6) { (tget {} s.w.lp (pkg / 6)) with
      temps := (tget {} s.w.lp (pkg / 6)).temps.set (pkg % 6) (min c 255), hot := setBit (tget {} s.w.lp (pkg / 6)).hot (pkg % 6) (decide (85 < c)) } } }) ∧
  (∀ (pkg : Nat) (s : State), pkg < 24 → s.unitOn (0x20 + pkg / 6) = true → bit (tget {} s.w.lp (pkg / 6)).held (pkg % 6) = false → s.w.holder = none →
    ∃ t v, exec (.lpddrTrip pkg) s = .next t ∧ t.cfg = s.cfg ∧ t.ctl = s.ctl ∧ t.w.jobs = s.w.jobs ∧ v < 256 ∧
      t.w.lp = tput {} s.w.lp (pkg / 6) { (tget {} s.w.lp (pkg / 6)) with held := (tget {} s.w.lp (pkg / 6)).held + 2 ^ (pkg % 6) } ∧
      (∃ s1, t = benchAdvice v (0x20 + pkg / 6) s1)) ∧
  (∀ (pkg : Nat) (s : State), pkg < 24 → bit (tget {} s.w.lp (pkg / 6)).held (pkg % 6) = true → exec (.lpddrTrip pkg) s = .next s) ∧
  (∀ (pkg : Nat) (s : State), pkg < 24 → s.w.apWait = [] →
    exec (.lpddrTripExit pkg) s = .next { s with w := { s.w with lp := tput {} s.w.lp (pkg / 6) { (tget {} s.w.lp (pkg / 6)) with
      held := setBit (tget {} s.w.lp (pkg / 6)).held (pkg % 6) false } } }) ∧
  (∀ (dev : Nat) (s : State), dev < 4 → (tget {} s.w.cxl dev).linkUp = true → s.w.holder = none →
    exec (.cxlLinkDown dev) s = .next (benchAdvice 2 0x28 (flt 0x1601 0x28 0xFF 0 (locCxl dev 0)
      (s.onW (fun w => { w with cxl := tput {} w.cxl dev { (tget {} s.w.cxl dev) with linkUp := false } }))))) ∧
  (∀ (dev : Nat) (g : Gran) (r : StepRun) (s : State), dev < 4 → (tget {} s.w.cxl dev).present = true → (∀ c < 80, (s.chan c).state ≠ 1) →
    (s.job g.job).run = some r → r.fail = none → Sys2Proof.Claims.rising s.w.jobs → Sys2Proof.Claims.rising s.w.cxl →
    ∃ t, exec (.cxlTimeout dev g) s = .next t ∧ t.cfg = s.cfg ∧ t.ctl = s.ctl ∧ (tget {} t.w.cxl dev).poison = min ((tget {} s.w.cxl dev).poison + 1) (2 ^ 32 - 1) ∧
      (t.job g.job).run = some { r with fail := some { status := 0x50, detail := 3 * 256, unit := 0x28 } })

/-- With the crossings clocked: PATROL_SCRUB that found a cell word: corrected, it counts; uncorrectable, the cell is
poisoned and counted; an uncorrectable figure word spoils the cell's figure. A word an injection struck is found by
the pass: one flipped bit is corrected and counted, two poison the cell. An uncorrectable hub word makes a warm reset
of cause 7 due and writes 0x1906. DEMAND_SCRUB of a corrected tier-1 word not skipped rewrites it and counts nothing;
of an uncorrectable one it marks the unit poisoned. A pass that found nothing changes nothing. RET_GO.add of an entry
already held changes no entry, of one refused keeps the reason, else appends it, due at the next boundary while a job
holds the array; RET_GO.clear empties the table. Where the spec leaves a point open it states the model's own choice
(logs 97, 112, 114). -/
def Obligations.ScrubsCorrectMarkAndRetire : Prop :=
  (∀ (d c word : Nat) (s : State), s.ctl.clk.frozen = false → (∀ e ∈ s.w.cells, e.2.flips = []) → d < 4 → c < 144 → s.unitOn (0x50 + d) = true →
    Sys2Proof.Claims.rising s.w.cells →
    (∃ t, exec (.patrolScrub [.cell d c word false]) s = .next t ∧ t.cfg = s.cfg ∧ t.ctl = s.ctl ∧ (t.cell (144 * d + c)).ce = min ((s.cell (144 * d + c)).ce + 1) 65535 ∧
      (t.cell (144 * d + c)).poisoned = (s.cell (144 * d + c)).poisoned ∧
      (∀ k, k ≠ 144 * d + c → t.cell k = s.cell k)) ∧
    (∃ t, exec (.patrolScrub [.cell d c word true]) s = .next t ∧ t.cfg = s.cfg ∧ t.ctl = s.ctl ∧ (t.cell (144 * d + c)).ue = min ((s.cell (144 * d + c)).ue + 1) 255 ∧
      (t.cell (144 * d + c)).poisoned = true ∧ (∀ k, k ≠ 144 * d + c → t.cell k = s.cell k)) ∧
    (∃ t, exec (.patrolScrub [.figure d c word true]) s = .next t ∧ t.cfg = s.cfg ∧ t.ctl = s.ctl ∧ (t.cell (144 * d + c)).ue = min ((s.cell (144 * d + c)).ue + 1) 255 ∧
      (t.cell (144 * d + c)).figBad = true ∧ (∀ k, k ≠ 144 * d + c → t.cell k = s.cell k))) ∧
  (∀ (k word mask : Nat) (s : State), s.ctl.clk.frozen = false → k < 576 → s.unitOn (0x50 + k / 144) = true → Sys2Proof.Claims.rising s.w.cells →
    (s.cell k).flips = [(word, mask)] → (∀ e ∈ s.w.cells, e.1 ≠ k → e.2.flips = []) →
    (popCount mask 72 = 1 → ∃ t, exec (.patrolScrub []) s = .next t ∧ t.cfg = s.cfg ∧ t.ctl = s.ctl ∧ (t.cell k).ce = min ((s.cell k).ce + 1) 65535 ∧
      (t.cell k).flips = [] ∧ (t.cell k).poisoned = (s.cell k).poisoned) ∧
    (popCount mask 72 = 2 → ∃ t, exec (.patrolScrub []) s = .next t ∧ t.cfg = s.cfg ∧ t.ctl = s.ctl ∧ (t.cell k).ue = min ((s.cell k).ue + 1) 255 ∧
      (t.cell k).flips = [] ∧ (t.cell k).poisoned = true)) ∧
  (∀ (mem word : Nat) (s : State), s.ctl.clk.frozen = false → (∀ e ∈ s.w.cells, e.2.flips = []) →
    exec (.patrolScrub [.hub mem word true]) s = .next { (flt 0x1906 0xFF 0xFF 0 (locHub mem word) s) with ctl := { s.ctl with health := { s.ctl.health with resetDue := 7 } } }) ∧
  (∀ (s : State), s.ctl.clk.frozen = false → (∀ e ∈ s.w.cells, e.2.flips = []) → exec (.patrolScrub []) s = .next s) ∧
  (∀ (p g lane key : Nat) (pos : Gran) (s : State), s.ctl.clk.frozen = false → p < 768 → key = unitKey s 1 g pos →
    scrubSkips s { tier := 1, place := p } key pos = false →
    exec (.demandScrub (.tier1 p g lane pos false)) s = .next (s.onW (fun w => { w with inject := w.inject.filter (fun e => !(e.1 = key && synClass 1 e.2.2 = 1)) }))) ∧
  (∀ (p g lane key : Nat) (pos : Gran) (s : State), s.ctl.clk.frozen = false → p < 768 → key = unitKey s 1 g pos →
    scrubSkips s { tier := 1, place := p } key pos = false →
    ∃ t, exec (.demandScrub (.tier1 p g lane pos true)) s = .next t ∧ t.cfg = s.cfg ∧ t.ctl = s.ctl ∧ (key, 64) ∈ t.w.poison ∧ t.w.inject = s.w.inject) ∧
  (∀ (e : Nat × Nat × Nat × Nat) (s : State), e = (s.w.ret.tier, b2n s.w.ret.bank, s.w.ret.place, s.w.ret.index) → e ∉ s.w.ret.entries → retReason s = 0 →
    s.w.holder ≠ none →
    exec (.retGoAdd) s = .next (s.onW (fun w => { w with ret := { w.ret with refused := false, reason := 0, entries := w.ret.entries ++ [e], due := w.ret.due ++ [e] } }))) ∧
  (∀ (s : State), (s.w.ret.tier, b2n s.w.ret.bank, s.w.ret.place, s.w.ret.index) ∈ s.w.ret.entries →
    exec (.retGoAdd) s = .next (s.onW (fun w => { w with ret := { w.ret with refused := false, reason := 0 } }))) ∧
  (∀ (s : State), (s.w.ret.tier, b2n s.w.ret.bank, s.w.ret.place, s.w.ret.index) ∉ s.w.ret.entries → retReason s ≠ 0 →
    exec (.retGoAdd) s = .next (s.onW (fun w => { w with ret := { w.ret with refused := true, reason := retReason s } }))) ∧
  (∀ (s : State), exec (.retGoClear) s = .next (s.onW (fun w => { w with ret := { w.ret with entries := [], due := [], pages := 0 } })))

/-- ERR_GO.arm completes: for a cell word in range of an enabled die and a cell not retired, mode 1 or 3 arms the
injector; mode 2 fires at once: the state is fired, event 0x190B is written and exactly the mask's bits of that word
are flipped; for a code word of a declaration (target 2), and one whose line is in the cache (target 3), whose unit is
enabled and whose memory is not retired, mode 1 or 3 arms it. Without foul authority it is refused with reason 1, with
a target or mode of 0 with reason 6, out of range with 3, of a disabled unit with 2, on retired memory with 4, and for
a line not in the cache with 5. Where the spec leaves a point open it states the model's own choice (logs 98, 113). -/
def Obligations.InjectorArmsOrRefuses : Prop :=
  (∀ (s : State), s.w.sl.foulAuth = true → s.w.err.target = 1 → s.w.err.mode = 1 ∨ s.w.err.mode = 3 → s.w.err.c < 144 → s.w.err.die < 4 →
    s.w.err.handleOrWord < 262144 → s.unitOn (0x50 + s.w.err.die) = true → (s.cell (144 * s.w.err.die + s.w.err.c)).retired = false →
    ∃ t, exec (.errGoArm) s = .next t ∧ { t with w := { t.w with err := s.w.err } } = s ∧ t.w.err.state = 1 ∧ t.w.err.reason = 0 ∧
      t.w.err.mask = s.w.err.mask ∧ t.w.err.target = 1 ∧ t.w.err.mode = s.w.err.mode) ∧
  (∀ (x : Home) (s : State), s.w.sl.foulAuth = true → s.w.err.target = 2 ∨ (s.w.err.target = 3 ∧ (errLine s).isSome = true) →
    s.w.err.mode = 1 ∨ s.w.err.mode = 3 → errHome s = some x → s.unitOn x.unit = true → homeRetired s x = false →
    exec (.errGoArm) s = .next (s.onW (fun w => { w with err := { w.err with state := 1, reason := 0, tier := x.tier } }))) ∧
  (∀ (s : State), s.w.sl.foulAuth = true → s.w.err.target = 1 → s.w.err.mode = 2 → s.w.err.c < 144 → s.w.err.die < 4 →
    s.w.err.handleOrWord < 262144 → s.unitOn (0x50 + s.w.err.die) = true → (s.cell (144 * s.w.err.die + s.w.err.c)).retired = false →
    Sys2Proof.Claims.rising s.w.cells → (s.cell (144 * s.w.err.die + s.w.err.c)).flips = [] → s.w.err.mask % 2 ^ 72 ≠ 0 →
    ∃ t, exec (.errGoArm) s = .next t ∧ t.cfg = s.cfg ∧ t.ctl = s.ctl ∧ t.w.err.state = 2 ∧
      (t.cell (144 * s.w.err.die + s.w.err.c)) = { (s.cell (144 * s.w.err.die + s.w.err.c)) with flips := [(s.w.err.handleOrWord, s.w.err.mask % 2 ^ 72)] } ∧
      (∀ k, k ≠ 144 * s.w.err.die + s.w.err.c → t.cell k = s.cell k)) ∧
  (∀ (n : Nat) (s : State),
    (n = 1 ∧ s.w.sl.foulAuth = false ∨
     n = 6 ∧ s.w.sl.foulAuth = true ∧ (s.w.err.target = 0 ∨ s.w.err.mode = 0) ∨
     n = 3 ∧ s.w.sl.foulAuth = true ∧ s.w.err.mode ≠ 0 ∧ (3 < s.w.err.target ∨
       s.w.err.target = 1 ∧ (144 ≤ s.w.err.c ∨ 4 ≤ s.w.err.die ∨ 262144 ≤ s.w.err.handleOrWord) ∨
       (s.w.err.target = 2 ∨ s.w.err.target = 3) ∧ errHome s = none) ∨
     n = 2 ∧ s.w.sl.foulAuth = true ∧ s.w.err.mode ≠ 0 ∧ (s.w.err.target = 1 ∧ s.w.err.c < 144 ∧ s.w.err.die < 4 ∧ s.w.err.handleOrWord < 262144 ∧
         s.unitOn (0x50 + s.w.err.die) = false ∨
       (s.w.err.target = 2 ∨ s.w.err.target = 3) ∧ (∃ x, errHome s = some x ∧ s.unitOn x.unit = false)) ∨
     n = 4 ∧ s.w.sl.foulAuth = true ∧ s.w.err.mode ≠ 0 ∧ (s.w.err.target = 1 ∧ s.w.err.c < 144 ∧ s.w.err.die < 4 ∧ s.w.err.handleOrWord < 262144 ∧
         s.unitOn (0x50 + s.w.err.die) = true ∧ (s.cell (144 * s.w.err.die + s.w.err.c)).retired = true ∨
       (s.w.err.target = 2 ∨ s.w.err.target = 3) ∧ (∃ x, errHome s = some x ∧ s.unitOn x.unit = true ∧ homeRetired s x = true)) ∨
     n = 5 ∧ s.w.sl.foulAuth = true ∧ s.w.err.mode ≠ 0 ∧ s.w.err.target = 3 ∧
       (∃ x, errHome s = some x ∧ s.unitOn x.unit = true ∧ homeRetired s x = false) ∧ errLine s = none) →
    exec (.errGoArm) s = .next (s.onW (fun w => { w with err := { w.err with state := 3, reason := n } })))

/-- TENSOR_DECLARE with a readable record: where a check of R181 fails the command answers BAD_PARAM with the record
offset of the first and declares nothing; where all pass but the capacity or the pin has no room it answers
NO_RESOURCE; otherwise the declaration stands under the job's next handle, which is the result, with its provisional
home, and nothing else changes. PLACE_SET with a readable record that passes R201 and a placement to be found takes
effect at once when no step runs and none is pending, answers OK_NOTE detail 1 when it changes nothing, spreads the
job's tensors afresh when it asks for re-placement, and answers BUSY_JOB when it asks for re-placement of a running
step. PLACEMENT_REPORT of the current set writes the report where the buffer takes it whole. Where the spec leaves a
point open it states the model's own choice (logs 11, 74, 81, 150). -/
def Obligations.TensorsAreDeclaredPlacedAndReported : Prop :=
  (∀ (h : Hdr) (addr : Nat) (b : Bytes) (d : Decl) (s : State), Ready 0x0204 h s → pktRead (counted h s) h.job addr 64 = .ok b → d = parseDecl b →
    firstBad (declChecks b) = none → (counted h s).declared + d.total + (counted h s).reserved ≤ (counted h s).installed → pinFits (counted h s) h.job d = true →
    exec (.tensorDeclare h addr) s = .next (finish 0x0204 h s 0 0 0xFF (leBytes 4 (s.job h.job).nextHandle) ((counted h s).setJob h.job { (s.job h.job) with
      decls := tput {} (s.job h.job).decls (s.job h.job).nextHandle (provisional (counted h s) h.job d), nextHandle := (s.job h.job).nextHandle + 1 }))) ∧
  (∀ (h : Hdr) (addr o : Nat) (b : Bytes) (s : State), Ready 0x0204 h s → pktRead (counted h s) h.job addr 64 = .ok b → firstBad (declChecks b) = some o →
    exec (.tensorDeclare h addr) s = .next (finish 0x0204 h s 0x11 (2 ^ 31 + o) 0xFF [] (counted h s))) ∧
  (∀ (h : Hdr) (addr : Nat) (b : Bytes) (d : Decl) (s : State), Ready 0x0204 h s → pktRead (counted h s) h.job addr 64 = .ok b → d = parseDecl b →
    firstBad (declChecks b) = none → (counted h s).installed < (counted h s).declared + d.total + (counted h s).reserved ∨ pinFits (counted h s) h.job d = false →
    exec (.tensorDeclare h addr) s = .next (finish 0x0204 h s 0x20 0 0xFF [] (counted h s))) ∧
  (∀ (h : Hdr) (addr : Nat) (r : Bytes) (new : Job) (p : Place) (s : State), Ready 0x0205 h s → pktRead (counted h s) h.job addr 32 = .ok r →
    firstBad (psetChecks (counted h s) h.job r) = none → (s.job h.job).psPending = [] → new = applyPSet r (s.job h.job) → (s.job h.job).run = none →
    bit (fld r 13 1) 0 = false → trialPlace (counted h s) h.job new = some p → new ≠ s.job h.job →
    exec (.placeSet h addr) s = .next (finish 0x0205 h s 0 0 0xFF [] ((counted h s).setJob h.job { pinTables (counted h s) new with psPending := [], place := p }))) ∧
  (∀ (h : Hdr) (addr : Nat) (r : Bytes) (new : Job) (p : Place) (s : State), Ready 0x0205 h s → pktRead (counted h s) h.job addr 32 = .ok r →
    firstBad (psetChecks (counted h s) h.job r) = none → (s.job h.job).psPending = [] → new = applyPSet r (s.job h.job) → (s.job h.job).run = none →
    bit (fld r 13 1) 0 = true → trialPlace (counted h s) h.job new = some p →
    exec (.placeSet h addr) s = .next (finish 0x0205 h s 0 0 0xFF [] (respread h.job (fun _ => true)
      ((counted h s).setJob h.job { pinTables (counted h s) new with psPending := [], place := p })))) ∧
  (∀ (h : Hdr) (addr : Nat) (r : Bytes) (new : Job) (p : Place) (s : State), Ready 0x0205 h s → pktRead (counted h s) h.job addr 32 = .ok r →
    firstBad (psetChecks (counted h s) h.job r) = none → (s.job h.job).psPending = [] → new = applyPSet r (s.job h.job) → (s.job h.job).run = none →
    bit (fld r 13 1) 0 = false → trialPlace (counted h s) h.job new = some p → new = s.job h.job →
    exec (.placeSet h addr) s = .next (finish 0x0205 h s 0x01 1 0xFF [] (counted h s))) ∧
  (∀ (h : Hdr) (addr : Nat) (r : Bytes) (new : Job) (s : State), Ready 0x0205 h s → pktRead (counted h s) h.job addr 32 = .ok r →
    firstBad (psetChecks (counted h s) h.job r) = none → (s.job h.job).psPending = [] → new = applyPSet r (s.job h.job) → (s.job h.job).run ≠ none →
    bit (fld r 13 1) 0 = false → new ≠ s.job h.job → trialPlace (counted h s) h.job new ≠ none →
    exec (.placeSet h addr) s = .next (finish 0x0205 h s 0 0 0xFF [] ((counted h s).setJob h.job { (s.job h.job) with psPending := [r] }))) ∧
  (∀ (h : Hdr) (addr : Nat) (r : Bytes) (new : Job) (s : State), Ready 0x0205 h s → pktRead (counted h s) h.job addr 32 = .ok r →
    firstBad (psetChecks (counted h s) h.job r) = none → (s.job h.job).psPending = [] → new = applyPSet r (s.job h.job) → (s.job h.job).run ≠ none →
    bit (fld r 13 1) 0 = true → exec (.placeSet h addr) s = .next (finish 0x0205 h s 0x30 0 0xFF [] (counted h s))) ∧
  (∀ (h : Hdr) (buf len : Nat) (bs : Bytes) (t : SetImg) (s s1 : State), Ready 0x0206 h s → (s.job h.job).cur = some t →
    bs = report (counted h s) h.job t (s.job h.job).place (s.job h.job).place.cause → bs.length ≤ len → pktWrite (counted h s) h.job buf bs = (none, s1) →
    exec (.placementReport h buf len 0) s = .next (finish 0x0206 h s 0 0 0xFF (leBytes 4 bs.length) s1)) ∧
  (∀ (h : Hdr) (buf len : Nat) (bs : Bytes) (t : SetImg) (s : State), Ready 0x0206 h s → (s.job h.job).cur = some t →
    bs = report (counted h s) h.job t (s.job h.job).place (s.job h.job).place.cause → len < bs.length →
    exec (.placementReport h buf len 0) s = .next (finish 0x0206 h s 0x20 0 0xFF (leBytes 4 bs.length) (counted h s)))

/-- SET_LOAD with a readable image whose length field is right completes: an image that passes checks 2 to 9 with its
units enabled, a placement to be found and no step running becomes current where no set is and the array is free or
the job's own: the set epoch rises by one, the job holds the array, and the result is the new epoch and 0; with a
current set it is staged with its placement, and the result is the epoch and 1; BUSY_JOB where no set is current and
another job holds the array (R317). An image whose digest is that of the current set is OK_NOTE detail 1 with the set
epoch and 0. A header check that fails gives BAD_PARAM with the image offset of the first, and nothing changes. Where
the spec leaves a point open it states the model's own choice (logs 7, 24, 82, 149). -/
def Obligations.SetsAreLoadedAndMadeCurrent : Prop :=
  (∀ (h : Hdr) (addr len : Nat) (img : Bytes) (p : Place) (tiers : List (Nat × Nat × Nat)) (s : State),
    Sys2Proof.Claims.imageRead h addr len img s → Sys2Proof.Claims.loadable h img s → (s.job h.job).cur = none →
    s.w.holder = none ∨ s.w.holder = some h.job → Sys2Proof.Claims.rising s.w.jobs → placeJob (counted h s) h.job (loadImage img) 0 = some (p, tiers) →
    ∃ s1, exec (.setLoad h addr len) s = .next (finish 0x0301 h s 0 0 0xFF (layout [(4, wrapAdd 32 (s.job h.job).setEpoch 1), (1, 0)]) s1) ∧
      s1.cfg = s.cfg ∧ s1.ctl = s.ctl ∧ (s1.job h.job).cur = some (loadImage img) ∧ (s1.job h.job).place = p ∧
      (s1.job h.job).setEpoch = wrapAdd 32 (s.job h.job).setEpoch 1 ∧ s1.w.holder = some h.job ∧ (∀ k, k ≠ h.job → s1.job k = s.job k)) ∧
  (∀ (h : Hdr) (addr len : Nat) (img : Bytes) (p : Place) (tiers : List (Nat × Nat × Nat)) (s : State),
    Sys2Proof.Claims.imageRead h addr len img s → Sys2Proof.Claims.loadable h img s → (s.job h.job).cur ≠ none →
    placeJob (counted h s) h.job (loadImage img) 6 = some (p, tiers) →
    exec (.setLoad h addr len) s = .next (finish 0x0301 h s 0 0 0xFF (layout [(4, (s.job h.job).setEpoch), (1, 1)])
      ((counted h s).setJob h.job { (s.job h.job) with staged := some (loadImage img), stagedPlace := p }))) ∧
  (∀ (h : Hdr) (addr len : Nat) (img : Bytes) (x : Place × List (Nat × Nat × Nat)) (s : State),
    Sys2Proof.Claims.imageRead h addr len img s → Sys2Proof.Claims.loadable h img s → (s.job h.job).cur = none → heldByOther s h.job = true →
    placeJob (counted h s) h.job (loadImage img) 0 = some x →
    exec (.setLoad h addr len) s = .next (finish 0x0301 h s 0x30 0 0xFF [] (counted h s))) ∧
  (∀ (h : Hdr) (addr len : Nat) (img : Bytes) (s : State), Sys2Proof.Claims.imageRead h addr len img s →
    (∀ o, firstBad (headerChecks img (Sys2Proof.Claims.chkLen img) (Sys2Proof.Claims.planLen img)) = some o →
      exec (.setLoad h addr len) s = .next (finish 0x0301 h s 0x11 (2 ^ 31 + o) 0xFF [] (counted h s))) ∧
    (Sys2Proof.Claims.headed img → (∃ c, (s.job h.job).cur = some c ∧ c.digest = (loadImage img).digest) →
      exec (.setLoad h addr len) s = .next (finish 0x0301 h s 0x01 1 0xFF (layout [(4, (s.job h.job).setEpoch), (1, 0)]) (counted h s))))

/-- For TENSOR_DECLARE, PLACE_SET, DRILL_LOAD and UMPIRE_CONFIG with a table: where reading the record meets a fault that
cannot be made present, the command answers FAULT_PARKED with the packet offset of its address, after events 0x1801
and 0x1802 and the count of the fault in its job; where the fault is of kind 2 it stands in flight and waits for the
page. Where the spec leaves a point open it states the model's own choice (log 33). -/
def Obligations.RecordsThatCannotBeReached : Prop :=
  ∀ (h : Hdr) (addr n off op k page a : Nat) (c : Instr) (s : State),
    (c = .tensorDeclare h addr ∧ op = 0x0204 ∧ n = 64 ∧ off = 16) ∨ (c = .placeSet h addr ∧ op = 0x0205 ∧ n = 32 ∧ off = 16) ∨
      (c = .drillLoad h addr n ∧ op = 0x0604 ∧ n ≤ 16777216 ∧ off = 16) ∨ ((∃ e, e ≤ 10 ∧ c = .umpireConfig h e addr) ∧ addr ≠ 0 ∧ op = 0x0601 ∧ n = 16 ∧ off = 24) →
    Ready op h s → pktRead (counted h s) h.job addr n = .fault k page a →
    (k ≠ 2 → exec c s = .next (finish op h s 0x40 off 0x02 []
      (flt 0x1802 0x03 (if h.job < 64 then h.job else 0xFF) 0 (locDma 0xFF k a) (notePark 0xFF h.job k a (counted h s))))) ∧
    (k = 2 → ∃ t, exec c s = .next t ∧ t.cfg = s.cfg ∧ t.ctl = s.ctl ∧ (∃ x ∈ t.w.waits, x.cmd = c ∧ x.page = page ∧ x.off = off ∧ x.ord = s.w.ordNext) ∧
      accepts op h s off 0 ∈ t.w.inflight)

/-- UMPIRE_CONFIG with no table stages an exponent of at most 10, answers OK_NOTE detail 1 when it is already so, and
refuses a larger one. DRILL_LOAD of a readable image that fails check 1 of R404 answers the image offset, without a
valid signature AUTH_REQUIRED, and with both and room keeps the set under its number, which is the result. SELFTEST of
a known scope and set, not of scope 0 while a job holds the array, is accepted and runs on. SELFTEST_COMPLETE
(crossings clocked) with no failures ends it with a count of 0, and writes 0x250C for a scope 0 that was not hot; with
a cell that failed in scope 0 it retires the cell and ends with a count of 1; with none running it changes nothing.
Where the spec leaves a point open it states the model's own choice (log 115). -/
def Obligations.UmpireSettingsAndTests : Prop :=
  (∀ (h : Hdr) (k : Nat) (s : State), Ready 0x0601 h s →
    (k ≤ 10 → exec (.umpireConfig h k 0) s = .next (if k = (s.job h.job).stK.getD (s.job h.job).k then finish 0x0601 h s 0x01 1 0xFF [] (counted h s)
      else finish 0x0601 h s 0 0 0xFF [] ((counted h s).setJob h.job { (s.job h.job) with stK := some k }))) ∧
    (10 < k → ∀ table, exec (.umpireConfig h k table) s = .next (finish 0x0601 h s 0x11 16 0xFF [] (counted h s)))) ∧
  (∀ (h : Hdr) (addr len : Nat) (img : Bytes) (s : State), Ready 0x0604 h s → len ≤ 16777216 → pktRead (counted h s) h.job addr len = .ok img →
    (∀ o, firstFail (drillChecks img) = some o → exec (.drillLoad h addr len) s = .next (finish 0x0604 h s 0x11 (2 ^ 31 + o) 0xFF [] (counted h s))) ∧
    (firstFail (drillChecks img) = none →
      (Config.drillSigned (leNum (sha256 img)) % 2 = 1 ∨ exec (.drillLoad h addr len) s = .next (finish 0x0604 h s 0xA0 0 0xFF [] (counted h s))) ∧
      (drillRoom s img = true → Config.drillSigned (leNum (sha256 img)) % 2 = 0 ∨ ∃ s1 t, exec (.drillLoad h addr len) s = .next t ∧
        t = finish 0x0604 h s 0 0 0xFF (leBytes 1 (fld img 6 1)) s1 ∧ { s1 with w := { s1.w with ump := s.w.ump } } = counted h s ∧
        (∀ d, d ∈ s1.w.ump.drills ↔ (d.num = fld img 6 1 ∧ d.img = img) ∨ (d.num ≠ fld img 6 1 ∧ d ∈ s.w.ump.drills))))) ∧
  (∀ (h : Hdr) (scope set : Nat) (s : State), Ready 0x0603 h s → scope ≤ 2 → (set = 0 ∨ ∃ d ∈ s.w.ump.drills, d.num = set) →
    (scope = 0 → arrayHeld s = true → exec (.selftest h scope set) s = .next (finish 0x0603 h s 0x30 0 0xFF [] (counted h s))) ∧
    ((scope = 0 → arrayHeld s = false) → exec (.selftest h scope set) s = .next (runsOn 0x0603 h s scope set (counted h s)))) ∧
  (∀ (r : Run) (hot : Bool) (s : State), s.ctl.clk.frozen = false → s.w.inflight.find? (fun r => r.op = 0x0603) = some r →
    exec (.selftestComplete [] [] hot) s = .next (complete r 0 0 0xFF (leBytes 4 0) (if r.a = 0 ∧ hot = false then flt 0x250C 0x05 0xFF 0 locNone s else s))) ∧
  (∀ (r : Run) (k : Nat) (s : State), s.ctl.clk.frozen = false → s.w.inflight.find? (fun r => r.op = 0x0603) = some r → r.a = 0 → k < 576 →
    (s.cell k).retired = false → Sys2Proof.Claims.rising s.w.cells →
    ∃ s1, exec (.selftestComplete [k] [] true) s = .next (complete r 0 0 0xFF (leBytes 4 1) s1) ∧ s1.cfg = s.cfg ∧ s1.ctl = s.ctl ∧ (s1.cell k).retired = true) ∧
  (∀ (cells links : List Nat) (hot : Bool) (s : State), s.ctl.clk.frozen = false → (∀ r ∈ s.w.inflight, r.op ≠ 0x0603) → exec (.selftestComplete cells links hot) s = .next s)

/-- STEP_RUN that passes the common checks: another step than the next is BAD_PARAM detail 16, a third one outstanding
QUEUE_FULL_JOB, more than 1,024 inputs detail 40, both conservative bits detail 42, an array held by another job
BUSY_JOB unless the job is pre-empted. Otherwise, while a step runs, it stands in flight and waits behind the others
with its inputs, and the next step number rises; with no inputs and nothing that holds the job, its step runs with the
packet's seed and report address, its journal entry is open, it is the last step started, no other job changes, and
bit 0 of the flags makes it conservative. LET_REPLAY of a step without a journal entry is BAD_PARAM detail 16; of the
next step whose entry failed it runs that step again, as a replay with the entry's seed, conservatively. Where the
spec leaves a point open it states the model's own choice (logs 69, 88). -/
def Obligations.StepsAreAcceptedAndStart : Prop :=
  (∀ (h : Hdr) (step seed list entries flags report : Nat) (s : State), Ready 0x0302 h s →
    ((∃ n, (s.job h.job).nextStep = some n ∧ n ≠ step) →
      exec (.stepRun h step seed list entries flags report) s = .next (startWaiting h.job (finish 0x0302 h s 0x11 16 0xFF [] (counted h s)))) ∧
    ((s.job h.job).nextStep = none ∨ (s.job h.job).nextStep = some step →
      (2 ≤ outstanding s 0x0302 h.job →
        exec (.stepRun h step seed list entries flags report) s = .next (startWaiting h.job (finish 0x0302 h s 0x21 0 0xFF [] (counted h s)))) ∧
      (outstanding s 0x0302 h.job < 2 → 1024 < entries →
        exec (.stepRun h step seed list entries flags report) s = .next (startWaiting h.job (finish 0x0302 h s 0x11 40 0xFF [] (counted h s)))) ∧
      (outstanding s 0x0302 h.job < 2 → entries ≤ 1024 → bits flags 2 1 = 3 →
        exec (.stepRun h step seed list entries flags report) s = .next (startWaiting h.job (finish 0x0302 h s 0x11 42 0xFF [] (counted h s)))) ∧
      (outstanding s 0x0302 h.job < 2 → entries ≤ 1024 → bits flags 2 1 ≠ 3 → heldByOther s h.job = true → (s.job h.job).pstate = 0 →
        exec (.stepRun h step seed list entries flags report) s = .next (startWaiting h.job (finish 0x0302 h s 0x30 0 0xFF [] (counted h s)))) ∧
      (outstanding s 0x0302 h.job < 2 → entries ≤ 1024 → bits flags 2 1 ≠ 3 → heldByOther s h.job = false → (s.job h.job).cur ≠ none →
        (∀ bs, Sys2Proof.Claims.rising s.w.jobs → (s.job h.job).run ≠ none → pktRead (counted h s) h.job list (32 * entries) = .ok bs →
          exec (.stepRun h step seed list entries flags report) s = .next (runsOn 0x0302 h s step 0 ((counted h s).modJob h.job (fun b =>
            { stageForced flags b with nextStep := some (step + 1), waiting := b.waiting ++ [(.stepRun h step seed list entries flags report, inputList bs entries)] })))) ∧
        (entries = 0 → (s.job h.job).waiting = [] → Sys2Proof.Claims.freeToStart s h.job → Sys2Proof.Claims.rising s.w.jobs →
          ∃ t r e, exec (.stepRun h step seed list entries flags report) s = .next t ∧ t.cfg = s.cfg ∧ t.ctl = s.ctl ∧ (t.job h.job).run = some r ∧
            r.step = step ∧ r.seed = seed ∧ r.report = report ∧ r.replay = false ∧ r.phase = .run ∧ r.startNs = s.now ∧ (bit flags 0 = true → r.conservative = true) ∧
            e ∈ (t.job h.job).jrn ∧ e.step = step ∧ e.seed = seed ∧ e.good = false ∧ (t.job h.job).lastStarted = some step ∧
            (t.job h.job).nextStep = some (step + 1) ∧ (t.job h.job).waiting = [] ∧ accepts 0x0302 h s step 0 ∈ t.w.inflight ∧ (∀ k, k ≠ h.job → t.job k = s.job k))))) ∧
  (∀ (h : Hdr) (step : Nat) (s : State), Ready 0x0602 h s →
    ((s.job h.job).entry? step = none →
      exec (.letReplay h step) s = .next (startWaiting h.job (finish 0x0602 h s 0x11 16 0xFF [] (counted h s)))) ∧
    (∀ e, (s.job h.job).entry? step = some e → e.failed = true → e.nInputs = 0 → e.inputs = [] → (s.job h.job).nextStep = some step → (s.job h.job).waiting = [] →
      Sys2Proof.Claims.freeToStart s h.job → Sys2Proof.Claims.rising s.w.jobs →
      ∃ t r, exec (.letReplay h step) s = .next t ∧ t.cfg = s.cfg ∧ t.ctl = s.ctl ∧ (t.job h.job).run = some r ∧ r.step = step ∧ r.seed = e.seed ∧ r.replay = true ∧
        r.conservative = true ∧ r.phase = .run ∧ accepts 0x0602 h s step 1 ∈ t.w.inflight ∧ (∀ k, k ≠ h.job → t.job k = s.job k)))

/-- STEP_ABORT that passes the common checks: with no step running OK_NOTE detail 1 with result 0, nothing else; in beats
2 to 5 of the boundary the step is marked aborted and the command stands in flight; while micro-batches run the step
is cut at the micro-batches admitted so far, and if that boundary is not reached yet nothing more happens.
STEP_BOUNDARY (crossings clocked) before every visit is done changes nothing; when all are done on a step that is not
aborted, has no poisoned result or struck store and no EXCHANGE or SCATTER stage, with no injection armed, beat 2
begins, items, rows and parts of the step are dropped and the stack engines are idle. Where the spec leaves a point
open it states the model's own choice (log 152). -/
def Obligations.StepsAreAborted : Prop :=
  (∀ (h : Hdr) (s : State), Ready 0x0303 h s →
    ((s.job h.job).run = none → exec (.stepAbort h) s = .next (finish 0x0303 h s 0x01 1 0xFF (leBytes 8 0) (counted h s))) ∧
    (∀ r k, (s.job h.job).run = some r → r.phase = .beats k →
      exec (.stepAbort h) s = .next (modRun h.job (fun r => { r with abort := true, aborted := true }) (runsOn 0x0303 h s r.step 0 (counted h s)))) ∧
    (∀ r, (s.job h.job).run = some r → r.phase = .run → Sys2Proof.Claims.rising s.w.jobs →
      (let s1 := modRun h.job (fun r => { r with abort := true, cut := some r.admitted, parts_ := r.parts_.filter (fun x => decide (x < r.admitted)) ++ [r.admitted] }) (runsOn 0x0303 h s r.step 0 (counted h s))
       stepDrained s1 h.job = false → exec (.stepAbort h) s = .next s1))) ∧
  (∀ (j : Nat) (c : Ctx) (s : State), s.ctl.clk.frozen = false → ctxOf s j = some c → c.r.phase = .run → c.r.abort = false → Sys2Proof.Claims.rising s.w.jobs →
    (c.finished = false → exec (.stepBoundary j) s = .next s) ∧
    (c.finished = true → (∀ x ∈ c.r.tiles, x.poison = false) → (∀ x ∈ c.r.rows, x.2.2.2.2.poison = false) →
      (∀ st ∈ c.t.stages, isExchange st = false ∧ isScatter st = false) →
      s.w.err.state ≠ 1 → badCells c s = [] → (∀ e ∈ s.w.cells, e.2.figBad = false) →
      exec (.stepBoundary j) s = .next (settleEngines j true (leaveVisits j c s)) ∧
      ((settleEngines j true (leaveVisits j c s)).job j).run = some { c.r with phase := .beats 2, items := [], rows := [], parts := [], pushed := [] }))

/-- With no mode staged: MODE_PREPARE of an epoch outside (current, current + 127] or not above the last one prepared is
BAD_PARAM detail 16; while a unit that must hold the settings is disabled NO_RESOURCE; a repeat of one that has been
applied answers its first reply; otherwise (first step good, links there, a placement found, no MODE_COMMIT in flight)
the staged settings become the staged mode of that epoch and nothing but this job changes. MODE_COMMIT of another
epoch than the staged one is BAD_PARAM detail 16, of a step already started detail 24, and otherwise stands in flight
with the step kept. MODE_APPLY (crossings clocked) at beat 5 before that step: a unit that cannot apply is event
0x2302 and the apply outcome is false; otherwise (no set and no compression in the mode) the job has the new epoch and
settings, its previous mode is kept, and no other job changes. Where the spec leaves a point open it states the
model's own choice (logs 27, 35, 62, 87). -/
def Obligations.ModesAreStagedCommittedAndApplied : Prop :=
  (∀ (h : Hdr) (e : Nat) (pl : Option Place) (b b1 : Job) (s : State), Ready 0x0304 h s → b = s.job h.job → b.stagedMode = none → b.modeEpoch < e →
    e ≤ b.modeEpoch + 127 → b.lastPrepared < e → firstGood b = true → (∀ u ∈ modeUnits (stagedAs b e), s.unitOn u = true) →
    absentLink (counted h s) (stagedAs b e) = none → stagedFits (counted h s) h.job = some pl → (∀ r ∈ s.w.inflight, r.op ≠ 0x0305) → Sys2Proof.Claims.rising s.w.jobs →
    b1 = { b with stagedPlace := pl.getD b.stagedPlace } →
    ∃ s1, exec (.modePrepare h e) s = .next (finish 0x0304 h s 0 0 0xFF (leBytes 4 e) s1) ∧
      s1.job h.job = { b1 with stagedMode := some (stagedAs b1 e), lastPrepared := e, commit := none } ∧ (∀ k, k ≠ h.job → s1.job k = s.job k) ∧
      { s1 with w := { s1.w with jobs := s.w.jobs } } = counted h s) ∧
  (∀ (h : Hdr) (e : Nat) (b : Job) (s : State), Ready 0x0304 h s → b = s.job h.job → b.stagedMode = none → preparedBefore b e = true →
    exec (.modePrepare h e) s = .next (finish 0x0304 h s 0 0 0xFF (leBytes 4 e) (counted h s))) ∧
  (∀ (h : Hdr) (e : Nat) (b : Job) (s : State), Ready 0x0304 h s → b = s.job h.job → b.stagedMode = none → preparedBefore b e = false →
    e ≤ b.modeEpoch ∨ b.modeEpoch + 127 < e ∨ e ≤ b.lastPrepared → exec (.modePrepare h e) s = .next (finish 0x0304 h s 0x11 16 0xFF [] (counted h s))) ∧
  (∀ (h : Hdr) (e : Nat) (b : Job) (s : State), Ready 0x0304 h s → b = s.job h.job → b.stagedMode = none → b.modeEpoch < e → e ≤ b.modeEpoch + 127 →
    b.lastPrepared < e → firstGood b = false → exec (.modePrepare h e) s = .next (finish 0x0304 h s 0x30 0 0xFF [] (counted h s))) ∧
  (∀ (h : Hdr) (e : Nat) (b : Job) (s : State), Ready 0x0304 h s → b = s.job h.job → b.stagedMode = none → b.modeEpoch < e → e ≤ b.modeEpoch + 127 →
    b.lastPrepared < e → firstGood b = true → (∃ u ∈ modeUnits (stagedAs b e), s.unitOn u = false) →
    exec (.modePrepare h e) s = .next (finish 0x0304 h s 0x20 0 0xFF [] (counted h s))) ∧
  (∀ (h : Hdr) (e step : Nat) (m : Mode) (s : State), Ready 0x0305 h s → (s.job h.job).stagedMode = some m → m.epoch = e →
    (∀ n, (s.job h.job).lastStarted = some n → n < step) → (s.job h.job).commit = none →
    exec (.modeCommit h e step) s = .next (runsOn 0x0305 h s e step ((counted h s).setJob h.job { (s.job h.job) with commit := some step }))) ∧
  (∀ (h : Hdr) (e step : Nat) (m : Mode) (s : State), Ready 0x0305 h s → (s.job h.job).stagedMode = some m →
    (m.epoch ≠ e → (s.job h.job).lastCommit = none → exec (.modeCommit h e step) s = .next (finish 0x0305 h s 0x11 16 0xFF [] (counted h s))) ∧
    (m.epoch = e → (∃ n, (s.job h.job).lastStarted = some n ∧ step ≤ n) → exec (.modeCommit h e step) s = .next (finish 0x0305 h s 0x11 24 0xFF [] (counted h s)))) ∧
  (∀ (j : Nat) (r : StepRun) (m : Mode) (s : State), s.ctl.clk.frozen = false → (s.job j).run = some r → r.phase = .beats 5 → r.applyOk = none →
    (s.job j).stagedMode = some m → (s.job j).commit = some (r.step + 1) → (∀ u ∈ modeUnits m, s.unitOn u = true) → m.set = none → m.compress = [] →
    s.w.holder = some j → (s.job j).cur.bind SetImg.plan = s.w.topo.jobPlan → Sys2Proof.Claims.rising s.w.jobs →
    ∃ t, exec (.modeApply j 0xFF) s = .next t ∧ t.cfg = s.cfg ∧ t.ctl = s.ctl ∧ (t.job j).modeEpoch = m.epoch ∧ (t.job j).k = m.k.getD (s.job j).k ∧
      (t.job j).chk = m.chk.getD (s.job j).chk ∧ (t.job j).forced = m.forced.getD (s.job j).forced ∧ (t.job j).prev = some (s.job j).modeRec ∧
      (t.job j).cur = (s.job j).cur ∧ (t.job j).stagedMode = none ∧ (t.job j).commit = none ∧ (t.job j).run = some { r with applyOk := some true } ∧
      (∀ k, k ≠ j → t.job k = s.job k)) ∧
  (∀ (j unit : Nat) (r : StepRun) (m : Mode) (s : State), s.ctl.clk.frozen = false → (s.job j).run = some r → r.phase = .beats 5 → r.applyOk = none →
    (s.job j).stagedMode = some m → (s.job j).commit = some (r.step + 1) → unit ≠ 0xFF →
    exec (.modeApply j unit) s = .next (flt 0x2302 unit j r.step (locCause 0 unit) (modRun j (fun r => { r with applyOk := some false, failUnit := unit }) s))) ∧
  (∀ (j u : Nat) (r : StepRun) (m : Mode) (s : State), s.ctl.clk.frozen = false → (s.job j).run = some r → r.phase = .beats 5 → r.applyOk = none →
    (s.job j).stagedMode = some m → (s.job j).commit = some (r.step + 1) → (modeUnits m).find? (fun u => !s.unitOn u) = some u →
    exec (.modeApply j 0xFF) s = .next (flt 0x2302 u j r.step (locCause 0 u) (modRun j (fun r => { r with applyOk := some false, failUnit := u }) s))) ∧
  (∀ (j unit : Nat) (r : StepRun) (s : State), s.ctl.clk.frozen = false → (s.job j).run = some r → r.phase ≠ .beats 5 ∨ (s.job j).commit = none → exec (.modeApply j unit) s = .next s)

/-- COLL_COMPRESS: a tensor that no all-reduce of the current or the staged set names is BAD_PARAM detail 16, a mode above
2 detail 18, a k outside 3 to 10 in mode 1 detail 19, a block size outside the six of mode 2 detail 20; a setting that
stands is OK_NOTE detail 1, another is staged. COLL_RUN whose descriptor passes its checks: BUSY_JOB while a step
runs, TOPOLOGY_MISMATCH without a plan, else it stands in flight and its invocation starts with the elements of its
source. Collective data: for a stage the job's set has not it is dropped; with another descriptor CRC than the stage's
it is event 0x3603 and the step fails with BAD_PARAM; a segment of an all-to-all joins its invocation; data of a
COLL_RUN not issued here yet waits for it. After each, what waits for the Reel engine starts as far as there is room.
Where the spec leaves a point open it states the model's own choice (log 55). -/
def Obligations.CollectivesAreSetRunAndReceived : Prop :=
  (∀ (h : Hdr) (tensor mode k block : Nat) (e : Nat × Nat × Nat × Nat) (s : State), Ready 0x0401 h s → Sys2Proof.Claims.compressible s h.job tensor → tensor ≠ 0 → mode ≠ 0 → mode ≤ 2 →
    (mode = 1 → 3 ≤ k ∧ k ≤ 10) → (mode = 2 → block ∈ [32, 64, 128, 256, 512, 1024]) → (∀ x ∈ (s.job h.job).stCompress, x.1 ≠ tensor) →
    (s.job h.job).compress.find? (fun x => x.1 == tensor) = none → e = (tensor, mode, if mode = 1 then k else 0, if mode = 2 then block else 0) →
    exec (.collCompress h tensor mode k block) s = .next (finish 0x0401 h s 0 0 0xFF []
      ((counted h s).setJob h.job { (s.job h.job) with stCompress := (s.job h.job).stCompress ++ [e] }))) ∧
  (∀ (h : Hdr) (tensor mode k block : Nat) (e : Nat × Nat × Nat × Nat) (s : State), Ready 0x0401 h s → Sys2Proof.Claims.compressible s h.job tensor → tensor ≠ 0 → mode ≤ 2 →
    (mode = 1 → 3 ≤ k ∧ k ≤ 10) → (mode = 2 → block ∈ [32, 64, 128, 256, 512, 1024]) → (∀ x ∈ (s.job h.job).stCompress, x.1 ≠ tensor) →
    e = (tensor, mode, if mode = 1 then k else 0, if mode = 2 then block else 0) →
    (s.job h.job).compress.find? (fun x => x.1 == tensor) = some e ∨ ((s.job h.job).compress.find? (fun x => x.1 == tensor) = none ∧ mode = 0) →
    exec (.collCompress h tensor mode k block) s = .next (finish 0x0401 h s 0x01 1 0xFF [] (counted h s))) ∧
  (∀ (h : Hdr) (tensor mode k block : Nat) (s : State), Ready 0x0401 h s → tensor = 0 ∨ ¬ Sys2Proof.Claims.compressible s h.job tensor →
    exec (.collCompress h tensor mode k block) s = .next (finish 0x0401 h s 0x11 16 0xFF [] (counted h s))) ∧
  (∀ (h : Hdr) (tensor mode k block : Nat) (s : State), Ready 0x0401 h s → Sys2Proof.Claims.compressible s h.job tensor → tensor ≠ 0 → 
    (2 < mode → exec (.collCompress h tensor mode k block) s = .next (finish 0x0401 h s 0x11 18 0xFF [] (counted h s))) ∧
    (mode = 1 → k < 3 ∨ 10 < k → exec (.collCompress h tensor mode k block) s = .next (finish 0x0401 h s 0x11 19 0xFF [] (counted h s))) ∧
    (mode = 2 → block ∉ [32, 64, 128, 256, 512, 1024] → exec (.collCompress h tensor mode k block) s = .next (finish 0x0401 h s 0x11 20 0xFF [] (counted h s)))) ∧
  (∀ (h : Hdr) (addr src dst : Nat) (bs : Bytes) (ds dd : Decl) (s : State), Ready 0x0402 h s → pktRead (counted h s) h.job addr 64 = .ok bs →
    firstBad (collChecks bs 0 (planExt s.w.topo.jobPlan) false) = none → (parseColl bs).src = src → (parseColl bs).dst = dst → dst ≠ 0 →
    s.decl h.job src = some ds → s.decl h.job dst = some dd → ds.kind = 0 → dd.kind = 0 → ds.fmt = (parseColl bs).fmt → dd.fmt = (parseColl bs).fmt →
    (parseColl bs).count ≤ ds.count → (parseColl bs).count ≤ dd.count → (parseColl bs).op ≠ 3 →
    ((s.job h.job).run ≠ none → exec (.collRun h addr) s = .next (finish 0x0402 h s 0x30 0 0xFF [] (counted h s))) ∧
    ((s.job h.job).run = none → (s.job h.job).waiting = [] → s.w.topo.jobPlan = none →
      exec (.collRun h addr) s = .next (finish 0x0402 h s 0x60 0 0xFF [] (counted h s))) ∧
    ((s.job h.job).run = none → (s.job h.job).waiting = [] → s.w.topo.jobPlan ≠ none → s.w.reel.invs = [] → (∀ r ∈ s.w.inflight, r.hdr ≠ h) →
      s.w.holder = none ∨ s.w.holder = some h.job →
      (let n := (s.job h.job).collSerial + 1
       let s1 := runsOn 0x0402 h s n 0 ((counted h s).modJob h.job (fun b => { b with collSerial := n }))
       exec (.collRun h addr) s = .next (invStart { job := h.job, serial := n, desc := bs, bad := declBad s1 h.job src } ((declCodes s1 h.job src).take (parseColl bs).count) s1)))) ∧
  (∀ (j stage mb serial first units fmt rank : Nat) (d data : Bytes) (s : State), s.live j = true → stage ≠ 0xFFFF → ownDesc s j stage serial = some d →
    (parseColl d).op = 5 → data.length = (parseColl d).seg → s.w.reel.invs = [] →
    exec (.reelDataReceive j stage mb serial (crc32 d) 6 first units fmt false rank data) s =
      .next (startDue (invPump { job := j, stage := stage, mb := mb, serial := serial, op := 5, desc := d, segs := [(rank, data)] } s))) ∧
  (∀ (j stage mb serial crc pass first units fmt : Nat) (comp : Bool) (rank : Nat) (d data : Bytes) (s : State), s.live j = true → stage ≠ 0xFFFF →
    ownDesc s j stage serial = some d → crc32 d ≠ crc →
    exec (.reelDataReceive j stage mb serial crc pass first units fmt comp rank data) s = .next (startDue (failStep j (s.stepOf j)
      { status := 0x11, detail := 2 ^ 31, unit := 0x06, stage := stage } [] (flt0 0x3603 0x06 j (s.stepOf j) s)))) ∧
  (∀ (j stage mb serial crc pass first units fmt : Nat) (comp : Bool) (rank : Nat) (data : Bytes) (s : State), s.live j = true → stage ≠ 0xFFFF →
    ownDesc s j stage serial = none → exec (.reelDataReceive j stage mb serial crc pass first units fmt comp rank data) s = .next (startDue s)) ∧
  (∀ (j mb serial crc pass first units fmt rank : Nat) (comp : Bool) (data : Bytes) (s : State), s.live j = true → ownDesc s j 0xFFFF serial = none → s.w.reel.invs = [] →
    exec (.reelDataReceive j 0xFFFF mb serial crc pass first units fmt comp rank data) s = .next (startDue (putInv { job := j, stage := 0xFFFF, mb := mb, serial := serial, segs := [(2 ^ 40,
      layout [(4, crc), (1, pass), (8, first), (4, units), (1, fmt), (1, b2n comp), (2, rank)] ++ data)] } s)))

/-- With REFCLK present. VISIT_START of a position while micro-batches run: the next visit of its order starts (its count
rises, an F visit raises the micro-batches admitted) when the visit before it is done and, for an F visit, no cut
stands before its micro-batch; otherwise nothing changes. STREAM_ITEM of an item the set or a K-split has to send now
and that is not there yet, in a set without EXCHANGE stages: with no bit flipped it stands at its sink (with a
poisoned row it arrives poisoned), and between two stages nothing else changes; with one payload bit flipped it is
marked for sending again the first time, and the second time is event 0x2202 at both cells, whose path is remembered,
and fails the step with cause 6. An item between two stages carries the row's payload, scales and the mode epoch as
its tag. An item out of range or there already changes nothing. Where the spec leaves a point open it states the
model's own choice (logs 29, 36). -/
def Obligations.VisitsAndItemsMoveTheStep : Prop :=
  (∀ (j pos : Nat) (c : Ctx) (v : Visit) (s : State), ctxOf s j = some c → s.ctl.clk.frozen = false → c.r.phase = .run → pos < c.b.place.p → c.b.pstate ≠ 2 →
    (c.order pos)[tget 0 c.r.visits pos]? = some v → Sys2Proof.Claims.visitMay c pos v →
    exec (.visitStart j pos) s = .next (modRun j (fun r => { r with
      visits := tput 0 r.visits pos (tget 0 c.r.visits pos + 1), admitted := if v.fwd then max r.admitted (v.mb + 1) else r.admitted }) s)) ∧
  (∀ (j pos : Nat) (c : Ctx) (v : Visit) (s : State), ctxOf s j = some c → s.ctl.clk.frozen = false →
    (c.order pos)[tget 0 c.r.visits pos]? = some v → ¬ Sys2Proof.Claims.visitMay c pos v → exec (.visitStart j pos) s = .next s) ∧
  (∀ (j pos : Nat) (s : State), s.ctl.clk.frozen = false → ctxOf s j = none → exec (.visitStart j pos) s = .next s) ∧
  (∀ (j strm m idx : Nat) (c : Ctx) (q : Strm) (row : Row) (s : State), ctxOf s j = some c → s.ctl.clk.frozen = false → c.r.phase = .run →
    strm < 4096 → c.t.streams[strm]? = some q → (∀ st ∈ c.t.stages, isExchange st = false) → q.src ≠ 0xFFFF → q.dst ≠ 0xFFFF →
    q.retain = true ∨ c.active q.dst m = true → m < c.t.mb → idx < q.rows * rowItems q.fmt q.len → c.portAt q m idx = true → c.credit q m idx = true →
    (∀ x ∈ c.r.items ++ c.r.held, ¬ (x.strm = strm ∧ x.mb = m ∧ x.idx = idx)) → (strm, m, idx) ∉ c.r.resent →
    c.srcRow q m (idx / max (rowItems q.fmt q.len) 1) = some row → Sys2Proof.Claims.rising s.w.jobs →
    exec (.streamItem j strm m idx 0 0) s = .next (modRun j (fun r => { r with items := r.items ++
      [{ strm := strm, mb := m, idx := idx, tag := c.b.modeEpoch % 256, payload := flipBytes (packItem q.fmt row (idx % max (rowItems q.fmt q.len) 1)).1 0
         scales := (packItem q.fmt row (idx % max (rowItems q.fmt q.len) 1)).2, poison := row.poison }] }) s)) ∧
  (∀ (j strm m idx : Nat) (c : Ctx) (x : Feed) (s : State), ctxOf s j = some c → s.ctl.clk.frozen = false → c.r.phase = .run → m < c.t.mb →
    (∀ st ∈ c.t.stages, isExchange st = false) → c.feed strm m idx = some x → (∀ y ∈ c.r.items ++ c.r.held, ¬ (y.strm = strm ∧ y.mb = m ∧ y.idx = idx)) →
    Sys2Proof.Claims.rising s.w.jobs →
    ∃ t r y, exec (.streamItem j strm m idx 0 0) s = .next t ∧ Sys2Proof.Claims.jobOnly j s t ∧ t.w.dev = s.w.dev ∧ (t.job j).run = some r ∧
      r.items = c.r.items ++ [y] ∧ y.strm = strm ∧ y.mb = m ∧ y.idx = idx ∧ y.tag = c.b.modeEpoch % 256 ∧ y.poison = x.poison) ∧
  (∀ (j strm m idx : Nat) (c : Ctx) (x : Feed) (s : State), ctxOf s j = some c → s.ctl.clk.frozen = false → c.r.phase = .run → m < c.t.mb →
    (∀ st ∈ c.t.stages, isExchange st = false) → c.feed strm m idx = some x → (∀ y ∈ c.r.items ++ c.r.held, ¬ (y.strm = strm ∧ y.mb = m ∧ y.idx = idx)) →
    (strm, m, idx) ∉ c.r.resent → Sys2Proof.Claims.rising s.w.jobs →
    exec (.streamItem j strm m idx 1 0) s = .next (modRun j (fun r => { r with resent := (strm, m, idx) :: r.resent }) s)) ∧
  (∀ (j strm m idx a b : Nat) (c : Ctx) (x : Feed) (s : State), ctxOf s j = some c → s.ctl.clk.frozen = false → c.r.phase = .run → m < c.t.mb →
    (∀ st ∈ c.t.stages, isExchange st = false) → c.feed strm m idx = some x → (∀ y ∈ c.r.items ++ c.r.held, ¬ (y.strm = strm ∧ y.mb = m ∧ y.idx = idx)) →
    (strm, m, idx) ∈ c.r.resent → x.src = some a → x.dst = some b → Sys2Proof.Claims.rising s.w.jobs →
    exec (.streamItem j strm m idx 1 0) s = .next (failStep j c.r.step (checkFail 6 x.stage) [a, b]
      (flt 0x2202 0xFF j c.r.step { locCell b with value := some (locCell a).body } (s.onW (fun w => { w with badPaths := ((a, b) :: w.badPaths).eraseDups }))))) ∧
  (∀ (j strm m idx flips side : Nat) (c : Ctx) (q : Strm) (s : State), ctxOf s j = some c → s.ctl.clk.frozen = false → strm < 4096 → c.t.streams[strm]? = some q →
    (∀ st ∈ c.t.stages, isExchange st = false) →
    q.rows * rowItems q.fmt q.len ≤ idx ∨ c.t.mb ≤ m ∨ (∃ x ∈ c.r.items, x.strm = strm ∧ x.mb = m ∧ x.idx = idx) →
    exec (.streamItem j strm m idx flips side) s = .next s)

/-- With REFCLK present. TILE_READOUT of a product tile of an active micro-batch that spans none, not done before: the
tile is done on the cell that formed it, its outputs are the conversion of the raw sums with the bits the cell got
wrong, device memory and other jobs stand; a tile that is done already changes nothing. RESIDUE_MISMATCH of a tile not
done: re-formed and counted while it was re-formed less than twice, then event 0x2507, a strike against its cell and a
failed step with cause 4. SAMPLE_COMPARE of a sample: equal bits end it; other bits count a disagreement and ask a
third cell. THIRD_COMPUTATION_DONE: agreement with the checker is event 0x2501, a strike against the working cell and
a failed step with cause 5; agreement with the working cell is event 0x2502 and a strike against the checker; that
cell's data is to be captured. Where the spec leaves a point open it states the model's own choice (log 63). -/
def Obligations.TilesAreReadOutAndChecked : Prop :=
  (∀ (j e prod m tile cell : Nat) (err : List (Nat × Nat)) (c : Ctx) (st : Stage) (f : Fig) (raw truth : List (Nat × Nat)) (p : Bool) (s : State),
    ctxOf s j = some c → s.ctl.clk.frozen = false → c.t.stage? (e % 0x8000) = some st → c.t.fig? st = some f → isProduct st = true →
    spans c.t st (decide (0x8000 ≤ e)) prod = false → c.r.phase = .run → Sys2Proof.Claims.tileOf c.r e prod m tile = none → tile < tilesOf c.t e prod →
    prod ∈ prodsOf c.t e → m < c.t.mb → c.active e m = true → c.productRaw st f e prod m tile = some (raw, truth, p) → Sys2Proof.Claims.rising s.w.jobs →
    ∃ t r x, exec (.tileReadout j e prod m tile cell err) s = .next t ∧ Sys2Proof.Claims.jobOnly j s t ∧ t.w.dev = s.w.dev ∧ (t.job j).run = some r ∧ x ∈ r.tiles ∧
      x.st = e ∧ x.prod = prod ∧ x.mb = m ∧ x.tile = tile ∧ x.done = true ∧ x.cell = cell ∧ x.poison = p ∧
      x.out = (c.productOut st f e prod m tile (unflatRaw (bit f.acc 0) (flipAll (flatRaw (bit f.acc 0) raw) err)) p).codes ∧ (∀ y ∈ c.r.tiles, y ∈ r.tiles)) ∧
  (∀ (j e prod m tile cell : Nat) (err : List (Nat × Nat)) (c : Ctx) (x : Tile) (s : State), ctxOf s j = some c → s.ctl.clk.frozen = false →
    Sys2Proof.Claims.tileOf c.r e prod m tile = some x → x.done = true →
    exec (.tileReadout j e prod m tile cell err) s = .next s ∧ exec (.residueMismatch j e prod m tile) s = .next s) ∧
  (∀ (j e prod m tile : Nat) (c : Ctx) (t0 : Tile) (s : State), ctxOf s j = some c → s.ctl.clk.frozen = false → tile < tilesOf c.t e prod → c.active e m = true →
    t0 = (Sys2Proof.Claims.tileOf c.r e prod m tile).getD { st := e, prod := prod, mb := m, tile := tile } → t0.done = false → t0.redo < 2 →
    exec (.residueMismatch j e prod m tile) s = .next ((modRun j (fun r => { r with
        tiles := r.tiles.filter (fun x => !(x.st == e && x.prod == prod && x.mb == m && x.tile == tile)) ++ [{ t0 with redo := t0.redo + 1 }]
        reports := tmod {} r.reports e (fun p => { p with redone := true }) }) s).onW (fun w => { w with ump := { w.ump with detect := satAdd 16 w.ump.detect 1 } }))) ∧
  (∀ (j e prod m tile k : Nat) (c : Ctx) (t0 : Tile) (s : State), ctxOf s j = some c → s.ctl.clk.frozen = false → tile < tilesOf c.t e prod → c.active e m = true →
    Sys2Proof.Claims.tileOf c.r e prod m tile = some t0 → t0.done = false → 2 ≤ t0.redo → k = c.tileCell e prod tile →
    exec (.residueMismatch j e prod m tile) s =
      .next (failStep j c.r.step (checkFail 4 (e % 0x8000)) [k] (strike k c.r.step (flt 0x2507 0x05 j c.r.step (locCell k) s)))) ∧
  (∀ (j st prod m tile : Nat) (err : List (Nat × Nat)) (x : Samp) (s : State), s.ctl.clk.frozen = false →
    (s.job j).samps.find? (fun x => x.isTile st prod m tile && x.state = 0) = some x → flipAll x.truth err = x.res →
    exec (.sampleCompare j st prod m tile err) s = .next (dropSamp j x s)) ∧
  (∀ (j st prod m tile k : Nat) (err : List (Nat × Nat)) (x : Samp) (s : State), s.ctl.clk.frozen = false →
    (s.job j).samps.find? (fun x => x.isTile st prod m tile && x.state = 0) = some x → flipAll x.truth err ≠ x.res →
    pickChecker s [x.work, x.checker] (x.work / 144) = some k →
    exec (.sampleCompare j st prod m tile err) s = .next ((s.onW (fun w => { w with ump := { w.ump with disagree := satAdd 16 w.ump.disagree 1 } })).modJob j (fun b =>
      { b with samps := updWhere (fun y => y == x) (fun y => { y with state := 1, got := flipAll x.truth err, third := k }) b.samps }))) ∧
  (∀ (j st prod m tile : Nat) (err : List (Nat × Nat)) (x : Samp) (s : State), s.ctl.clk.frozen = false →
    (s.job j).samps.find? (fun x => x.isTile st prod m tile && x.state = 1) = some x → flipAll x.truth err = x.got →
    exec (.thirdComputationDone j st prod m tile err) s = .next
      ((failStep j x.step (checkFail 5 (st % 0x8000)) [x.work] (strike x.work x.step (flt 0x2501 0x05 j x.step (locCell x.work) (dropSamp j x s)))).onW
        (fun w => { w with ump := { w.ump with capDue := w.ump.capDue ++ [(x.work, x)] } }))) ∧
  (∀ (j st prod m tile : Nat) (err : List (Nat × Nat)) (x : Samp) (s : State), s.ctl.clk.frozen = false →
    (s.job j).samps.find? (fun x => x.isTile st prod m tile && x.state = 1) = some x → flipAll x.truth err ≠ x.got → flipAll x.truth err = x.res →
    exec (.thirdComputationDone j st prod m tile err) s = .next
      ((strike x.checker x.step (flt 0x2502 0x05 j x.step (locCell x.checker) (dropSamp j x s))).onW
        (fun w => { w with ump := { w.ump with capDue := w.ump.capDue ++ [(x.checker, x)] } })))

/-- With REFCLK present. LOOKUP_BAG of an active micro-batch whose bag is not gathered yet, with every row present and no
home of one held: the stage's port has the row for this bag, made of the pooled elements of the listed table rows with
their weights and converted to the figure's output format, or of NaN where the bag is in error (which the job then
remembers); device memory and other jobs stand. SCATTER_ROW of a gradient row at its sink that is not scattered yet,
in a table of at most 16,384 elements a row, where at most 1,000 accumulators result: each listed row's accumulator
takes the row's term, and no other does. Where the spec leaves a point open it states the model's own choice (log 55). -/
def Obligations.BagsArePooledAndRowsScattered : Prop :=
  (∀ (j e m bag h : Nat) (c : Ctx) (st : Stage) (f : Fig) (d : Decl) (list : List (Nat × Nat)) (s : State), ctxOf s j = some c → s.ctl.clk.frozen = false →
    c.t.stage? e = some st → c.t.fig? st = some f → c.decl st.table = some (h, d) → isLookup st = true → c.r.phase = .run → bag < st.bags → m < c.t.mb →
    c.active e m = true → c.portRow e f.port m bag = none → s.w.mr.missing = [] →
    c.bag (parseGather (c.t.img.drop st.desc)) d.nrows (m * st.bags + bag) = some list →
    (∀ p ∈ list, ∀ x ∈ c.readHomes s st.table h d (m * st.bags + bag) p.1, homeHeld s x = false) →
    Sys2Proof.Claims.rising s.w.jobs → Sys2Proof.Claims.rising s.w.se →
    ∃ t r row, exec (.lookupBag j e m bag) s = .next t ∧ Sys2Proof.Claims.jobOnly j s t ∧ t.w.dev = s.w.dev ∧ (t.job j).run = some r ∧ r.tiles = c.r.tiles ∧
      r.rows = c.r.rows ++ [(e, f.port, m, bag, row)] ∧ (t.engine ((m * st.bags + bag) % 12)).busy = true ∧
      row.vals = (convRow f.oFmt false false {} ((List.range d.rowLen).map (fun k => poolElem (parseGather (c.t.img.drop st.desc))
        ((list.map (fun p => rowElems d (tableRow s j h d p.1))).map (fun v => v.getD k 0)) (list.map (fun p => p.2))))).1.vals) ∧
  (∀ (j e m bag h : Nat) (c : Ctx) (st : Stage) (f : Fig) (d : Decl) (s : State), ctxOf s j = some c → s.ctl.clk.frozen = false →
    c.t.stage? e = some st → c.t.fig? st = some f → c.decl st.table = some (h, d) → isLookup st = true → c.r.phase = .run → bag < st.bags → m < c.t.mb →
    c.active e m = true → c.portRow e f.port m bag = none → c.bag (parseGather (c.t.img.drop st.desc)) d.nrows (m * st.bags + bag) = none →
    Sys2Proof.Claims.rising s.w.jobs →
    ∃ t r row, exec (.lookupBag j e m bag) s = .next t ∧ Sys2Proof.Claims.jobOnly j s t ∧ t.w.dev = s.w.dev ∧ (t.job j).run = some r ∧ r.tiles = c.r.tiles ∧
      r.rows = c.r.rows ++ [(e, f.port, m, bag, row)] ∧ row.vals = (convRow f.oFmt false false {} (List.replicate d.rowLen nan32)).1.vals ∧ (t.job j).bagErr = true) ∧
  (∀ (j e m bag : Nat) (c : Ctx) (st : Stage) (f : Fig) (s : State), ctxOf s j = some c → s.ctl.clk.frozen = false → c.t.stage? e = some st → c.t.fig? st = some f →
    st.bags ≤ bag ∨ c.portRow e f.port m bag ≠ none → exec (.lookupBag j e m bag) s = .next s) ∧
  (∀ (j e m row h : Nat) (c : Ctx) (st lk : Stage) (f : Fig) (q : Strm) (gr : Row) (d : Decl) (list : List (Nat × Nat)) (new : Job) (s : State),
    ctxOf s j = some c → s.ctl.clk.frozen = false → c.t.stage? e = some st → c.t.fig? st = some f → c.decl st.table = some (h, d) →
    c.t.stage? (parseRowOpt (c.t.img.drop st.desc)).lookup = some lk → c.t.in? e f.port = some q →
    c.sinkRow q m row = some gr → isScatter st = true → c.r.phase = .run → row < lk.bags → m < c.t.mb → d.rowLen ≤ 16384 → Sys2Proof.Claims.rising s.w.jobs →
    c.portRow e 0x10 m row = none → list = (c.bag (parseGather (c.t.img.drop lk.desc)) d.nrows (m * lk.bags + row)).getD [] →
    new = list.foldl (fun b p => addAcc e st.table p.1 d.rowLen ((rowFp32 q.fmt gr).map (fun x =>
      scatterTerm (parseGather (c.t.img.drop lk.desc)) (parseRowOpt (c.t.img.drop st.desc)).qg list.length p.2 x)) b) (s.job j) → new.accs.length ≤ 1000 →
    ∃ t r, exec (.scatterRow j e m row) s = .next t ∧ Sys2Proof.Claims.jobOnly j s t ∧ t.w.dev = s.w.dev ∧ (t.job j).accs = new.accs ∧ (t.job j).run = some r ∧
      (e, 0x10, m, row, { vals := [], poison := gr.poison }) ∈ r.rows) ∧
  (∀ (j e m row : Nat) (c : Ctx) (s : State), ctxOf s j = some c → s.ctl.clk.frozen = false → c.portRow e 0x10 m row ≠ none → exec (.scatterRow j e m row) s = .next s)

/-- With REFCLK present. UPDATE_STAGE_START in beat 2 of a step that has failed marks the stage as done and writes
nothing; of a stage not ready (done already, or another beat) nothing changes; otherwise its tensors are read, each
row of the stage is computed and written, a return copy of its weight is formed anew, tiles are sampled, and the stage
is marked done, and a double-buffered parameter tensor is noted for the switch. ROW_OPTIMIZER_UPDATE with the one
accumulator of a step, not flagged, its row free and not poisoned and the undo space large enough: the row has its new
image, the one it replaced is kept for the step, the accumulators are empty; with none, only the stage counters are
settled. BOUNDARY_PLACEMENT when the updates of beat 2 are done and no report area is named does beat 3, then beat 4,
and the step stands at beat 5; before that nothing changes. Where the spec leaves a point open it states the model's
own choice (logs 31, 34, 64, 65, 66, 110). -/
def Obligations.BoundaryWorkIsDoneInBeats : Prop :=
  (∀ (j st h len : Nat) (c : Ctx) (g : Stage) (f : Fig) (d : Decl) (s sr : State), ctxOf s j = some c → s.ctl.clk.frozen = false → c.t.stage? st = some g →
    c.t.fig? g = some f → c.decl g.upParam = some (h, d) → c.r.phase = .beats 2 → isUpdate g = true → st ∉ c.r.updated →
    (∀ x ∈ c.t.stages, isExchange x = true → x.idx ∈ c.r.exchanged) → c.r.fail = none → prevGood c.b c.r.step = true → c.updBad g f = false → d.dbl = true →
    len = max d.rowLen 1 →
    sr = unitsFail j st ((g.upParam :: g.upGrad :: g.upStates.filter (fun x => x != 0)).flatMap c.tensOff).eraseDups
      (forAll (g.upParam :: g.upGrad :: g.upStates.filter (fun x => x != 0)) (fun id s => match c.decl id with | some (h, d) => readDev 0 j h 0 d.imageBytes s | none => s) s) →
    exec (.updateStageStart j st) s = .next ((modRun j (fun r => { r with updated := r.updated ++ [st] })
      (updSamples j c g len ((List.range ((g.upCount + len - 1) / len)).map (c.updEnv g f len))
        (copyAfter j g.upParam d (forAll (List.range ((g.upCount + len - 1) / len)) (updateRow j c g len ((List.range ((g.upCount + len - 1) / len)).map (c.updEnv g f len))) sr)))).modJob j
          (fun b => b.modEntry c.r.step (fun e => { e with flip := (e.flip ++ [h]).eraseDups })))) ∧
  (∀ (j st h : Nat) (c : Ctx) (g : Stage) (f : Fig) (d : Decl) (s : State), ctxOf s j = some c → s.ctl.clk.frozen = false → c.t.stage? st = some g →
    c.t.fig? g = some f → c.decl g.upParam = some (h, d) → c.r.phase = .beats 2 → isUpdate g = true → st ∉ c.r.updated →
    (∀ x ∈ c.t.stages, isExchange x = true → x.idx ∈ c.r.exchanged) → c.r.fail ≠ none →
    exec (.updateStageStart j st) s = .next (modRun j (fun r => { r with updated := r.updated ++ [st] }) s)) ∧
  (∀ (j st h : Nat) (c : Ctx) (g : Stage) (f : Fig) (d : Decl) (s : State), ctxOf s j = some c → s.ctl.clk.frozen = false → c.t.stage? st = some g →
    c.t.fig? g = some f → c.decl g.upParam = some (h, d) →
    c.r.phase ≠ .beats 2 ∨ isUpdate g = false ∨ st ∈ c.r.updated ∨ (c.r.fail = none ∧ prevGood c.b c.r.step = false) → exec (.updateStageStart j st) s = .next s) ∧
  (∀ (j : Nat) (c : Ctx) (s : State), ctxOf s j = some c → s.ctl.clk.frozen = false → c.r.phase = .beats 2 → c.r.rowsDone = false →
    (∃ x ∈ c.t.stages, isScatter x = true) → (∀ x ∈ c.t.stages, isScatter x = true → fld (c.t.img.drop x.desc) 28 4 = 0 ∨ x.idx ∈ c.r.exchanged) → c.r.fail = none →
    Sys2Proof.Claims.rising s.w.jobs → (s.job j).accs = [] → undoUsed (s.job j) ≤ undoRoom s c.t →
    exec (.rowOptimizerUpdate j) s = .next (clearAccs j (List.replicate 12 0) (modRun j (fun r => { r with rowsDone := true }) s))) ∧
  (∀ (j h : Nat) (c : Ctx) (a : Acc) (st : Stage) (d : Decl) (new : Bytes) (s : State), ctxOf s j = some c → s.ctl.clk.frozen = false → c.r.phase = .beats 2 →
    c.r.rowsDone = false → (∃ x ∈ c.t.stages, isScatter x = true) →
    (∀ x ∈ c.t.stages, isScatter x = true → fld (c.t.img.drop x.desc) 28 4 = 0 ∨ x.idx ∈ c.r.exchanged) → c.r.fail = none → Sys2Proof.Claims.rising s.w.jobs →
    (s.job j).accs = [a] → a.flagged = false → c.t.stage? a.stage = some st → c.decl a.table = some (h, d) → rowsFree s j h d [a.row] = true →
    readsBad s j h 0 (a.row * rowBytes d) (rowBytes d) = false → s.w.inject = [] → c.constBad = false → undoUsed (s.job j) + 16 + rowBytes d ≤ undoRoom s c.t →
    s.w.mr.cutKnown = false → s.w.ck.armed = false → s.w.err.state ≠ 1 → Memory.wf s.w.dev →
    new = newRow (parseRowOpt (c.t.img.drop st.desc)) (c.r.sc.getD (parseRowOpt (c.t.img.drop st.desc)).lr 0) c.r.seed c.r.step a.table d a (tableRow s j h d a.row) →
    new.length = rowBytes d → 0 < rowBytes d →
    ∃ t, exec (.rowOptimizerUpdate j) s = .next t ∧ Sys2Proof.Claims.jobOnly j s t ∧ (t.job j).accs = [] ∧ tableRow t j h d a.row = new ∧
      (t.job j).undo = (s.job j).undo ++ [{ step := c.r.step, table := a.table, handle := h, row := a.row, image := tableRow s j h d a.row }] ∧
      (∀ k, k < devKey j h 0 (a.row * rowBytes d) ∨ devKey j h 0 (a.row * rowBytes d) + rowBytes d ≤ k → mget t.w.dev k = mget s.w.dev k)) ∧
  (∀ (j : Nat) (c : Ctx) (s : State), ctxOf s j = some c → s.ctl.clk.frozen = false →
    c.r.phase ≠ .beats 2 ∨ c.r.rowsDone = true ∨ (∀ x ∈ c.t.stages, isScatter x = false) → exec (.rowOptimizerUpdate j) s = .next s) ∧
  (∀ (j : Nat) (failed : List Nat) (cals : List (Nat × Cal)) (c c1 : Ctx) (s : State), ctxOf s j = some c → s.ctl.clk.frozen = false → c.r.report = 0 →
    c.r.phase = .beats 2 → (∀ x ∈ c.t.stages, isUpdate x = true → x.idx ∈ c.r.updated) → (c.r.rowsDone = true ∨ ∀ x ∈ c.t.stages, isScatter x = false) →
    (∀ x ∈ c.t.stages, isExchange x = true → x.idx ∈ c.r.exchanged) → ctxOf (beat3 j c s) j = some c1 →
    exec (.boundaryPlacement j failed cals) s = .next (modRun j (fun r => { r with phase := .beats 5 }) (beat4 j failed cals c1 (beat3 j c s)))) ∧
  (∀ (j : Nat) (failed : List Nat) (cals : List (Nat × Cal)) (c : Ctx) (s : State), ctxOf s j = some c → s.ctl.clk.frozen = false → c.r.report = 0 →
    c.r.phase ≠ .beats 2 ∨ (∃ x ∈ c.t.stages, isUpdate x = true ∧ x.idx ∉ c.r.updated) ∨ (∃ x ∈ c.t.stages, isExchange x = true ∧ x.idx ∉ c.r.exchanged) ∨
      (c.r.rowsDone = false ∧ ∃ x ∈ c.t.stages, isScatter x = true) →
    exec (.boundaryPlacement j failed cals) s = .next s)

/-- With REFCLK present. STEP_BARRIER_ENTRY of a step at beat 5 with no mode to apply and no partner: the step stands at
the barrier and the module's own entry is there, and goes on; before that nothing changes. STEP_BARRIER_UP of a
member, with no own entry, keeps the member's entry and its called-good step. STEP_BARRIER_DOWN for the step the
module has entered for sets its exit and goes on to the members below; for another step nothing changes.
STEP_BARRIER_EXIT of a clean step with no mode change, nothing waiting, no huddle and no checkpoint in progress: no
step runs, the step's entry has ended, its double buffers have switched, the module has left the barrier and every
STEP_RUN and LET_REPLAY of that step is answered; of a failed one the step is rolled back before it is answered and
what waits may start; before the exit nothing changes. STEP_BARRIER_SLOW names the last node heard of in event 0x3602.
Where the spec leaves a point open it states the model's own choice (log 67). -/
def Obligations.StepBarrierEntersAndExits : Prop :=
  (∀ (j : Nat) (r : StepRun) (s : State), (s.job j).run = some r → s.ctl.clk.frozen = false → r.phase = .beats 5 → (s.job j).commit = none → s.w.mr.out = 0 →
    exec (.stepBarrierEntry j) s = .next (barAdvance j (modBar j (fun x => { x with own := some (ownEntry s j r), entryNs := s.now, sentUp := false })
      (modRun j (fun r => { r with phase := .barrier }) s)))) ∧
  (∀ (j : Nat) (r : StepRun) (s : State), (s.job j).run = some r → s.ctl.clk.frozen = false → r.phase = .beats 5 → (s.job j).commit = none → s.w.mr.out = 0 →
    Sys2Proof.Claims.alone s → barOf s j = none → Sys2Proof.Claims.rising s.w.jobs →
    ∃ t x, exec (.stepBarrierEntry j) s = .next t ∧ Sys2Proof.Claims.jobOnly j s t ∧ (t.job j).run = some { r with phase := .barrier } ∧ barOf t j = some x ∧
      x.own = some (ownEntry s j r) ∧ x.entryNs = s.now ∧ (r.step ≤ goodKey (ownEntry s j r).good → x.exit = some (ownEntry s j r))) ∧
  (∀ (j : Nat) (r : StepRun) (s : State), (s.job j).run = some r → s.ctl.clk.frozen = false →
    r.phase ≠ .beats 5 ∨ ((s.job j).commit = some (r.step + 1) ∧ (s.job j).stagedMode ≠ none ∧ r.applyOk = none) → exec (.stepBarrierEntry j) s = .next s) ∧
  (∀ (j src step : Nat) (applied failed : Bool) (good count node : Nat) (s : State), (∀ x ∈ s.w.reel.bars, x.job = j → x.own = none ∧ x.kids = []) →
    exec (.stepBarrierUp j src step applied failed good count node) s = .next (modBar j (fun x => { x with kids := [⟨src, step, applied, failed, good, count, node⟩] })
      (s.modJob j (fun b => { b with kidGood := putAssoc src good b.kidGood })))) ∧
  (∀ (j step : Nat) (applied failed : Bool) (good count node : Nat) (x : Bar) (o : Ent) (s : State), barOf s j = some x → x.own = some o →
    o.step = step → x.exit = none → exec (.stepBarrierDown j step applied failed good count node) s =
      .next (forAll (downNodes s j) (fun d s => control d j step 2 (b2n applied + 2 * b2n failed) node (s.job j).modeEpoch good 0 count s)
        (modBar j (fun x => { x with exit := some ⟨node, step, applied, failed, good, count, node⟩ }) s))) ∧
  (∀ (j step : Nat) (applied failed : Bool) (good count node : Nat) (x : Bar) (o : Ent) (s : State), barOf s j = some x → x.own = some o →
    o.step ≠ step ∨ x.exit ≠ none → exec (.stepBarrierDown j step applied failed good count node) s = .next s) ∧
  (∀ (j : Nat) (r : StepRun) (x : Bar) (o e : Ent) (s : State), (s.job j).run = some r → barOf s j = some x → x.own = some o → s.ctl.clk.frozen = false →
    x.exit = some e → r.phase = .barrier → e.step = r.step → r.applyOk = none → (s.job j).stagedMode = none → e.failed = false → o.failed = false →
    (s.job j).waiting = [] → hudOf s j = none → s.w.ck.state ≠ 1 → (s.job j).lastGood = none ∨ e.good ≤ (s.job j).jobGood →
    Sys2Proof.Claims.rising s.w.jobs → (∀ k ∈ x.kids, k.step ≤ r.step) → (∀ y ∈ s.w.reel.bars, y.job = j → y = x) →
    ∃ t, exec (.stepBarrierExit j) s = .next t ∧ t.cfg = s.cfg ∧ t.ctl = s.ctl ∧ (t.job j).run = none ∧ barOf t j = none ∧
      (∀ y, (s.job j).entry? r.step = some y → (t.job j).entry? r.step = some { y with ended := true } ∧
        (t.job j).decls = (s.job j).decls.map (fun d => if d.1 ∈ y.flip then (d.1, { d.2 with buf := 1 - d.2.buf }) else d)) ∧
      (∀ c ∈ t.w.inflight, c.op = 0x0302 ∨ c.op = 0x0602 → c.hdr.job = j → c.a ≠ r.step)) ∧
  (∀ (j : Nat) (r : StepRun) (x : Bar) (o e : Ent) (s : State), (s.job j).run = some r → barOf s j = some x → x.own = some o → s.ctl.clk.frozen = false →
    x.exit = some e → r.phase = .barrier → e.step = r.step → e.failed = true ∨ o.failed = true →
    exec (.stepBarrierExit j) s = .next (startWaiting j (hudAdvance j (exitFailed j r (settleMode j e.applied r ((closeBar j r.step s).onW
      (fun w => { w with reel := { w.reel with waitUs := (s.now - x.entryNs) / 1000, last := e.node } })))))) ) ∧
  (∀ (j : Nat) (x : Bar) (s : State), barOf s j = some x → s.ctl.clk.frozen = false → x.exit = none → exec (.stepBarrierExit j) s = .next s) ∧
  (∀ (j : Nat) (x : Bar) (o : Ent) (s : State), barOf s j = some x → x.own = some o → x.exit = none → x.kids = [] →
    exec (.stepBarrierSlow j) s = .next (flt 0x3602 0x06 j o.step (locLink 0xFF 0xF o.node 0) s)) ∧
  (∀ (j : Nat) (s : State), s.ctl.clk.frozen = false → barOf s j = none → exec (.stepBarrierExit j) s = .next s ∧ exec (.stepBarrierSlow j) s = .next s)

/-- With REFCLK present, STEP_CALLED_GOOD of a step for which a condition of R408 does not hold changes nothing. Where all
hold, on a module alone with no mirror held, no checkpoint in progress and no barrier entered, the step is the last
good one, the job's good step has reached it, the conservative mode of a restored job ends with the first step after
the restore, and nothing of the settings, the control state or another job changes. CALLED_GOOD_UPDATE of the node
that combines this module's value, with a newer step, raises the job's good step and tells the members below; with an
older one, or of a node that is neither above nor below, nothing changes; of a member below it, that member's value is
kept and the combined value goes on. Where the spec leaves a point open it states the model's own choice (logs 61,
67). -/
def Obligations.StepsAreCalledGood : Prop :=
  (∀ (j n : Nat) (s : State),
    (s.ctl.clk.frozen = false → goodConds s j n = false → exec (.stepCalledGood j n) s = .next s) ∧
    (s.ctl.clk.frozen = false → goodConds s j n = true → n ≠ noGood → Sys2Proof.Claims.alone s → s.w.mr.inNode = 0xFFFF → s.w.ck.state ≠ 1 → barOf s j = none → Sys2Proof.Claims.rising s.w.jobs →
      ∃ t, exec (.stepCalledGood j n) s = .next t ∧ Sys2Proof.Claims.jobOnly j s t ∧ (t.job j).lastGood = some n ∧ (t.job j).jobGood = max (s.job j).jobGood n ∧
        (t.job j).consTillGood = ((s.job j).consTillGood && decide (n < (s.job j).consFrom)) ∧ (t.job j).run = (s.job j).run ∧ t.w.dev = s.w.dev)) ∧
  (∀ (j n : Nat) (e : Jrn) (s : State), (s.job j).entry? n = some e → goodConds s j n = true →
    e.ended = true ∧ e.failed = false ∧ e.plaus = true ∧ (e.acked = true ∨ s.w.mr.out = 0 ∨ s.w.mr.out = 3) ∧ (∀ x ∈ (s.job j).samps, x.step ≠ n) ∧
      (∀ x ∈ (s.job j).jrn, x.step < n → x.good = true)) ∧
  (∀ (j src good : Nat) (s : State), upNode s j = some src → (s.job j).jobGood < good →
    exec (.calledGoodUpdate j src good) s = .next (forAll (downNodes s j) (fun d s => control d j 0 9 0 s.w.topo.node (s.job j).modeEpoch good 0 0 s) (reachGood j good s))) ∧
  (∀ (j src good : Nat) (s : State), upNode s j ≠ some src → src ∈ downNodes s j → barOf s j = none → Sys2Proof.Claims.rising s.w.jobs →
    exec (.calledGoodUpdate j src good) s = .next (barAdvance j (goodAdvance j (s.modJob j (fun b => { b with kidGood := putAssoc src good b.kidGood }))))) ∧
  (∀ (j src good : Nat) (s : State), (upNode s j = some src ∧ good ≤ (s.job j).jobGood) ∨ (upNode s j ≠ some src ∧ src ∉ downNodes s j) →
    exec (.calledGoodUpdate j src good) s = .next s)

/-- HUDDLE of a reason outside 1 to 6 is BAD_PARAM detail 16; while a huddle is under way the command joins it; on a
module alone with no step running, nothing waiting and no generation in progress it is answered at once and no huddle
is left. HUDDLE_REQUEST of a member heard already changes nothing; another, of a reason that is no abort, is kept and
the module asks too. HUDDLE_UP keeps the entry of the member below in place of an earlier one. HUDDLE_DOWN that names
the cut the module has entered for and every live member ends the huddle; any other changes nothing. HUDDLE_TIMEOUT of
a member that has entered is event 0x3601 and answers HUDDLE with BARRIER_TIMEOUT and the cut; the member stays
stopped. Where the spec leaves a point open it states the model's own choice (log 68). -/
def Obligations.HuddlesGatherAndEnd : Prop :=
  (∀ (h : Hdr) (reason boundary : Nat) (s : State), Ready 0x0505 h s → 1 ≤ reason → reason ≤ 6 → hudOf s h.job = none →
    exec (.huddle h reason boundary) s = .next (askHuddle h.job reason boundary (runsOn 0x0505 h s reason boundary (counted h s)))) ∧
  (∀ (h : Hdr) (reason boundary : Nat) (s : State), Ready 0x0505 h s → 1 ≤ reason → reason ≤ 6 → hudOf s h.job ≠ none →
    exec (.huddle h reason boundary) s = .next (hudAdvance h.job (runsOn 0x0505 h s reason boundary (counted h s)))) ∧
  (∀ (h : Hdr) (reason boundary : Nat) (s : State), Ready 0x0505 h s → 1 ≤ reason → reason ≤ 6 → hudOf s h.job = none → reason ≠ 2 → reason ≠ 4 →
    Sys2Proof.Claims.alone s → (s.job h.job).run = none → (s.job h.job).waiting = [] → s.w.ck.state ≠ 1 →
    ∃ t, exec (.huddle h reason boundary) s = .next t ∧ t.cfg = s.cfg ∧ t.ctl = s.ctl ∧ hudOf t h.job = none ∧ Sys2Proof.Claims.answered [0x0505, 0x0303] h.job t) ∧
  (∀ (h : Hdr) (reason boundary : Nat) (s : State), Ready 0x0505 h s → reason = 0 ∨ 6 < reason →
    exec (.huddle h reason boundary) s = .next (finish 0x0505 h s 0x11 16 0xFF [] (counted h s))) ∧
  (∀ (j src reason boundary good : Nat) (s : State), (∀ x, hudOf s j = some x → ∀ q ∈ x.reqs, q.1 ≠ src) → reason ≠ 4 →
    exec (.huddleRequest j src reason boundary good) s = .next (hudAdvance j (askHuddle j reason 0 (modHud j (fun x => { x with
      reason := if x.reqs.isEmpty then reason else x.reason, reqs := x.reqs ++ [(src, boundary, good)] }) s)))) ∧
  (∀ (j src reason boundary good : Nat) (x : Hud) (s : State), hudOf s j = some x → (∃ q ∈ x.reqs, q.1 = src) →
    exec (.huddleRequest j src reason boundary good) s = .next s) ∧
  (∀ (j src boundary count : Nat) (x : Hud) (s : State), hudOf s j = some x → x.entered = false → x.cut = none → (∃ n ∈ liveMembers s j, ∀ q ∈ x.reqs, q.1 ≠ n) →
    (∀ y ∈ s.w.reel.huds, y.job = j → y = x) →
    exec (.huddleUp j src boundary count) s = .next (modHud j (fun x => { x with kids := x.kids.filter (fun k => k.src != src) ++
      [{ src := src, step := boundary, count := count }] }) s)) ∧
  (∀ (j boundary count : Nat) (x : Hud) (s : State), hudOf s j = some x → x.entered = true → x.cut = some boundary → count = (liveMembers s j).length →
    exec (.huddleDown j boundary count) s = .next (hudExit j (modHud j (fun x => { x with exited := true }) s))) ∧
  (∀ (j boundary count : Nat) (s : State), (∀ x, hudOf s j = some x → x.entered = false ∨ x.cut ≠ some boundary ∨ count ≠ (liveMembers s j).length) →
    exec (.huddleDown j boundary count) s = .next s) ∧
  (∀ (j : Nat) (x : Hud) (s : State), hudOf s j = some x → x.entered = true → x.exited = false → x.timedOut = false →
    exec (.huddleTimeout j) s = .next (completeAll (fun r => r.op = 0x0505 && r.hdr.job = j) 0x62 0 0x06 (fun _ => leBytes 8 (x.cut.getD 0))
      (flt 0x3601 0x06 j (x.cut.getD 0) locNone (modHud j (fun x => { x with timedOut := true }) s)))) ∧
  (∀ (j : Nat) (s : State), (∀ x, hudOf s j = some x → x.entered = false ∨ x.exited = true ∨ x.timedOut = true) → exec (.huddleTimeout j) s = .next s)

/-- LINK_SIGNAL_DETECT sets sig; a link off, or down with attempts left, that is enabled and grouped trains. LINK_TRAINED
of a link that trains, unless a foul action takes every frame: it is held with lock and no failed attempts, or down
with one more; of another link nothing changes. LINK_IDENTITY: of a link that is up only the peer's record is kept; a
held link whose peer is the expected one, or the one it had, is up; one judged extra or wrong stays held.
LINK_DEAD_TIMER takes a held or up link down and drops its queues. LK_CMD_RETRAIN trains a link that is off or down,
and one that is held or up after taking it down; a disabled unit meets the access. LINK_RETRY_WINDOW counts windows
above the threshold and reports the tenth in a row. LINK_DISCOVER of a mask above bit 11 is BAD_PARAM detail 16; a
down link of an asked port trains and the command waits; where all links of the asked ports are up it is answered.
Where the spec leaves a point open it states the model's own choice (logs 126, 139, 146). -/
def Obligations.LinksTrainAndAreJudged : Prop :=
  (∀ (l : Nat) (s : State), l < 24 → linkUsable s l = true → (s.link l).state = 0 ∨ ((s.link l).state = 4 ∧ (s.link l).fails < (tget {} s.cfg.lk l).trainFail) →
    Sys2Proof.Claims.rising s.w.lk → exec (.linkSignalDetect l) s = .next (startTraining l (s.modLink l (fun k => { k with sig := true })))) ∧
  (∀ (l : Nat) (s : State), l < 24 → Sys2Proof.Claims.rising s.w.lk → linkUsable s l = false ∨ (s.link l).state = 1 ∨ (s.link l).state = 2 ∨ (s.link l).state = 3 ∨
      ((s.link l).state = 4 ∧ (tget {} s.cfg.lk l).trainFail ≤ (s.link l).fails) →
    exec (.linkSignalDetect l) s = .next (s.modLink l (fun k => { k with sig := true }))) ∧
  (∀ (l : Nat) (ppm : Int) (s : State), l < 24 → Sys2Proof.Claims.rising s.w.lk → (s.link l).state = 1 → foulAll s l = false →
    ∃ t, exec (.linkTrained l true ppm) s = .next t ∧ t.cfg = s.cfg ∧ (t.link l).state = 2 ∧ (t.link l).lock = true ∧
      (t.link l).fails = 0 ∧ (t.link l).ppmTenths = ppm ∧ (t.link l).trains = satAdd 8 (s.link l).trains 1 ∧ (∀ i, i ≠ l → t.link i = s.link i)) ∧
  (∀ (l : Nat) (ok : Bool) (ppm : Int) (s : State), l < 24 → Sys2Proof.Claims.rising s.w.lk → (s.link l).state = 1 → ok = false ∨ foulAll s l = true →
    ∃ t, exec (.linkTrained l ok ppm) s = .next t ∧ t.cfg = s.cfg ∧ (t.link l).state = 4 ∧ (t.link l).fails = (s.link l).fails + 1) ∧
  (∀ (l : Nat) (ok : Bool) (ppm : Int) (s : State), (s.link l).state ≠ 1 → exec (.linkTrained l ok ppm) s = .next s) ∧
  (∀ (l : Nat) (s : State), l < 24 → Sys2Proof.Claims.rising s.w.lk → (s.link l).state = 2 ∨ (s.link l).state = 3 →
    ∃ t, exec (.linkDeadTimer l) s = .next t ∧ t.cfg = s.cfg ∧ t.ctl = s.ctl ∧ (t.link l).state = 4 ∧ (t.link l).txq = [] ∧ (t.link l).replay = []) ∧
  (∀ (l : Nat) (s : State), (s.link l).state ≠ 2 → (s.link l).state ≠ 3 → exec (.linkDeadTimer l) s = .next s) ∧
  (∀ (l : Nat) (s : State), l < 24 → Sys2Proof.Claims.rising s.w.lk → linkUsable s l = true → (s.link l).state = 0 ∨ (s.link l).state = 4 →
    exec (.lkCmdRetrain l) s = .next (startTraining l (s.modLink l (fun k => { k with fails := 0 })))) ∧
  (∀ (l : Nat) (s : State), l < 24 → Sys2Proof.Claims.rising s.w.lk → linkUsable s l = true → (s.link l).state = 2 ∨ (s.link l).state = 3 →
    ∃ t, exec (.lkCmdRetrain l) s = .next t ∧ t.cfg = s.cfg ∧ (t.link l).state = 1 ∧ (t.link l).fails = 0) ∧
  (∀ (l : Nat) (s : State), l < 24 → s.unitOn (0x30 + l) = true → (portOfLink s l).isSome = false ∨ (s.link l).state = 1 → exec (.lkCmdRetrain l) s = .next s) ∧
  (∀ (l : Nat) (s : State), l < 24 → s.unitOn (0x30 + l) = false → exec (.lkCmdRetrain l) s = .next (disabledHit (0x30 + l) true s)) ∧
  (∀ (l : Nat) (s : State), l < 24 → Sys2Proof.Claims.rising s.w.lk → (s.link l).retryWin ≤ (tget {} s.cfg.lk l).retryThr →
    exec (.linkRetryWindow l) s = .next (s.modLink l (fun k => { k with retryWin := 0, winBase := 0 }))) ∧
  (∀ (l : Nat) (s : State), l < 24 → Sys2Proof.Claims.rising s.w.lk → (tget {} s.cfg.lk l).retryThr < (s.link l).retryWin → (s.link l).winBase < 9 →
    exec (.linkRetryWindow l) s = .next (s.modLink l (fun k => { k with retryWin := 0, winBase := k.winBase + 1 }))) ∧
  (∀ (l : Nat) (s : State), l < 24 → Sys2Proof.Claims.rising s.w.lk → (tget {} s.cfg.lk l).retryThr < (s.link l).retryWin → (s.link l).winBase = 9 →
    exec (.linkRetryWindow l) s = .next (ckptAdvice 2 (flt 0x3104 (0x30 + l) 0xFF 0 (locLink l (s.link l).port (s.link l).peerNode 0)
      (s.modLink l (fun k => { k with retryWin := 0, winBase := 0 }))))) ∧
  (∀ (l : Nat) (d : Bytes) (s : State), l < 24 → Sys2Proof.Claims.rising s.w.lk → (s.link l).state = 3 →
    exec (.linkIdentity l d) s = .next (Sys2Proof.Claims.peerTold l d s)) ∧
  (∀ (l : Nat) (d : Bytes) (s : State), l < 24 → Sys2Proof.Claims.rising s.w.lk → (s.link l).state = 2 → (s.link l).accepted = true → (s.link l).peerNode = fld d 0 2 →
    (s.link l).serial = fld d 8 8 → fld d 0 2 ∉ s.w.topo.lost →
    ∃ t, exec (.linkIdentity l d) s = .next t ∧ t.cfg = s.cfg ∧ t.ctl = s.ctl ∧ (t.link l).state = 3) ∧
  (∀ (l : Nat) (d : Bytes) (s : State), l < 24 → Sys2Proof.Claims.rising s.w.lk → (s.link l).state = 2 → (s.link l).accepted = false → fld d 0 2 ≠ 0xFFFF →
    judge (Sys2Proof.Claims.peerTold l d s) l = 0 →
    ∃ t, exec (.linkIdentity l d) s = .next t ∧ t.cfg = s.cfg ∧ t.ctl = s.ctl ∧ (t.link l).state = 3 ∧ (t.link l).peerNode = fld d 0 2) ∧
  (∀ (l : Nat) (d : Bytes) (s : State), l < 24 → Sys2Proof.Claims.rising s.w.lk → (s.link l).state = 2 → (s.link l).accepted = false → fld d 0 2 ≠ 0xFFFF →
    2 ≤ judge (Sys2Proof.Claims.peerTold l d s) l →
    ∃ t, exec (.linkIdentity l d) s = .next t ∧ t.cfg = s.cfg ∧ t.ctl = s.ctl ∧ (t.link l).state = 2 ∧ (t.link l).judged = true ∧
      (t.link l).verdict = judge (Sys2Proof.Claims.peerTold l d s) l) ∧
  (∀ (l : Nat) (d : Bytes) (s : State), (s.link l).state ≠ 2 → (s.link l).state ≠ 3 → exec (.linkIdentity l d) s = .next s) ∧
  (∀ (h : Hdr) (mask l : Nat) (e : PortEnt) (s : State), Ready 0x0701 h s → Sys2Proof.Claims.rising s.w.lk → mask < 4096 → e ∈ portEnts s →
    bit mask e.port = true → bit e.mask l = true → l < 24 → linkUsable s l = true → (s.link l).state = 4 →
    ∃ t, exec (.linkDiscover h mask) s = .next t ∧ t.cfg = s.cfg ∧ t.ctl = s.ctl ∧ (t.link l).state = 1 ∧ accepts 0x0701 h s mask 0 ∈ t.w.inflight) ∧
  (∀ (h : Hdr) (mask : Nat) (s : State), Ready 0x0701 h s → Sys2Proof.Claims.rising s.w.lk → mask < 4096 →
    (∀ e ∈ portEnts s, bit mask e.port = true → ∀ l < 24, bit e.mask l = true → (s.link l).state = 3) →
    ∃ t, exec (.linkDiscover h mask) s = .next t ∧ t.cfg = s.cfg ∧ t.ctl = s.ctl ∧ t.w.lk = s.w.lk ∧ (∀ r ∈ t.w.inflight, r.ord ≠ s.w.ordNext)) ∧
  (∀ (h : Hdr) (mask : Nat) (s : State), Ready 0x0701 h s → 4096 ≤ mask →
    exec (.linkDiscover h mask) s = .next (finish 0x0701 h s 0x11 16 0xFF [] (counted h s)))

/-- FRAME_RECEIVE on a link not held or up changes nothing; with an uncorrectable lane the frame is refused, and the third
of a lane in a row takes the link down; out of sequence it is refused once; in sequence with a good CRC it is taken,
acknowledged and counted. MESSAGE_ACK takes exactly the messages it names out of those kept. ACK_DELAY_TIMER
acknowledges what a source is owed. MESSAGE_RESEND_TIMER sends a kept message again, and after the third resend
declares its node lost. TP_PORT_DETOUR_WRITE sets a port's detour and who set it. PEER_LOST_TIMER does nothing while a
link to the node is up. LOST_NOTICE with no job running lists the node, drops the messages to it and ends a mirror
bound to it; a second one changes no more. SUBSTITUTE_NOTICE of a node that the plan does not name for the place
changes nothing; of the right one, not mapped yet and with no job on the array, it maps the node to the place. Where
the spec leaves a point open it states the model's own choice (logs 140, 141, 142). -/
def Obligations.FramesAndMessagesArrive : Prop :=
  (∀ (l : Nat) (frame : Bytes) (corrected bad : Nat) (s : State), 24 ≤ l ∨ ((s.link l).state ≠ 2 ∧ (s.link l).state ≠ 3) → exec (.frameReceive l frame corrected bad) s = .next s) ∧
  (∀ (l : Nat) (frame : Bytes) (corrected bad seq : Nat) (s : State), l < 24 → (s.link l).state = 2 ∨ (s.link l).state = 3 → Sys2Proof.Claims.rising s.w.lk →
    (∀ n ∈ Sys2Proof.Claims.lanesRun s l bad, n < 3) → Sys2Proof.Claims.frameGood frame bad → bits (Sys2Proof.Claims.ctlOf frame) 1 0 = 2 →
    bits (Sys2Proof.Claims.ctlOf frame) 30 19 = seq → seq = ((s.link l).rxSeq + 1) % 4096 → bit (Sys2Proof.Claims.ctlOf frame) 43 = false →
    ∃ t, exec (.frameReceive l frame corrected bad) s = .next t ∧ t.cfg = s.cfg ∧ t.ctl = s.ctl ∧ t.w.jobs = s.w.jobs ∧ (t.link l).rxSeq = seq ∧
      (t.link l).rxBad = false ∧ (t.link l).frames = wrapAdd 64 (s.link l).frames 1 ∧ (t.link l).lastValid = s.now ∧ Out.hop l 1 seq ∈ t.w.out) ∧
  (∀ (l : Nat) (frame : Bytes) (corrected bad : Nat) (s : State), l < 24 → (s.link l).state = 2 ∨ (s.link l).state = 3 → Sys2Proof.Claims.rising s.w.lk →
    (∃ n ∈ Sys2Proof.Claims.lanesRun s l bad, 3 ≤ n) →
    exec (.frameReceive l frame corrected bad) s = .next (linkDown l 2 (Sys2Proof.Claims.symbolsCounted l corrected bad s))) ∧
  (∀ (l : Nat) (frame : Bytes) (corrected bad : Nat) (s : State), l < 24 → (s.link l).state = 2 ∨ (s.link l).state = 3 → Sys2Proof.Claims.rising s.w.lk →
    (∀ n ∈ Sys2Proof.Claims.lanesRun s l bad, n < 3) → ¬ Sys2Proof.Claims.frameGood frame bad →
    exec (.frameReceive l frame corrected bad) s = .next (sendNak l (Sys2Proof.Claims.symbolsCounted l corrected bad s))) ∧
  (∀ (l : Nat) (frame : Bytes) (corrected bad : Nat) (s : State), l < 24 → (s.link l).state = 2 ∨ (s.link l).state = 3 → Sys2Proof.Claims.rising s.w.lk →
    (∀ n ∈ Sys2Proof.Claims.lanesRun s l bad, n < 3) → Sys2Proof.Claims.frameGood frame bad →
    bits (Sys2Proof.Claims.ctlOf frame) 1 0 = 1 ∨ bits (Sys2Proof.Claims.ctlOf frame) 1 0 = 2 →
    bits (Sys2Proof.Claims.ctlOf frame) 30 19 ≠ ((s.link l).rxSeq + 1) % 4096 →
    exec (.frameReceive l frame corrected bad) s = .next (if (s.link l).rxBad then (Sys2Proof.Claims.symbolsCounted l corrected bad s).modLink l (fun k => { k with lastValid := s.now })
      else sendNak l ((Sys2Proof.Claims.symbolsCounted l corrected bad s).modLink l (fun k => { k with lastValid := s.now })))) ∧
  (∀ (src cls seq map : Nat) (s : State), ∃ t, exec (.messageAck src cls seq map) s = .next t ∧
    { t with w := { t.w with msgs := { t.w.msgs with kept := s.w.msgs.kept } } } = s ∧
    (∀ m, m ∈ t.w.msgs.kept ↔ (m ∈ s.w.msgs.kept ∧ ¬ (m.dst = src ∧ m.cls = cls ∧ (m.seq = seq ∨ ∃ i < 64, bit map i = true ∧ m.seq = wrapAdd 32 seq (1 + i)))))) ∧
  (∀ (src : Nat) (s : State), (s.w.msgs.unacked.filter (fun e => e.1 == src)).length ≤ 312 →
    ∃ t, exec (.ackDelayTimer src) s = .next t ∧ t.cfg = s.cfg ∧ t.ctl = s.ctl ∧ t.w.jobs = s.w.jobs ∧ (∀ e, e ∈ t.w.msgs.unacked ↔ (e ∈ s.w.msgs.unacked ∧ e.1 ≠ src))) ∧
  (∀ (dst cls seq : Nat) (m : Msg) (s : State), s.w.msgs.kept.find? (fun m => m.dst == dst && m.cls == cls && m.seq == seq) = some m → m.resends < 3 →
    exec (.messageResendTimer dst cls seq) s = .next (launch { m with resends := m.resends + 1 } 0xFF (s.onW (fun w => { w with msgs := { w.msgs with
      kept := w.msgs.kept.map (fun x => if x == m then { m with resends := m.resends + 1 } else x) } })))) ∧
  (∀ (dst cls seq : Nat) (m : Msg) (s : State), s.w.msgs.kept.find? (fun m => m.dst == dst && m.cls == cls && m.seq == seq) = some m → 3 ≤ m.resends →
    exec (.messageResendTimer dst cls seq) s = .next (failGone (declareLost dst s))) ∧
  (∀ (dst cls seq : Nat) (s : State), (∀ m ∈ s.w.msgs.kept, ¬ (m.dst = dst ∧ m.cls = cls ∧ m.seq = seq)) → exec (.messageResendTimer dst cls seq) s = .next s) ∧
  (∀ (k v : Nat) (s : State), k < 12 → Sys2Proof.Claims.rising s.w.topo.ports →
    ∃ t, exec (.tpPortDetourWrite k v) s = .next t ∧ t.cfg = s.cfg ∧ t.ctl = s.ctl ∧
      t.port k = { s.port k with via := if bits v 39 36 ≤ 11 then bits v 39 36 else (s.port k).via, dvalid := bit v 40, host := bit v 40 } ∧ (∀ i, i ≠ k → t.port i = s.port i)) ∧
  (∀ (k v : Nat) (s : State), 12 ≤ k → exec (.tpPortDetourWrite k v) s = .next s) ∧
  (∀ (node : Nat) (s : State), node ≠ 0xFFFF → (∃ e ∈ portEnts s, portPeer s e = node) → (∀ e ∈ portEnts s, portPeer s e = node → linksUp s e = 0) →
    exec (.peerLostTimer node) s = .next (failGone (declareLost node s))) ∧
  (∀ (node : Nat) (s : State), node = 0xFFFF ∨ (∃ e ∈ portEnts s, portPeer s e = node ∧ linksUp s e ≠ 0) ∨ (∀ e ∈ portEnts s, portPeer s e ≠ node) →
    exec (.peerLostTimer node) s = .next s) ∧
  (∀ (node : Nat) (s : State), node ∉ s.w.topo.lost → node ≠ s.w.topo.node → (∀ j < 64, s.live j = false) → s.w.mr.missing = [] → s.w.apWait = [] →
    (∀ c < 128, (s.chan c).state ≠ 2) →
    ∃ t, exec (.lostNotice node) s = .next t ∧ t.cfg = s.cfg ∧ t.ctl = s.ctl ∧ t.w.topo.lost = sortNat (node :: s.w.topo.lost) ∧
      t.w.msgs.kept = s.w.msgs.kept.filter (fun m => m.dst != node) ∧ (s.w.mr.outNode = node → s.w.mr.out ≠ 0 → t.w.mr.out = 3) ∧
      (s.w.mr.inNode = node → s.w.mr.inn ≠ 0 → t.w.mr.inn = 3) ∧ (∀ r ∈ t.w.inflight, r.op ≠ 0x0504)) ∧
  (∀ (node : Nat) (s : State), node ∈ s.w.topo.lost ∨ node = s.w.topo.node → exec (.lostNotice node) s = .next (failGone s)) ∧
  (∀ (node place : Nat) (p : Plan) (e : PlaceEnt) (s : State), s.w.topo.jobPlan = some p → p.places[place]? = some e → e.subst = node → node ≠ 0xFFFF →
    s.w.holder = none → (node, e.node) ∉ s.w.topo.subs →
    ∃ t, exec (.substituteNotice node place) s = .next t ∧ t.cfg = s.cfg ∧ t.ctl = s.ctl ∧ (node, e.node) ∈ t.w.topo.subs ∧ (∀ x ∈ t.w.topo.subs, x.2 = e.node → x.1 = node)) ∧
  (∀ (node place : Nat) (s : State), (∀ p e, s.w.topo.jobPlan = some p → p.places[place]? = some e → e.subst ≠ node ∨ node = 0xFFFF) →
    exec (.substituteNotice node place) s = .next s)

/-- TOPOLOGY_PLAN while a set is current is BUSY_JOB, with a length outside 64 to 256 BAD_PARAM detail 24, the plan in
force again OK_NOTE detail 1; another plan that passes its checks is in force with its node. TIME_SYNC_REQUEST of the
master changes nothing; else it goes to the nearest held or up link, and with none the hop count is 255.
TIME_SYNC_REPLY: an offset of at least 1,000 ns either way is no synchronisation and event 0x3402, a late clock is
stepped and an early one slewed, with one event while it slews; a smaller one counts good exchanges, and the 16th
synchronises. TIME_SYNC_LOSS of a module not the master ends synchronisation with event 0x3401. FOUL_ARM refuses a
reserved action, mask, rate or duration by its field, and without authorisation NOT_AUTHORISED; else it arms the links
with event 0x3501. FOUL_DURATION_EXPIRY disarms; FOUL_AUTH_EXPIRY also ends the authorisation; with nothing armed or
authorised nothing changes. Where the spec leaves a point open it states the model's own choice (logs 40, 144, 145). -/
def Obligations.PlansTimeAndFoulMode : Prop :=
  (∀ (h : Hdr) (addr len : Nat) (b : Bytes) (s : State), Ready 0x0702 h s → (∀ j < 64, s.live j = true → (s.job j).cur = none) → 64 ≤ len → len ≤ 256 →
    pktRead (counted h s) h.job addr len = .ok b → firstBad (planChecks b 0 0 ++ [(8, fld b 8 4 == len)]) = none → (∀ p, s.w.topo.plan = some p → p.img ≠ b) →
    ∃ s1, exec (.topologyPlan h addr len) s = .next (masterSync (finish 0x0702 h s 0 0 0xFF [] s1)) ∧
      s1.w.topo.plan = some (parsePlan b) ∧ s1.w.topo.node = (parsePlan b).node ∧ s1.cfg = s.cfg ∧ s1.ctl = s.ctl ∧ s1.w.jobs = s.w.jobs) ∧
  (∀ (h : Hdr) (addr len : Nat) (b : Bytes) (p : Plan) (s : State), Ready 0x0702 h s → (∀ j < 64, s.live j = true → (s.job j).cur = none) → 64 ≤ len → len ≤ 256 →
    pktRead (counted h s) h.job addr len = .ok b → firstBad (planChecks b 0 0 ++ [(8, fld b 8 4 == len)]) = none → s.w.topo.plan = some p → p.img = b →
    exec (.topologyPlan h addr len) s = .next (masterSync (finish 0x0702 h s 0x01 1 0xFF [] (counted h s)))) ∧
  (∀ (h : Hdr) (addr len : Nat) (s : State), Ready 0x0702 h s → (∃ j < 64, s.live j = true ∧ (s.job j).cur ≠ none) →
    exec (.topologyPlan h addr len) s = .next (masterSync (finish 0x0702 h s 0x30 0 0xFF [] (counted h s)))) ∧
  (∀ (h : Hdr) (addr len : Nat) (s : State), Ready 0x0702 h s → (∀ j < 64, s.live j = true → (s.job j).cur = none) → 256 < len ∨ len < 64 →
    exec (.topologyPlan h addr len) s = .next (masterSync (finish 0x0702 h s 0x11 24 0xFF [] (counted h s)))) ∧
  (∀ (l : Nat) (s : State), isMaster s = false → s.ctl.clk.running = true → upstream s = some l →
    exec (.timeSyncRequest) s = .next ((s.onW (fun w => { w with topo := { w.topo with upLink := l, t1 := s.now } })).emit (.time l s.now 0 0))) ∧
  (∀ (s : State), isMaster s = false → s.ctl.clk.running = true → upstream s = none →
    exec (.timeSyncRequest) s = .next (s.onW (fun w => { w with topo := { w.topo with upLink := 0x1F, hops := 255 } }))) ∧
  (∀ (s : State), isMaster s = false → s.ctl.clk.running = true →
    exec (.timeSyncLoss) s = .next (flt0 0x3401 0xFF 0xFF 0 (s.modClk (fun c => { c with synced := false, good := 0 })))) ∧
  (∀ (s : State), isMaster s = true ∨ s.ctl.clk.running = false → exec (.timeSyncRequest) s = .next s ∧ exec (.timeSyncLoss) s = .next s) ∧
  (∀ (t1 t2 t3 t4 hops : Nat) (adj off : Int) (s : State), isMaster s = false → s.ctl.clk.running = true → s.w.topo.upLink ≠ 0x1F →
    off = (((t2 : Int) - t1) - ((t4 : Int) - t3)) / 2 →
    ∃ t, exec (.timeSyncReply t1 t2 t3 t4 hops adj) s = .next t ∧ t.cfg = s.cfg ∧ t.w.jobs = s.w.jobs ∧ t.w.topo.hops = min (hops + 1) 255 ∧
      (1000 ≤ off → t.ctl = { s.ctl with clk := { s.ctl.clk with ns := wrapAdd 64 s.ctl.clk.ns off.toNat, synced := false, good := 0, lastSyncNs := s.ctl.clk.ns } }) ∧
      (off ≤ -1000 → s.ctl.clk.slew = false → t.ctl = { s.ctl with clk := { s.ctl.clk with slew := true, synced := false, good := 0, lastSyncNs := s.ctl.clk.ns } }) ∧
      (-1000 < off → off < 1000 → t.ctl = { s.ctl with clk := { s.ctl.clk with slew := s.ctl.clk.slew && decide (20 ≤ off.natAbs), lastSyncNs := s.ctl.clk.ns, good := (if off.natAbs < 20 then s.ctl.clk.good + 1 else 0), synced := s.ctl.clk.synced || (decide (off.natAbs < 20) && decide (15 ≤ s.ctl.clk.good)) } })) ∧
  (∀ (h : Hdr) (mask action rate ms : Nat) (s : State), Ready 0x0703 h s → 1 ≤ action → action ≤ 3 → 0 < mask → mask < 2 ^ 24 → rate ≤ 30 → 1 ≤ ms → ms ≤ 3600000 →
    s.w.sl.foulAuth = true →
    exec (.foulArm h mask action rate ms) s = .next (finish 0x0703 h s 0 0 0xFF [] (flt0 0x3501 0x0A 0xFF 0
      ((counted h s).onW (fun w => { w with foul := { armed := mask, action := action, rate := rate, ms := ms, hits := 0 } }))))) ∧
  (∀ (h : Hdr) (mask rate ms : Nat) (s : State), Ready 0x0703 h s → mask < 2 ^ 24 → rate ≤ 30 → s.w.sl.foulAuth = true →
    exec (.foulArm h mask 0 rate ms) s = .next (finish 0x0703 h s 0 0 0xFF [] (disarmFoul (counted h s)))) ∧
  (∀ (h : Hdr) (mask action rate ms : Nat) (s : State), Ready 0x0703 h s → 3 < action →
    exec (.foulArm h mask action rate ms) s = .next (finish 0x0703 h s 0x11 20 0xFF [] (counted h s))) ∧
  (∀ (h : Hdr) (mask action rate ms : Nat) (s : State), Ready 0x0703 h s → action ≤ 3 → 2 ^ 24 ≤ mask ∨ (action ≠ 0 ∧ mask = 0) →
    exec (.foulArm h mask action rate ms) s = .next (finish 0x0703 h s 0x11 16 0xFF [] (counted h s))) ∧
  (∀ (h : Hdr) (mask action rate ms : Nat) (s : State), Ready 0x0703 h s → action ≤ 3 → mask < 2 ^ 24 → (action ≠ 0 → mask ≠ 0) → 30 < rate →
    exec (.foulArm h mask action rate ms) s = .next (finish 0x0703 h s 0x11 21 0xFF [] (counted h s))) ∧
  (∀ (h : Hdr) (mask action rate ms : Nat) (s : State), Ready 0x0703 h s → 1 ≤ action → action ≤ 3 → 0 < mask → mask < 2 ^ 24 → rate ≤ 30 → ms = 0 ∨ 3600000 < ms →
    exec (.foulArm h mask action rate ms) s = .next (finish 0x0703 h s 0x11 24 0xFF [] (counted h s))) ∧
  (∀ (h : Hdr) (mask action rate ms : Nat) (s : State), Ready 0x0703 h s → action ≤ 3 → mask < 2 ^ 24 → (action ≠ 0 → mask ≠ 0 ∧ 1 ≤ ms ∧ ms ≤ 3600000) → rate ≤ 30 →
    s.w.sl.foulAuth = false → exec (.foulArm h mask action rate ms) s = .next (finish 0x0703 h s 0xA0 0 0xFF [] (counted h s))) ∧
  (∀ (s : State), s.w.foul.armed ≠ 0 →
    exec (.foulDurationExpiry) s = .next (flt0 0x3501 0x0A 0xFF 0 (s.onW (fun w => { w with foul := { w.foul with armed := 0, action := 0, rate := 0, ms := 0 } })))) ∧
  (∀ (s : State), s.w.sl.foulAuth = true → ∃ t, exec (.foulAuthExpiry) s = .next t ∧ t.cfg = s.cfg ∧ t.ctl = s.ctl ∧ t.w.sl.foulAuth = false ∧ t.w.sl.foulLeftS = 0 ∧
    t.w.foul.armed = 0 ∧ t.w.err.state ≠ 1) ∧
  (∀ (s : State), (s.w.foul.armed = 0 → exec (.foulDurationExpiry) s = .next s) ∧ (s.w.sl.foulAuth = false → exec (.foulAuthExpiry) s = .next s))

/-- MIRROR_BIND: a role above 1 is BAD_PARAM detail 18, a partner not at port 6 TOPOLOGY_MISMATCH, a step running
BUSY_JOB; role 1 with room binds the module as holder with event 0x6101, role 0 seeds the partner; the same binding
again is OK_NOTE detail 1. A module that holds no mirror takes no delta, end of step or anchor. A holder first applies
what the job's good step allows; then a step record goes to the context area, a delta without room is answered so once
and the rest of its step dropped, any other is pending (whether a block lay in tier 1 is a free value); the end of a
step is answered unless it was. An anchor releases the slots last written at the cut or before. A seed part is kept
and its last part answered. MIRROR_ACK of a step marks its journal entry, or fails it where there was no room; of the
seed it binds or unbinds. Where the spec leaves a point open it states the model's own choice (logs 42, 43, 44, 53). -/
def Obligations.MirrorIsBoundFedAndAnchored : Prop :=
  (∀ (h : Hdr) (node : Nat) (s : State), Ready 0x0503 h s → partnerUp s node = true → s.w.topo.jobPlan = none → (∀ e ∈ s.w.jobs, (s.job e.1).run = none) →
    s.w.mr.out = 0 ∨ s.w.mr.out = 3 →
    exec (.mirrorBind h node 0) s = .next (finish 0x0503 h s 0 0 0xFF [] (flt0 0x6101 0x08 0xFF 0
      (seedAll false (modMr (fun m => { m with out := 1, outNode := node, acked := 0, exposed := false, sent := [] }) (counted h s)))))) ∧
  (∀ (h : Hdr) (node : Nat) (s : State), Ready 0x0503 h s → partnerUp s node = true → s.w.topo.jobPlan = none → (∀ e ∈ s.w.jobs, (s.job e.1).run = none) →
    mirrorRoom (counted h s) = true → s.w.mr.inn = 0 ∨ s.w.mr.inn = 3 →
    exec (.mirrorBind h node 1) s = .next (finish 0x0503 h s 0 0 0xFF [] (flt0 0x6101 0x08 0xFF 0 (bindIn node (counted h s))))) ∧
  (∀ (h : Hdr) (node : Nat) (s : State), Ready 0x0503 h s → partnerUp s node = true → s.w.topo.jobPlan = none → (∀ e ∈ s.w.jobs, (s.job e.1).run = none) →
    s.w.mr.outNode = node → s.w.mr.out = 1 ∨ s.w.mr.out = 2 → exec (.mirrorBind h node 0) s = .next (finish 0x0503 h s 0x01 1 0xFF [] (counted h s))) ∧
  (∀ (h : Hdr) (node role : Nat) (s : State), Ready 0x0503 h s → 1 < role → exec (.mirrorBind h node role) s = .next (finish 0x0503 h s 0x11 18 0xFF [] (counted h s))) ∧
  (∀ (h : Hdr) (node role : Nat) (s : State), Ready 0x0503 h s → role ≤ 1 → partnerUp s node = false →
    exec (.mirrorBind h node role) s = .next (finish 0x0503 h s 0x60 0 0xFF [] (counted h s))) ∧
  (∀ (h : Hdr) (node : Nat) (s : State), Ready 0x0503 h s → partnerUp s node = true → s.w.topo.jobPlan = none → mirrorRoom (counted h s) = false →
    exec (.mirrorBind h node 1) s = .next (finish 0x0503 h s 0x20 0 0xFF [] (counted h s))) ∧
  (∀ (h : Hdr) (node : Nat) (s : State), Ready 0x0503 h s → partnerUp s node = true → s.w.topo.jobPlan = none → (∃ e ∈ s.w.jobs, (s.job e.1).run ≠ none) →
    exec (.mirrorBind h node 0) s = .next (finish 0x0503 h s 0x30 0 0xFF [] (counted h s))) ∧
  (∀ (j step kind tensor items off good cut : Nat) (data : Bytes) (s : State), holding s = false →
    exec (.mirrorDeltaReceive j step kind tensor items off good data) s = .next s ∧ exec (.mirrorEndOfStep j step good) s = .next s ∧ exec (.mirrorAnchor j cut) s = .next s ∧
    exec (.mirrorSeed j kind tensor off data false) s = .next s) ∧
  (∀ (j step kind tensor items off good : Nat) (data : Bytes) (s s1 : State), holding s = true → j < 64 → s1 = mirrorGood j good s → (j, step) ∉ s1.w.mr.noRoom →
    kind ≠ 3 → kind ≠ 4 → deltaRoom s1.w.mr kind (mirKey j tensor) off data = true →
    exec (.mirrorDeltaReceive j step kind tensor items off good data) s = .next (mirrorWarn j
      (modMr (fun m => { m with pend := m.pend ++ [{ step := step, kind := kind, tensor := mirKey j tensor, off := off, data := data, hot := false }] }) s1))) ∧
  (∀ (j step tensor items off good : Nat) (data : Bytes) (s s1 : State), holding s = true → j < 64 → s1 = mirrorGood j good s → (j, step) ∉ s1.w.mr.noRoom →
    deltaRoom s1.w.mr 3 (mirKey j tensor) off data = true →
    exec (.mirrorDeltaReceive j step 3 tensor items off good data) s = .next (mirrorWarn j
      (modMr (fun m => { m with pend := m.pend ++ [{ step := step, kind := 3, tensor := mirKey j tensor, off := off, data := data, hot := bit s1.draw.1 0 }] }) s1.draw.2))) ∧
  (∀ (j step tensor items off good : Nat) (data : Bytes) (s s1 : State), holding s = true → j < 64 → s1 = mirrorGood j good s → (j, step) ∉ s1.w.mr.noRoom →
    exec (.mirrorDeltaReceive j step 4 tensor items off good data) s = .next (modMr (putCtx j 4 step data) s1)) ∧
  (∀ (j step kind tensor items off good : Nat) (data : Bytes) (s s1 : State), holding s = true → j < 64 → s1 = mirrorGood j good s → (j, step) ∉ s1.w.mr.noRoom →
    kind ≠ 4 → deltaRoom s1.w.mr kind (mirKey j tensor) off data = false →
    exec (.mirrorDeltaReceive j step kind tensor items off good data) s = .next (holderSend j 1 step
      (flt0 0x6103 0x08 j step (modMr (fun m => { m with noRoom := (j, step) :: m.noRoom }) s1)))) ∧
  (∀ (j step good : Nat) (s s1 : State), holding s = true → j < 64 → s1 = mirrorGood j good s → (j, step) ∉ s1.w.mr.noRoom →
    exec (.mirrorEndOfStep j step good) s = .next (holderSend j 0 step s1)) ∧
  (∀ (j step kind tensor items off good : Nat) (data : Bytes) (s s1 : State), holding s = true → j < 64 → s1 = mirrorGood j good s → (j, step) ∈ s1.w.mr.noRoom →
    exec (.mirrorDeltaReceive j step kind tensor items off good data) s = .next s1 ∧
    exec (.mirrorEndOfStep j step good) s = .next (modMr (fun m => { m with noRoom := m.noRoom.filter (fun e => e != (j, step)) }) s1)) ∧
  (∀ (j cut : Nat) (s : State), holding s = true → exec (.mirrorAnchor j cut) s = .next (modMr (fun m => { m with
    inAnchored := true, anchored := true, slots := m.slots.filter (fun x => x.tensor / 65536 != j || decide (cut < x.step)) }) s)) ∧
  (∀ (j tensor off : Nat) (data : Bytes) (s : State), holding s = true → j < 64 →
    exec (.mirrorSeed j 1 tensor off data false) s = .next (modMr (putDense (mirKey j tensor) off data) s) ∧
    exec (.mirrorSeed j 3 tensor off data false) s = .next (modMr (putSlot (bit s.draw.1 0) (mirKey j tensor) off 0 data) s.draw.2) ∧
    exec (.mirrorSeed 0xFF 6 tensor off data true) s = .next (flt0 0x6101 0x08 0xFF 0 (holderSend 0xFF 2 0 (modMr (fun m => { m with inn := 2, inSeeded := true }) s)))) ∧
  (∀ (j step : Nat) (s : State), s.w.mr.out = 1 ∨ s.w.mr.out = 2 → j < 64 →
    exec (.mirrorAck j step false) s = .next (modMr (fun m => { m with acked := step }) (s.modJob j (fun b => b.modEntry step (fun e => { e with acked := true })))) ∧
    exec (.mirrorAck j step true) s = .next (failStep j step { status := 0x20, unit := 0x08 } [] s)) ∧
  (∀ (j step : Nat) (s : State), s.w.mr.out = 1 → 64 ≤ j →
    exec (.mirrorAck j step true) s = .next (modMr (fun m => { m with out := 0, outNode := 0xFFFF }) s) ∧
    (s.w.mr.exposed = false → exec (.mirrorAck j step false) s = .next (flt0 0x6101 0x08 0xFF 0 (modMr (fun m => { m with out := 2, exposed := false }) s)))) ∧
  (∀ (j step : Nat) (noRoom : Bool) (s : State), s.w.mr.out ≠ 1 → s.w.mr.out ≠ 2 → exec (.mirrorAck j step noRoom) s = .next s)

/-- BENCH_CALL: with no plan or no job on the array, or of a node whose place this module may not take, BAD_PARAM detail
16; toward another partner TOPOLOGY_MISMATCH; toward a lost one PEER_LOST; otherwise, between steps, it stands in
flight and the pull begins. HOT_STATE_PULL_REQUEST of a node that may not pull is answered by an end of section 0; of
one that may, whose own mirror is bound, by the whole image, and the node is mirrored from then on.
HOT_STATE_PULL_DATA with no call waiting changes nothing, but for cold blocks; the end of section 0 answers the call
with NO_RESOURCE detail 1 and the call is over; a hot block of the call is counted once and written.
LAZY_RESTORE_BLOCK of a block that is not missing changes nothing; a good one of a declared tensor is no longer
missing; a bad one is lost. Where the spec leaves a point open it states the model's own choice (logs 50, 51, 52, 54,
76). -/
def Obligations.BenchModuleTakesOver : Prop :=
  (∀ (h : Hdr) (failed partner j : Nat) (p : Plan) (e : PlaceEnt) (s : State), Ready 0x0504 h s → s.w.holder = some j → s.w.topo.jobPlan = some p →
    p.places.find? (fun e => e.node == failed) = some e → e.subst = s.w.topo.node → standing s e.partner = partner → partnerUp s partner = true →
    partner ∉ s.w.topo.lost → (s.job j).run = none → (s.job j).waiting = [] → s.w.mr.callJob ≠ j →
    exec (.benchCall h failed partner) s = .next (runsOn 0x0504 h s j 0 (benchStart j partner (counted h s)))) ∧
  (∀ (h : Hdr) (failed partner : Nat) (s : State), Ready 0x0504 h s → s.w.holder = none ∨ s.w.topo.jobPlan = none →
    exec (.benchCall h failed partner) s = .next (finish 0x0504 h s 0x11 16 0xFF [] (counted h s))) ∧
  (∀ (h : Hdr) (failed partner j : Nat) (p : Plan) (s : State), Ready 0x0504 h s → s.w.holder = some j → s.w.topo.jobPlan = some p →
    (∀ e, p.places.find? (fun e => e.node == failed) = some e → e.subst ≠ s.w.topo.node) →
    exec (.benchCall h failed partner) s = .next (finish 0x0504 h s 0x11 16 0xFF [] (counted h s))) ∧
  (∀ (h : Hdr) (failed partner j : Nat) (p : Plan) (e : PlaceEnt) (s : State), Ready 0x0504 h s → s.w.holder = some j → s.w.topo.jobPlan = some p →
    p.places.find? (fun e => e.node == failed) = some e → e.subst = s.w.topo.node → standing s e.partner ≠ partner ∨ partnerUp s partner = false →
    exec (.benchCall h failed partner) s = .next (finish 0x0504 h s 0x60 0 0xFF [] (counted h s))) ∧
  (∀ (h : Hdr) (failed partner j : Nat) (p : Plan) (e : PlaceEnt) (s : State), Ready 0x0504 h s → s.w.holder = some j → s.w.topo.jobPlan = some p →
    p.places.find? (fun e => e.node == failed) = some e → e.subst = s.w.topo.node → standing s e.partner = partner → partnerUp s partner = true →
    partner ∈ s.w.topo.lost → exec (.benchCall h failed partner) s = .next (finish 0x0504 h s 0x61 0 0xFF [] (counted h s))) ∧
  (∀ (j node step : Nat) (s : State), mayPull s node = true → s.w.mr.outNode = node → s.w.mr.out = 2 →
    exec (.hotStatePullRequest j node step) s = .next (modMr (fun m => { m with inNode := node, inn := 2, owner := node }) (sendImage node j s))) ∧
  (∀ (j node step : Nat) (s : State), mayPull s node = false → exec (.hotStatePullRequest j node step) s = .next (pullSend node j 3 0 0 0 0 0 [] s)) ∧
  (∀ (j tensor items first step : Nat) (data : Bytes) (s : State), (∃ r ∈ s.w.inflight, r.op = 0x0504 ∧ r.a = j) →
    (∀ r ∈ s.w.inflight, r.op = 0x0504 → r.a = j → r.b ≠ 1) → s.w.mr.callJob = j → (3, tensor, first) ∉ s.w.mr.pulled →
    exec (.hotStatePullData j 2 3 tensor items first step data) s = .next (blockIn j tensor first data (modMr (fun m => { m with
      pulled := (3, tensor, first) :: m.pulled, doneB := m.doneB + data.length, doneMib := (m.doneB + data.length) / 1048576 }) s))) ∧
  (∀ (j tensor items first step : Nat) (data : Bytes) (s : State), (∃ r ∈ s.w.inflight, r.op = 0x0504 ∧ r.a = j) →
    (∀ r ∈ s.w.inflight, r.op = 0x0504 → r.a = j → r.b ≠ 1) → s.w.mr.callJob = j → (3, tensor, first) ∈ s.w.mr.pulled →
    exec (.hotStatePullData j 2 3 tensor items first step data) s = .next s) ∧
  (∀ (j tensor items first step : Nat) (data : Bytes) (s : State), (∃ r ∈ s.w.inflight, r.op = 0x0504 ∧ r.a = j) →
    exec (.hotStatePullData j 3 0 tensor items first step data) s = .next (completeAll (fun r => r.op = 0x0504 && r.a = j) 0x20 1 0xFF (fun _ => [])
      (modMr (fun m => { m with callJob := 0xFF, missing := [], pulled := [] }) s))) ∧
  (∀ (j kind sect tensor items first step : Nat) (data : Bytes) (s : State), sect ≠ 4 → (∀ r ∈ s.w.inflight, r.op = 0x0504 → r.a ≠ j) →
    exec (.hotStatePullData j kind sect tensor items first step data) s = .next s) ∧
  (∀ (j tensor block : Nat) (ckpt : Bool) (data : Bytes) (r : Tens) (d : Decl) (s : State), s.w.mr.callJob = j → (tensor, block) ∈ s.w.mr.missing →
    (tensor, block) ∉ s.w.mr.gone → (s.job j).cur.bind (fun t => t.tens? tensor) = some r → s.decl j r.handle = some d → s.w.apWait = [] →
    (∀ c < 128, (s.chan c).state ≠ 2) → s.w.ck.armed = false → s.w.err.state ≠ 1 →
    ∃ t, exec (.lazyRestoreBlock j tensor block ckpt true data) s = .next t ∧ t.cfg = s.cfg ∧ t.ctl = s.ctl ∧
      t.w.mr.missing = s.w.mr.missing.filter (fun e => e != (tensor, block)) ∧ t.w.mr.cold = s.w.mr.cold.filter (fun e => e != (tensor, block)) ∧ t.w.jobs = s.w.jobs) ∧
  (∀ (j tensor block : Nat) (ckpt : Bool) (data : Bytes) (s : State), s.w.mr.callJob = j → (tensor, block) ∈ s.w.mr.missing → (tensor, block) ∉ s.w.mr.gone →
    exec (.lazyRestoreBlock j tensor block ckpt false data) s = .next (blockLost j tensor block s)) ∧
  (∀ (j tensor block : Nat) (ckpt ok : Bool) (data : Bytes) (s : State), s.w.mr.callJob ≠ j ∨ (tensor, block) ∉ s.w.mr.missing ∨ (tensor, block) ∈ s.w.mr.gone →
    exec (.lazyRestoreBlock j tensor block ckpt ok data) s = .next s)

/-- CKPT_WRITE with a readable descriptor: a field that fails check 1 is BAD_PARAM with its record offset; of a generation
not above the anchored one detail 24; of one already complete OK_NOTE detail 3; with the engine free, a cut not before
the last started step and a data area that holds the shard it stands in flight and the generation is open. With REFCLK
present: PROMENADE_CHUNK of a chunk done already, or with no generation armed for the job, only passes the host
crossing; otherwise, on a module in no dedupe group that writes uncompressed, with both writes reachable and no
poison, the chunk and its progress record are in host memory and the chunk is done. COPY_BEFORE_WRITE stages a granule
of an armed source and notes the stall. CKPT_COMMIT_NOTICE of a slot of another generation is refused at word 8; of a
valid one with this module's digest the generation is anchored with event 0x6303. CKPT_RESTORE of an invalid slot is
detail 16, while a step runs BUSY_JOB; of a valid one whose chunks check out the job stands at the cut. Where the spec
leaves a point open it states the model's own choice (logs 45, 46, 47, 49, 78, 79). -/
def Obligations.CheckpointsAreWrittenCommittedAndRestored : Prop :=
  (∀ (h : Hdr) (addr gen : Nat) (d : Bytes) (s : State), Ready 0x0501 h s → pktRead (counted h s) h.job addr 64 = .ok d → firstBad (ckptDescChecks d) = none →
    fld d 2 1 = 0 → s.w.ck.anchored < gen → s.w.ck.lost = none → s.w.ck.state = 0 → s.w.ck.gen = 0 → fld d 8 8 = 0 ∨ (s.job h.job).lastStarted.getD 0 ≤ fld d 8 8 →
    areaHolds (counted h s) h.job d = true → exec (.ckptWrite h addr gen) s = .next (askCut h.job (runsOn 0x0501 h s gen 1 (ckptOpen h.job gen d false (counted h s))))) ∧
  (∀ (h : Hdr) (addr gen : Nat) (d : Bytes) (s : State), Ready 0x0501 h s → pktRead (counted h s) h.job addr 64 = .ok d → firstBad (ckptDescChecks d) = none →
    fld d 2 1 = 0 → s.w.ck.anchored < gen → s.w.ck.lost = none → s.w.ck.state = 0 → s.w.ck.gen = 0 → fld d 8 8 = 0 ∨ (s.job h.job).lastStarted.getD 0 ≤ fld d 8 8 →
    areaHolds (counted h s) h.job d = false → exec (.ckptWrite h addr gen) s = .next (askCut h.job (finish 0x0501 h s 0x20 0 0xFF [] (counted h s)))) ∧
  (∀ (h : Hdr) (addr gen : Nat) (d : Bytes) (s : State), Ready 0x0501 h s → pktRead (counted h s) h.job addr 64 = .ok d → firstBad (ckptDescChecks d) = none →
    fld d 2 1 = 0 → s.w.ck.anchored < gen → s.w.ck.lost = none → s.w.ck.job = h.job → s.w.ck.gen = gen → s.w.ck.state = 2 →
    exec (.ckptWrite h addr gen) s = .next (askCut h.job (finish 0x0501 h s 0x01 3 0xFF (layout [(4, 0), (4, chunkCount s.w.ck.srcs)]) (counted h s)))) ∧
  (∀ (h : Hdr) (addr gen : Nat) (d : Bytes) (s : State), Ready 0x0501 h s → pktRead (counted h s) h.job addr 64 = .ok d → firstBad (ckptDescChecks d) = none →
    fld d 2 1 = 0 → gen ≤ s.w.ck.anchored → exec (.ckptWrite h addr gen) s = .next (askCut h.job (finish 0x0501 h s 0x11 24 0xFF [] (counted h s)))) ∧
  (∀ (h : Hdr) (addr gen o : Nat) (d : Bytes) (s : State), Ready 0x0501 h s → pktRead (counted h s) h.job addr 64 = .ok d → firstBad (ckptDescChecks d) = some o →
    exec (.ckptWrite h addr gen) s = .next (askCut h.job (finish 0x0501 h s 0x11 (2 ^ 31 + o) 0xFF [] (counted h s)))) ∧
  (∀ (h : Hdr) (addr gen : Nat) (d hd recs : Bytes) (s : State), Ready 0x0501 h s → pktRead (counted h s) h.job addr 64 = .ok d → firstBad (ckptDescChecks d) = none →
    fld d 2 1 = 1 → pktRead (counted h s) h.job (slotAddr (fld d 40 8) gen) 256 = .ok hd →
    pktRead (counted h s) h.job (slotAddr (fld d 40 8) gen + 256) (128 * fld hd 6 2) = .ok recs →
    fld hd 8 4 = gen → slotValid hd recs = true → (gen, (recs.drop (128 * myIndex s + 56)).take 32) ∈ s.w.ck.digests →
    (∀ e ∈ s.w.ck.digests, e.1 = gen → e.2 = (recs.drop (128 * myIndex s + 56)).take 32) →
    ∃ s1, exec (.ckptCommitNotice h addr gen) s = .next (askCut h.job (finish 0x0501 h s 0 0 0xFF [] (flt0 0x6303 0x07 h.job (fld hd 16 8) s1))) ∧
      s1.cfg = s.cfg ∧ s1.ctl = s.ctl ∧ s1.w.jobs = s.w.jobs ∧ s1.w.ck.anchored = gen ∧ s1.w.mr.anchored = true) ∧
  (∀ (h : Hdr) (addr gen : Nat) (d hd recs : Bytes) (s : State), Ready 0x0501 h s → pktRead (counted h s) h.job addr 64 = .ok d → firstBad (ckptDescChecks d) = none →
    fld d 2 1 = 1 → pktRead (counted h s) h.job (slotAddr (fld d 40 8) gen) 256 = .ok hd →
    pktRead (counted h s) h.job (slotAddr (fld d 40 8) gen + 256) (128 * fld hd 6 2) = .ok recs → fld hd 8 4 ≠ gen →
    exec (.ckptCommitNotice h addr gen) s = .next (askCut h.job (finish 0x0501 h s 0x11 (2 ^ 31 + 8) 0xFF [] (counted h s)))) ∧
  (∀ (j i : Nat) (bs : Bytes) (s s0 s1 s2 : State), s.ctl.clk.frozen = false → s.w.ck.state = 1 → s.w.ck.armed = true → s.w.ck.job = j → i < chunkCount s.w.ck.srcs →
    i ∉ s.w.ck.done → (s.chan (96 + i % 16)).state = 0 → (∀ p ∈ chunkParts s.w.ck.srcs i, partFree s j p = true) →
    s0 = forAll (chunkParts s.w.ck.srcs i) (partTouch j) (s.modXing xHost (Xing.pass 1)) → (∀ p ∈ chunkParts s.w.ck.srcs i, partBad s0 j p = none) →
    s.w.ck.again = false → s.w.ck.group ≤ 1 → s.w.ck.comp = false → bs = streamRead s0 (chunkBytes * i) (chunkLen s.w.ck.srcs i) →
    jobWrite s0 j (fld s.w.ck.desc 16 8 + chunkBytes * i) bs = (none, s1) →
    jobWrite s1 j (fld s.w.ck.desc 32 8 + 64 * i) (progressRec 1 bs.length (chunkBytes * i) (leafDigest bs) (myIndex s)) = (none, s2) →
    exec (.promenadeChunk j i) s = .next (chunkDone j i (leafDigest bs) 1 0 bs.length s2)) ∧
  (∀ (j i : Nat) (s : State), s.ctl.clk.frozen = false →
    s.w.ck.state ≠ 1 ∨ s.w.ck.armed = false ∨ s.w.ck.job ≠ j ∨ chunkCount s.w.ck.srcs ≤ i ∨ i ∈ s.w.ck.done →
    exec (.promenadeChunk j i) s = .next (s.modXing xHost (Xing.pass 1))) ∧
  (∀ (j handle g us : Nat) (x : Sect) (s : State), s.ctl.clk.frozen = false →
    s.w.ck.srcs.find? (fun x => x.kind != 2 && (keySide x.key).1 = handle && decide (65536 * g < x.bytes)) = some x → s.w.ck.armed = true → s.w.ck.job = j →
    x.key / 65536 + g ∉ s.w.ck.copied → exec (.copyBeforeWrite j handle g us) s = .next (modCk (fun c => { c with stallMax := min (max c.stallMax us) 65535 })
      (stageGranule j handle (keySide x.key).2.1 g s))) ∧
  (∀ (j handle g us : Nat) (s : State), s.ctl.clk.frozen = false → s.w.ck.armed = false ∨ s.w.ck.job ≠ j ∨ s.w.ck.srcs = [] →
    exec (.copyBeforeWrite j handle g us) s = .next s) ∧
  (∀ (h : Hdr) (addr gen c : Nat) (hd recs : Bytes) (t : SetImg) (l : List Sect) (xs : List Bytes) (s : State), Ready 0x0502 h s →
    pktRead (counted h s) h.job (slotAddr addr gen) 256 = .ok hd → pktRead (counted h s) h.job (slotAddr addr gen + 256) (128 * fld hd 6 2) = .ok recs →
    slotValid hd recs = true → fld hd 8 4 = gen → s.w.topo.jobPlan = none → [fld hd 6 2, fld hd 24 1, fld hd 25 1, fld hd 26 1] = [1, 1, 1, 1] →
    (s.job h.job).cur = some t → t.digest = fld hd 32 32 → (s.job h.job).run = none → (s.job h.job).waiting = [] → s.w.ck.state = 0 → s.w.ck.gen = 0 →
    c = fld hd 16 8 → l = shardSects (counted h s) h.job c → restoreChunks (counted h s) h.job 0 recs l (List.range (chunkCount l)) = .ok xs →
    rootDigest (xs.map leafDigest) = (recs.drop 56).take 32 →
    exec (.ckptRestore h addr gen) s = .next (finish 0x0502 h s 0 0 0xFF (leBytes 8 c) (restored h.job c (putSects h.job c l xs.flatten (counted h s))))) ∧
  (∀ (h : Hdr) (addr gen : Nat) (hd recs : Bytes) (t : SetImg) (s : State), Ready 0x0502 h s →
    pktRead (counted h s) h.job (slotAddr addr gen) 256 = .ok hd → pktRead (counted h s) h.job (slotAddr addr gen + 256) (128 * fld hd 6 2) = .ok recs →
    slotValid hd recs = true → fld hd 8 4 = gen → s.w.topo.jobPlan = none → [fld hd 6 2, fld hd 24 1, fld hd 25 1, fld hd 26 1] = [1, 1, 1, 1] →
    (s.job h.job).cur = some t → t.digest = fld hd 32 32 → (s.job h.job).run ≠ none →
    exec (.ckptRestore h addr gen) s = .next (finish 0x0502 h s 0x30 0 0xFF [] (counted h s))) ∧
  (∀ (h : Hdr) (addr gen : Nat) (hd recs : Bytes) (s : State), Ready 0x0502 h s → pktRead (counted h s) h.job (slotAddr addr gen) 256 = .ok hd →
    pktRead (counted h s) h.job (slotAddr addr gen + 256) (128 * fld hd 6 2) = .ok recs → slotValid hd recs = false ∨ fld hd 8 4 ≠ gen →
    exec (.ckptRestore h addr gen) s = .next (finish 0x0502 h s 0x11 16 0xFF [] (counted h s)))

/-- For every Enrel command and state: where the first of the common checks of R280 fails, the command is answered with
its status, detail and unit, event 0x5110 with cause 4 is written where a unit is disabled, nothing of its own
happens, and the module goes on with what waits. On a module not sent off, for a command allowed on its queue: the job
field is refused with BAD_PARAM detail 8 exactly where it differs from QC_CFG.job on a job queue, is neither a context
number nor 0xFFFF on queue 0, or names a job that the opcode needs and that does not exist. On a module sent off
everything but HEALTH_READ and REINSTATE on queue 0 is answered with SENT_OFF. -/
def Obligations.CommonChecksComeFirst : Prop :=
  (∀ (c : Instr) (op st d u : Nat) (h : Hdr) (s : State), Sys2Proof.Claims.heading c = some (op, h) → commonFail (counted h s) op h = some (st, d, u) →
    exec c s = .next (Sys2Proof.Claims.goesOn c (finish op h s st d u [] (if st = 0x13 then flt 0x5110 u 0xFF 0 (locCause 4 u) (counted h s) else counted h s)))) ∧
  (∀ (c : Instr) (op : Nat) (h : Hdr) (s : State), Sys2Proof.Claims.heading c = some (op, h) → s.ctl.health.sentOff = true → ¬ (h.q = 0 ∧ (op = 0x0801 ∨ op = 0x0804)) →
    exec c s = .next (Sys2Proof.Claims.goesOn c (finish op h s 0x90 0 0xFF [] (counted h s)))) ∧
  (∀ (c : Instr) (op : Nat) (h : Hdr) (s : State), Sys2Proof.Claims.heading c = some (op, h) → s.ctl.health.sentOff = false → (h.q ≠ 0 → opQ op ≠ 0) →
    (h.q = 0 → opQ op = 1 → h.job ≠ 0xFFFF) →
    (let breaks : Prop := (h.q ≠ 0 ∧ h.job ≠ (s.queue h.q).job) ∨ (h.q = 0 ∧ h.job ≠ 0xFFFF ∧ 64 ≤ h.job) ∨ (opNeedsJob op = true ∧ s.live h.job = false) ∨
       (op = 0x0102 ∧ h.job = 0xFFFF)
     (breaks → exec c s = .next (Sys2Proof.Claims.goesOn c (finish op h s 0x11 8 0xFF [] (counted h s)))) ∧
     (¬ breaks → commonFail (counted h s) op h ≠ some (0x11, 8, 0xFF))))

/-- For every MIRROR_BIND of role 1 that passes the common checks, toward a partner that is there and that stands where
the plan in force expects it: while the mapped tier 3 of the module is below 512 GiB the command is answered with
NO_RESOURCE and binds nothing. -/
def Obligations.MirrorNeedsTierThree : Prop :=
  ∀ (h : Hdr) (node : Nat) (s : State), Ready 0x0503 h s → partnerUp s node = true →
    (s.w.topo.jobPlan = none ∨ ∃ e, myPlace s = some e ∧ standing s e.partner = node) → sumNat (s.w.cxl.map (fun e => e.2.mapped)) < 512 →
    exec (.mirrorBind h node 1) s = .next (finish 0x0503 h s 0x20 0 0xFF [] (counted h s))

/-- State.reset: every ranged setting is in its range; HL_ESC 3 and 900 s, HL_QWD 5,000 ms, TP_CFG 20 ms and 100 us,
REEL_CFG 500 and 100 ms, UMP_CTL 64 and 4, CK_ADV 10,000, 10 and 5, MR_CTL 80 and 16, SE_CTL 75, FLOG_CFG 1,
QARB_WEIGHT 8, 4, 2 and 1, MMU_CTL 5,000 ms, PW_CORE 750 mV, PW_THERM 100 C, EV_MASK 0; host memory and device memory
list nothing and are in canonical form; no command waits, none is in flight, no job is live and every queue is
disabled. -/
def Obligations.ResetStateIsSound : Prop :=
  State.reset.cfg.ranged = true ∧ State.reset.cfg.escLimit = 3 ∧ State.reset.cfg.escWindowS = 900 ∧ (∀ j, tget 5000 State.reset.cfg.qwdBudget j = 5000) ∧
    State.reset.cfg.lostMs = 20 ∧ State.reset.cfg.deadUs = 100 ∧ State.reset.cfg.huddleMs = 500 ∧ State.reset.cfg.slowMs = 100 ∧ State.reset.cfg.rotPeriod = 64 ∧
    State.reset.cfg.depth = 4 ∧ State.reset.cfg.ckCeThr = 10000 ∧ State.reset.cfg.ckWindowMin = 10 ∧ State.reset.cfg.ckTjMarginC = 5 ∧ State.reset.cfg.mrWarn = 80 ∧
    State.reset.cfg.mrPendGib = 16 ∧ (∀ i, tget 75 State.reset.cfg.seWarn i = 75) ∧ State.reset.cfg.sideSev = 1 ∧ State.reset.cfg.w0 = 8 ∧ State.reset.cfg.w1 = 4 ∧
    State.reset.cfg.w2 = 2 ∧ State.reset.cfg.w3 = 1 ∧ State.reset.cfg.priTimeoutMs = 5000 ∧ State.reset.cfg.targetMv = 750 ∧ State.reset.cfg.tjLimitC = 100 ∧
    State.reset.cfg.evMask = 0 ∧ State.reset.w.host = [] ∧ State.reset.w.dev = [] ∧ Memory.wf State.reset.w.host ∧ Memory.wf State.reset.w.dev ∧
    State.reset.pending = [] ∧ State.reset.w.inflight = [] ∧ (∀ j, State.reset.live j = false) ∧ (∀ q, (State.reset.queue q).state = 0)

/-- For every state whose settings (HL_ESC, HL_QWD, REFCLK_SETTLE, the rate windows, link thresholds, TP_CFG, REEL_CFG,
UMP_CTL, CK_ADV, MR_CTL, SE_CTL, FLOG_CFG, QARB_WEIGHT, MMU_CTL) lie in the ranges of their tables, a step that
answers a next state leaves them there: register writes with values outside are ignored, and no reset, sit-out,
provisioning record or other command takes a setting out of its range. -/
def Obligations.SettingsStayInRange : Prop :=
  ∀ (s t : State), s.cfg.ranged = true → step s = .next t → t.cfg.ranged = true

/-- For every well-formed Enrel command but the commit notice: its packet is 64 bytes and decodes, on the command's queue,
to that command with every field. The packet of a commit notice is that of CKPT_WRITE (R449) and decodes to it with
the same fields. And whatever 64 bytes decode to a command, that command's own packet has the same opcode. -/
def Obligations.PacketsAreReadAsWritten : Prop :=
  (∀ (c : Instr) (b : Bytes), WellFormed c = true → encodePacket c = some b → (∀ h addr gen, c ≠ .ckptCommitNotice h addr gen) →
    b.length = 64 ∧ ∃ q, q < 8192 ∧ decodePacket q b = some c) ∧
  (∀ (h : Hdr) (addr gen : Nat) (b : Bytes), WellFormed (.ckptCommitNotice h addr gen) = true → encodePacket (.ckptCommitNotice h addr gen) = some b →
    b.length = 64 ∧ decodePacket h.q b = some (.ckptWrite h addr gen)) ∧
  (∀ (q : Nat) (b : Bytes) (c : Instr), decodePacket q b = some c → ∃ b', encodePacket c = some b' ∧ fld b' 0 2 = fld b 0 2)
end

