-- ==== Sys2Proof/Laws/State.lean ====
section
/-! SUPPORT. One fact per field per update of the state: what each named update leaves and what it writes. -/

namespace Sys2Proof.Machine

open Sys2Proof

variable (s : State)

/-! ### onW -/

@[simp] theorem State.onW_pending (f : World → World) : (s.onW f).pending = s.pending := rfl
@[simp] theorem State.onW_cfg (f : World → World) : (s.onW f).cfg = s.cfg := rfl
@[simp] theorem State.onW_ctl (f : World → World) : (s.onW f).ctl = s.ctl := rfl
@[simp] theorem State.onW_w (f : World → World) : (s.onW f).w = f s.w := rfl

/-! ### setJob -/

@[simp] theorem State.setJob_pending (j : Nat) (v : Job) : (s.setJob j v).pending = s.pending := rfl
@[simp] theorem State.setJob_cfg (j : Nat) (v : Job) : (s.setJob j v).cfg = s.cfg := rfl
@[simp] theorem State.setJob_ctl (j : Nat) (v : Job) : (s.setJob j v).ctl = s.ctl := rfl
@[simp] theorem State.setJob_w_free (j : Nat) (v : Job) : (s.setJob j v).w.free = s.w.free := rfl
@[simp] theorem State.setJob_w_last60 (j : Nat) (v : Job) : (s.setJob j v).w.last60 = s.w.last60 := rfl
@[simp] theorem State.setJob_w_out (j : Nat) (v : Job) : (s.setJob j v).w.out = s.w.out := rfl
@[simp] theorem State.setJob_w_flog (j : Nat) (v : Job) : (s.setJob j v).w.flog = s.w.flog := rfl
@[simp] theorem State.setJob_w_ev (j : Nat) (v : Job) : (s.setJob j v).w.ev = s.w.ev := rfl
@[simp] theorem State.setJob_w_msix (j : Nat) (v : Job) : (s.setJob j v).w.msix = s.w.msix := rfl
@[simp] theorem State.setJob_w_sl (j : Nat) (v : Job) : (s.setJob j v).w.sl = s.w.sl := rfl
@[simp] theorem State.setJob_w_queues (j : Nat) (v : Job) : (s.setJob j v).w.queues = s.w.queues := rfl
@[simp] theorem State.setJob_w_qarb (j : Nat) (v : Job) : (s.setJob j v).w.qarb = s.w.qarb := rfl
@[simp] theorem State.setJob_w_inflight (j : Nat) (v : Job) : (s.setJob j v).w.inflight = s.w.inflight := rfl
@[simp] theorem State.setJob_w_ordNext (j : Nat) (v : Job) : (s.setJob j v).w.ordNext = s.w.ordNext := rfl
@[simp] theorem State.setJob_w_waits (j : Nat) (v : Job) : (s.setJob j v).w.waits = s.w.waits := rfl
@[simp] theorem State.setJob_w_host (j : Nat) (v : Job) : (s.setJob j v).w.host = s.w.host := rfl
@[simp] theorem State.setJob_w_hostAbsent (j : Nat) (v : Job) : (s.setJob j v).w.hostAbsent = s.w.hostAbsent := rfl
@[simp] theorem State.setJob_w_hostPoison (j : Nat) (v : Job) : (s.setJob j v).w.hostPoison = s.w.hostPoison := rfl
@[simp] theorem State.setJob_w_mmu (j : Nat) (v : Job) : (s.setJob j v).w.mmu = s.w.mmu := rfl
@[simp] theorem State.setJob_w_dma (j : Nat) (v : Job) : (s.setJob j v).w.dma = s.w.dma := rfl
@[simp] theorem State.setJob_w_dmaWait (j : Nat) (v : Job) : (s.setJob j v).w.dmaWait = s.w.dmaWait := rfl
@[simp] theorem State.setJob_w_dmaLast (j : Nat) (v : Job) : (s.setJob j v).w.dmaLast = s.w.dmaLast := rfl
@[simp] theorem State.setJob_w_jobs (j : Nat) (v : Job) : (s.setJob j v).w.jobs = tput {} s.w.jobs j v := rfl
@[simp] theorem State.setJob_w_holder (j : Nat) (v : Job) : (s.setJob j v).w.holder = s.w.holder := rfl
@[simp] theorem State.setJob_w_dev (j : Nat) (v : Job) : (s.setJob j v).w.dev = s.w.dev := rfl
@[simp] theorem State.setJob_w_poison (j : Nat) (v : Job) : (s.setJob j v).w.poison = s.w.poison := rfl
@[simp] theorem State.setJob_w_stale (j : Nat) (v : Job) : (s.setJob j v).w.stale = s.w.stale := rfl
@[simp] theorem State.setJob_w_inject (j : Nat) (v : Job) : (s.setJob j v).w.inject = s.w.inject := rfl
@[simp] theorem State.setJob_w_apWait (j : Nat) (v : Job) : (s.setJob j v).w.apWait = s.w.apWait := rfl
@[simp] theorem State.setJob_w_cells (j : Nat) (v : Job) : (s.setJob j v).w.cells = s.w.cells := rfl
@[simp] theorem State.setJob_w_dieSense (j : Nat) (v : Job) : (s.setJob j v).w.dieSense = s.w.dieSense := rfl
@[simp] theorem State.setJob_w_badPaths (j : Nat) (v : Job) : (s.setJob j v).w.badPaths = s.w.badPaths := rfl
@[simp] theorem State.setJob_w_cache (j : Nat) (v : Job) : (s.setJob j v).w.cache = s.w.cache := rfl
@[simp] theorem State.setJob_w_stk (j : Nat) (v : Job) : (s.setJob j v).w.stk = s.w.stk := rfl
@[simp] theorem State.setJob_w_pcs (j : Nat) (v : Job) : (s.setJob j v).w.pcs = s.w.pcs := rfl
@[simp] theorem State.setJob_w_lanes (j : Nat) (v : Job) : (s.setJob j v).w.lanes = s.w.lanes := rfl
@[simp] theorem State.setJob_w_reloc (j : Nat) (v : Job) : (s.setJob j v).w.reloc = s.w.reloc := rfl
@[simp] theorem State.setJob_w_lp (j : Nat) (v : Job) : (s.setJob j v).w.lp = s.w.lp := rfl
@[simp] theorem State.setJob_w_cxl (j : Nat) (v : Job) : (s.setJob j v).w.cxl = s.w.cxl := rfl
@[simp] theorem State.setJob_w_hubCe (j : Nat) (v : Job) : (s.setJob j v).w.hubCe = s.w.hubCe := rfl
@[simp] theorem State.setJob_w_se (j : Nat) (v : Job) : (s.setJob j v).w.se = s.w.se := rfl
@[simp] theorem State.setJob_w_lk (j : Nat) (v : Job) : (s.setJob j v).w.lk = s.w.lk := rfl
@[simp] theorem State.setJob_w_topo (j : Nat) (v : Job) : (s.setJob j v).w.topo = s.w.topo := rfl
@[simp] theorem State.setJob_w_msgs (j : Nat) (v : Job) : (s.setJob j v).w.msgs = s.w.msgs := rfl
@[simp] theorem State.setJob_w_foul (j : Nat) (v : Job) : (s.setJob j v).w.foul = s.w.foul := rfl
@[simp] theorem State.setJob_w_reel (j : Nat) (v : Job) : (s.setJob j v).w.reel = s.w.reel := rfl
@[simp] theorem State.setJob_w_ump (j : Nat) (v : Job) : (s.setJob j v).w.ump = s.w.ump := rfl
@[simp] theorem State.setJob_w_ck (j : Nat) (v : Job) : (s.setJob j v).w.ck = s.w.ck := rfl
@[simp] theorem State.setJob_w_mr (j : Nat) (v : Job) : (s.setJob j v).w.mr = s.w.mr := rfl
@[simp] theorem State.setJob_w_ret (j : Nat) (v : Job) : (s.setJob j v).w.ret = s.w.ret := rfl
@[simp] theorem State.setJob_w_err (j : Nat) (v : Job) : (s.setJob j v).w.err = s.w.err := rfl
@[simp] theorem State.setJob_w_traces (j : Nat) (v : Job) : (s.setJob j v).w.traces = s.w.traces := rfl
@[simp] theorem State.setJob_w_xings (j : Nat) (v : Job) : (s.setJob j v).w.xings = s.w.xings := rfl
@[simp] theorem State.setJob_w_stalled (j : Nat) (v : Job) : (s.setJob j v).w.stalled = s.w.stalled := rfl

/-! ### modJob -/

@[simp] theorem State.modJob_pending (j : Nat) (f : Job → Job) : (s.modJob j f).pending = s.pending := rfl
@[simp] theorem State.modJob_cfg (j : Nat) (f : Job → Job) : (s.modJob j f).cfg = s.cfg := rfl
@[simp] theorem State.modJob_ctl (j : Nat) (f : Job → Job) : (s.modJob j f).ctl = s.ctl := rfl
@[simp] theorem State.modJob_w_free (j : Nat) (f : Job → Job) : (s.modJob j f).w.free = s.w.free := rfl
@[simp] theorem State.modJob_w_last60 (j : Nat) (f : Job → Job) : (s.modJob j f).w.last60 = s.w.last60 := rfl
@[simp] theorem State.modJob_w_out (j : Nat) (f : Job → Job) : (s.modJob j f).w.out = s.w.out := rfl
@[simp] theorem State.modJob_w_flog (j : Nat) (f : Job → Job) : (s.modJob j f).w.flog = s.w.flog := rfl
@[simp] theorem State.modJob_w_ev (j : Nat) (f : Job → Job) : (s.modJob j f).w.ev = s.w.ev := rfl
@[simp] theorem State.modJob_w_msix (j : Nat) (f : Job → Job) : (s.modJob j f).w.msix = s.w.msix := rfl
@[simp] theorem State.modJob_w_sl (j : Nat) (f : Job → Job) : (s.modJob j f).w.sl = s.w.sl := rfl
@[simp] theorem State.modJob_w_queues (j : Nat) (f : Job → Job) : (s.modJob j f).w.queues = s.w.queues := rfl
@[simp] theorem State.modJob_w_qarb (j : Nat) (f : Job → Job) : (s.modJob j f).w.qarb = s.w.qarb := rfl
@[simp] theorem State.modJob_w_inflight (j : Nat) (f : Job → Job) : (s.modJob j f).w.inflight = s.w.inflight := rfl
@[simp] theorem State.modJob_w_ordNext (j : Nat) (f : Job → Job) : (s.modJob j f).w.ordNext = s.w.ordNext := rfl
@[simp] theorem State.modJob_w_waits (j : Nat) (f : Job → Job) : (s.modJob j f).w.waits = s.w.waits := rfl
@[simp] theorem State.modJob_w_host (j : Nat) (f : Job → Job) : (s.modJob j f).w.host = s.w.host := rfl
@[simp] theorem State.modJob_w_hostAbsent (j : Nat) (f : Job → Job) : (s.modJob j f).w.hostAbsent = s.w.hostAbsent := rfl
@[simp] theorem State.modJob_w_hostPoison (j : Nat) (f : Job → Job) : (s.modJob j f).w.hostPoison = s.w.hostPoison := rfl
@[simp] theorem State.modJob_w_mmu (j : Nat) (f : Job → Job) : (s.modJob j f).w.mmu = s.w.mmu := rfl
@[simp] theorem State.modJob_w_dma (j : Nat) (f : Job → Job) : (s.modJob j f).w.dma = s.w.dma := rfl
@[simp] theorem State.modJob_w_dmaWait (j : Nat) (f : Job → Job) : (s.modJob j f).w.dmaWait = s.w.dmaWait := rfl
@[simp] theorem State.modJob_w_dmaLast (j : Nat) (f : Job → Job) : (s.modJob j f).w.dmaLast = s.w.dmaLast := rfl
@[simp] theorem State.modJob_w_jobs (j : Nat) (f : Job → Job) : (s.modJob j f).w.jobs = tput {} s.w.jobs j (f (s.job j)) := rfl
@[simp] theorem State.modJob_w_holder (j : Nat) (f : Job → Job) : (s.modJob j f).w.holder = s.w.holder := rfl
@[simp] theorem State.modJob_w_dev (j : Nat) (f : Job → Job) : (s.modJob j f).w.dev = s.w.dev := rfl
@[simp] theorem State.modJob_w_poison (j : Nat) (f : Job → Job) : (s.modJob j f).w.poison = s.w.poison := rfl
@[simp] theorem State.modJob_w_stale (j : Nat) (f : Job → Job) : (s.modJob j f).w.stale = s.w.stale := rfl
@[simp] theorem State.modJob_w_inject (j : Nat) (f : Job → Job) : (s.modJob j f).w.inject = s.w.inject := rfl
@[simp] theorem State.modJob_w_apWait (j : Nat) (f : Job → Job) : (s.modJob j f).w.apWait = s.w.apWait := rfl
@[simp] theorem State.modJob_w_cells (j : Nat) (f : Job → Job) : (s.modJob j f).w.cells = s.w.cells := rfl
@[simp] theorem State.modJob_w_dieSense (j : Nat) (f : Job → Job) : (s.modJob j f).w.dieSense = s.w.dieSense := rfl
@[simp] theorem State.modJob_w_badPaths (j : Nat) (f : Job → Job) : (s.modJob j f).w.badPaths = s.w.badPaths := rfl
@[simp] theorem State.modJob_w_cache (j : Nat) (f : Job → Job) : (s.modJob j f).w.cache = s.w.cache := rfl
@[simp] theorem State.modJob_w_stk (j : Nat) (f : Job → Job) : (s.modJob j f).w.stk = s.w.stk := rfl
@[simp] theorem State.modJob_w_pcs (j : Nat) (f : Job → Job) : (s.modJob j f).w.pcs = s.w.pcs := rfl
@[simp] theorem State.modJob_w_lanes (j : Nat) (f : Job → Job) : (s.modJob j f).w.lanes = s.w.lanes := rfl
@[simp] theorem State.modJob_w_reloc (j : Nat) (f : Job → Job) : (s.modJob j f).w.reloc = s.w.reloc := rfl
@[simp] theorem State.modJob_w_lp (j : Nat) (f : Job → Job) : (s.modJob j f).w.lp = s.w.lp := rfl
@[simp] theorem State.modJob_w_cxl (j : Nat) (f : Job → Job) : (s.modJob j f).w.cxl = s.w.cxl := rfl
@[simp] theorem State.modJob_w_hubCe (j : Nat) (f : Job → Job) : (s.modJob j f).w.hubCe = s.w.hubCe := rfl
@[simp] theorem State.modJob_w_se (j : Nat) (f : Job → Job) : (s.modJob j f).w.se = s.w.se := rfl
@[simp] theorem State.modJob_w_lk (j : Nat) (f : Job → Job) : (s.modJob j f).w.lk = s.w.lk := rfl
@[simp] theorem State.modJob_w_topo (j : Nat) (f : Job → Job) : (s.modJob j f).w.topo = s.w.topo := rfl
@[simp] theorem State.modJob_w_msgs (j : Nat) (f : Job → Job) : (s.modJob j f).w.msgs = s.w.msgs := rfl
@[simp] theorem State.modJob_w_foul (j : Nat) (f : Job → Job) : (s.modJob j f).w.foul = s.w.foul := rfl
@[simp] theorem State.modJob_w_reel (j : Nat) (f : Job → Job) : (s.modJob j f).w.reel = s.w.reel := rfl
@[simp] theorem State.modJob_w_ump (j : Nat) (f : Job → Job) : (s.modJob j f).w.ump = s.w.ump := rfl
@[simp] theorem State.modJob_w_ck (j : Nat) (f : Job → Job) : (s.modJob j f).w.ck = s.w.ck := rfl
@[simp] theorem State.modJob_w_mr (j : Nat) (f : Job → Job) : (s.modJob j f).w.mr = s.w.mr := rfl
@[simp] theorem State.modJob_w_ret (j : Nat) (f : Job → Job) : (s.modJob j f).w.ret = s.w.ret := rfl
@[simp] theorem State.modJob_w_err (j : Nat) (f : Job → Job) : (s.modJob j f).w.err = s.w.err := rfl
@[simp] theorem State.modJob_w_traces (j : Nat) (f : Job → Job) : (s.modJob j f).w.traces = s.w.traces := rfl
@[simp] theorem State.modJob_w_xings (j : Nat) (f : Job → Job) : (s.modJob j f).w.xings = s.w.xings := rfl
@[simp] theorem State.modJob_w_stalled (j : Nat) (f : Job → Job) : (s.modJob j f).w.stalled = s.w.stalled := rfl

/-! ### setQueue -/

@[simp] theorem State.setQueue_pending (q : Nat) (v : Queue) : (s.setQueue q v).pending = s.pending := rfl
@[simp] theorem State.setQueue_cfg (q : Nat) (v : Queue) : (s.setQueue q v).cfg = s.cfg := rfl
@[simp] theorem State.setQueue_ctl (q : Nat) (v : Queue) : (s.setQueue q v).ctl = s.ctl := rfl
@[simp] theorem State.setQueue_w_free (q : Nat) (v : Queue) : (s.setQueue q v).w.free = s.w.free := rfl
@[simp] theorem State.setQueue_w_last60 (q : Nat) (v : Queue) : (s.setQueue q v).w.last60 = s.w.last60 := rfl
@[simp] theorem State.setQueue_w_out (q : Nat) (v : Queue) : (s.setQueue q v).w.out = s.w.out := rfl
@[simp] theorem State.setQueue_w_flog (q : Nat) (v : Queue) : (s.setQueue q v).w.flog = s.w.flog := rfl
@[simp] theorem State.setQueue_w_ev (q : Nat) (v : Queue) : (s.setQueue q v).w.ev = s.w.ev := rfl
@[simp] theorem State.setQueue_w_msix (q : Nat) (v : Queue) : (s.setQueue q v).w.msix = s.w.msix := rfl
@[simp] theorem State.setQueue_w_sl (q : Nat) (v : Queue) : (s.setQueue q v).w.sl = s.w.sl := rfl
@[simp] theorem State.setQueue_w_queues (q : Nat) (v : Queue) : (s.setQueue q v).w.queues = tput {} s.w.queues q v := rfl
@[simp] theorem State.setQueue_w_qarb (q : Nat) (v : Queue) : (s.setQueue q v).w.qarb = s.w.qarb := rfl
@[simp] theorem State.setQueue_w_inflight (q : Nat) (v : Queue) : (s.setQueue q v).w.inflight = s.w.inflight := rfl
@[simp] theorem State.setQueue_w_ordNext (q : Nat) (v : Queue) : (s.setQueue q v).w.ordNext = s.w.ordNext := rfl
@[simp] theorem State.setQueue_w_waits (q : Nat) (v : Queue) : (s.setQueue q v).w.waits = s.w.waits := rfl
@[simp] theorem State.setQueue_w_host (q : Nat) (v : Queue) : (s.setQueue q v).w.host = s.w.host := rfl
@[simp] theorem State.setQueue_w_hostAbsent (q : Nat) (v : Queue) : (s.setQueue q v).w.hostAbsent = s.w.hostAbsent := rfl
@[simp] theorem State.setQueue_w_hostPoison (q : Nat) (v : Queue) : (s.setQueue q v).w.hostPoison = s.w.hostPoison := rfl
@[simp] theorem State.setQueue_w_mmu (q : Nat) (v : Queue) : (s.setQueue q v).w.mmu = s.w.mmu := rfl
@[simp] theorem State.setQueue_w_dma (q : Nat) (v : Queue) : (s.setQueue q v).w.dma = s.w.dma := rfl
@[simp] theorem State.setQueue_w_dmaWait (q : Nat) (v : Queue) : (s.setQueue q v).w.dmaWait = s.w.dmaWait := rfl
@[simp] theorem State.setQueue_w_dmaLast (q : Nat) (v : Queue) : (s.setQueue q v).w.dmaLast = s.w.dmaLast := rfl
@[simp] theorem State.setQueue_w_jobs (q : Nat) (v : Queue) : (s.setQueue q v).w.jobs = s.w.jobs := rfl
@[simp] theorem State.setQueue_w_holder (q : Nat) (v : Queue) : (s.setQueue q v).w.holder = s.w.holder := rfl
@[simp] theorem State.setQueue_w_dev (q : Nat) (v : Queue) : (s.setQueue q v).w.dev = s.w.dev := rfl
@[simp] theorem State.setQueue_w_poison (q : Nat) (v : Queue) : (s.setQueue q v).w.poison = s.w.poison := rfl
@[simp] theorem State.setQueue_w_stale (q : Nat) (v : Queue) : (s.setQueue q v).w.stale = s.w.stale := rfl
@[simp] theorem State.setQueue_w_inject (q : Nat) (v : Queue) : (s.setQueue q v).w.inject = s.w.inject := rfl
@[simp] theorem State.setQueue_w_apWait (q : Nat) (v : Queue) : (s.setQueue q v).w.apWait = s.w.apWait := rfl
@[simp] theorem State.setQueue_w_cells (q : Nat) (v : Queue) : (s.setQueue q v).w.cells = s.w.cells := rfl
@[simp] theorem State.setQueue_w_dieSense (q : Nat) (v : Queue) : (s.setQueue q v).w.dieSense = s.w.dieSense := rfl
@[simp] theorem State.setQueue_w_badPaths (q : Nat) (v : Queue) : (s.setQueue q v).w.badPaths = s.w.badPaths := rfl
@[simp] theorem State.setQueue_w_cache (q : Nat) (v : Queue) : (s.setQueue q v).w.cache = s.w.cache := rfl
@[simp] theorem State.setQueue_w_stk (q : Nat) (v : Queue) : (s.setQueue q v).w.stk = s.w.stk := rfl
@[simp] theorem State.setQueue_w_pcs (q : Nat) (v : Queue) : (s.setQueue q v).w.pcs = s.w.pcs := rfl
@[simp] theorem State.setQueue_w_lanes (q : Nat) (v : Queue) : (s.setQueue q v).w.lanes = s.w.lanes := rfl
@[simp] theorem State.setQueue_w_reloc (q : Nat) (v : Queue) : (s.setQueue q v).w.reloc = s.w.reloc := rfl
@[simp] theorem State.setQueue_w_lp (q : Nat) (v : Queue) : (s.setQueue q v).w.lp = s.w.lp := rfl
@[simp] theorem State.setQueue_w_cxl (q : Nat) (v : Queue) : (s.setQueue q v).w.cxl = s.w.cxl := rfl
@[simp] theorem State.setQueue_w_hubCe (q : Nat) (v : Queue) : (s.setQueue q v).w.hubCe = s.w.hubCe := rfl
@[simp] theorem State.setQueue_w_se (q : Nat) (v : Queue) : (s.setQueue q v).w.se = s.w.se := rfl
@[simp] theorem State.setQueue_w_lk (q : Nat) (v : Queue) : (s.setQueue q v).w.lk = s.w.lk := rfl
@[simp] theorem State.setQueue_w_topo (q : Nat) (v : Queue) : (s.setQueue q v).w.topo = s.w.topo := rfl
@[simp] theorem State.setQueue_w_msgs (q : Nat) (v : Queue) : (s.setQueue q v).w.msgs = s.w.msgs := rfl
@[simp] theorem State.setQueue_w_foul (q : Nat) (v : Queue) : (s.setQueue q v).w.foul = s.w.foul := rfl
@[simp] theorem State.setQueue_w_reel (q : Nat) (v : Queue) : (s.setQueue q v).w.reel = s.w.reel := rfl
@[simp] theorem State.setQueue_w_ump (q : Nat) (v : Queue) : (s.setQueue q v).w.ump = s.w.ump := rfl
@[simp] theorem State.setQueue_w_ck (q : Nat) (v : Queue) : (s.setQueue q v).w.ck = s.w.ck := rfl
@[simp] theorem State.setQueue_w_mr (q : Nat) (v : Queue) : (s.setQueue q v).w.mr = s.w.mr := rfl
@[simp] theorem State.setQueue_w_ret (q : Nat) (v : Queue) : (s.setQueue q v).w.ret = s.w.ret := rfl
@[simp] theorem State.setQueue_w_err (q : Nat) (v : Queue) : (s.setQueue q v).w.err = s.w.err := rfl
@[simp] theorem State.setQueue_w_traces (q : Nat) (v : Queue) : (s.setQueue q v).w.traces = s.w.traces := rfl
@[simp] theorem State.setQueue_w_xings (q : Nat) (v : Queue) : (s.setQueue q v).w.xings = s.w.xings := rfl
@[simp] theorem State.setQueue_w_stalled (q : Nat) (v : Queue) : (s.setQueue q v).w.stalled = s.w.stalled := rfl

/-! ### modQueue -/

@[simp] theorem State.modQueue_pending (q : Nat) (f : Queue → Queue) : (s.modQueue q f).pending = s.pending := rfl
@[simp] theorem State.modQueue_cfg (q : Nat) (f : Queue → Queue) : (s.modQueue q f).cfg = s.cfg := rfl
@[simp] theorem State.modQueue_ctl (q : Nat) (f : Queue → Queue) : (s.modQueue q f).ctl = s.ctl := rfl
@[simp] theorem State.modQueue_w_free (q : Nat) (f : Queue → Queue) : (s.modQueue q f).w.free = s.w.free := rfl
@[simp] theorem State.modQueue_w_last60 (q : Nat) (f : Queue → Queue) : (s.modQueue q f).w.last60 = s.w.last60 := rfl
@[simp] theorem State.modQueue_w_out (q : Nat) (f : Queue → Queue) : (s.modQueue q f).w.out = s.w.out := rfl
@[simp] theorem State.modQueue_w_flog (q : Nat) (f : Queue → Queue) : (s.modQueue q f).w.flog = s.w.flog := rfl
@[simp] theorem State.modQueue_w_ev (q : Nat) (f : Queue → Queue) : (s.modQueue q f).w.ev = s.w.ev := rfl
@[simp] theorem State.modQueue_w_msix (q : Nat) (f : Queue → Queue) : (s.modQueue q f).w.msix = s.w.msix := rfl
@[simp] theorem State.modQueue_w_sl (q : Nat) (f : Queue → Queue) : (s.modQueue q f).w.sl = s.w.sl := rfl
@[simp] theorem State.modQueue_w_queues (q : Nat) (f : Queue → Queue) : (s.modQueue q f).w.queues = tput {} s.w.queues q (f (s.queue q)) := rfl
@[simp] theorem State.modQueue_w_qarb (q : Nat) (f : Queue → Queue) : (s.modQueue q f).w.qarb = s.w.qarb := rfl
@[simp] theorem State.modQueue_w_inflight (q : Nat) (f : Queue → Queue) : (s.modQueue q f).w.inflight = s.w.inflight := rfl
@[simp] theorem State.modQueue_w_ordNext (q : Nat) (f : Queue → Queue) : (s.modQueue q f).w.ordNext = s.w.ordNext := rfl
@[simp] theorem State.modQueue_w_waits (q : Nat) (f : Queue → Queue) : (s.modQueue q f).w.waits = s.w.waits := rfl
@[simp] theorem State.modQueue_w_host (q : Nat) (f : Queue → Queue) : (s.modQueue q f).w.host = s.w.host := rfl
@[simp] theorem State.modQueue_w_hostAbsent (q : Nat) (f : Queue → Queue) : (s.modQueue q f).w.hostAbsent = s.w.hostAbsent := rfl
@[simp] theorem State.modQueue_w_hostPoison (q : Nat) (f : Queue → Queue) : (s.modQueue q f).w.hostPoison = s.w.hostPoison := rfl
@[simp] theorem State.modQueue_w_mmu (q : Nat) (f : Queue → Queue) : (s.modQueue q f).w.mmu = s.w.mmu := rfl
@[simp] theorem State.modQueue_w_dma (q : Nat) (f : Queue → Queue) : (s.modQueue q f).w.dma = s.w.dma := rfl
@[simp] theorem State.modQueue_w_dmaWait (q : Nat) (f : Queue → Queue) : (s.modQueue q f).w.dmaWait = s.w.dmaWait := rfl
@[simp] theorem State.modQueue_w_dmaLast (q : Nat) (f : Queue → Queue) : (s.modQueue q f).w.dmaLast = s.w.dmaLast := rfl
@[simp] theorem State.modQueue_w_jobs (q : Nat) (f : Queue → Queue) : (s.modQueue q f).w.jobs = s.w.jobs := rfl
@[simp] theorem State.modQueue_w_holder (q : Nat) (f : Queue → Queue) : (s.modQueue q f).w.holder = s.w.holder := rfl
@[simp] theorem State.modQueue_w_dev (q : Nat) (f : Queue → Queue) : (s.modQueue q f).w.dev = s.w.dev := rfl
@[simp] theorem State.modQueue_w_poison (q : Nat) (f : Queue → Queue) : (s.modQueue q f).w.poison = s.w.poison := rfl
@[simp] theorem State.modQueue_w_stale (q : Nat) (f : Queue → Queue) : (s.modQueue q f).w.stale = s.w.stale := rfl
@[simp] theorem State.modQueue_w_inject (q : Nat) (f : Queue → Queue) : (s.modQueue q f).w.inject = s.w.inject := rfl
@[simp] theorem State.modQueue_w_apWait (q : Nat) (f : Queue → Queue) : (s.modQueue q f).w.apWait = s.w.apWait := rfl
@[simp] theorem State.modQueue_w_cells (q : Nat) (f : Queue → Queue) : (s.modQueue q f).w.cells = s.w.cells := rfl
@[simp] theorem State.modQueue_w_dieSense (q : Nat) (f : Queue → Queue) : (s.modQueue q f).w.dieSense = s.w.dieSense := rfl
@[simp] theorem State.modQueue_w_badPaths (q : Nat) (f : Queue → Queue) : (s.modQueue q f).w.badPaths = s.w.badPaths := rfl
@[simp] theorem State.modQueue_w_cache (q : Nat) (f : Queue → Queue) : (s.modQueue q f).w.cache = s.w.cache := rfl
@[simp] theorem State.modQueue_w_stk (q : Nat) (f : Queue → Queue) : (s.modQueue q f).w.stk = s.w.stk := rfl
@[simp] theorem State.modQueue_w_pcs (q : Nat) (f : Queue → Queue) : (s.modQueue q f).w.pcs = s.w.pcs := rfl
@[simp] theorem State.modQueue_w_lanes (q : Nat) (f : Queue → Queue) : (s.modQueue q f).w.lanes = s.w.lanes := rfl
@[simp] theorem State.modQueue_w_reloc (q : Nat) (f : Queue → Queue) : (s.modQueue q f).w.reloc = s.w.reloc := rfl
@[simp] theorem State.modQueue_w_lp (q : Nat) (f : Queue → Queue) : (s.modQueue q f).w.lp = s.w.lp := rfl
@[simp] theorem State.modQueue_w_cxl (q : Nat) (f : Queue → Queue) : (s.modQueue q f).w.cxl = s.w.cxl := rfl
@[simp] theorem State.modQueue_w_hubCe (q : Nat) (f : Queue → Queue) : (s.modQueue q f).w.hubCe = s.w.hubCe := rfl
@[simp] theorem State.modQueue_w_se (q : Nat) (f : Queue → Queue) : (s.modQueue q f).w.se = s.w.se := rfl
@[simp] theorem State.modQueue_w_lk (q : Nat) (f : Queue → Queue) : (s.modQueue q f).w.lk = s.w.lk := rfl
@[simp] theorem State.modQueue_w_topo (q : Nat) (f : Queue → Queue) : (s.modQueue q f).w.topo = s.w.topo := rfl
@[simp] theorem State.modQueue_w_msgs (q : Nat) (f : Queue → Queue) : (s.modQueue q f).w.msgs = s.w.msgs := rfl
@[simp] theorem State.modQueue_w_foul (q : Nat) (f : Queue → Queue) : (s.modQueue q f).w.foul = s.w.foul := rfl
@[simp] theorem State.modQueue_w_reel (q : Nat) (f : Queue → Queue) : (s.modQueue q f).w.reel = s.w.reel := rfl
@[simp] theorem State.modQueue_w_ump (q : Nat) (f : Queue → Queue) : (s.modQueue q f).w.ump = s.w.ump := rfl
@[simp] theorem State.modQueue_w_ck (q : Nat) (f : Queue → Queue) : (s.modQueue q f).w.ck = s.w.ck := rfl
@[simp] theorem State.modQueue_w_mr (q : Nat) (f : Queue → Queue) : (s.modQueue q f).w.mr = s.w.mr := rfl
@[simp] theorem State.modQueue_w_ret (q : Nat) (f : Queue → Queue) : (s.modQueue q f).w.ret = s.w.ret := rfl
@[simp] theorem State.modQueue_w_err (q : Nat) (f : Queue → Queue) : (s.modQueue q f).w.err = s.w.err := rfl
@[simp] theorem State.modQueue_w_traces (q : Nat) (f : Queue → Queue) : (s.modQueue q f).w.traces = s.w.traces := rfl
@[simp] theorem State.modQueue_w_xings (q : Nat) (f : Queue → Queue) : (s.modQueue q f).w.xings = s.w.xings := rfl
@[simp] theorem State.modQueue_w_stalled (q : Nat) (f : Queue → Queue) : (s.modQueue q f).w.stalled = s.w.stalled := rfl

/-! ### setChan -/

@[simp] theorem State.setChan_pending (c : Nat) (v : Chan) : (s.setChan c v).pending = s.pending := rfl
@[simp] theorem State.setChan_cfg (c : Nat) (v : Chan) : (s.setChan c v).cfg = s.cfg := rfl
@[simp] theorem State.setChan_ctl (c : Nat) (v : Chan) : (s.setChan c v).ctl = s.ctl := rfl
@[simp] theorem State.setChan_w_free (c : Nat) (v : Chan) : (s.setChan c v).w.free = s.w.free := rfl
@[simp] theorem State.setChan_w_last60 (c : Nat) (v : Chan) : (s.setChan c v).w.last60 = s.w.last60 := rfl
@[simp] theorem State.setChan_w_out (c : Nat) (v : Chan) : (s.setChan c v).w.out = s.w.out := rfl
@[simp] theorem State.setChan_w_flog (c : Nat) (v : Chan) : (s.setChan c v).w.flog = s.w.flog := rfl
@[simp] theorem State.setChan_w_ev (c : Nat) (v : Chan) : (s.setChan c v).w.ev = s.w.ev := rfl
@[simp] theorem State.setChan_w_msix (c : Nat) (v : Chan) : (s.setChan c v).w.msix = s.w.msix := rfl
@[simp] theorem State.setChan_w_sl (c : Nat) (v : Chan) : (s.setChan c v).w.sl = s.w.sl := rfl
@[simp] theorem State.setChan_w_queues (c : Nat) (v : Chan) : (s.setChan c v).w.queues = s.w.queues := rfl
@[simp] theorem State.setChan_w_qarb (c : Nat) (v : Chan) : (s.setChan c v).w.qarb = s.w.qarb := rfl
@[simp] theorem State.setChan_w_inflight (c : Nat) (v : Chan) : (s.setChan c v).w.inflight = s.w.inflight := rfl
@[simp] theorem State.setChan_w_ordNext (c : Nat) (v : Chan) : (s.setChan c v).w.ordNext = s.w.ordNext := rfl
@[simp] theorem State.setChan_w_waits (c : Nat) (v : Chan) : (s.setChan c v).w.waits = s.w.waits := rfl
@[simp] theorem State.setChan_w_host (c : Nat) (v : Chan) : (s.setChan c v).w.host = s.w.host := rfl
@[simp] theorem State.setChan_w_hostAbsent (c : Nat) (v : Chan) : (s.setChan c v).w.hostAbsent = s.w.hostAbsent := rfl
@[simp] theorem State.setChan_w_hostPoison (c : Nat) (v : Chan) : (s.setChan c v).w.hostPoison = s.w.hostPoison := rfl
@[simp] theorem State.setChan_w_mmu (c : Nat) (v : Chan) : (s.setChan c v).w.mmu = s.w.mmu := rfl
@[simp] theorem State.setChan_w_dma (c : Nat) (v : Chan) : (s.setChan c v).w.dma = tput {} s.w.dma c v := rfl
@[simp] theorem State.setChan_w_dmaWait (c : Nat) (v : Chan) : (s.setChan c v).w.dmaWait = s.w.dmaWait := rfl
@[simp] theorem State.setChan_w_dmaLast (c : Nat) (v : Chan) : (s.setChan c v).w.dmaLast = s.w.dmaLast := rfl
@[simp] theorem State.setChan_w_jobs (c : Nat) (v : Chan) : (s.setChan c v).w.jobs = s.w.jobs := rfl
@[simp] theorem State.setChan_w_holder (c : Nat) (v : Chan) : (s.setChan c v).w.holder = s.w.holder := rfl
@[simp] theorem State.setChan_w_dev (c : Nat) (v : Chan) : (s.setChan c v).w.dev = s.w.dev := rfl
@[simp] theorem State.setChan_w_poison (c : Nat) (v : Chan) : (s.setChan c v).w.poison = s.w.poison := rfl
@[simp] theorem State.setChan_w_stale (c : Nat) (v : Chan) : (s.setChan c v).w.stale = s.w.stale := rfl
@[simp] theorem State.setChan_w_inject (c : Nat) (v : Chan) : (s.setChan c v).w.inject = s.w.inject := rfl
@[simp] theorem State.setChan_w_apWait (c : Nat) (v : Chan) : (s.setChan c v).w.apWait = s.w.apWait := rfl
@[simp] theorem State.setChan_w_cells (c : Nat) (v : Chan) : (s.setChan c v).w.cells = s.w.cells := rfl
@[simp] theorem State.setChan_w_dieSense (c : Nat) (v : Chan) : (s.setChan c v).w.dieSense = s.w.dieSense := rfl
@[simp] theorem State.setChan_w_badPaths (c : Nat) (v : Chan) : (s.setChan c v).w.badPaths = s.w.badPaths := rfl
@[simp] theorem State.setChan_w_cache (c : Nat) (v : Chan) : (s.setChan c v).w.cache = s.w.cache := rfl
@[simp] theorem State.setChan_w_stk (c : Nat) (v : Chan) : (s.setChan c v).w.stk = s.w.stk := rfl
@[simp] theorem State.setChan_w_pcs (c : Nat) (v : Chan) : (s.setChan c v).w.pcs = s.w.pcs := rfl
@[simp] theorem State.setChan_w_lanes (c : Nat) (v : Chan) : (s.setChan c v).w.lanes = s.w.lanes := rfl
@[simp] theorem State.setChan_w_reloc (c : Nat) (v : Chan) : (s.setChan c v).w.reloc = s.w.reloc := rfl
@[simp] theorem State.setChan_w_lp (c : Nat) (v : Chan) : (s.setChan c v).w.lp = s.w.lp := rfl
@[simp] theorem State.setChan_w_cxl (c : Nat) (v : Chan) : (s.setChan c v).w.cxl = s.w.cxl := rfl
@[simp] theorem State.setChan_w_hubCe (c : Nat) (v : Chan) : (s.setChan c v).w.hubCe = s.w.hubCe := rfl
@[simp] theorem State.setChan_w_se (c : Nat) (v : Chan) : (s.setChan c v).w.se = s.w.se := rfl
@[simp] theorem State.setChan_w_lk (c : Nat) (v : Chan) : (s.setChan c v).w.lk = s.w.lk := rfl
@[simp] theorem State.setChan_w_topo (c : Nat) (v : Chan) : (s.setChan c v).w.topo = s.w.topo := rfl
@[simp] theorem State.setChan_w_msgs (c : Nat) (v : Chan) : (s.setChan c v).w.msgs = s.w.msgs := rfl
@[simp] theorem State.setChan_w_foul (c : Nat) (v : Chan) : (s.setChan c v).w.foul = s.w.foul := rfl
@[simp] theorem State.setChan_w_reel (c : Nat) (v : Chan) : (s.setChan c v).w.reel = s.w.reel := rfl
@[simp] theorem State.setChan_w_ump (c : Nat) (v : Chan) : (s.setChan c v).w.ump = s.w.ump := rfl
@[simp] theorem State.setChan_w_ck (c : Nat) (v : Chan) : (s.setChan c v).w.ck = s.w.ck := rfl
@[simp] theorem State.setChan_w_mr (c : Nat) (v : Chan) : (s.setChan c v).w.mr = s.w.mr := rfl
@[simp] theorem State.setChan_w_ret (c : Nat) (v : Chan) : (s.setChan c v).w.ret = s.w.ret := rfl
@[simp] theorem State.setChan_w_err (c : Nat) (v : Chan) : (s.setChan c v).w.err = s.w.err := rfl
@[simp] theorem State.setChan_w_traces (c : Nat) (v : Chan) : (s.setChan c v).w.traces = s.w.traces := rfl
@[simp] theorem State.setChan_w_xings (c : Nat) (v : Chan) : (s.setChan c v).w.xings = s.w.xings := rfl
@[simp] theorem State.setChan_w_stalled (c : Nat) (v : Chan) : (s.setChan c v).w.stalled = s.w.stalled := rfl

/-! ### modChan -/

@[simp] theorem State.modChan_pending (c : Nat) (f : Chan → Chan) : (s.modChan c f).pending = s.pending := rfl
@[simp] theorem State.modChan_cfg (c : Nat) (f : Chan → Chan) : (s.modChan c f).cfg = s.cfg := rfl
@[simp] theorem State.modChan_ctl (c : Nat) (f : Chan → Chan) : (s.modChan c f).ctl = s.ctl := rfl
@[simp] theorem State.modChan_w_free (c : Nat) (f : Chan → Chan) : (s.modChan c f).w.free = s.w.free := rfl
@[simp] theorem State.modChan_w_last60 (c : Nat) (f : Chan → Chan) : (s.modChan c f).w.last60 = s.w.last60 := rfl
@[simp] theorem State.modChan_w_out (c : Nat) (f : Chan → Chan) : (s.modChan c f).w.out = s.w.out := rfl
@[simp] theorem State.modChan_w_flog (c : Nat) (f : Chan → Chan) : (s.modChan c f).w.flog = s.w.flog := rfl
@[simp] theorem State.modChan_w_ev (c : Nat) (f : Chan → Chan) : (s.modChan c f).w.ev = s.w.ev := rfl
@[simp] theorem State.modChan_w_msix (c : Nat) (f : Chan → Chan) : (s.modChan c f).w.msix = s.w.msix := rfl
@[simp] theorem State.modChan_w_sl (c : Nat) (f : Chan → Chan) : (s.modChan c f).w.sl = s.w.sl := rfl
@[simp] theorem State.modChan_w_queues (c : Nat) (f : Chan → Chan) : (s.modChan c f).w.queues = s.w.queues := rfl
@[simp] theorem State.modChan_w_qarb (c : Nat) (f : Chan → Chan) : (s.modChan c f).w.qarb = s.w.qarb := rfl
@[simp] theorem State.modChan_w_inflight (c : Nat) (f : Chan → Chan) : (s.modChan c f).w.inflight = s.w.inflight := rfl
@[simp] theorem State.modChan_w_ordNext (c : Nat) (f : Chan → Chan) : (s.modChan c f).w.ordNext = s.w.ordNext := rfl
@[simp] theorem State.modChan_w_waits (c : Nat) (f : Chan → Chan) : (s.modChan c f).w.waits = s.w.waits := rfl
@[simp] theorem State.modChan_w_host (c : Nat) (f : Chan → Chan) : (s.modChan c f).w.host = s.w.host := rfl
@[simp] theorem State.modChan_w_hostAbsent (c : Nat) (f : Chan → Chan) : (s.modChan c f).w.hostAbsent = s.w.hostAbsent := rfl
@[simp] theorem State.modChan_w_hostPoison (c : Nat) (f : Chan → Chan) : (s.modChan c f).w.hostPoison = s.w.hostPoison := rfl
@[simp] theorem State.modChan_w_mmu (c : Nat) (f : Chan → Chan) : (s.modChan c f).w.mmu = s.w.mmu := rfl
@[simp] theorem State.modChan_w_dma (c : Nat) (f : Chan → Chan) : (s.modChan c f).w.dma = tput {} s.w.dma c (f (s.chan c)) := rfl
@[simp] theorem State.modChan_w_dmaWait (c : Nat) (f : Chan → Chan) : (s.modChan c f).w.dmaWait = s.w.dmaWait := rfl
@[simp] theorem State.modChan_w_dmaLast (c : Nat) (f : Chan → Chan) : (s.modChan c f).w.dmaLast = s.w.dmaLast := rfl
@[simp] theorem State.modChan_w_jobs (c : Nat) (f : Chan → Chan) : (s.modChan c f).w.jobs = s.w.jobs := rfl
@[simp] theorem State.modChan_w_holder (c : Nat) (f : Chan → Chan) : (s.modChan c f).w.holder = s.w.holder := rfl
@[simp] theorem State.modChan_w_dev (c : Nat) (f : Chan → Chan) : (s.modChan c f).w.dev = s.w.dev := rfl
@[simp] theorem State.modChan_w_poison (c : Nat) (f : Chan → Chan) : (s.modChan c f).w.poison = s.w.poison := rfl
@[simp] theorem State.modChan_w_stale (c : Nat) (f : Chan → Chan) : (s.modChan c f).w.stale = s.w.stale := rfl
@[simp] theorem State.modChan_w_inject (c : Nat) (f : Chan → Chan) : (s.modChan c f).w.inject = s.w.inject := rfl
@[simp] theorem State.modChan_w_apWait (c : Nat) (f : Chan → Chan) : (s.modChan c f).w.apWait = s.w.apWait := rfl
@[simp] theorem State.modChan_w_cells (c : Nat) (f : Chan → Chan) : (s.modChan c f).w.cells = s.w.cells := rfl
@[simp] theorem State.modChan_w_dieSense (c : Nat) (f : Chan → Chan) : (s.modChan c f).w.dieSense = s.w.dieSense := rfl
@[simp] theorem State.modChan_w_badPaths (c : Nat) (f : Chan → Chan) : (s.modChan c f).w.badPaths = s.w.badPaths := rfl
@[simp] theorem State.modChan_w_cache (c : Nat) (f : Chan → Chan) : (s.modChan c f).w.cache = s.w.cache := rfl
@[simp] theorem State.modChan_w_stk (c : Nat) (f : Chan → Chan) : (s.modChan c f).w.stk = s.w.stk := rfl
@[simp] theorem State.modChan_w_pcs (c : Nat) (f : Chan → Chan) : (s.modChan c f).w.pcs = s.w.pcs := rfl
@[simp] theorem State.modChan_w_lanes (c : Nat) (f : Chan → Chan) : (s.modChan c f).w.lanes = s.w.lanes := rfl
@[simp] theorem State.modChan_w_reloc (c : Nat) (f : Chan → Chan) : (s.modChan c f).w.reloc = s.w.reloc := rfl
@[simp] theorem State.modChan_w_lp (c : Nat) (f : Chan → Chan) : (s.modChan c f).w.lp = s.w.lp := rfl
@[simp] theorem State.modChan_w_cxl (c : Nat) (f : Chan → Chan) : (s.modChan c f).w.cxl = s.w.cxl := rfl
@[simp] theorem State.modChan_w_hubCe (c : Nat) (f : Chan → Chan) : (s.modChan c f).w.hubCe = s.w.hubCe := rfl
@[simp] theorem State.modChan_w_se (c : Nat) (f : Chan → Chan) : (s.modChan c f).w.se = s.w.se := rfl
@[simp] theorem State.modChan_w_lk (c : Nat) (f : Chan → Chan) : (s.modChan c f).w.lk = s.w.lk := rfl
@[simp] theorem State.modChan_w_topo (c : Nat) (f : Chan → Chan) : (s.modChan c f).w.topo = s.w.topo := rfl
@[simp] theorem State.modChan_w_msgs (c : Nat) (f : Chan → Chan) : (s.modChan c f).w.msgs = s.w.msgs := rfl
@[simp] theorem State.modChan_w_foul (c : Nat) (f : Chan → Chan) : (s.modChan c f).w.foul = s.w.foul := rfl
@[simp] theorem State.modChan_w_reel (c : Nat) (f : Chan → Chan) : (s.modChan c f).w.reel = s.w.reel := rfl
@[simp] theorem State.modChan_w_ump (c : Nat) (f : Chan → Chan) : (s.modChan c f).w.ump = s.w.ump := rfl
@[simp] theorem State.modChan_w_ck (c : Nat) (f : Chan → Chan) : (s.modChan c f).w.ck = s.w.ck := rfl
@[simp] theorem State.modChan_w_mr (c : Nat) (f : Chan → Chan) : (s.modChan c f).w.mr = s.w.mr := rfl
@[simp] theorem State.modChan_w_ret (c : Nat) (f : Chan → Chan) : (s.modChan c f).w.ret = s.w.ret := rfl
@[simp] theorem State.modChan_w_err (c : Nat) (f : Chan → Chan) : (s.modChan c f).w.err = s.w.err := rfl
@[simp] theorem State.modChan_w_traces (c : Nat) (f : Chan → Chan) : (s.modChan c f).w.traces = s.w.traces := rfl
@[simp] theorem State.modChan_w_xings (c : Nat) (f : Chan → Chan) : (s.modChan c f).w.xings = s.w.xings := rfl
@[simp] theorem State.modChan_w_stalled (c : Nat) (f : Chan → Chan) : (s.modChan c f).w.stalled = s.w.stalled := rfl

/-! ### setCell -/

@[simp] theorem State.setCell_pending (k : Nat) (v : Cell) : (s.setCell k v).pending = s.pending := rfl
@[simp] theorem State.setCell_cfg (k : Nat) (v : Cell) : (s.setCell k v).cfg = s.cfg := rfl
@[simp] theorem State.setCell_ctl (k : Nat) (v : Cell) : (s.setCell k v).ctl = s.ctl := rfl
@[simp] theorem State.setCell_w_free (k : Nat) (v : Cell) : (s.setCell k v).w.free = s.w.free := rfl
@[simp] theorem State.setCell_w_last60 (k : Nat) (v : Cell) : (s.setCell k v).w.last60 = s.w.last60 := rfl
@[simp] theorem State.setCell_w_out (k : Nat) (v : Cell) : (s.setCell k v).w.out = s.w.out := rfl
@[simp] theorem State.setCell_w_flog (k : Nat) (v : Cell) : (s.setCell k v).w.flog = s.w.flog := rfl
@[simp] theorem State.setCell_w_ev (k : Nat) (v : Cell) : (s.setCell k v).w.ev = s.w.ev := rfl
@[simp] theorem State.setCell_w_msix (k : Nat) (v : Cell) : (s.setCell k v).w.msix = s.w.msix := rfl
@[simp] theorem State.setCell_w_sl (k : Nat) (v : Cell) : (s.setCell k v).w.sl = s.w.sl := rfl
@[simp] theorem State.setCell_w_queues (k : Nat) (v : Cell) : (s.setCell k v).w.queues = s.w.queues := rfl
@[simp] theorem State.setCell_w_qarb (k : Nat) (v : Cell) : (s.setCell k v).w.qarb = s.w.qarb := rfl
@[simp] theorem State.setCell_w_inflight (k : Nat) (v : Cell) : (s.setCell k v).w.inflight = s.w.inflight := rfl
@[simp] theorem State.setCell_w_ordNext (k : Nat) (v : Cell) : (s.setCell k v).w.ordNext = s.w.ordNext := rfl
@[simp] theorem State.setCell_w_waits (k : Nat) (v : Cell) : (s.setCell k v).w.waits = s.w.waits := rfl
@[simp] theorem State.setCell_w_host (k : Nat) (v : Cell) : (s.setCell k v).w.host = s.w.host := rfl
@[simp] theorem State.setCell_w_hostAbsent (k : Nat) (v : Cell) : (s.setCell k v).w.hostAbsent = s.w.hostAbsent := rfl
@[simp] theorem State.setCell_w_hostPoison (k : Nat) (v : Cell) : (s.setCell k v).w.hostPoison = s.w.hostPoison := rfl
@[simp] theorem State.setCell_w_mmu (k : Nat) (v : Cell) : (s.setCell k v).w.mmu = s.w.mmu := rfl
@[simp] theorem State.setCell_w_dma (k : Nat) (v : Cell) : (s.setCell k v).w.dma = s.w.dma := rfl
@[simp] theorem State.setCell_w_dmaWait (k : Nat) (v : Cell) : (s.setCell k v).w.dmaWait = s.w.dmaWait := rfl
@[simp] theorem State.setCell_w_dmaLast (k : Nat) (v : Cell) : (s.setCell k v).w.dmaLast = s.w.dmaLast := rfl
@[simp] theorem State.setCell_w_jobs (k : Nat) (v : Cell) : (s.setCell k v).w.jobs = s.w.jobs := rfl
@[simp] theorem State.setCell_w_holder (k : Nat) (v : Cell) : (s.setCell k v).w.holder = s.w.holder := rfl
@[simp] theorem State.setCell_w_dev (k : Nat) (v : Cell) : (s.setCell k v).w.dev = s.w.dev := rfl
@[simp] theorem State.setCell_w_poison (k : Nat) (v : Cell) : (s.setCell k v).w.poison = s.w.poison := rfl
@[simp] theorem State.setCell_w_stale (k : Nat) (v : Cell) : (s.setCell k v).w.stale = s.w.stale := rfl
@[simp] theorem State.setCell_w_inject (k : Nat) (v : Cell) : (s.setCell k v).w.inject = s.w.inject := rfl
@[simp] theorem State.setCell_w_apWait (k : Nat) (v : Cell) : (s.setCell k v).w.apWait = s.w.apWait := rfl
@[simp] theorem State.setCell_w_cells (k : Nat) (v : Cell) : (s.setCell k v).w.cells = tput (cellDefault k) s.w.cells k v := rfl
@[simp] theorem State.setCell_w_dieSense (k : Nat) (v : Cell) : (s.setCell k v).w.dieSense = s.w.dieSense := rfl
@[simp] theorem State.setCell_w_badPaths (k : Nat) (v : Cell) : (s.setCell k v).w.badPaths = s.w.badPaths := rfl
@[simp] theorem State.setCell_w_cache (k : Nat) (v : Cell) : (s.setCell k v).w.cache = s.w.cache := rfl
@[simp] theorem State.setCell_w_stk (k : Nat) (v : Cell) : (s.setCell k v).w.stk = s.w.stk := rfl
@[simp] theorem State.setCell_w_pcs (k : Nat) (v : Cell) : (s.setCell k v).w.pcs = s.w.pcs := rfl
@[simp] theorem State.setCell_w_lanes (k : Nat) (v : Cell) : (s.setCell k v).w.lanes = s.w.lanes := rfl
@[simp] theorem State.setCell_w_reloc (k : Nat) (v : Cell) : (s.setCell k v).w.reloc = s.w.reloc := rfl
@[simp] theorem State.setCell_w_lp (k : Nat) (v : Cell) : (s.setCell k v).w.lp = s.w.lp := rfl
@[simp] theorem State.setCell_w_cxl (k : Nat) (v : Cell) : (s.setCell k v).w.cxl = s.w.cxl := rfl
@[simp] theorem State.setCell_w_hubCe (k : Nat) (v : Cell) : (s.setCell k v).w.hubCe = s.w.hubCe := rfl
@[simp] theorem State.setCell_w_se (k : Nat) (v : Cell) : (s.setCell k v).w.se = s.w.se := rfl
@[simp] theorem State.setCell_w_lk (k : Nat) (v : Cell) : (s.setCell k v).w.lk = s.w.lk := rfl
@[simp] theorem State.setCell_w_topo (k : Nat) (v : Cell) : (s.setCell k v).w.topo = s.w.topo := rfl
@[simp] theorem State.setCell_w_msgs (k : Nat) (v : Cell) : (s.setCell k v).w.msgs = s.w.msgs := rfl
@[simp] theorem State.setCell_w_foul (k : Nat) (v : Cell) : (s.setCell k v).w.foul = s.w.foul := rfl
@[simp] theorem State.setCell_w_reel (k : Nat) (v : Cell) : (s.setCell k v).w.reel = s.w.reel := rfl
@[simp] theorem State.setCell_w_ump (k : Nat) (v : Cell) : (s.setCell k v).w.ump = s.w.ump := rfl
@[simp] theorem State.setCell_w_ck (k : Nat) (v : Cell) : (s.setCell k v).w.ck = s.w.ck := rfl
@[simp] theorem State.setCell_w_mr (k : Nat) (v : Cell) : (s.setCell k v).w.mr = s.w.mr := rfl
@[simp] theorem State.setCell_w_ret (k : Nat) (v : Cell) : (s.setCell k v).w.ret = s.w.ret := rfl
@[simp] theorem State.setCell_w_err (k : Nat) (v : Cell) : (s.setCell k v).w.err = s.w.err := rfl
@[simp] theorem State.setCell_w_traces (k : Nat) (v : Cell) : (s.setCell k v).w.traces = s.w.traces := rfl
@[simp] theorem State.setCell_w_xings (k : Nat) (v : Cell) : (s.setCell k v).w.xings = s.w.xings := rfl
@[simp] theorem State.setCell_w_stalled (k : Nat) (v : Cell) : (s.setCell k v).w.stalled = s.w.stalled := rfl

/-! ### modCell -/

@[simp] theorem State.modCell_pending (k : Nat) (f : Cell → Cell) : (s.modCell k f).pending = s.pending := rfl
@[simp] theorem State.modCell_cfg (k : Nat) (f : Cell → Cell) : (s.modCell k f).cfg = s.cfg := rfl
@[simp] theorem State.modCell_ctl (k : Nat) (f : Cell → Cell) : (s.modCell k f).ctl = s.ctl := rfl
@[simp] theorem State.modCell_w_free (k : Nat) (f : Cell → Cell) : (s.modCell k f).w.free = s.w.free := rfl
@[simp] theorem State.modCell_w_last60 (k : Nat) (f : Cell → Cell) : (s.modCell k f).w.last60 = s.w.last60 := rfl
@[simp] theorem State.modCell_w_out (k : Nat) (f : Cell → Cell) : (s.modCell k f).w.out = s.w.out := rfl
@[simp] theorem State.modCell_w_flog (k : Nat) (f : Cell → Cell) : (s.modCell k f).w.flog = s.w.flog := rfl
@[simp] theorem State.modCell_w_ev (k : Nat) (f : Cell → Cell) : (s.modCell k f).w.ev = s.w.ev := rfl
@[simp] theorem State.modCell_w_msix (k : Nat) (f : Cell → Cell) : (s.modCell k f).w.msix = s.w.msix := rfl
@[simp] theorem State.modCell_w_sl (k : Nat) (f : Cell → Cell) : (s.modCell k f).w.sl = s.w.sl := rfl
@[simp] theorem State.modCell_w_queues (k : Nat) (f : Cell → Cell) : (s.modCell k f).w.queues = s.w.queues := rfl
@[simp] theorem State.modCell_w_qarb (k : Nat) (f : Cell → Cell) : (s.modCell k f).w.qarb = s.w.qarb := rfl
@[simp] theorem State.modCell_w_inflight (k : Nat) (f : Cell → Cell) : (s.modCell k f).w.inflight = s.w.inflight := rfl
@[simp] theorem State.modCell_w_ordNext (k : Nat) (f : Cell → Cell) : (s.modCell k f).w.ordNext = s.w.ordNext := rfl
@[simp] theorem State.modCell_w_waits (k : Nat) (f : Cell → Cell) : (s.modCell k f).w.waits = s.w.waits := rfl
@[simp] theorem State.modCell_w_host (k : Nat) (f : Cell → Cell) : (s.modCell k f).w.host = s.w.host := rfl
@[simp] theorem State.modCell_w_hostAbsent (k : Nat) (f : Cell → Cell) : (s.modCell k f).w.hostAbsent = s.w.hostAbsent := rfl
@[simp] theorem State.modCell_w_hostPoison (k : Nat) (f : Cell → Cell) : (s.modCell k f).w.hostPoison = s.w.hostPoison := rfl
@[simp] theorem State.modCell_w_mmu (k : Nat) (f : Cell → Cell) : (s.modCell k f).w.mmu = s.w.mmu := rfl
@[simp] theorem State.modCell_w_dma (k : Nat) (f : Cell → Cell) : (s.modCell k f).w.dma = s.w.dma := rfl
@[simp] theorem State.modCell_w_dmaWait (k : Nat) (f : Cell → Cell) : (s.modCell k f).w.dmaWait = s.w.dmaWait := rfl
@[simp] theorem State.modCell_w_dmaLast (k : Nat) (f : Cell → Cell) : (s.modCell k f).w.dmaLast = s.w.dmaLast := rfl
@[simp] theorem State.modCell_w_jobs (k : Nat) (f : Cell → Cell) : (s.modCell k f).w.jobs = s.w.jobs := rfl
@[simp] theorem State.modCell_w_holder (k : Nat) (f : Cell → Cell) : (s.modCell k f).w.holder = s.w.holder := rfl
@[simp] theorem State.modCell_w_dev (k : Nat) (f : Cell → Cell) : (s.modCell k f).w.dev = s.w.dev := rfl
@[simp] theorem State.modCell_w_poison (k : Nat) (f : Cell → Cell) : (s.modCell k f).w.poison = s.w.poison := rfl
@[simp] theorem State.modCell_w_stale (k : Nat) (f : Cell → Cell) : (s.modCell k f).w.stale = s.w.stale := rfl
@[simp] theorem State.modCell_w_inject (k : Nat) (f : Cell → Cell) : (s.modCell k f).w.inject = s.w.inject := rfl
@[simp] theorem State.modCell_w_apWait (k : Nat) (f : Cell → Cell) : (s.modCell k f).w.apWait = s.w.apWait := rfl
@[simp] theorem State.modCell_w_cells (k : Nat) (f : Cell → Cell) : (s.modCell k f).w.cells = tput (cellDefault k) s.w.cells k (f (s.cell k)) := rfl
@[simp] theorem State.modCell_w_dieSense (k : Nat) (f : Cell → Cell) : (s.modCell k f).w.dieSense = s.w.dieSense := rfl
@[simp] theorem State.modCell_w_badPaths (k : Nat) (f : Cell → Cell) : (s.modCell k f).w.badPaths = s.w.badPaths := rfl
@[simp] theorem State.modCell_w_cache (k : Nat) (f : Cell → Cell) : (s.modCell k f).w.cache = s.w.cache := rfl
@[simp] theorem State.modCell_w_stk (k : Nat) (f : Cell → Cell) : (s.modCell k f).w.stk = s.w.stk := rfl
@[simp] theorem State.modCell_w_pcs (k : Nat) (f : Cell → Cell) : (s.modCell k f).w.pcs = s.w.pcs := rfl
@[simp] theorem State.modCell_w_lanes (k : Nat) (f : Cell → Cell) : (s.modCell k f).w.lanes = s.w.lanes := rfl
@[simp] theorem State.modCell_w_reloc (k : Nat) (f : Cell → Cell) : (s.modCell k f).w.reloc = s.w.reloc := rfl
@[simp] theorem State.modCell_w_lp (k : Nat) (f : Cell → Cell) : (s.modCell k f).w.lp = s.w.lp := rfl
@[simp] theorem State.modCell_w_cxl (k : Nat) (f : Cell → Cell) : (s.modCell k f).w.cxl = s.w.cxl := rfl
@[simp] theorem State.modCell_w_hubCe (k : Nat) (f : Cell → Cell) : (s.modCell k f).w.hubCe = s.w.hubCe := rfl
@[simp] theorem State.modCell_w_se (k : Nat) (f : Cell → Cell) : (s.modCell k f).w.se = s.w.se := rfl
@[simp] theorem State.modCell_w_lk (k : Nat) (f : Cell → Cell) : (s.modCell k f).w.lk = s.w.lk := rfl
@[simp] theorem State.modCell_w_topo (k : Nat) (f : Cell → Cell) : (s.modCell k f).w.topo = s.w.topo := rfl
@[simp] theorem State.modCell_w_msgs (k : Nat) (f : Cell → Cell) : (s.modCell k f).w.msgs = s.w.msgs := rfl
@[simp] theorem State.modCell_w_foul (k : Nat) (f : Cell → Cell) : (s.modCell k f).w.foul = s.w.foul := rfl
@[simp] theorem State.modCell_w_reel (k : Nat) (f : Cell → Cell) : (s.modCell k f).w.reel = s.w.reel := rfl
@[simp] theorem State.modCell_w_ump (k : Nat) (f : Cell → Cell) : (s.modCell k f).w.ump = s.w.ump := rfl
@[simp] theorem State.modCell_w_ck (k : Nat) (f : Cell → Cell) : (s.modCell k f).w.ck = s.w.ck := rfl
@[simp] theorem State.modCell_w_mr (k : Nat) (f : Cell → Cell) : (s.modCell k f).w.mr = s.w.mr := rfl
@[simp] theorem State.modCell_w_ret (k : Nat) (f : Cell → Cell) : (s.modCell k f).w.ret = s.w.ret := rfl
@[simp] theorem State.modCell_w_err (k : Nat) (f : Cell → Cell) : (s.modCell k f).w.err = s.w.err := rfl
@[simp] theorem State.modCell_w_traces (k : Nat) (f : Cell → Cell) : (s.modCell k f).w.traces = s.w.traces := rfl
@[simp] theorem State.modCell_w_xings (k : Nat) (f : Cell → Cell) : (s.modCell k f).w.xings = s.w.xings := rfl
@[simp] theorem State.modCell_w_stalled (k : Nat) (f : Cell → Cell) : (s.modCell k f).w.stalled = s.w.stalled := rfl

/-! ### modStack -/

@[simp] theorem State.modStack_pending (i : Nat) (f : Stk → Stk) : (s.modStack i f).pending = s.pending := rfl
@[simp] theorem State.modStack_cfg (i : Nat) (f : Stk → Stk) : (s.modStack i f).cfg = s.cfg := rfl
@[simp] theorem State.modStack_ctl (i : Nat) (f : Stk → Stk) : (s.modStack i f).ctl = s.ctl := rfl
@[simp] theorem State.modStack_w_free (i : Nat) (f : Stk → Stk) : (s.modStack i f).w.free = s.w.free := rfl
@[simp] theorem State.modStack_w_last60 (i : Nat) (f : Stk → Stk) : (s.modStack i f).w.last60 = s.w.last60 := rfl
@[simp] theorem State.modStack_w_out (i : Nat) (f : Stk → Stk) : (s.modStack i f).w.out = s.w.out := rfl
@[simp] theorem State.modStack_w_flog (i : Nat) (f : Stk → Stk) : (s.modStack i f).w.flog = s.w.flog := rfl
@[simp] theorem State.modStack_w_ev (i : Nat) (f : Stk → Stk) : (s.modStack i f).w.ev = s.w.ev := rfl
@[simp] theorem State.modStack_w_msix (i : Nat) (f : Stk → Stk) : (s.modStack i f).w.msix = s.w.msix := rfl
@[simp] theorem State.modStack_w_sl (i : Nat) (f : Stk → Stk) : (s.modStack i f).w.sl = s.w.sl := rfl
@[simp] theorem State.modStack_w_queues (i : Nat) (f : Stk → Stk) : (s.modStack i f).w.queues = s.w.queues := rfl
@[simp] theorem State.modStack_w_qarb (i : Nat) (f : Stk → Stk) : (s.modStack i f).w.qarb = s.w.qarb := rfl
@[simp] theorem State.modStack_w_inflight (i : Nat) (f : Stk → Stk) : (s.modStack i f).w.inflight = s.w.inflight := rfl
@[simp] theorem State.modStack_w_ordNext (i : Nat) (f : Stk → Stk) : (s.modStack i f).w.ordNext = s.w.ordNext := rfl
@[simp] theorem State.modStack_w_waits (i : Nat) (f : Stk → Stk) : (s.modStack i f).w.waits = s.w.waits := rfl
@[simp] theorem State.modStack_w_host (i : Nat) (f : Stk → Stk) : (s.modStack i f).w.host = s.w.host := rfl
@[simp] theorem State.modStack_w_hostAbsent (i : Nat) (f : Stk → Stk) : (s.modStack i f).w.hostAbsent = s.w.hostAbsent := rfl
@[simp] theorem State.modStack_w_hostPoison (i : Nat) (f : Stk → Stk) : (s.modStack i f).w.hostPoison = s.w.hostPoison := rfl
@[simp] theorem State.modStack_w_mmu (i : Nat) (f : Stk → Stk) : (s.modStack i f).w.mmu = s.w.mmu := rfl
@[simp] theorem State.modStack_w_dma (i : Nat) (f : Stk → Stk) : (s.modStack i f).w.dma = s.w.dma := rfl
@[simp] theorem State.modStack_w_dmaWait (i : Nat) (f : Stk → Stk) : (s.modStack i f).w.dmaWait = s.w.dmaWait := rfl
@[simp] theorem State.modStack_w_dmaLast (i : Nat) (f : Stk → Stk) : (s.modStack i f).w.dmaLast = s.w.dmaLast := rfl
@[simp] theorem State.modStack_w_jobs (i : Nat) (f : Stk → Stk) : (s.modStack i f).w.jobs = s.w.jobs := rfl
@[simp] theorem State.modStack_w_holder (i : Nat) (f : Stk → Stk) : (s.modStack i f).w.holder = s.w.holder := rfl
@[simp] theorem State.modStack_w_dev (i : Nat) (f : Stk → Stk) : (s.modStack i f).w.dev = s.w.dev := rfl
@[simp] theorem State.modStack_w_poison (i : Nat) (f : Stk → Stk) : (s.modStack i f).w.poison = s.w.poison := rfl
@[simp] theorem State.modStack_w_stale (i : Nat) (f : Stk → Stk) : (s.modStack i f).w.stale = s.w.stale := rfl
@[simp] theorem State.modStack_w_inject (i : Nat) (f : Stk → Stk) : (s.modStack i f).w.inject = s.w.inject := rfl
@[simp] theorem State.modStack_w_apWait (i : Nat) (f : Stk → Stk) : (s.modStack i f).w.apWait = s.w.apWait := rfl
@[simp] theorem State.modStack_w_cells (i : Nat) (f : Stk → Stk) : (s.modStack i f).w.cells = s.w.cells := rfl
@[simp] theorem State.modStack_w_dieSense (i : Nat) (f : Stk → Stk) : (s.modStack i f).w.dieSense = s.w.dieSense := rfl
@[simp] theorem State.modStack_w_badPaths (i : Nat) (f : Stk → Stk) : (s.modStack i f).w.badPaths = s.w.badPaths := rfl
@[simp] theorem State.modStack_w_cache (i : Nat) (f : Stk → Stk) : (s.modStack i f).w.cache = s.w.cache := rfl
@[simp] theorem State.modStack_w_stk (i : Nat) (f : Stk → Stk) : (s.modStack i f).w.stk = tmod {} s.w.stk i f := rfl
@[simp] theorem State.modStack_w_pcs (i : Nat) (f : Stk → Stk) : (s.modStack i f).w.pcs = s.w.pcs := rfl
@[simp] theorem State.modStack_w_lanes (i : Nat) (f : Stk → Stk) : (s.modStack i f).w.lanes = s.w.lanes := rfl
@[simp] theorem State.modStack_w_reloc (i : Nat) (f : Stk → Stk) : (s.modStack i f).w.reloc = s.w.reloc := rfl
@[simp] theorem State.modStack_w_lp (i : Nat) (f : Stk → Stk) : (s.modStack i f).w.lp = s.w.lp := rfl
@[simp] theorem State.modStack_w_cxl (i : Nat) (f : Stk → Stk) : (s.modStack i f).w.cxl = s.w.cxl := rfl
@[simp] theorem State.modStack_w_hubCe (i : Nat) (f : Stk → Stk) : (s.modStack i f).w.hubCe = s.w.hubCe := rfl
@[simp] theorem State.modStack_w_se (i : Nat) (f : Stk → Stk) : (s.modStack i f).w.se = s.w.se := rfl
@[simp] theorem State.modStack_w_lk (i : Nat) (f : Stk → Stk) : (s.modStack i f).w.lk = s.w.lk := rfl
@[simp] theorem State.modStack_w_topo (i : Nat) (f : Stk → Stk) : (s.modStack i f).w.topo = s.w.topo := rfl
@[simp] theorem State.modStack_w_msgs (i : Nat) (f : Stk → Stk) : (s.modStack i f).w.msgs = s.w.msgs := rfl
@[simp] theorem State.modStack_w_foul (i : Nat) (f : Stk → Stk) : (s.modStack i f).w.foul = s.w.foul := rfl
@[simp] theorem State.modStack_w_reel (i : Nat) (f : Stk → Stk) : (s.modStack i f).w.reel = s.w.reel := rfl
@[simp] theorem State.modStack_w_ump (i : Nat) (f : Stk → Stk) : (s.modStack i f).w.ump = s.w.ump := rfl
@[simp] theorem State.modStack_w_ck (i : Nat) (f : Stk → Stk) : (s.modStack i f).w.ck = s.w.ck := rfl
@[simp] theorem State.modStack_w_mr (i : Nat) (f : Stk → Stk) : (s.modStack i f).w.mr = s.w.mr := rfl
@[simp] theorem State.modStack_w_ret (i : Nat) (f : Stk → Stk) : (s.modStack i f).w.ret = s.w.ret := rfl
@[simp] theorem State.modStack_w_err (i : Nat) (f : Stk → Stk) : (s.modStack i f).w.err = s.w.err := rfl
@[simp] theorem State.modStack_w_traces (i : Nat) (f : Stk → Stk) : (s.modStack i f).w.traces = s.w.traces := rfl
@[simp] theorem State.modStack_w_xings (i : Nat) (f : Stk → Stk) : (s.modStack i f).w.xings = s.w.xings := rfl
@[simp] theorem State.modStack_w_stalled (i : Nat) (f : Stk → Stk) : (s.modStack i f).w.stalled = s.w.stalled := rfl

/-! ### modPc -/

@[simp] theorem State.modPc_pending (p : Nat) (f : Pc → Pc) : (s.modPc p f).pending = s.pending := rfl
@[simp] theorem State.modPc_cfg (p : Nat) (f : Pc → Pc) : (s.modPc p f).cfg = s.cfg := rfl
@[simp] theorem State.modPc_ctl (p : Nat) (f : Pc → Pc) : (s.modPc p f).ctl = s.ctl := rfl
@[simp] theorem State.modPc_w_free (p : Nat) (f : Pc → Pc) : (s.modPc p f).w.free = s.w.free := rfl
@[simp] theorem State.modPc_w_last60 (p : Nat) (f : Pc → Pc) : (s.modPc p f).w.last60 = s.w.last60 := rfl
@[simp] theorem State.modPc_w_out (p : Nat) (f : Pc → Pc) : (s.modPc p f).w.out = s.w.out := rfl
@[simp] theorem State.modPc_w_flog (p : Nat) (f : Pc → Pc) : (s.modPc p f).w.flog = s.w.flog := rfl
@[simp] theorem State.modPc_w_ev (p : Nat) (f : Pc → Pc) : (s.modPc p f).w.ev = s.w.ev := rfl
@[simp] theorem State.modPc_w_msix (p : Nat) (f : Pc → Pc) : (s.modPc p f).w.msix = s.w.msix := rfl
@[simp] theorem State.modPc_w_sl (p : Nat) (f : Pc → Pc) : (s.modPc p f).w.sl = s.w.sl := rfl
@[simp] theorem State.modPc_w_queues (p : Nat) (f : Pc → Pc) : (s.modPc p f).w.queues = s.w.queues := rfl
@[simp] theorem State.modPc_w_qarb (p : Nat) (f : Pc → Pc) : (s.modPc p f).w.qarb = s.w.qarb := rfl
@[simp] theorem State.modPc_w_inflight (p : Nat) (f : Pc → Pc) : (s.modPc p f).w.inflight = s.w.inflight := rfl
@[simp] theorem State.modPc_w_ordNext (p : Nat) (f : Pc → Pc) : (s.modPc p f).w.ordNext = s.w.ordNext := rfl
@[simp] theorem State.modPc_w_waits (p : Nat) (f : Pc → Pc) : (s.modPc p f).w.waits = s.w.waits := rfl
@[simp] theorem State.modPc_w_host (p : Nat) (f : Pc → Pc) : (s.modPc p f).w.host = s.w.host := rfl
@[simp] theorem State.modPc_w_hostAbsent (p : Nat) (f : Pc → Pc) : (s.modPc p f).w.hostAbsent = s.w.hostAbsent := rfl
@[simp] theorem State.modPc_w_hostPoison (p : Nat) (f : Pc → Pc) : (s.modPc p f).w.hostPoison = s.w.hostPoison := rfl
@[simp] theorem State.modPc_w_mmu (p : Nat) (f : Pc → Pc) : (s.modPc p f).w.mmu = s.w.mmu := rfl
@[simp] theorem State.modPc_w_dma (p : Nat) (f : Pc → Pc) : (s.modPc p f).w.dma = s.w.dma := rfl
@[simp] theorem State.modPc_w_dmaWait (p : Nat) (f : Pc → Pc) : (s.modPc p f).w.dmaWait = s.w.dmaWait := rfl
@[simp] theorem State.modPc_w_dmaLast (p : Nat) (f : Pc → Pc) : (s.modPc p f).w.dmaLast = s.w.dmaLast := rfl
@[simp] theorem State.modPc_w_jobs (p : Nat) (f : Pc → Pc) : (s.modPc p f).w.jobs = s.w.jobs := rfl
@[simp] theorem State.modPc_w_holder (p : Nat) (f : Pc → Pc) : (s.modPc p f).w.holder = s.w.holder := rfl
@[simp] theorem State.modPc_w_dev (p : Nat) (f : Pc → Pc) : (s.modPc p f).w.dev = s.w.dev := rfl
@[simp] theorem State.modPc_w_poison (p : Nat) (f : Pc → Pc) : (s.modPc p f).w.poison = s.w.poison := rfl
@[simp] theorem State.modPc_w_stale (p : Nat) (f : Pc → Pc) : (s.modPc p f).w.stale = s.w.stale := rfl
@[simp] theorem State.modPc_w_inject (p : Nat) (f : Pc → Pc) : (s.modPc p f).w.inject = s.w.inject := rfl
@[simp] theorem State.modPc_w_apWait (p : Nat) (f : Pc → Pc) : (s.modPc p f).w.apWait = s.w.apWait := rfl
@[simp] theorem State.modPc_w_cells (p : Nat) (f : Pc → Pc) : (s.modPc p f).w.cells = s.w.cells := rfl
@[simp] theorem State.modPc_w_dieSense (p : Nat) (f : Pc → Pc) : (s.modPc p f).w.dieSense = s.w.dieSense := rfl
@[simp] theorem State.modPc_w_badPaths (p : Nat) (f : Pc → Pc) : (s.modPc p f).w.badPaths = s.w.badPaths := rfl
@[simp] theorem State.modPc_w_cache (p : Nat) (f : Pc → Pc) : (s.modPc p f).w.cache = s.w.cache := rfl
@[simp] theorem State.modPc_w_stk (p : Nat) (f : Pc → Pc) : (s.modPc p f).w.stk = s.w.stk := rfl
@[simp] theorem State.modPc_w_pcs (p : Nat) (f : Pc → Pc) : (s.modPc p f).w.pcs = tmod {} s.w.pcs p f := rfl
@[simp] theorem State.modPc_w_lanes (p : Nat) (f : Pc → Pc) : (s.modPc p f).w.lanes = s.w.lanes := rfl
@[simp] theorem State.modPc_w_reloc (p : Nat) (f : Pc → Pc) : (s.modPc p f).w.reloc = s.w.reloc := rfl
@[simp] theorem State.modPc_w_lp (p : Nat) (f : Pc → Pc) : (s.modPc p f).w.lp = s.w.lp := rfl
@[simp] theorem State.modPc_w_cxl (p : Nat) (f : Pc → Pc) : (s.modPc p f).w.cxl = s.w.cxl := rfl
@[simp] theorem State.modPc_w_hubCe (p : Nat) (f : Pc → Pc) : (s.modPc p f).w.hubCe = s.w.hubCe := rfl
@[simp] theorem State.modPc_w_se (p : Nat) (f : Pc → Pc) : (s.modPc p f).w.se = s.w.se := rfl
@[simp] theorem State.modPc_w_lk (p : Nat) (f : Pc → Pc) : (s.modPc p f).w.lk = s.w.lk := rfl
@[simp] theorem State.modPc_w_topo (p : Nat) (f : Pc → Pc) : (s.modPc p f).w.topo = s.w.topo := rfl
@[simp] theorem State.modPc_w_msgs (p : Nat) (f : Pc → Pc) : (s.modPc p f).w.msgs = s.w.msgs := rfl
@[simp] theorem State.modPc_w_foul (p : Nat) (f : Pc → Pc) : (s.modPc p f).w.foul = s.w.foul := rfl
@[simp] theorem State.modPc_w_reel (p : Nat) (f : Pc → Pc) : (s.modPc p f).w.reel = s.w.reel := rfl
@[simp] theorem State.modPc_w_ump (p : Nat) (f : Pc → Pc) : (s.modPc p f).w.ump = s.w.ump := rfl
@[simp] theorem State.modPc_w_ck (p : Nat) (f : Pc → Pc) : (s.modPc p f).w.ck = s.w.ck := rfl
@[simp] theorem State.modPc_w_mr (p : Nat) (f : Pc → Pc) : (s.modPc p f).w.mr = s.w.mr := rfl
@[simp] theorem State.modPc_w_ret (p : Nat) (f : Pc → Pc) : (s.modPc p f).w.ret = s.w.ret := rfl
@[simp] theorem State.modPc_w_err (p : Nat) (f : Pc → Pc) : (s.modPc p f).w.err = s.w.err := rfl
@[simp] theorem State.modPc_w_traces (p : Nat) (f : Pc → Pc) : (s.modPc p f).w.traces = s.w.traces := rfl
@[simp] theorem State.modPc_w_xings (p : Nat) (f : Pc → Pc) : (s.modPc p f).w.xings = s.w.xings := rfl
@[simp] theorem State.modPc_w_stalled (p : Nat) (f : Pc → Pc) : (s.modPc p f).w.stalled = s.w.stalled := rfl

/-! ### modLink -/

@[simp] theorem State.modLink_pending (l : Nat) (f : Lk → Lk) : (s.modLink l f).pending = s.pending := rfl
@[simp] theorem State.modLink_cfg (l : Nat) (f : Lk → Lk) : (s.modLink l f).cfg = s.cfg := rfl
@[simp] theorem State.modLink_ctl (l : Nat) (f : Lk → Lk) : (s.modLink l f).ctl = s.ctl := rfl
@[simp] theorem State.modLink_w_free (l : Nat) (f : Lk → Lk) : (s.modLink l f).w.free = s.w.free := rfl
@[simp] theorem State.modLink_w_last60 (l : Nat) (f : Lk → Lk) : (s.modLink l f).w.last60 = s.w.last60 := rfl
@[simp] theorem State.modLink_w_out (l : Nat) (f : Lk → Lk) : (s.modLink l f).w.out = s.w.out := rfl
@[simp] theorem State.modLink_w_flog (l : Nat) (f : Lk → Lk) : (s.modLink l f).w.flog = s.w.flog := rfl
@[simp] theorem State.modLink_w_ev (l : Nat) (f : Lk → Lk) : (s.modLink l f).w.ev = s.w.ev := rfl
@[simp] theorem State.modLink_w_msix (l : Nat) (f : Lk → Lk) : (s.modLink l f).w.msix = s.w.msix := rfl
@[simp] theorem State.modLink_w_sl (l : Nat) (f : Lk → Lk) : (s.modLink l f).w.sl = s.w.sl := rfl
@[simp] theorem State.modLink_w_queues (l : Nat) (f : Lk → Lk) : (s.modLink l f).w.queues = s.w.queues := rfl
@[simp] theorem State.modLink_w_qarb (l : Nat) (f : Lk → Lk) : (s.modLink l f).w.qarb = s.w.qarb := rfl
@[simp] theorem State.modLink_w_inflight (l : Nat) (f : Lk → Lk) : (s.modLink l f).w.inflight = s.w.inflight := rfl
@[simp] theorem State.modLink_w_ordNext (l : Nat) (f : Lk → Lk) : (s.modLink l f).w.ordNext = s.w.ordNext := rfl
@[simp] theorem State.modLink_w_waits (l : Nat) (f : Lk → Lk) : (s.modLink l f).w.waits = s.w.waits := rfl
@[simp] theorem State.modLink_w_host (l : Nat) (f : Lk → Lk) : (s.modLink l f).w.host = s.w.host := rfl
@[simp] theorem State.modLink_w_hostAbsent (l : Nat) (f : Lk → Lk) : (s.modLink l f).w.hostAbsent = s.w.hostAbsent := rfl
@[simp] theorem State.modLink_w_hostPoison (l : Nat) (f : Lk → Lk) : (s.modLink l f).w.hostPoison = s.w.hostPoison := rfl
@[simp] theorem State.modLink_w_mmu (l : Nat) (f : Lk → Lk) : (s.modLink l f).w.mmu = s.w.mmu := rfl
@[simp] theorem State.modLink_w_dma (l : Nat) (f : Lk → Lk) : (s.modLink l f).w.dma = s.w.dma := rfl
@[simp] theorem State.modLink_w_dmaWait (l : Nat) (f : Lk → Lk) : (s.modLink l f).w.dmaWait = s.w.dmaWait := rfl
@[simp] theorem State.modLink_w_dmaLast (l : Nat) (f : Lk → Lk) : (s.modLink l f).w.dmaLast = s.w.dmaLast := rfl
@[simp] theorem State.modLink_w_jobs (l : Nat) (f : Lk → Lk) : (s.modLink l f).w.jobs = s.w.jobs := rfl
@[simp] theorem State.modLink_w_holder (l : Nat) (f : Lk → Lk) : (s.modLink l f).w.holder = s.w.holder := rfl
@[simp] theorem State.modLink_w_dev (l : Nat) (f : Lk → Lk) : (s.modLink l f).w.dev = s.w.dev := rfl
@[simp] theorem State.modLink_w_poison (l : Nat) (f : Lk → Lk) : (s.modLink l f).w.poison = s.w.poison := rfl
@[simp] theorem State.modLink_w_stale (l : Nat) (f : Lk → Lk) : (s.modLink l f).w.stale = s.w.stale := rfl
@[simp] theorem State.modLink_w_inject (l : Nat) (f : Lk → Lk) : (s.modLink l f).w.inject = s.w.inject := rfl
@[simp] theorem State.modLink_w_apWait (l : Nat) (f : Lk → Lk) : (s.modLink l f).w.apWait = s.w.apWait := rfl
@[simp] theorem State.modLink_w_cells (l : Nat) (f : Lk → Lk) : (s.modLink l f).w.cells = s.w.cells := rfl
@[simp] theorem State.modLink_w_dieSense (l : Nat) (f : Lk → Lk) : (s.modLink l f).w.dieSense = s.w.dieSense := rfl
@[simp] theorem State.modLink_w_badPaths (l : Nat) (f : Lk → Lk) : (s.modLink l f).w.badPaths = s.w.badPaths := rfl
@[simp] theorem State.modLink_w_cache (l : Nat) (f : Lk → Lk) : (s.modLink l f).w.cache = s.w.cache := rfl
@[simp] theorem State.modLink_w_stk (l : Nat) (f : Lk → Lk) : (s.modLink l f).w.stk = s.w.stk := rfl
@[simp] theorem State.modLink_w_pcs (l : Nat) (f : Lk → Lk) : (s.modLink l f).w.pcs = s.w.pcs := rfl
@[simp] theorem State.modLink_w_lanes (l : Nat) (f : Lk → Lk) : (s.modLink l f).w.lanes = s.w.lanes := rfl
@[simp] theorem State.modLink_w_reloc (l : Nat) (f : Lk → Lk) : (s.modLink l f).w.reloc = s.w.reloc := rfl
@[simp] theorem State.modLink_w_lp (l : Nat) (f : Lk → Lk) : (s.modLink l f).w.lp = s.w.lp := rfl
@[simp] theorem State.modLink_w_cxl (l : Nat) (f : Lk → Lk) : (s.modLink l f).w.cxl = s.w.cxl := rfl
@[simp] theorem State.modLink_w_hubCe (l : Nat) (f : Lk → Lk) : (s.modLink l f).w.hubCe = s.w.hubCe := rfl
@[simp] theorem State.modLink_w_se (l : Nat) (f : Lk → Lk) : (s.modLink l f).w.se = s.w.se := rfl
@[simp] theorem State.modLink_w_lk (l : Nat) (f : Lk → Lk) : (s.modLink l f).w.lk = tmod {} s.w.lk l f := rfl
@[simp] theorem State.modLink_w_topo (l : Nat) (f : Lk → Lk) : (s.modLink l f).w.topo = s.w.topo := rfl
@[simp] theorem State.modLink_w_msgs (l : Nat) (f : Lk → Lk) : (s.modLink l f).w.msgs = s.w.msgs := rfl
@[simp] theorem State.modLink_w_foul (l : Nat) (f : Lk → Lk) : (s.modLink l f).w.foul = s.w.foul := rfl
@[simp] theorem State.modLink_w_reel (l : Nat) (f : Lk → Lk) : (s.modLink l f).w.reel = s.w.reel := rfl
@[simp] theorem State.modLink_w_ump (l : Nat) (f : Lk → Lk) : (s.modLink l f).w.ump = s.w.ump := rfl
@[simp] theorem State.modLink_w_ck (l : Nat) (f : Lk → Lk) : (s.modLink l f).w.ck = s.w.ck := rfl
@[simp] theorem State.modLink_w_mr (l : Nat) (f : Lk → Lk) : (s.modLink l f).w.mr = s.w.mr := rfl
@[simp] theorem State.modLink_w_ret (l : Nat) (f : Lk → Lk) : (s.modLink l f).w.ret = s.w.ret := rfl
@[simp] theorem State.modLink_w_err (l : Nat) (f : Lk → Lk) : (s.modLink l f).w.err = s.w.err := rfl
@[simp] theorem State.modLink_w_traces (l : Nat) (f : Lk → Lk) : (s.modLink l f).w.traces = s.w.traces := rfl
@[simp] theorem State.modLink_w_xings (l : Nat) (f : Lk → Lk) : (s.modLink l f).w.xings = s.w.xings := rfl
@[simp] theorem State.modLink_w_stalled (l : Nat) (f : Lk → Lk) : (s.modLink l f).w.stalled = s.w.stalled := rfl

/-! ### modEngine -/

@[simp] theorem State.modEngine_pending (i : Nat) (f : Se → Se) : (s.modEngine i f).pending = s.pending := rfl
@[simp] theorem State.modEngine_cfg (i : Nat) (f : Se → Se) : (s.modEngine i f).cfg = s.cfg := rfl
@[simp] theorem State.modEngine_ctl (i : Nat) (f : Se → Se) : (s.modEngine i f).ctl = s.ctl := rfl
@[simp] theorem State.modEngine_w_free (i : Nat) (f : Se → Se) : (s.modEngine i f).w.free = s.w.free := rfl
@[simp] theorem State.modEngine_w_last60 (i : Nat) (f : Se → Se) : (s.modEngine i f).w.last60 = s.w.last60 := rfl
@[simp] theorem State.modEngine_w_out (i : Nat) (f : Se → Se) : (s.modEngine i f).w.out = s.w.out := rfl
@[simp] theorem State.modEngine_w_flog (i : Nat) (f : Se → Se) : (s.modEngine i f).w.flog = s.w.flog := rfl
@[simp] theorem State.modEngine_w_ev (i : Nat) (f : Se → Se) : (s.modEngine i f).w.ev = s.w.ev := rfl
@[simp] theorem State.modEngine_w_msix (i : Nat) (f : Se → Se) : (s.modEngine i f).w.msix = s.w.msix := rfl
@[simp] theorem State.modEngine_w_sl (i : Nat) (f : Se → Se) : (s.modEngine i f).w.sl = s.w.sl := rfl
@[simp] theorem State.modEngine_w_queues (i : Nat) (f : Se → Se) : (s.modEngine i f).w.queues = s.w.queues := rfl
@[simp] theorem State.modEngine_w_qarb (i : Nat) (f : Se → Se) : (s.modEngine i f).w.qarb = s.w.qarb := rfl
@[simp] theorem State.modEngine_w_inflight (i : Nat) (f : Se → Se) : (s.modEngine i f).w.inflight = s.w.inflight := rfl
@[simp] theorem State.modEngine_w_ordNext (i : Nat) (f : Se → Se) : (s.modEngine i f).w.ordNext = s.w.ordNext := rfl
@[simp] theorem State.modEngine_w_waits (i : Nat) (f : Se → Se) : (s.modEngine i f).w.waits = s.w.waits := rfl
@[simp] theorem State.modEngine_w_host (i : Nat) (f : Se → Se) : (s.modEngine i f).w.host = s.w.host := rfl
@[simp] theorem State.modEngine_w_hostAbsent (i : Nat) (f : Se → Se) : (s.modEngine i f).w.hostAbsent = s.w.hostAbsent := rfl
@[simp] theorem State.modEngine_w_hostPoison (i : Nat) (f : Se → Se) : (s.modEngine i f).w.hostPoison = s.w.hostPoison := rfl
@[simp] theorem State.modEngine_w_mmu (i : Nat) (f : Se → Se) : (s.modEngine i f).w.mmu = s.w.mmu := rfl
@[simp] theorem State.modEngine_w_dma (i : Nat) (f : Se → Se) : (s.modEngine i f).w.dma = s.w.dma := rfl
@[simp] theorem State.modEngine_w_dmaWait (i : Nat) (f : Se → Se) : (s.modEngine i f).w.dmaWait = s.w.dmaWait := rfl
@[simp] theorem State.modEngine_w_dmaLast (i : Nat) (f : Se → Se) : (s.modEngine i f).w.dmaLast = s.w.dmaLast := rfl
@[simp] theorem State.modEngine_w_jobs (i : Nat) (f : Se → Se) : (s.modEngine i f).w.jobs = s.w.jobs := rfl
@[simp] theorem State.modEngine_w_holder (i : Nat) (f : Se → Se) : (s.modEngine i f).w.holder = s.w.holder := rfl
@[simp] theorem State.modEngine_w_dev (i : Nat) (f : Se → Se) : (s.modEngine i f).w.dev = s.w.dev := rfl
@[simp] theorem State.modEngine_w_poison (i : Nat) (f : Se → Se) : (s.modEngine i f).w.poison = s.w.poison := rfl
@[simp] theorem State.modEngine_w_stale (i : Nat) (f : Se → Se) : (s.modEngine i f).w.stale = s.w.stale := rfl
@[simp] theorem State.modEngine_w_inject (i : Nat) (f : Se → Se) : (s.modEngine i f).w.inject = s.w.inject := rfl
@[simp] theorem State.modEngine_w_apWait (i : Nat) (f : Se → Se) : (s.modEngine i f).w.apWait = s.w.apWait := rfl
@[simp] theorem State.modEngine_w_cells (i : Nat) (f : Se → Se) : (s.modEngine i f).w.cells = s.w.cells := rfl
@[simp] theorem State.modEngine_w_dieSense (i : Nat) (f : Se → Se) : (s.modEngine i f).w.dieSense = s.w.dieSense := rfl
@[simp] theorem State.modEngine_w_badPaths (i : Nat) (f : Se → Se) : (s.modEngine i f).w.badPaths = s.w.badPaths := rfl
@[simp] theorem State.modEngine_w_cache (i : Nat) (f : Se → Se) : (s.modEngine i f).w.cache = s.w.cache := rfl
@[simp] theorem State.modEngine_w_stk (i : Nat) (f : Se → Se) : (s.modEngine i f).w.stk = s.w.stk := rfl
@[simp] theorem State.modEngine_w_pcs (i : Nat) (f : Se → Se) : (s.modEngine i f).w.pcs = s.w.pcs := rfl
@[simp] theorem State.modEngine_w_lanes (i : Nat) (f : Se → Se) : (s.modEngine i f).w.lanes = s.w.lanes := rfl
@[simp] theorem State.modEngine_w_reloc (i : Nat) (f : Se → Se) : (s.modEngine i f).w.reloc = s.w.reloc := rfl
@[simp] theorem State.modEngine_w_lp (i : Nat) (f : Se → Se) : (s.modEngine i f).w.lp = s.w.lp := rfl
@[simp] theorem State.modEngine_w_cxl (i : Nat) (f : Se → Se) : (s.modEngine i f).w.cxl = s.w.cxl := rfl
@[simp] theorem State.modEngine_w_hubCe (i : Nat) (f : Se → Se) : (s.modEngine i f).w.hubCe = s.w.hubCe := rfl
@[simp] theorem State.modEngine_w_se (i : Nat) (f : Se → Se) : (s.modEngine i f).w.se = tmod {} s.w.se i f := rfl
@[simp] theorem State.modEngine_w_lk (i : Nat) (f : Se → Se) : (s.modEngine i f).w.lk = s.w.lk := rfl
@[simp] theorem State.modEngine_w_topo (i : Nat) (f : Se → Se) : (s.modEngine i f).w.topo = s.w.topo := rfl
@[simp] theorem State.modEngine_w_msgs (i : Nat) (f : Se → Se) : (s.modEngine i f).w.msgs = s.w.msgs := rfl
@[simp] theorem State.modEngine_w_foul (i : Nat) (f : Se → Se) : (s.modEngine i f).w.foul = s.w.foul := rfl
@[simp] theorem State.modEngine_w_reel (i : Nat) (f : Se → Se) : (s.modEngine i f).w.reel = s.w.reel := rfl
@[simp] theorem State.modEngine_w_ump (i : Nat) (f : Se → Se) : (s.modEngine i f).w.ump = s.w.ump := rfl
@[simp] theorem State.modEngine_w_ck (i : Nat) (f : Se → Se) : (s.modEngine i f).w.ck = s.w.ck := rfl
@[simp] theorem State.modEngine_w_mr (i : Nat) (f : Se → Se) : (s.modEngine i f).w.mr = s.w.mr := rfl
@[simp] theorem State.modEngine_w_ret (i : Nat) (f : Se → Se) : (s.modEngine i f).w.ret = s.w.ret := rfl
@[simp] theorem State.modEngine_w_err (i : Nat) (f : Se → Se) : (s.modEngine i f).w.err = s.w.err := rfl
@[simp] theorem State.modEngine_w_traces (i : Nat) (f : Se → Se) : (s.modEngine i f).w.traces = s.w.traces := rfl
@[simp] theorem State.modEngine_w_xings (i : Nat) (f : Se → Se) : (s.modEngine i f).w.xings = s.w.xings := rfl
@[simp] theorem State.modEngine_w_stalled (i : Nat) (f : Se → Se) : (s.modEngine i f).w.stalled = s.w.stalled := rfl

/-! ### emit -/

@[simp] theorem State.emit_pending (o : Out) : (s.emit o).pending = s.pending := rfl
@[simp] theorem State.emit_cfg (o : Out) : (s.emit o).cfg = s.cfg := rfl
@[simp] theorem State.emit_ctl (o : Out) : (s.emit o).ctl = s.ctl := rfl
@[simp] theorem State.emit_w_free (o : Out) : (s.emit o).w.free = s.w.free := rfl
@[simp] theorem State.emit_w_last60 (o : Out) : (s.emit o).w.last60 = s.w.last60 := rfl
@[simp] theorem State.emit_w_out (o : Out) : (s.emit o).w.out = o :: s.w.out := rfl
@[simp] theorem State.emit_w_flog (o : Out) : (s.emit o).w.flog = s.w.flog := rfl
@[simp] theorem State.emit_w_ev (o : Out) : (s.emit o).w.ev = s.w.ev := rfl
@[simp] theorem State.emit_w_msix (o : Out) : (s.emit o).w.msix = s.w.msix := rfl
@[simp] theorem State.emit_w_sl (o : Out) : (s.emit o).w.sl = s.w.sl := rfl
@[simp] theorem State.emit_w_queues (o : Out) : (s.emit o).w.queues = s.w.queues := rfl
@[simp] theorem State.emit_w_qarb (o : Out) : (s.emit o).w.qarb = s.w.qarb := rfl
@[simp] theorem State.emit_w_inflight (o : Out) : (s.emit o).w.inflight = s.w.inflight := rfl
@[simp] theorem State.emit_w_ordNext (o : Out) : (s.emit o).w.ordNext = s.w.ordNext := rfl
@[simp] theorem State.emit_w_waits (o : Out) : (s.emit o).w.waits = s.w.waits := rfl
@[simp] theorem State.emit_w_host (o : Out) : (s.emit o).w.host = s.w.host := rfl
@[simp] theorem State.emit_w_hostAbsent (o : Out) : (s.emit o).w.hostAbsent = s.w.hostAbsent := rfl
@[simp] theorem State.emit_w_hostPoison (o : Out) : (s.emit o).w.hostPoison = s.w.hostPoison := rfl
@[simp] theorem State.emit_w_mmu (o : Out) : (s.emit o).w.mmu = s.w.mmu := rfl
@[simp] theorem State.emit_w_dma (o : Out) : (s.emit o).w.dma = s.w.dma := rfl
@[simp] theorem State.emit_w_dmaWait (o : Out) : (s.emit o).w.dmaWait = s.w.dmaWait := rfl
@[simp] theorem State.emit_w_dmaLast (o : Out) : (s.emit o).w.dmaLast = s.w.dmaLast := rfl
@[simp] theorem State.emit_w_jobs (o : Out) : (s.emit o).w.jobs = s.w.jobs := rfl
@[simp] theorem State.emit_w_holder (o : Out) : (s.emit o).w.holder = s.w.holder := rfl
@[simp] theorem State.emit_w_dev (o : Out) : (s.emit o).w.dev = s.w.dev := rfl
@[simp] theorem State.emit_w_poison (o : Out) : (s.emit o).w.poison = s.w.poison := rfl
@[simp] theorem State.emit_w_stale (o : Out) : (s.emit o).w.stale = s.w.stale := rfl
@[simp] theorem State.emit_w_inject (o : Out) : (s.emit o).w.inject = s.w.inject := rfl
@[simp] theorem State.emit_w_apWait (o : Out) : (s.emit o).w.apWait = s.w.apWait := rfl
@[simp] theorem State.emit_w_cells (o : Out) : (s.emit o).w.cells = s.w.cells := rfl
@[simp] theorem State.emit_w_dieSense (o : Out) : (s.emit o).w.dieSense = s.w.dieSense := rfl
@[simp] theorem State.emit_w_badPaths (o : Out) : (s.emit o).w.badPaths = s.w.badPaths := rfl
@[simp] theorem State.emit_w_cache (o : Out) : (s.emit o).w.cache = s.w.cache := rfl
@[simp] theorem State.emit_w_stk (o : Out) : (s.emit o).w.stk = s.w.stk := rfl
@[simp] theorem State.emit_w_pcs (o : Out) : (s.emit o).w.pcs = s.w.pcs := rfl
@[simp] theorem State.emit_w_lanes (o : Out) : (s.emit o).w.lanes = s.w.lanes := rfl
@[simp] theorem State.emit_w_reloc (o : Out) : (s.emit o).w.reloc = s.w.reloc := rfl
@[simp] theorem State.emit_w_lp (o : Out) : (s.emit o).w.lp = s.w.lp := rfl
@[simp] theorem State.emit_w_cxl (o : Out) : (s.emit o).w.cxl = s.w.cxl := rfl
@[simp] theorem State.emit_w_hubCe (o : Out) : (s.emit o).w.hubCe = s.w.hubCe := rfl
@[simp] theorem State.emit_w_se (o : Out) : (s.emit o).w.se = s.w.se := rfl
@[simp] theorem State.emit_w_lk (o : Out) : (s.emit o).w.lk = s.w.lk := rfl
@[simp] theorem State.emit_w_topo (o : Out) : (s.emit o).w.topo = s.w.topo := rfl
@[simp] theorem State.emit_w_msgs (o : Out) : (s.emit o).w.msgs = s.w.msgs := rfl
@[simp] theorem State.emit_w_foul (o : Out) : (s.emit o).w.foul = s.w.foul := rfl
@[simp] theorem State.emit_w_reel (o : Out) : (s.emit o).w.reel = s.w.reel := rfl
@[simp] theorem State.emit_w_ump (o : Out) : (s.emit o).w.ump = s.w.ump := rfl
@[simp] theorem State.emit_w_ck (o : Out) : (s.emit o).w.ck = s.w.ck := rfl
@[simp] theorem State.emit_w_mr (o : Out) : (s.emit o).w.mr = s.w.mr := rfl
@[simp] theorem State.emit_w_ret (o : Out) : (s.emit o).w.ret = s.w.ret := rfl
@[simp] theorem State.emit_w_err (o : Out) : (s.emit o).w.err = s.w.err := rfl
@[simp] theorem State.emit_w_traces (o : Out) : (s.emit o).w.traces = s.w.traces := rfl
@[simp] theorem State.emit_w_xings (o : Out) : (s.emit o).w.xings = s.w.xings := rfl
@[simp] theorem State.emit_w_stalled (o : Out) : (s.emit o).w.stalled = s.w.stalled := rfl

/-! ### hostPut -/

@[simp] theorem State.hostPut_pending (a : Nat) (bs : Bytes) : (s.hostPut a bs).pending = s.pending := rfl
@[simp] theorem State.hostPut_cfg (a : Nat) (bs : Bytes) : (s.hostPut a bs).cfg = s.cfg := rfl
@[simp] theorem State.hostPut_ctl (a : Nat) (bs : Bytes) : (s.hostPut a bs).ctl = s.ctl := rfl
@[simp] theorem State.hostPut_w_free (a : Nat) (bs : Bytes) : (s.hostPut a bs).w.free = s.w.free := rfl
@[simp] theorem State.hostPut_w_last60 (a : Nat) (bs : Bytes) : (s.hostPut a bs).w.last60 = s.w.last60 := rfl
@[simp] theorem State.hostPut_w_out (a : Nat) (bs : Bytes) : (s.hostPut a bs).w.out = s.w.out := rfl
@[simp] theorem State.hostPut_w_flog (a : Nat) (bs : Bytes) : (s.hostPut a bs).w.flog = s.w.flog := rfl
@[simp] theorem State.hostPut_w_ev (a : Nat) (bs : Bytes) : (s.hostPut a bs).w.ev = s.w.ev := rfl
@[simp] theorem State.hostPut_w_msix (a : Nat) (bs : Bytes) : (s.hostPut a bs).w.msix = s.w.msix := rfl
@[simp] theorem State.hostPut_w_sl (a : Nat) (bs : Bytes) : (s.hostPut a bs).w.sl = s.w.sl := rfl
@[simp] theorem State.hostPut_w_queues (a : Nat) (bs : Bytes) : (s.hostPut a bs).w.queues = s.w.queues := rfl
@[simp] theorem State.hostPut_w_qarb (a : Nat) (bs : Bytes) : (s.hostPut a bs).w.qarb = s.w.qarb := rfl
@[simp] theorem State.hostPut_w_inflight (a : Nat) (bs : Bytes) : (s.hostPut a bs).w.inflight = s.w.inflight := rfl
@[simp] theorem State.hostPut_w_ordNext (a : Nat) (bs : Bytes) : (s.hostPut a bs).w.ordNext = s.w.ordNext := rfl
@[simp] theorem State.hostPut_w_waits (a : Nat) (bs : Bytes) : (s.hostPut a bs).w.waits = s.w.waits := rfl
@[simp] theorem State.hostPut_w_host (a : Nat) (bs : Bytes) : (s.hostPut a bs).w.host = mwrite s.w.host a bs := rfl
@[simp] theorem State.hostPut_w_hostAbsent (a : Nat) (bs : Bytes) : (s.hostPut a bs).w.hostAbsent = s.w.hostAbsent := rfl
@[simp] theorem State.hostPut_w_hostPoison (a : Nat) (bs : Bytes) : (s.hostPut a bs).w.hostPoison = s.w.hostPoison := rfl
@[simp] theorem State.hostPut_w_mmu (a : Nat) (bs : Bytes) : (s.hostPut a bs).w.mmu = s.w.mmu := rfl
@[simp] theorem State.hostPut_w_dma (a : Nat) (bs : Bytes) : (s.hostPut a bs).w.dma = s.w.dma := rfl
@[simp] theorem State.hostPut_w_dmaWait (a : Nat) (bs : Bytes) : (s.hostPut a bs).w.dmaWait = s.w.dmaWait := rfl
@[simp] theorem State.hostPut_w_dmaLast (a : Nat) (bs : Bytes) : (s.hostPut a bs).w.dmaLast = s.w.dmaLast := rfl
@[simp] theorem State.hostPut_w_jobs (a : Nat) (bs : Bytes) : (s.hostPut a bs).w.jobs = s.w.jobs := rfl
@[simp] theorem State.hostPut_w_holder (a : Nat) (bs : Bytes) : (s.hostPut a bs).w.holder = s.w.holder := rfl
@[simp] theorem State.hostPut_w_dev (a : Nat) (bs : Bytes) : (s.hostPut a bs).w.dev = s.w.dev := rfl
@[simp] theorem State.hostPut_w_poison (a : Nat) (bs : Bytes) : (s.hostPut a bs).w.poison = s.w.poison := rfl
@[simp] theorem State.hostPut_w_stale (a : Nat) (bs : Bytes) : (s.hostPut a bs).w.stale = s.w.stale := rfl
@[simp] theorem State.hostPut_w_inject (a : Nat) (bs : Bytes) : (s.hostPut a bs).w.inject = s.w.inject := rfl
@[simp] theorem State.hostPut_w_apWait (a : Nat) (bs : Bytes) : (s.hostPut a bs).w.apWait = s.w.apWait := rfl
@[simp] theorem State.hostPut_w_cells (a : Nat) (bs : Bytes) : (s.hostPut a bs).w.cells = s.w.cells := rfl
@[simp] theorem State.hostPut_w_dieSense (a : Nat) (bs : Bytes) : (s.hostPut a bs).w.dieSense = s.w.dieSense := rfl
@[simp] theorem State.hostPut_w_badPaths (a : Nat) (bs : Bytes) : (s.hostPut a bs).w.badPaths = s.w.badPaths := rfl
@[simp] theorem State.hostPut_w_cache (a : Nat) (bs : Bytes) : (s.hostPut a bs).w.cache = s.w.cache := rfl
@[simp] theorem State.hostPut_w_stk (a : Nat) (bs : Bytes) : (s.hostPut a bs).w.stk = s.w.stk := rfl
@[simp] theorem State.hostPut_w_pcs (a : Nat) (bs : Bytes) : (s.hostPut a bs).w.pcs = s.w.pcs := rfl
@[simp] theorem State.hostPut_w_lanes (a : Nat) (bs : Bytes) : (s.hostPut a bs).w.lanes = s.w.lanes := rfl
@[simp] theorem State.hostPut_w_reloc (a : Nat) (bs : Bytes) : (s.hostPut a bs).w.reloc = s.w.reloc := rfl
@[simp] theorem State.hostPut_w_lp (a : Nat) (bs : Bytes) : (s.hostPut a bs).w.lp = s.w.lp := rfl
@[simp] theorem State.hostPut_w_cxl (a : Nat) (bs : Bytes) : (s.hostPut a bs).w.cxl = s.w.cxl := rfl
@[simp] theorem State.hostPut_w_hubCe (a : Nat) (bs : Bytes) : (s.hostPut a bs).w.hubCe = s.w.hubCe := rfl
@[simp] theorem State.hostPut_w_se (a : Nat) (bs : Bytes) : (s.hostPut a bs).w.se = s.w.se := rfl
@[simp] theorem State.hostPut_w_lk (a : Nat) (bs : Bytes) : (s.hostPut a bs).w.lk = s.w.lk := rfl
@[simp] theorem State.hostPut_w_topo (a : Nat) (bs : Bytes) : (s.hostPut a bs).w.topo = s.w.topo := rfl
@[simp] theorem State.hostPut_w_msgs (a : Nat) (bs : Bytes) : (s.hostPut a bs).w.msgs = s.w.msgs := rfl
@[simp] theorem State.hostPut_w_foul (a : Nat) (bs : Bytes) : (s.hostPut a bs).w.foul = s.w.foul := rfl
@[simp] theorem State.hostPut_w_reel (a : Nat) (bs : Bytes) : (s.hostPut a bs).w.reel = s.w.reel := rfl
@[simp] theorem State.hostPut_w_ump (a : Nat) (bs : Bytes) : (s.hostPut a bs).w.ump = s.w.ump := rfl
@[simp] theorem State.hostPut_w_ck (a : Nat) (bs : Bytes) : (s.hostPut a bs).w.ck = s.w.ck := rfl
@[simp] theorem State.hostPut_w_mr (a : Nat) (bs : Bytes) : (s.hostPut a bs).w.mr = s.w.mr := rfl
@[simp] theorem State.hostPut_w_ret (a : Nat) (bs : Bytes) : (s.hostPut a bs).w.ret = s.w.ret := rfl
@[simp] theorem State.hostPut_w_err (a : Nat) (bs : Bytes) : (s.hostPut a bs).w.err = s.w.err := rfl
@[simp] theorem State.hostPut_w_traces (a : Nat) (bs : Bytes) : (s.hostPut a bs).w.traces = s.w.traces := rfl
@[simp] theorem State.hostPut_w_xings (a : Nat) (bs : Bytes) : (s.hostPut a bs).w.xings = s.w.xings := rfl
@[simp] theorem State.hostPut_w_stalled (a : Nat) (bs : Bytes) : (s.hostPut a bs).w.stalled = s.w.stalled := rfl

/-! ### poisonUnit -/

@[simp] theorem State.poisonUnit_pending (key n : Nat) : (s.poisonUnit key n).pending = s.pending := rfl
@[simp] theorem State.poisonUnit_cfg (key n : Nat) : (s.poisonUnit key n).cfg = s.cfg := rfl
@[simp] theorem State.poisonUnit_ctl (key n : Nat) : (s.poisonUnit key n).ctl = s.ctl := rfl
@[simp] theorem State.poisonUnit_w_free (key n : Nat) : (s.poisonUnit key n).w.free = s.w.free := rfl
@[simp] theorem State.poisonUnit_w_last60 (key n : Nat) : (s.poisonUnit key n).w.last60 = s.w.last60 := rfl
@[simp] theorem State.poisonUnit_w_out (key n : Nat) : (s.poisonUnit key n).w.out = s.w.out := rfl
@[simp] theorem State.poisonUnit_w_flog (key n : Nat) : (s.poisonUnit key n).w.flog = s.w.flog := rfl
@[simp] theorem State.poisonUnit_w_ev (key n : Nat) : (s.poisonUnit key n).w.ev = s.w.ev := rfl
@[simp] theorem State.poisonUnit_w_msix (key n : Nat) : (s.poisonUnit key n).w.msix = s.w.msix := rfl
@[simp] theorem State.poisonUnit_w_sl (key n : Nat) : (s.poisonUnit key n).w.sl = s.w.sl := rfl
@[simp] theorem State.poisonUnit_w_queues (key n : Nat) : (s.poisonUnit key n).w.queues = s.w.queues := rfl
@[simp] theorem State.poisonUnit_w_qarb (key n : Nat) : (s.poisonUnit key n).w.qarb = s.w.qarb := rfl
@[simp] theorem State.poisonUnit_w_inflight (key n : Nat) : (s.poisonUnit key n).w.inflight = s.w.inflight := rfl
@[simp] theorem State.poisonUnit_w_ordNext (key n : Nat) : (s.poisonUnit key n).w.ordNext = s.w.ordNext := rfl
@[simp] theorem State.poisonUnit_w_waits (key n : Nat) : (s.poisonUnit key n).w.waits = s.w.waits := rfl
@[simp] theorem State.poisonUnit_w_host (key n : Nat) : (s.poisonUnit key n).w.host = s.w.host := rfl
@[simp] theorem State.poisonUnit_w_hostAbsent (key n : Nat) : (s.poisonUnit key n).w.hostAbsent = s.w.hostAbsent := rfl
@[simp] theorem State.poisonUnit_w_hostPoison (key n : Nat) : (s.poisonUnit key n).w.hostPoison = s.w.hostPoison := rfl
@[simp] theorem State.poisonUnit_w_mmu (key n : Nat) : (s.poisonUnit key n).w.mmu = s.w.mmu := rfl
@[simp] theorem State.poisonUnit_w_dma (key n : Nat) : (s.poisonUnit key n).w.dma = s.w.dma := rfl
@[simp] theorem State.poisonUnit_w_dmaWait (key n : Nat) : (s.poisonUnit key n).w.dmaWait = s.w.dmaWait := rfl
@[simp] theorem State.poisonUnit_w_dmaLast (key n : Nat) : (s.poisonUnit key n).w.dmaLast = s.w.dmaLast := rfl
@[simp] theorem State.poisonUnit_w_jobs (key n : Nat) : (s.poisonUnit key n).w.jobs = s.w.jobs := rfl
@[simp] theorem State.poisonUnit_w_holder (key n : Nat) : (s.poisonUnit key n).w.holder = s.w.holder := rfl
@[simp] theorem State.poisonUnit_w_dev (key n : Nat) : (s.poisonUnit key n).w.dev = s.w.dev := rfl
@[simp] theorem State.poisonUnit_w_poison (key n : Nat) : (s.poisonUnit key n).w.poison = ((key, n) :: s.w.poison).eraseDups := rfl
@[simp] theorem State.poisonUnit_w_stale (key n : Nat) : (s.poisonUnit key n).w.stale = s.w.stale := rfl
@[simp] theorem State.poisonUnit_w_inject (key n : Nat) : (s.poisonUnit key n).w.inject = s.w.inject := rfl
@[simp] theorem State.poisonUnit_w_apWait (key n : Nat) : (s.poisonUnit key n).w.apWait = s.w.apWait := rfl
@[simp] theorem State.poisonUnit_w_cells (key n : Nat) : (s.poisonUnit key n).w.cells = s.w.cells := rfl
@[simp] theorem State.poisonUnit_w_dieSense (key n : Nat) : (s.poisonUnit key n).w.dieSense = s.w.dieSense := rfl
@[simp] theorem State.poisonUnit_w_badPaths (key n : Nat) : (s.poisonUnit key n).w.badPaths = s.w.badPaths := rfl
@[simp] theorem State.poisonUnit_w_cache (key n : Nat) : (s.poisonUnit key n).w.cache = s.w.cache := rfl
@[simp] theorem State.poisonUnit_w_stk (key n : Nat) : (s.poisonUnit key n).w.stk = s.w.stk := rfl
@[simp] theorem State.poisonUnit_w_pcs (key n : Nat) : (s.poisonUnit key n).w.pcs = s.w.pcs := rfl
@[simp] theorem State.poisonUnit_w_lanes (key n : Nat) : (s.poisonUnit key n).w.lanes = s.w.lanes := rfl
@[simp] theorem State.poisonUnit_w_reloc (key n : Nat) : (s.poisonUnit key n).w.reloc = s.w.reloc := rfl
@[simp] theorem State.poisonUnit_w_lp (key n : Nat) : (s.poisonUnit key n).w.lp = s.w.lp := rfl
@[simp] theorem State.poisonUnit_w_cxl (key n : Nat) : (s.poisonUnit key n).w.cxl = s.w.cxl := rfl
@[simp] theorem State.poisonUnit_w_hubCe (key n : Nat) : (s.poisonUnit key n).w.hubCe = s.w.hubCe := rfl
@[simp] theorem State.poisonUnit_w_se (key n : Nat) : (s.poisonUnit key n).w.se = s.w.se := rfl
@[simp] theorem State.poisonUnit_w_lk (key n : Nat) : (s.poisonUnit key n).w.lk = s.w.lk := rfl
@[simp] theorem State.poisonUnit_w_topo (key n : Nat) : (s.poisonUnit key n).w.topo = s.w.topo := rfl
@[simp] theorem State.poisonUnit_w_msgs (key n : Nat) : (s.poisonUnit key n).w.msgs = s.w.msgs := rfl
@[simp] theorem State.poisonUnit_w_foul (key n : Nat) : (s.poisonUnit key n).w.foul = s.w.foul := rfl
@[simp] theorem State.poisonUnit_w_reel (key n : Nat) : (s.poisonUnit key n).w.reel = s.w.reel := rfl
@[simp] theorem State.poisonUnit_w_ump (key n : Nat) : (s.poisonUnit key n).w.ump = s.w.ump := rfl
@[simp] theorem State.poisonUnit_w_ck (key n : Nat) : (s.poisonUnit key n).w.ck = s.w.ck := rfl
@[simp] theorem State.poisonUnit_w_mr (key n : Nat) : (s.poisonUnit key n).w.mr = s.w.mr := rfl
@[simp] theorem State.poisonUnit_w_ret (key n : Nat) : (s.poisonUnit key n).w.ret = s.w.ret := rfl
@[simp] theorem State.poisonUnit_w_err (key n : Nat) : (s.poisonUnit key n).w.err = s.w.err := rfl
@[simp] theorem State.poisonUnit_w_traces (key n : Nat) : (s.poisonUnit key n).w.traces = s.w.traces := rfl
@[simp] theorem State.poisonUnit_w_xings (key n : Nat) : (s.poisonUnit key n).w.xings = s.w.xings := rfl
@[simp] theorem State.poisonUnit_w_stalled (key n : Nat) : (s.poisonUnit key n).w.stalled = s.w.stalled := rfl

/-! ### clearBad -/

@[simp] theorem State.clearBad_pending (key n : Nat) : (s.clearBad key n).pending = s.pending := rfl
@[simp] theorem State.clearBad_cfg (key n : Nat) : (s.clearBad key n).cfg = s.cfg := rfl
@[simp] theorem State.clearBad_ctl (key n : Nat) : (s.clearBad key n).ctl = s.ctl := rfl
@[simp] theorem State.clearBad_w_free (key n : Nat) : (s.clearBad key n).w.free = s.w.free := rfl
@[simp] theorem State.clearBad_w_last60 (key n : Nat) : (s.clearBad key n).w.last60 = s.w.last60 := rfl
@[simp] theorem State.clearBad_w_out (key n : Nat) : (s.clearBad key n).w.out = s.w.out := rfl
@[simp] theorem State.clearBad_w_flog (key n : Nat) : (s.clearBad key n).w.flog = s.w.flog := rfl
@[simp] theorem State.clearBad_w_ev (key n : Nat) : (s.clearBad key n).w.ev = s.w.ev := rfl
@[simp] theorem State.clearBad_w_msix (key n : Nat) : (s.clearBad key n).w.msix = s.w.msix := rfl
@[simp] theorem State.clearBad_w_sl (key n : Nat) : (s.clearBad key n).w.sl = s.w.sl := rfl
@[simp] theorem State.clearBad_w_queues (key n : Nat) : (s.clearBad key n).w.queues = s.w.queues := rfl
@[simp] theorem State.clearBad_w_qarb (key n : Nat) : (s.clearBad key n).w.qarb = s.w.qarb := rfl
@[simp] theorem State.clearBad_w_inflight (key n : Nat) : (s.clearBad key n).w.inflight = s.w.inflight := rfl
@[simp] theorem State.clearBad_w_ordNext (key n : Nat) : (s.clearBad key n).w.ordNext = s.w.ordNext := rfl
@[simp] theorem State.clearBad_w_waits (key n : Nat) : (s.clearBad key n).w.waits = s.w.waits := rfl
@[simp] theorem State.clearBad_w_host (key n : Nat) : (s.clearBad key n).w.host = s.w.host := rfl
@[simp] theorem State.clearBad_w_hostAbsent (key n : Nat) : (s.clearBad key n).w.hostAbsent = s.w.hostAbsent := rfl
@[simp] theorem State.clearBad_w_hostPoison (key n : Nat) : (s.clearBad key n).w.hostPoison = s.w.hostPoison := rfl
@[simp] theorem State.clearBad_w_mmu (key n : Nat) : (s.clearBad key n).w.mmu = s.w.mmu := rfl
@[simp] theorem State.clearBad_w_dma (key n : Nat) : (s.clearBad key n).w.dma = s.w.dma := rfl
@[simp] theorem State.clearBad_w_dmaWait (key n : Nat) : (s.clearBad key n).w.dmaWait = s.w.dmaWait := rfl
@[simp] theorem State.clearBad_w_dmaLast (key n : Nat) : (s.clearBad key n).w.dmaLast = s.w.dmaLast := rfl
@[simp] theorem State.clearBad_w_jobs (key n : Nat) : (s.clearBad key n).w.jobs = s.w.jobs := rfl
@[simp] theorem State.clearBad_w_holder (key n : Nat) : (s.clearBad key n).w.holder = s.w.holder := rfl
@[simp] theorem State.clearBad_w_dev (key n : Nat) : (s.clearBad key n).w.dev = s.w.dev := rfl
@[simp] theorem State.clearBad_w_poison (key n : Nat) : (s.clearBad key n).w.poison = s.w.poison.filter (fun u => !(decide (key ≤ u.1) && decide (u.1 + u.2 ≤ key + n))) := rfl
@[simp] theorem State.clearBad_w_stale (key n : Nat) : (s.clearBad key n).w.stale = s.w.stale := rfl
@[simp] theorem State.clearBad_w_inject (key n : Nat) : (s.clearBad key n).w.inject = s.w.inject := rfl
@[simp] theorem State.clearBad_w_apWait (key n : Nat) : (s.clearBad key n).w.apWait = s.w.apWait := rfl
@[simp] theorem State.clearBad_w_cells (key n : Nat) : (s.clearBad key n).w.cells = s.w.cells := rfl
@[simp] theorem State.clearBad_w_dieSense (key n : Nat) : (s.clearBad key n).w.dieSense = s.w.dieSense := rfl
@[simp] theorem State.clearBad_w_badPaths (key n : Nat) : (s.clearBad key n).w.badPaths = s.w.badPaths := rfl
@[simp] theorem State.clearBad_w_cache (key n : Nat) : (s.clearBad key n).w.cache = s.w.cache := rfl
@[simp] theorem State.clearBad_w_stk (key n : Nat) : (s.clearBad key n).w.stk = s.w.stk := rfl
@[simp] theorem State.clearBad_w_pcs (key n : Nat) : (s.clearBad key n).w.pcs = s.w.pcs := rfl
@[simp] theorem State.clearBad_w_lanes (key n : Nat) : (s.clearBad key n).w.lanes = s.w.lanes := rfl
@[simp] theorem State.clearBad_w_reloc (key n : Nat) : (s.clearBad key n).w.reloc = s.w.reloc := rfl
@[simp] theorem State.clearBad_w_lp (key n : Nat) : (s.clearBad key n).w.lp = s.w.lp := rfl
@[simp] theorem State.clearBad_w_cxl (key n : Nat) : (s.clearBad key n).w.cxl = s.w.cxl := rfl
@[simp] theorem State.clearBad_w_hubCe (key n : Nat) : (s.clearBad key n).w.hubCe = s.w.hubCe := rfl
@[simp] theorem State.clearBad_w_se (key n : Nat) : (s.clearBad key n).w.se = s.w.se := rfl
@[simp] theorem State.clearBad_w_lk (key n : Nat) : (s.clearBad key n).w.lk = s.w.lk := rfl
@[simp] theorem State.clearBad_w_topo (key n : Nat) : (s.clearBad key n).w.topo = s.w.topo := rfl
@[simp] theorem State.clearBad_w_msgs (key n : Nat) : (s.clearBad key n).w.msgs = s.w.msgs := rfl
@[simp] theorem State.clearBad_w_foul (key n : Nat) : (s.clearBad key n).w.foul = s.w.foul := rfl
@[simp] theorem State.clearBad_w_reel (key n : Nat) : (s.clearBad key n).w.reel = s.w.reel := rfl
@[simp] theorem State.clearBad_w_ump (key n : Nat) : (s.clearBad key n).w.ump = s.w.ump := rfl
@[simp] theorem State.clearBad_w_ck (key n : Nat) : (s.clearBad key n).w.ck = s.w.ck := rfl
@[simp] theorem State.clearBad_w_mr (key n : Nat) : (s.clearBad key n).w.mr = s.w.mr := rfl
@[simp] theorem State.clearBad_w_ret (key n : Nat) : (s.clearBad key n).w.ret = s.w.ret := rfl
@[simp] theorem State.clearBad_w_err (key n : Nat) : (s.clearBad key n).w.err = s.w.err := rfl
@[simp] theorem State.clearBad_w_traces (key n : Nat) : (s.clearBad key n).w.traces = s.w.traces := rfl
@[simp] theorem State.clearBad_w_xings (key n : Nat) : (s.clearBad key n).w.xings = s.w.xings := rfl
@[simp] theorem State.clearBad_w_stalled (key n : Nat) : (s.clearBad key n).w.stalled = s.w.stalled := rfl

/-! ### modXing -/

@[simp] theorem State.modXing_pending (k : Nat) (f : Xing → Xing) : (s.modXing k f).pending = s.pending := rfl
@[simp] theorem State.modXing_cfg (k : Nat) (f : Xing → Xing) : (s.modXing k f).cfg = s.cfg := rfl
@[simp] theorem State.modXing_ctl (k : Nat) (f : Xing → Xing) : (s.modXing k f).ctl = s.ctl := rfl
@[simp] theorem State.modXing_w_free (k : Nat) (f : Xing → Xing) : (s.modXing k f).w.free = s.w.free := rfl
@[simp] theorem State.modXing_w_last60 (k : Nat) (f : Xing → Xing) : (s.modXing k f).w.last60 = s.w.last60 := rfl
@[simp] theorem State.modXing_w_out (k : Nat) (f : Xing → Xing) : (s.modXing k f).w.out = s.w.out := rfl
@[simp] theorem State.modXing_w_flog (k : Nat) (f : Xing → Xing) : (s.modXing k f).w.flog = s.w.flog := rfl
@[simp] theorem State.modXing_w_ev (k : Nat) (f : Xing → Xing) : (s.modXing k f).w.ev = s.w.ev := rfl
@[simp] theorem State.modXing_w_msix (k : Nat) (f : Xing → Xing) : (s.modXing k f).w.msix = s.w.msix := rfl
@[simp] theorem State.modXing_w_sl (k : Nat) (f : Xing → Xing) : (s.modXing k f).w.sl = s.w.sl := rfl
@[simp] theorem State.modXing_w_queues (k : Nat) (f : Xing → Xing) : (s.modXing k f).w.queues = s.w.queues := rfl
@[simp] theorem State.modXing_w_qarb (k : Nat) (f : Xing → Xing) : (s.modXing k f).w.qarb = s.w.qarb := rfl
@[simp] theorem State.modXing_w_inflight (k : Nat) (f : Xing → Xing) : (s.modXing k f).w.inflight = s.w.inflight := rfl
@[simp] theorem State.modXing_w_ordNext (k : Nat) (f : Xing → Xing) : (s.modXing k f).w.ordNext = s.w.ordNext := rfl
@[simp] theorem State.modXing_w_waits (k : Nat) (f : Xing → Xing) : (s.modXing k f).w.waits = s.w.waits := rfl
@[simp] theorem State.modXing_w_host (k : Nat) (f : Xing → Xing) : (s.modXing k f).w.host = s.w.host := rfl
@[simp] theorem State.modXing_w_hostAbsent (k : Nat) (f : Xing → Xing) : (s.modXing k f).w.hostAbsent = s.w.hostAbsent := rfl
@[simp] theorem State.modXing_w_hostPoison (k : Nat) (f : Xing → Xing) : (s.modXing k f).w.hostPoison = s.w.hostPoison := rfl
@[simp] theorem State.modXing_w_mmu (k : Nat) (f : Xing → Xing) : (s.modXing k f).w.mmu = s.w.mmu := rfl
@[simp] theorem State.modXing_w_dma (k : Nat) (f : Xing → Xing) : (s.modXing k f).w.dma = s.w.dma := rfl
@[simp] theorem State.modXing_w_dmaWait (k : Nat) (f : Xing → Xing) : (s.modXing k f).w.dmaWait = s.w.dmaWait := rfl
@[simp] theorem State.modXing_w_dmaLast (k : Nat) (f : Xing → Xing) : (s.modXing k f).w.dmaLast = s.w.dmaLast := rfl
@[simp] theorem State.modXing_w_jobs (k : Nat) (f : Xing → Xing) : (s.modXing k f).w.jobs = s.w.jobs := rfl
@[simp] theorem State.modXing_w_holder (k : Nat) (f : Xing → Xing) : (s.modXing k f).w.holder = s.w.holder := rfl
@[simp] theorem State.modXing_w_dev (k : Nat) (f : Xing → Xing) : (s.modXing k f).w.dev = s.w.dev := rfl
@[simp] theorem State.modXing_w_poison (k : Nat) (f : Xing → Xing) : (s.modXing k f).w.poison = s.w.poison := rfl
@[simp] theorem State.modXing_w_stale (k : Nat) (f : Xing → Xing) : (s.modXing k f).w.stale = s.w.stale := rfl
@[simp] theorem State.modXing_w_inject (k : Nat) (f : Xing → Xing) : (s.modXing k f).w.inject = s.w.inject := rfl
@[simp] theorem State.modXing_w_apWait (k : Nat) (f : Xing → Xing) : (s.modXing k f).w.apWait = s.w.apWait := rfl
@[simp] theorem State.modXing_w_cells (k : Nat) (f : Xing → Xing) : (s.modXing k f).w.cells = s.w.cells := rfl
@[simp] theorem State.modXing_w_dieSense (k : Nat) (f : Xing → Xing) : (s.modXing k f).w.dieSense = s.w.dieSense := rfl
@[simp] theorem State.modXing_w_badPaths (k : Nat) (f : Xing → Xing) : (s.modXing k f).w.badPaths = s.w.badPaths := rfl
@[simp] theorem State.modXing_w_cache (k : Nat) (f : Xing → Xing) : (s.modXing k f).w.cache = s.w.cache := rfl
@[simp] theorem State.modXing_w_stk (k : Nat) (f : Xing → Xing) : (s.modXing k f).w.stk = s.w.stk := rfl
@[simp] theorem State.modXing_w_pcs (k : Nat) (f : Xing → Xing) : (s.modXing k f).w.pcs = s.w.pcs := rfl
@[simp] theorem State.modXing_w_lanes (k : Nat) (f : Xing → Xing) : (s.modXing k f).w.lanes = s.w.lanes := rfl
@[simp] theorem State.modXing_w_reloc (k : Nat) (f : Xing → Xing) : (s.modXing k f).w.reloc = s.w.reloc := rfl
@[simp] theorem State.modXing_w_lp (k : Nat) (f : Xing → Xing) : (s.modXing k f).w.lp = s.w.lp := rfl
@[simp] theorem State.modXing_w_cxl (k : Nat) (f : Xing → Xing) : (s.modXing k f).w.cxl = s.w.cxl := rfl
@[simp] theorem State.modXing_w_hubCe (k : Nat) (f : Xing → Xing) : (s.modXing k f).w.hubCe = s.w.hubCe := rfl
@[simp] theorem State.modXing_w_se (k : Nat) (f : Xing → Xing) : (s.modXing k f).w.se = s.w.se := rfl
@[simp] theorem State.modXing_w_lk (k : Nat) (f : Xing → Xing) : (s.modXing k f).w.lk = s.w.lk := rfl
@[simp] theorem State.modXing_w_topo (k : Nat) (f : Xing → Xing) : (s.modXing k f).w.topo = s.w.topo := rfl
@[simp] theorem State.modXing_w_msgs (k : Nat) (f : Xing → Xing) : (s.modXing k f).w.msgs = s.w.msgs := rfl
@[simp] theorem State.modXing_w_foul (k : Nat) (f : Xing → Xing) : (s.modXing k f).w.foul = s.w.foul := rfl
@[simp] theorem State.modXing_w_reel (k : Nat) (f : Xing → Xing) : (s.modXing k f).w.reel = s.w.reel := rfl
@[simp] theorem State.modXing_w_ump (k : Nat) (f : Xing → Xing) : (s.modXing k f).w.ump = s.w.ump := rfl
@[simp] theorem State.modXing_w_ck (k : Nat) (f : Xing → Xing) : (s.modXing k f).w.ck = s.w.ck := rfl
@[simp] theorem State.modXing_w_mr (k : Nat) (f : Xing → Xing) : (s.modXing k f).w.mr = s.w.mr := rfl
@[simp] theorem State.modXing_w_ret (k : Nat) (f : Xing → Xing) : (s.modXing k f).w.ret = s.w.ret := rfl
@[simp] theorem State.modXing_w_err (k : Nat) (f : Xing → Xing) : (s.modXing k f).w.err = s.w.err := rfl
@[simp] theorem State.modXing_w_traces (k : Nat) (f : Xing → Xing) : (s.modXing k f).w.traces = s.w.traces := rfl
@[simp] theorem State.modXing_w_xings (k : Nat) (f : Xing → Xing) : (s.modXing k f).w.xings = tmod {} s.w.xings k f := rfl
@[simp] theorem State.modXing_w_stalled (k : Nat) (f : Xing → Xing) : (s.modXing k f).w.stalled = s.w.stalled := rfl

/-! ### modSl -/

@[simp] theorem State.modSl_pending (f : Sl → Sl) : (s.modSl f).pending = s.pending := rfl
@[simp] theorem State.modSl_cfg (f : Sl → Sl) : (s.modSl f).cfg = s.cfg := rfl
@[simp] theorem State.modSl_ctl (f : Sl → Sl) : (s.modSl f).ctl = s.ctl := rfl
@[simp] theorem State.modSl_w_free (f : Sl → Sl) : (s.modSl f).w.free = s.w.free := rfl
@[simp] theorem State.modSl_w_last60 (f : Sl → Sl) : (s.modSl f).w.last60 = s.w.last60 := rfl
@[simp] theorem State.modSl_w_out (f : Sl → Sl) : (s.modSl f).w.out = s.w.out := rfl
@[simp] theorem State.modSl_w_flog (f : Sl → Sl) : (s.modSl f).w.flog = s.w.flog := rfl
@[simp] theorem State.modSl_w_ev (f : Sl → Sl) : (s.modSl f).w.ev = s.w.ev := rfl
@[simp] theorem State.modSl_w_msix (f : Sl → Sl) : (s.modSl f).w.msix = s.w.msix := rfl
@[simp] theorem State.modSl_w_sl (f : Sl → Sl) : (s.modSl f).w.sl = f s.w.sl := rfl
@[simp] theorem State.modSl_w_queues (f : Sl → Sl) : (s.modSl f).w.queues = s.w.queues := rfl
@[simp] theorem State.modSl_w_qarb (f : Sl → Sl) : (s.modSl f).w.qarb = s.w.qarb := rfl
@[simp] theorem State.modSl_w_inflight (f : Sl → Sl) : (s.modSl f).w.inflight = s.w.inflight := rfl
@[simp] theorem State.modSl_w_ordNext (f : Sl → Sl) : (s.modSl f).w.ordNext = s.w.ordNext := rfl
@[simp] theorem State.modSl_w_waits (f : Sl → Sl) : (s.modSl f).w.waits = s.w.waits := rfl
@[simp] theorem State.modSl_w_host (f : Sl → Sl) : (s.modSl f).w.host = s.w.host := rfl
@[simp] theorem State.modSl_w_hostAbsent (f : Sl → Sl) : (s.modSl f).w.hostAbsent = s.w.hostAbsent := rfl
@[simp] theorem State.modSl_w_hostPoison (f : Sl → Sl) : (s.modSl f).w.hostPoison = s.w.hostPoison := rfl
@[simp] theorem State.modSl_w_mmu (f : Sl → Sl) : (s.modSl f).w.mmu = s.w.mmu := rfl
@[simp] theorem State.modSl_w_dma (f : Sl → Sl) : (s.modSl f).w.dma = s.w.dma := rfl
@[simp] theorem State.modSl_w_dmaWait (f : Sl → Sl) : (s.modSl f).w.dmaWait = s.w.dmaWait := rfl
@[simp] theorem State.modSl_w_dmaLast (f : Sl → Sl) : (s.modSl f).w.dmaLast = s.w.dmaLast := rfl
@[simp] theorem State.modSl_w_jobs (f : Sl → Sl) : (s.modSl f).w.jobs = s.w.jobs := rfl
@[simp] theorem State.modSl_w_holder (f : Sl → Sl) : (s.modSl f).w.holder = s.w.holder := rfl
@[simp] theorem State.modSl_w_dev (f : Sl → Sl) : (s.modSl f).w.dev = s.w.dev := rfl
@[simp] theorem State.modSl_w_poison (f : Sl → Sl) : (s.modSl f).w.poison = s.w.poison := rfl
@[simp] theorem State.modSl_w_stale (f : Sl → Sl) : (s.modSl f).w.stale = s.w.stale := rfl
@[simp] theorem State.modSl_w_inject (f : Sl → Sl) : (s.modSl f).w.inject = s.w.inject := rfl
@[simp] theorem State.modSl_w_apWait (f : Sl → Sl) : (s.modSl f).w.apWait = s.w.apWait := rfl
@[simp] theorem State.modSl_w_cells (f : Sl → Sl) : (s.modSl f).w.cells = s.w.cells := rfl
@[simp] theorem State.modSl_w_dieSense (f : Sl → Sl) : (s.modSl f).w.dieSense = s.w.dieSense := rfl
@[simp] theorem State.modSl_w_badPaths (f : Sl → Sl) : (s.modSl f).w.badPaths = s.w.badPaths := rfl
@[simp] theorem State.modSl_w_cache (f : Sl → Sl) : (s.modSl f).w.cache = s.w.cache := rfl
@[simp] theorem State.modSl_w_stk (f : Sl → Sl) : (s.modSl f).w.stk = s.w.stk := rfl
@[simp] theorem State.modSl_w_pcs (f : Sl → Sl) : (s.modSl f).w.pcs = s.w.pcs := rfl
@[simp] theorem State.modSl_w_lanes (f : Sl → Sl) : (s.modSl f).w.lanes = s.w.lanes := rfl
@[simp] theorem State.modSl_w_reloc (f : Sl → Sl) : (s.modSl f).w.reloc = s.w.reloc := rfl
@[simp] theorem State.modSl_w_lp (f : Sl → Sl) : (s.modSl f).w.lp = s.w.lp := rfl
@[simp] theorem State.modSl_w_cxl (f : Sl → Sl) : (s.modSl f).w.cxl = s.w.cxl := rfl
@[simp] theorem State.modSl_w_hubCe (f : Sl → Sl) : (s.modSl f).w.hubCe = s.w.hubCe := rfl
@[simp] theorem State.modSl_w_se (f : Sl → Sl) : (s.modSl f).w.se = s.w.se := rfl
@[simp] theorem State.modSl_w_lk (f : Sl → Sl) : (s.modSl f).w.lk = s.w.lk := rfl
@[simp] theorem State.modSl_w_topo (f : Sl → Sl) : (s.modSl f).w.topo = s.w.topo := rfl
@[simp] theorem State.modSl_w_msgs (f : Sl → Sl) : (s.modSl f).w.msgs = s.w.msgs := rfl
@[simp] theorem State.modSl_w_foul (f : Sl → Sl) : (s.modSl f).w.foul = s.w.foul := rfl
@[simp] theorem State.modSl_w_reel (f : Sl → Sl) : (s.modSl f).w.reel = s.w.reel := rfl
@[simp] theorem State.modSl_w_ump (f : Sl → Sl) : (s.modSl f).w.ump = s.w.ump := rfl
@[simp] theorem State.modSl_w_ck (f : Sl → Sl) : (s.modSl f).w.ck = s.w.ck := rfl
@[simp] theorem State.modSl_w_mr (f : Sl → Sl) : (s.modSl f).w.mr = s.w.mr := rfl
@[simp] theorem State.modSl_w_ret (f : Sl → Sl) : (s.modSl f).w.ret = s.w.ret := rfl
@[simp] theorem State.modSl_w_err (f : Sl → Sl) : (s.modSl f).w.err = s.w.err := rfl
@[simp] theorem State.modSl_w_traces (f : Sl → Sl) : (s.modSl f).w.traces = s.w.traces := rfl
@[simp] theorem State.modSl_w_xings (f : Sl → Sl) : (s.modSl f).w.xings = s.w.xings := rfl
@[simp] theorem State.modSl_w_stalled (f : Sl → Sl) : (s.modSl f).w.stalled = s.w.stalled := rfl

/-! ### modPower -/

@[simp] theorem State.modPower_pending (f : Power → Power) : (s.modPower f).pending = s.pending := rfl
@[simp] theorem State.modPower_cfg (f : Power → Power) : (s.modPower f).cfg = s.cfg := rfl
@[simp] theorem State.modPower_w (f : Power → Power) : (s.modPower f).w = s.w := rfl
@[simp] theorem State.modPower_ctl_power (f : Power → Power) : (s.modPower f).ctl.power = f s.ctl.power := rfl
@[simp] theorem State.modPower_ctl_clk (f : Power → Power) : (s.modPower f).ctl.clk = s.ctl.clk := rfl
@[simp] theorem State.modPower_ctl_health (f : Power → Power) : (s.modPower f).ctl.health = s.ctl.health := rfl
@[simp] theorem State.modPower_ctl_surv (f : Power → Power) : (s.modPower f).ctl.surv = s.ctl.surv := rfl
@[simp] theorem State.modPower_ctl_unitEn (f : Power → Power) : (s.modPower f).ctl.unitEn = s.ctl.unitEn := rfl
@[simp] theorem State.modPower_ctl_ident (f : Power → Power) : (s.modPower f).ctl.ident = s.ctl.ident := rfl
@[simp] theorem State.modPower_ctl_mctp (f : Power → Power) : (s.modPower f).ctl.mctp = s.ctl.mctp := rfl
@[simp] theorem State.modPower_ctl_traps (f : Power → Power) : (s.modPower f).ctl.traps = s.ctl.traps := rfl

/-! ### modClk -/

@[simp] theorem State.modClk_pending (f : Clk → Clk) : (s.modClk f).pending = s.pending := rfl
@[simp] theorem State.modClk_cfg (f : Clk → Clk) : (s.modClk f).cfg = s.cfg := rfl
@[simp] theorem State.modClk_w (f : Clk → Clk) : (s.modClk f).w = s.w := rfl
@[simp] theorem State.modClk_ctl_power (f : Clk → Clk) : (s.modClk f).ctl.power = s.ctl.power := rfl
@[simp] theorem State.modClk_ctl_clk (f : Clk → Clk) : (s.modClk f).ctl.clk = f s.ctl.clk := rfl
@[simp] theorem State.modClk_ctl_health (f : Clk → Clk) : (s.modClk f).ctl.health = s.ctl.health := rfl
@[simp] theorem State.modClk_ctl_surv (f : Clk → Clk) : (s.modClk f).ctl.surv = s.ctl.surv := rfl
@[simp] theorem State.modClk_ctl_unitEn (f : Clk → Clk) : (s.modClk f).ctl.unitEn = s.ctl.unitEn := rfl
@[simp] theorem State.modClk_ctl_ident (f : Clk → Clk) : (s.modClk f).ctl.ident = s.ctl.ident := rfl
@[simp] theorem State.modClk_ctl_mctp (f : Clk → Clk) : (s.modClk f).ctl.mctp = s.ctl.mctp := rfl
@[simp] theorem State.modClk_ctl_traps (f : Clk → Clk) : (s.modClk f).ctl.traps = s.ctl.traps := rfl

/-! ### modHealth -/

@[simp] theorem State.modHealth_pending (f : Health → Health) : (s.modHealth f).pending = s.pending := rfl
@[simp] theorem State.modHealth_cfg (f : Health → Health) : (s.modHealth f).cfg = s.cfg := rfl
@[simp] theorem State.modHealth_w (f : Health → Health) : (s.modHealth f).w = s.w := rfl
@[simp] theorem State.modHealth_ctl_power (f : Health → Health) : (s.modHealth f).ctl.power = s.ctl.power := rfl
@[simp] theorem State.modHealth_ctl_clk (f : Health → Health) : (s.modHealth f).ctl.clk = s.ctl.clk := rfl
@[simp] theorem State.modHealth_ctl_health (f : Health → Health) : (s.modHealth f).ctl.health = f s.ctl.health := rfl
@[simp] theorem State.modHealth_ctl_surv (f : Health → Health) : (s.modHealth f).ctl.surv = s.ctl.surv := rfl
@[simp] theorem State.modHealth_ctl_unitEn (f : Health → Health) : (s.modHealth f).ctl.unitEn = s.ctl.unitEn := rfl
@[simp] theorem State.modHealth_ctl_ident (f : Health → Health) : (s.modHealth f).ctl.ident = s.ctl.ident := rfl
@[simp] theorem State.modHealth_ctl_mctp (f : Health → Health) : (s.modHealth f).ctl.mctp = s.ctl.mctp := rfl
@[simp] theorem State.modHealth_ctl_traps (f : Health → Health) : (s.modHealth f).ctl.traps = s.ctl.traps := rfl

/-! ### modIdent -/

@[simp] theorem State.modIdent_pending (f : Ident → Ident) : (s.modIdent f).pending = s.pending := rfl
@[simp] theorem State.modIdent_cfg (f : Ident → Ident) : (s.modIdent f).cfg = s.cfg := rfl
@[simp] theorem State.modIdent_w (f : Ident → Ident) : (s.modIdent f).w = s.w := rfl
@[simp] theorem State.modIdent_ctl_power (f : Ident → Ident) : (s.modIdent f).ctl.power = s.ctl.power := rfl
@[simp] theorem State.modIdent_ctl_clk (f : Ident → Ident) : (s.modIdent f).ctl.clk = s.ctl.clk := rfl
@[simp] theorem State.modIdent_ctl_health (f : Ident → Ident) : (s.modIdent f).ctl.health = s.ctl.health := rfl
@[simp] theorem State.modIdent_ctl_surv (f : Ident → Ident) : (s.modIdent f).ctl.surv = s.ctl.surv := rfl
@[simp] theorem State.modIdent_ctl_unitEn (f : Ident → Ident) : (s.modIdent f).ctl.unitEn = s.ctl.unitEn := rfl
@[simp] theorem State.modIdent_ctl_ident (f : Ident → Ident) : (s.modIdent f).ctl.ident = f s.ctl.ident := rfl
@[simp] theorem State.modIdent_ctl_mctp (f : Ident → Ident) : (s.modIdent f).ctl.mctp = s.ctl.mctp := rfl
@[simp] theorem State.modIdent_ctl_traps (f : Ident → Ident) : (s.modIdent f).ctl.traps = s.ctl.traps := rfl

/-! ### modMctp -/

@[simp] theorem State.modMctp_pending (f : Mctp → Mctp) : (s.modMctp f).pending = s.pending := rfl
@[simp] theorem State.modMctp_cfg (f : Mctp → Mctp) : (s.modMctp f).cfg = s.cfg := rfl
@[simp] theorem State.modMctp_w (f : Mctp → Mctp) : (s.modMctp f).w = s.w := rfl
@[simp] theorem State.modMctp_ctl_power (f : Mctp → Mctp) : (s.modMctp f).ctl.power = s.ctl.power := rfl
@[simp] theorem State.modMctp_ctl_clk (f : Mctp → Mctp) : (s.modMctp f).ctl.clk = s.ctl.clk := rfl
@[simp] theorem State.modMctp_ctl_health (f : Mctp → Mctp) : (s.modMctp f).ctl.health = s.ctl.health := rfl
@[simp] theorem State.modMctp_ctl_surv (f : Mctp → Mctp) : (s.modMctp f).ctl.surv = s.ctl.surv := rfl
@[simp] theorem State.modMctp_ctl_unitEn (f : Mctp → Mctp) : (s.modMctp f).ctl.unitEn = s.ctl.unitEn := rfl
@[simp] theorem State.modMctp_ctl_ident (f : Mctp → Mctp) : (s.modMctp f).ctl.ident = s.ctl.ident := rfl
@[simp] theorem State.modMctp_ctl_mctp (f : Mctp → Mctp) : (s.modMctp f).ctl.mctp = f s.ctl.mctp := rfl
@[simp] theorem State.modMctp_ctl_traps (f : Mctp → Mctp) : (s.modMctp f).ctl.traps = s.ctl.traps := rfl

/-! ### setUnits -/

@[simp] theorem State.setUnits_pending (v : Nat) : (s.setUnits v).pending = s.pending := rfl
@[simp] theorem State.setUnits_cfg (v : Nat) : (s.setUnits v).cfg = s.cfg := rfl
@[simp] theorem State.setUnits_w (v : Nat) : (s.setUnits v).w = s.w := rfl
@[simp] theorem State.setUnits_ctl_power (v : Nat) : (s.setUnits v).ctl.power = s.ctl.power := rfl
@[simp] theorem State.setUnits_ctl_clk (v : Nat) : (s.setUnits v).ctl.clk = s.ctl.clk := rfl
@[simp] theorem State.setUnits_ctl_health (v : Nat) : (s.setUnits v).ctl.health = s.ctl.health := rfl
@[simp] theorem State.setUnits_ctl_surv (v : Nat) : (s.setUnits v).ctl.surv = s.ctl.surv := rfl
@[simp] theorem State.setUnits_ctl_unitEn (v : Nat) : (s.setUnits v).ctl.unitEn = v := rfl
@[simp] theorem State.setUnits_ctl_ident (v : Nat) : (s.setUnits v).ctl.ident = s.ctl.ident := rfl
@[simp] theorem State.setUnits_ctl_mctp (v : Nat) : (s.setUnits v).ctl.mctp = s.ctl.mctp := rfl
@[simp] theorem State.setUnits_ctl_traps (v : Nat) : (s.setUnits v).ctl.traps = s.ctl.traps := rfl

/-! ### modCfg -/

@[simp] theorem State.modCfg_pending (f : Cfg → Cfg) : (s.modCfg f).pending = s.pending := rfl
@[simp] theorem State.modCfg_ctl (f : Cfg → Cfg) : (s.modCfg f).ctl = s.ctl := rfl
@[simp] theorem State.modCfg_w (f : Cfg → Cfg) : (s.modCfg f).w = s.w := rfl
@[simp] theorem State.modCfg_cfg (f : Cfg → Cfg) : (s.modCfg f).cfg = f s.cfg := rfl

/-! ### A draw of a free value -/

@[simp] theorem State.draw_fst : s.draw.1 = Config.freeValue s.w.free := rfl
@[simp] theorem State.draw_pending : s.draw.2.pending = s.pending := rfl
@[simp] theorem State.draw_cfg : s.draw.2.cfg = s.cfg := rfl
@[simp] theorem State.draw_ctl : s.draw.2.ctl = s.ctl := rfl
@[simp] theorem State.draw_w_free : s.draw.2.w.free = s.w.free + 1 := rfl
@[simp] theorem State.draw_w_last60 : s.draw.2.w.last60 = s.w.last60 := rfl
@[simp] theorem State.draw_w_out : s.draw.2.w.out = s.w.out := rfl
@[simp] theorem State.draw_w_flog : s.draw.2.w.flog = s.w.flog := rfl
@[simp] theorem State.draw_w_ev : s.draw.2.w.ev = s.w.ev := rfl
@[simp] theorem State.draw_w_msix : s.draw.2.w.msix = s.w.msix := rfl
@[simp] theorem State.draw_w_sl : s.draw.2.w.sl = s.w.sl := rfl
@[simp] theorem State.draw_w_queues : s.draw.2.w.queues = s.w.queues := rfl
@[simp] theorem State.draw_w_qarb : s.draw.2.w.qarb = s.w.qarb := rfl
@[simp] theorem State.draw_w_inflight : s.draw.2.w.inflight = s.w.inflight := rfl
@[simp] theorem State.draw_w_ordNext : s.draw.2.w.ordNext = s.w.ordNext := rfl
@[simp] theorem State.draw_w_waits : s.draw.2.w.waits = s.w.waits := rfl
@[simp] theorem State.draw_w_host : s.draw.2.w.host = s.w.host := rfl
@[simp] theorem State.draw_w_hostAbsent : s.draw.2.w.hostAbsent = s.w.hostAbsent := rfl
@[simp] theorem State.draw_w_hostPoison : s.draw.2.w.hostPoison = s.w.hostPoison := rfl
@[simp] theorem State.draw_w_mmu : s.draw.2.w.mmu = s.w.mmu := rfl
@[simp] theorem State.draw_w_dma : s.draw.2.w.dma = s.w.dma := rfl
@[simp] theorem State.draw_w_dmaWait : s.draw.2.w.dmaWait = s.w.dmaWait := rfl
@[simp] theorem State.draw_w_dmaLast : s.draw.2.w.dmaLast = s.w.dmaLast := rfl
@[simp] theorem State.draw_w_jobs : s.draw.2.w.jobs = s.w.jobs := rfl
@[simp] theorem State.draw_w_holder : s.draw.2.w.holder = s.w.holder := rfl
@[simp] theorem State.draw_w_dev : s.draw.2.w.dev = s.w.dev := rfl
@[simp] theorem State.draw_w_poison : s.draw.2.w.poison = s.w.poison := rfl
@[simp] theorem State.draw_w_stale : s.draw.2.w.stale = s.w.stale := rfl
@[simp] theorem State.draw_w_inject : s.draw.2.w.inject = s.w.inject := rfl
@[simp] theorem State.draw_w_apWait : s.draw.2.w.apWait = s.w.apWait := rfl
@[simp] theorem State.draw_w_cells : s.draw.2.w.cells = s.w.cells := rfl
@[simp] theorem State.draw_w_dieSense : s.draw.2.w.dieSense = s.w.dieSense := rfl
@[simp] theorem State.draw_w_badPaths : s.draw.2.w.badPaths = s.w.badPaths := rfl
@[simp] theorem State.draw_w_cache : s.draw.2.w.cache = s.w.cache := rfl
@[simp] theorem State.draw_w_stk : s.draw.2.w.stk = s.w.stk := rfl
@[simp] theorem State.draw_w_pcs : s.draw.2.w.pcs = s.w.pcs := rfl
@[simp] theorem State.draw_w_lanes : s.draw.2.w.lanes = s.w.lanes := rfl
@[simp] theorem State.draw_w_reloc : s.draw.2.w.reloc = s.w.reloc := rfl
@[simp] theorem State.draw_w_lp : s.draw.2.w.lp = s.w.lp := rfl
@[simp] theorem State.draw_w_cxl : s.draw.2.w.cxl = s.w.cxl := rfl
@[simp] theorem State.draw_w_hubCe : s.draw.2.w.hubCe = s.w.hubCe := rfl
@[simp] theorem State.draw_w_se : s.draw.2.w.se = s.w.se := rfl
@[simp] theorem State.draw_w_lk : s.draw.2.w.lk = s.w.lk := rfl
@[simp] theorem State.draw_w_topo : s.draw.2.w.topo = s.w.topo := rfl
@[simp] theorem State.draw_w_msgs : s.draw.2.w.msgs = s.w.msgs := rfl
@[simp] theorem State.draw_w_foul : s.draw.2.w.foul = s.w.foul := rfl
@[simp] theorem State.draw_w_reel : s.draw.2.w.reel = s.w.reel := rfl
@[simp] theorem State.draw_w_ump : s.draw.2.w.ump = s.w.ump := rfl
@[simp] theorem State.draw_w_ck : s.draw.2.w.ck = s.w.ck := rfl
@[simp] theorem State.draw_w_mr : s.draw.2.w.mr = s.w.mr := rfl
@[simp] theorem State.draw_w_ret : s.draw.2.w.ret = s.w.ret := rfl
@[simp] theorem State.draw_w_err : s.draw.2.w.err = s.w.err := rfl
@[simp] theorem State.draw_w_traces : s.draw.2.w.traces = s.w.traces := rfl
@[simp] theorem State.draw_w_xings : s.draw.2.w.xings = s.w.xings := rfl
@[simp] theorem State.draw_w_stalled : s.draw.2.w.stalled = s.w.stalled := rfl

/-! ### What the masks leave -/

theorem onWorld_eq (f : State → State) : onWorld f s = .next { s with w := (f s).w } := rfl
theorem onCore_eq (f : State → State) : onCore f s = .next { s with ctl := (f s).ctl, w := (f s).w } := rfl
theorem onAll_eq (f : State → State) : onAll f s = .next { s with cfg := (f s).cfg, ctl := (f s).ctl, w := (f s).w } := rfl

end Sys2Proof.Machine
end

