-- ==== Sys2Proof/Laws/Tables.lean ====
section
/-! SUPPORT. Tables and memories: a read after a write, and the canonical form that every write keeps. -/

-- Declarations are checked one after the other: each check that runs beside them asks for a large stack of its own.
set_option Elab.async false

namespace Sys2Proof.Machine

open Sys2Proof

variable {α : Type} [DecidableEq α]

omit [DecidableEq α] in
@[simp] theorem tget_nil (d : α) (k : Nat) : tget d [] k = d := rfl

theorem tget_tput_ne (d : α) (t : Tab α) {k k' : Nat} (v : α) (h : k' ≠ k) : tget d (tput d t k v) k' = tget d t k' := by
  induction t with
  | nil => simp only [tput]; split <;> simp_all [tget, Ne.symm h]
  | cons e r ih =>
    obtain ⟨a, b⟩ := e
    simp only [tput]
    split
    · split <;> simp [tget, Ne.symm h]
    · split
      · rename_i h2; subst h2
        split <;> simp [tget, Ne.symm h]
      · simp only [tget]; split <;> simp_all

/-- Every listed key is above `k`. -/
def tabove (k : Nat) (t : Tab α) : Bool := t.all (fun e => decide (k < e.1))

omit [DecidableEq α] in
theorem tget_of_tabove {d : α} {t : Tab α} {k : Nat} (h : tabove k t = true) : tget d t k = d := by
  induction t with
  | nil => rfl
  | cons e r ih =>
    obtain ⟨a, b⟩ := e
    simp only [tabove, List.all_cons, Bool.and_eq_true, decide_eq_true_eq] at h
    have : a ≠ k := by omega
    simp only [tget, this, if_false]
    exact ih (by simpa [tabove] using h.2)

omit [DecidableEq α] in
theorem tabove_mono {t : Tab α} {k k' : Nat} (hk : k ≤ k') (h : tabove k' t = true) : tabove k t = true := by
  simp only [tabove, List.all_eq_true, decide_eq_true_eq] at *
  intro e he; have := h e he; omega

theorem twf_cons {d : α} {k : Nat} {v : α} {r : Tab α} :
    twf d ((k, v) :: r) = true ↔ v ≠ d ∧ tabove k r = true ∧ twf d r = true := by
  induction r generalizing k v with
  | nil => simp [twf, tabove]
  | cons e r ih =>
    obtain ⟨a, b⟩ := e
    constructor
    · intro h
      simp only [twf, Bool.and_eq_true, decide_eq_true_eq] at h
      obtain ⟨⟨h1, h2⟩, h3⟩ := h
      refine ⟨h2, ?_, h3⟩
      have := (ih.mp h3).2.1
      simp only [tabove, List.all_cons, Bool.and_eq_true, decide_eq_true_eq]
      exact ⟨h1, by simpa [tabove] using tabove_mono (by omega) this⟩
    · rintro ⟨h1, h2, h3⟩
      simp only [tabove, List.all_cons, Bool.and_eq_true, decide_eq_true_eq] at h2
      simp only [twf, Bool.and_eq_true, decide_eq_true_eq]
      exact ⟨⟨h2.1, h1⟩, h3⟩

theorem tabove_tput {d : α} {t : Tab α} {k k' : Nat} {v : α} (h : tabove k t = true) (hk : k < k') :
    tabove k (tput d t k' v) = true := by
  induction t with
  | nil => simp only [tput]; split <;> simp [tabove, hk]
  | cons e r ih =>
    obtain ⟨a, b⟩ := e
    simp only [tabove, List.all_cons, Bool.and_eq_true, decide_eq_true_eq] at h
    have hr : tabove k r = true := by simpa [tabove] using h.2
    have := ih hr
    simp only [tabove, List.all_eq_true, decide_eq_true_eq] at this hr
    simp only [tput]
    split <;> (try split) <;> (try split) <;> simp only [tabove, List.all_cons, List.all_eq_true, Bool.and_eq_true, decide_eq_true_eq] <;>
      first
      | exact ⟨hk, h.1, hr⟩
      | exact ⟨h.1, hr⟩
      | exact ⟨hk, hr⟩
      | exact hr
      | exact ⟨h.1, this⟩

/-- A write keeps the canonical form. -/
theorem twf_tput {d : α} {t : Tab α} (k : Nat) (v : α) (h : twf d t = true) : twf d (tput d t k v) = true := by
  induction t with
  | nil => simp only [tput]; split <;> simp_all [twf]
  | cons e r ih =>
    obtain ⟨a, b⟩ := e
    have h0 := h
    rw [twf_cons] at h
    obtain ⟨h1, h2, h3⟩ := h
    simp only [tput]
    split
    · split
      · exact h0
      · rename_i hk hv
        rw [twf_cons]
        refine ⟨hv, ?_, h0⟩
        simp only [tabove, List.all_cons, Bool.and_eq_true, decide_eq_true_eq]
        exact ⟨hk, by simpa [tabove] using tabove_mono (by omega) h2⟩
    · split
      · rename_i hk; subst hk
        split
        · exact h3
        · rename_i hv; rw [twf_cons]; exact ⟨hv, h2, h3⟩
      · rw [twf_cons]
        exact ⟨h1, tabove_tput h2 (by omega), ih h3⟩

/-- In canonical form a read after a write to the same entry gives the value written. -/
theorem tget_tput_self {d : α} {t : Tab α} (k : Nat) (v : α) (h : twf d t = true) : tget d (tput d t k v) k = v := by
  induction t with
  | nil => simp only [tput]; split <;> simp_all [tget]
  | cons e r ih =>
    obtain ⟨a, b⟩ := e
    have h0 := h
    rw [twf_cons] at h
    obtain ⟨h1, h2, h3⟩ := h
    simp only [tput]
    split
    · split
      · rename_i hk hv
        rw [hv]
        exact tget_of_tabove (by
          simp only [tabove, List.all_cons, Bool.and_eq_true, decide_eq_true_eq]
          exact ⟨hk, by simpa [tabove] using tabove_mono (by omega) h2⟩)
      · simp [tget]
    · split
      · rename_i hk; subst hk
        split
        · rename_i hv; rw [hv]; exact tget_of_tabove h2
        · simp [tget]
      · rename_i hk hk'
        have : a ≠ k := fun x => hk' x.symm
        simp only [tget, this, if_false]
        exact ih h3

theorem tget_tput {d : α} {t : Tab α} (k k' : Nat) (v : α) (h : twf d t = true) :
    tget d (tput d t k v) k' = if k' = k then v else tget d t k' := by
  split
  · rename_i e; subst e; exact tget_tput_self _ _ h
  · exact tget_tput_ne _ _ _ (by assumption)

/-- A written value other than the default is read back whatever the table's form. -/
theorem tget_tput_of_ne {d : α} (t : Tab α) (k : Nat) {v : α} (hv : v ≠ d) : tget d (tput d t k v) k = v := by
  induction t with
  | nil => simp [tput, hv, tget]
  | cons e r ih =>
    obtain ⟨a, b⟩ := e
    simp only [tput, hv, if_false]
    split
    · simp [tget]
    · split
      · simp [tget]
      · rename_i hk hk'
        have : a ≠ k := fun x => hk' x.symm
        simp only [tget, this, if_false]; exact ih

/-! ### Tables with rising keys

The default may differ from entry to entry (the cells), so the keys alone are what these facts need. -/

theorem tget_tput_rising (d : α) (t : Tab α) (k : Nat) (v : α) (h : (tkeys t).Pairwise (· < ·)) : tget d (tput d t k v) k = v := by
  induction t with
  | nil => simp only [tput]; split <;> simp_all [tget]
  | cons e r ih =>
    obtain ⟨a, b⟩ := e
    simp only [tkeys, List.map_cons, List.pairwise_cons] at h
    have hr : (tkeys r).Pairwise (· < ·) := h.2
    have habove : ∀ k', k' ≤ a → tget d r k' = d := by
      intro k' hk'
      apply tget_of_tabove
      simp only [tabove, List.all_eq_true, decide_eq_true_eq]
      intro x hx
      have := h.1 x.1 (List.mem_map_of_mem hx)
      omega
    simp only [tput]
    split
    · split
      · rename_i hk hv
        have : a ≠ k := by omega
        simp only [tget, this, if_false, hv]; exact habove k (by omega)
      · simp [tget]
    · split
      · rename_i hk; subst hk
        split
        · rename_i hv; rw [hv]; exact habove k (by omega)
        · simp [tget]
      · rename_i hk hk'
        have : a ≠ k := fun x => hk' x.symm
        simp only [tget, this, if_false]; exact ih hr

theorem mem_tkeys_tput {d : α} {t : Tab α} {k x : Nat} {v : α} (h : x ∈ tkeys (tput d t k v)) : x = k ∨ x ∈ tkeys t := by
  induction t with
  | nil => simp only [tput] at h; split at h <;> simp_all [tkeys]
  | cons e r ih =>
    obtain ⟨a, b⟩ := e
    simp only [tput] at h
    split at h
    · split at h
      · exact .inr h
      · simp only [tkeys, List.map_cons, List.mem_cons] at h ⊢
        rcases h with h | h
        · exact .inl h
        · exact .inr h
    · split at h
      · split at h
        · exact .inr (by simp only [tkeys, List.map_cons, List.mem_cons]; exact .inr h)
        · rename_i hk _
          simp only [tkeys, List.map_cons, List.mem_cons] at h ⊢
          rcases h with h | h
          · exact .inl h
          · exact .inr (.inr h)
      · simp only [tkeys, List.map_cons, List.mem_cons] at h ⊢
        rcases h with h | h
        · exact .inr (.inl h)
        · rcases ih h with h | h
          · exact .inl h
          · exact .inr (.inr h)

theorem rising_tput (d : α) (t : Tab α) (k : Nat) (v : α) (h : (tkeys t).Pairwise (· < ·)) : (tkeys (tput d t k v)).Pairwise (· < ·) := by
  induction t with
  | nil => simp only [tput]; split <;> simp [tkeys]
  | cons e r ih =>
    obtain ⟨a, b⟩ := e
    have h0 := h
    simp only [tkeys, List.map_cons, List.pairwise_cons] at h
    have hr : (tkeys r).Pairwise (· < ·) := h.2
    simp only [tput]
    split
    · split
      · exact h0
      · rename_i hk hv
        simp only [tkeys, List.map_cons, List.pairwise_cons, List.mem_cons]
        refine ⟨?_, h.1, h.2⟩
        rintro x (rfl | hx)
        · exact hk
        · have := h.1 x hx; omega
    · split
      · rename_i hk; subst hk
        split
        · exact hr
        · simp only [tkeys, List.map_cons, List.pairwise_cons]; exact h
      · simp only [tkeys, List.map_cons, List.pairwise_cons]
        refine ⟨?_, ih hr⟩
        intro x hx
        rcases mem_tkeys_tput (show x ∈ tkeys (tput d r k v) from hx) with rfl | hx
        · omega
        · exact h.1 x hx

/-! ### Memory -/

@[simp] theorem mget_nil (a : Nat) : mget [] a = 0 := rfl

theorem mget_mput (m : Memory) (a b : Nat) (v : Byte) (h : Memory.wf m = true) :
    mget (mput m a v) b = if b = a then v else mget m b := tget_tput a b v h

theorem mget_mput_ne (m : Memory) {a b : Nat} (v : Byte) (h : b ≠ a) : mget (mput m a v) b = mget m b := tget_tput_ne 0 m v h

theorem Memory.wf_mput {m : Memory} (a : Nat) (v : Byte) (h : Memory.wf m = true) : Memory.wf (mput m a v) = true := twf_tput a v h

/-- Every write of a run of bytes keeps the canonical form. -/
theorem Memory.wf_mwrite {m : Memory} (a : Nat) (bs : Bytes) (h : Memory.wf m = true) : Memory.wf (mwrite m a bs) = true := by
  induction bs generalizing m a with
  | nil => exact h
  | cons b bs ih => exact ih (a + 1) (Memory.wf_mput a b h)

/-- A run of bytes leaves every address outside it alone. -/
theorem mget_mwrite_out (m : Memory) (a : Nat) (bs : Bytes) {x : Nat} (h : x < a ∨ a + bs.length ≤ x) :
    mget (mwrite m a bs) x = mget m x := by
  induction bs generalizing m a with
  | nil => rfl
  | cons b bs ih =>
    simp only [List.length_cons] at h
    simp only [mwrite]
    rw [ih _ _ (by omega)]
    exact mget_mput_ne m b (by omega)

/-- The bytes written are read back. -/
theorem mget_mwrite_in (m : Memory) (a : Nat) (bs : Bytes) (i : Nat) (hi : i < bs.length) (h : Memory.wf m = true) :
    mget (mwrite m a bs) (a + i) = bs[i] := by
  induction bs generalizing m a i with
  | nil => simp at hi
  | cons b bs ih =>
    simp only [mwrite]
    cases i with
    | zero =>
      rw [mget_mwrite_out _ _ _ (by omega)]
      simpa using (mget_mput m a a b h)
    | succ i =>
      have := ih (mput m a b) (a + 1) i (by simpa using hi) (Memory.wf_mput a b h)
      simp only [List.getElem_cons_succ]
      rw [← this]; congr 1; omega

@[simp] theorem mread_length (m : Memory) (a n : Nat) : (mread m a n).length = n := by
  induction n generalizing a with
  | zero => rfl
  | succ n ih => simp [mread, ih]

/-- A read after a write to the same place gives the bytes written. -/
theorem mread_mwrite (m : Memory) (a : Nat) (bs : Bytes) (h : Memory.wf m = true) : mread (mwrite m a bs) a bs.length = bs := by
  induction bs generalizing m a with
  | nil => rfl
  | cons b bs ih =>
    simp only [mwrite, List.length_cons, mread]
    rw [mget_mwrite_out _ _ _ (by omega), ih _ _ (Memory.wf_mput a b h)]
    simpa using (mget_mput m a a b h)

/-! ### Numbers as bytes -/

@[simp] theorem leBytes_length (n v : Nat) : (leBytes n v).length = n := by
  induction n generalizing v with
  | zero => rfl
  | succ n ih => simp [leBytes, ih]

theorem leNum_leBytes (n v : Nat) : leNum (leBytes n v) = v % 256 ^ n := by
  induction n generalizing v with
  | zero => simp [leBytes, leNum, Nat.mod_one]
  | succ n ih =>
    simp only [leBytes, leNum, ih, BitVec.toNat_ofNat]
    rw [show (2 : Nat) ^ 8 = 256 from rfl, Nat.pow_succ, Nat.mul_comm (256 ^ n) 256, Nat.mod_mul]

@[simp] theorem zeros_length (n : Nat) : (zeros n).length = n := by simp [zeros]

@[simp] theorem padTo_length (n : Nat) (bs : Bytes) : (padTo n bs).length = n := by simp [padTo]; omega

end Sys2Proof.Machine
end

