-- ==== Sys2Proof/Laws/Ops.lean ====
section
/-! SUPPORT. What each shared operation can do, said once: reporting, interrupts, replies, host memory. -/

-- Declarations are checked one after the other: each check that runs beside them asks for a large stack of its own.
set_option Elab.async false

namespace Sys2Proof.Machine

open Sys2Proof

/-! ### Reporting -/

theorem OnlyLog.refl (s : State) : OnlyLog s s := rfl

theorem OnlyLog.trans {s t u : State} (h : OnlyLog s t) (k : OnlyLog t u) : OnlyLog s u := by
  unfold OnlyLog at *
  rw [k, h]

theorem OnlyLog.after {s t u : State} (k : OnlyLog t u) (h : OnlyLog s t) : OnlyLog s u := h.trans k

theorem OnlyLog.cfg {s t : State} (h : OnlyLog s t) : t.cfg = s.cfg := by rw [h]
theorem OnlyLog.ctl {s t : State} (h : OnlyLog s t) : t.ctl = s.ctl := by rw [h]
theorem OnlyLog.pending {s t : State} (h : OnlyLog s t) : t.pending = s.pending := by rw [h]

theorem onlyLog_emit (s : State) (o : Out) : OnlyLog s (s.emit o) := rfl
theorem onlyLog_hostPut (s : State) (a : Nat) (bs : Bytes) : OnlyLog s (s.hostPut a bs) := rfl

theorem onlyLog_once60 (s : State) (k : Nat) : OnlyLog s (s.once60 k).2 := by
  unfold State.once60; dsimp only; split <;> rfl

theorem onlyLog_slOnce (kind sev : Nat) (p : Bytes) (s : State) : OnlyLog s (slOnce kind sev p s) := by
  unfold slOnce; split <;> rfl

/-- A new record touches only the held records and their counts. -/
theorem onlyLog_setSl (s : State) (v : Sl)
    (h : v = { s.w.sl with nextSeq := v.nextSeq, held := v.held, sent := v.sent, dropped := v.dropped }) :
    OnlyLog s (s.onW (fun w => { w with sl := v })) := by
  unfold OnlyLog State.onW; rw [h]

theorem onlyLog_slSend (kind sev idx : Nat) (p : Bytes) (s : State) : OnlyLog s (slSend kind sev idx p s) := by
  unfold slSend; dsimp only
  split
  · exact onlyLog_setSl s _ rfl
  · rename_i sl1 heq
    have key : sl1 = { s.w.sl with held := sl1.held, dropped := sl1.dropped } := by
      split at heq
      · cases heq; rfl
      · split at heq
        · split at heq <;> cases heq; rfl
        · cases heq
    split
    · refine OnlyLog.after (onlyLog_emit _ _) ?_
      refine onlyLog_setSl s { sl1 with nextSeq := wrapAdd 32 sl1.nextSeq 1, sent := wrapAdd 32 sl1.sent 1 } ?_
      rw [key]
    · refine onlyLog_setSl s { sl1 with nextSeq := wrapAdd 32 sl1.nextSeq 1 } ?_
      rw [key]

theorem onlyLog_fireVector (v : Nat) (s : State) : OnlyLog s (fireVector v s) := by
  unfold fireVector; dsimp only; split <;> rfl

theorem onlyLog_logAdd (cls unit job step : Nat) (loc : Loc) (s : State) : OnlyLog s (logAdd cls unit job step loc s).1 := by
  unfold logAdd; dsimp only
  repeat' (first | rfl | exact OnlyLog.after (onlyLog_slSend _ _ _ _ _) (by rfl) | split)

theorem onlyLog_setEv (s : State) (f : Ev → Ev)
    (h : ∀ e, f e = { e with en := (f e).en, err := (f e).err, tail := (f e).tail, lost := (f e).lost }) :
    OnlyLog s (s.onW (fun w => { w with ev := f w.ev })) := by
  unfold OnlyLog State.onW; dsimp only; rw [h]

theorem onlyLog_event (code unit job step data : Nat) (s : State) : OnlyLog s (event code unit job step data s) := by
  unfold event; dsimp only
  split
  · exact OnlyLog.refl s
  · split
    · exact onlyLog_setEv s (fun e => { e with lost := satAdd 32 e.lost 1 }) (fun _ => rfl)
    · split
      · refine OnlyLog.after (onlyLog_fireVector _ _) ?_
        exact (onlyLog_hostPut s _ _).trans (onlyLog_setEv _ (fun e => { e with tail := wrapAdd 16 e.tail 1 }) (fun _ => rfl))
      · refine OnlyLog.after (onlyLog_logAdd _ _ _ _ _ _) ?_
        exact onlyLog_setEv s (fun e => { e with en := false, err := 2, lost := satAdd 32 e.lost 1 }) (fun _ => rfl)

theorem onlyLog_logEvent (cls unit job step idx : Nat) (s : State) : OnlyLog s (logEvent cls unit job step idx s) := by
  unfold logEvent; split
  · rfl
  · exact onlyLog_event _ _ _ _ _ _

theorem onlyLog_logBoth (cls unit job step : Nat) (loc : Loc) (s : State) : OnlyLog s (logBoth cls unit job step loc s) := by
  unfold logBoth; dsimp only; split
  · exact (onlyLog_logAdd _ _ _ _ _ _).trans (onlyLog_logEvent _ _ _ _ _ _)
  · exact onlyLog_logAdd _ _ _ _ _ _

theorem onlyLog_dropNote (n : Nat) (s : State) : OnlyLog s (dropNote n s) := by
  unfold dropNote; split
  · rfl
  · dsimp only; split
    · exact (onlyLog_once60 _ _).trans (onlyLog_logBoth _ _ _ _ _ _)
    · rfl

theorem onlyLog_flt (cls unit job step : Nat) (loc : Loc) (s : State) : OnlyLog s (flt cls unit job step loc s) :=
  (onlyLog_logBoth _ _ _ _ _ _).trans (onlyLog_dropNote _ _)

theorem onlyLog_ckptAdvice (r : Nat) (s : State) : OnlyLog s (ckptAdvice r s) := by
  unfold ckptAdvice; dsimp only; split
  · exact ((onlyLog_once60 _ _).trans (onlyLog_flt _ _ _ _ _ _)).trans (onlyLog_event _ _ _ _ _ _)
  · rfl

theorem onlyLog_benchAdvice (c u : Nat) (s : State) : OnlyLog s (benchAdvice c u s) := onlyLog_event _ _ _ _ _ _

/-! ### Crossings (R54-R60): what a command does while REFCLK is there, and while the crossings stand frozen -/

theorem onlyLog_modXing (s : State) (k : Nat) (f : Xing → Xing) : OnlyLog s (s.modXing k f) := rfl

theorem fabric_running {c : Instr} {f : State → State} {s : State} (h : s.ctl.clk.frozen = false) : fabric c f s = f s := by
  simp [fabric, h]

theorem fabric_frozen {c : Instr} {f : State → State} {s : State} (h : s.ctl.clk.frozen = true) :
    fabric c f s = s.onW (fun w => { w with stalled := w.stalled ++ [c] }) := by
  simp [fabric, h]

theorem through_running {k : Nat} {c : Instr} {f : State → State} {s : State} (h : s.ctl.clk.frozen = false) :
    through k c f s = f (s.modXing k (Xing.pass 1)) := by
  simp [through, h]

theorem through_frozen {k : Nat} {c : Instr} {f : State → State} {s : State} (h : s.ctl.clk.frozen = true) :
    through k c f s = s.holdAt k c := by
  simp [through, h]

/-- Self-timed work with REFCLK there is its own change of the world. -/
theorem onWorld_fabric {c : Instr} {f : State → State} {s : State} (h : s.ctl.clk.frozen = false) : onWorld (fabric c f) s = onWorld f s := by
  simp [onWorld, fabric_running h]

theorem onWorld_through {k : Nat} {c : Instr} {f : State → State} {s : State} (h : s.ctl.clk.frozen = false) :
    onWorld (through k c f) s = onWorld (fun s => f (s.modXing k (Xing.pass 1))) s := by
  simp [onWorld, through_running h]

/-! ### Capabilities (R98, R99, R516): the module has every entry of its list, whatever its state -/

theorem capable_of_mem {id : Nat} (s : State)
    (h : id ∈ [0x0001, 0x0010, 0x0011, 0x0020, 0x0030, 0x0040, 0x0050, 0x0051, 0x0060, 0x0061, 0x0070, 0x0080, 0x0090, 0x00A0]) : capable s id = true := by
  simp only [List.mem_cons, List.not_mem_nil, or_false] at h
  rcases h with rfl | rfl | rfl | rfl | rfl | rfl | rfl | rfl | rfl | rfl | rfl | rfl | rfl | rfl <;> rfl

theorem uncapable_false (s : State) (b : Job) : uncapable s b = false := by
  have h1 : capable s 0x0011 = true := capable_of_mem s (by decide)
  have h2 : capable s 0x0030 = true := capable_of_mem s (by decide)
  unfold uncapable; rw [h1, h2]; cases b.staged <;> simp

end Sys2Proof.Machine
end

