-- ==== Sys2Proof/Laws/Reply.lean ====
section
/-! SUPPORT. What replying can do: the parts of the state a reply, a halt and a settled fence may touch. -/

-- Declarations are checked one after the other: each check that runs beside them asks for a large stack of its own.
set_option Elab.async false

namespace Sys2Proof.Machine

open Sys2Proof

theorem OnlyReply.refl (s : State) : OnlyReply s s := rfl

theorem OnlyReply.trans {s t u : State} (h : OnlyReply s t) (k : OnlyReply t u) : OnlyReply s u := by
  unfold OnlyReply at *
  rw [k, h]

theorem OnlyReply.after {s t u : State} (k : OnlyReply t u) (h : OnlyReply s t) : OnlyReply s u := h.trans k

theorem OnlyLog.reply {s t : State} (h : OnlyLog s t) : OnlyReply s t := by
  unfold OnlyReply; unfold OnlyLog at h; rw [h]

theorem OnlyReply.cfg {s t : State} (h : OnlyReply s t) : t.cfg = s.cfg := by rw [h]
theorem OnlyReply.ctl {s t : State} (h : OnlyReply s t) : t.ctl = s.ctl := by rw [h]
theorem OnlyReply.pending {s t : State} (h : OnlyReply s t) : t.pending = s.pending := by rw [h]
theorem OnlyReply.dev {s t : State} (h : OnlyReply s t) : t.w.dev = s.w.dev := by rw [h]

theorem onlyReply_setQueue (s : State) (q : Nat) (v : Queue) : OnlyReply s (s.setQueue q v) := rfl
theorem onlyReply_modQueue (s : State) (q : Nat) (f : Queue → Queue) : OnlyReply s (s.modQueue q f) := rfl
theorem onlyReply_modJob (s : State) (j : Nat) (f : Job → Job) : OnlyReply s (s.modJob j f) := rfl
theorem onlyReply_inflight (s : State) (f : List Run → List Run) : OnlyReply s (s.onW (fun w => { w with inflight := f w.inflight })) := rfl

theorem onlyReply_haltQueue (q err : Nat) (s : State) : OnlyReply s (haltQueue q err s) := by
  unfold haltQueue
  exact ((onlyReply_modQueue s q _).trans (onlyLog_flt _ _ _ _ _ _).reply).trans (onlyLog_event _ _ _ _ _ _).reply

theorem onlyReply_notePark (ch j kind a : Nat) (s : State) : OnlyReply s (notePark ch j kind a s) := by
  unfold notePark
  refine OnlyReply.after (onlyLog_flt _ _ _ _ _ _).reply ?_
  split
  · exact onlyReply_modJob _ _ _
  · exact OnlyReply.refl s

theorem onlyReply_pageRequest (j page : Nat) (s : State) : OnlyReply s (pageRequest j page s) := by
  unfold pageRequest
  split
  · exact OnlyReply.refl s
  · rfl

theorem onlyReply_drainDone (q : Nat) (s : State) : OnlyReply s (drainDone q s) := by
  unfold drainDone; dsimp only; split <;> rfl

theorem onlyReply_countReply (h : Hdr) (s : State) : OnlyReply s (countReply h s) := by
  unfold countReply; dsimp only
  refine OnlyReply.after (onlyReply_drainDone _ _) ?_
  split
  · exact ((onlyReply_modQueue s _ _).trans (onlyReply_modQueue _ _ _)).trans (onlyLog_fireVector _ _).reply
  · exact onlyReply_modQueue s _ _

theorem onlyLog_jobWrite (s : State) (j dva : Nat) (bs : Bytes) : OnlyLog s (jobWrite s j dva bs).2 := by
  unfold jobWrite
  have key : ∀ (l : List (Nat × Nat)) (acc : Option (Nat × Nat × Nat) × State), OnlyLog s acc.2 →
      OnlyLog s (l.foldl (fun acc p => match acc with
        | (none, s) => (match xlate s j p.1 true with
          | .fault k g a => (some (k, g, a), s)
          | .at_ h => (none, s.hostPut h ((bs.drop (p.1 - dva)).take p.2)))
        | e => e) acc).2 := by
    intro l
    induction l with
    | nil => exact fun acc h => h
    | cons p r ih =>
      intro acc h
      refine ih _ ?_
      obtain ⟨o, t⟩ := acc
      cases o with
      | some e => exact h
      | none =>
        dsimp only
        split
        · exact h
        · exact h.trans (onlyLog_hostPut _ _ _)
  exact key _ _ (OnlyLog.refl s)

theorem onlyLog_ringWrite (q a : Nat) (bs : Bytes) (s : State) : OnlyLog s (ringWrite q a bs s).2 := by
  unfold ringWrite
  split
  · split
    · exact onlyLog_hostPut _ _ _
    · exact OnlyLog.refl s
  · exact onlyLog_jobWrite _ _ _ _

theorem onlyReply_putReply (h : Hdr) (bs : Bytes) (s : State) : OnlyReply s (putReply h bs s) := by
  unfold putReply; dsimp only
  split
  · split
    · exact onlyReply_modQueue _ _ _
    · split
      · rename_i s1 heq
        have := onlyLog_ringWrite h.q ((s.queue h.q).rplBase + 32 * ((s.queue h.q).rplTail % 2 ^ (s.queue h.q).rplLog2))
          (withPhase bs (1 - (s.queue h.q).rplTail / 2 ^ (s.queue h.q).rplLog2 % 2)) s
        rw [heq] at this
        exact this.reply.trans (onlyReply_countReply _ _)
      · split
        · exact ((onlyReply_notePark _ _ _ _ s).trans (onlyReply_modQueue _ _ _)).trans (onlyReply_pageRequest _ _ _)
        · exact ((onlyReply_notePark _ _ _ _ s).trans (onlyReply_modQueue _ _ _)).trans (onlyReply_haltQueue _ _ _)
  · exact (onlyReply_modQueue s _ _).trans (onlyReply_drainDone _ _)

theorem onlyReply_settleFences (n : Nat) (s : State) : OnlyReply s (settleFences n s) := by
  induction n generalizing s with
  | zero => exact OnlyReply.refl s
  | succ n ih =>
    unfold settleFences
    split
    · exact OnlyReply.refl s
    · exact ((onlyReply_inflight s _).trans (onlyReply_putReply _ _ _)).trans (ih _)

/-- Completing a command changes what replying may change and nothing else. -/
theorem onlyReply_complete (r : Run) (status detail unit : Nat) (result : Bytes) (s : State) :
    OnlyReply s (complete r status detail unit result s) := by
  unfold complete; dsimp only
  exact ((onlyReply_inflight s _).trans (onlyReply_putReply _ _ _)).trans (onlyReply_settleFences _ _)

/-! ### How a command ends, by what its own part answers -/

variable {cmd : Instr} {op : Nat} {h : Hdr} {own : State → Cmd} {s s1 : State}

theorem startCmd_done {st d u : Nat} {res : Bytes} (hr : Ready op h s) (ho : own (counted h s) = .done s1 st d u res) :
    startCmd cmd op h own s = finish op h s st d u res s1 := by
  unfold Ready at hr
  unfold startCmd
  simp only [show (s.modQueue h.q fun c => { c with inflight := c.inflight + 1 }).onW (fun w => { w with ordNext := s.w.ordNext + 1 })
    = counted h s from rfl, hr, ho]
  rfl

theorem startCmd_later {a b : Nat} (hr : Ready op h s) (ho : own (counted h s) = .later s1 a b) :
    startCmd cmd op h own s = runsOn op h s a b s1 := by
  unfold Ready at hr
  unfold startCmd
  simp only [show (s.modQueue h.q fun c => { c with inflight := c.inflight + 1 }).onW (fun w => { w with ordNext := s.w.ordNext + 1 })
    = counted h s from rfl, hr, ho]
  rfl

/-- A command that fails a common check is replied to with that check's status and changes nothing else than the reply. -/
theorem startCmd_refused {st d u : Nat} (hr : commonFail (counted h s) op h = some (st, d, u)) (hd : st ≠ 0x13) :
    startCmd cmd op h own s = finish op h s st d u [] (counted h s) := by
  unfold startCmd
  simp only [show (s.modQueue h.q fun c => { c with inflight := c.inflight + 1 }).onW (fun w => { w with ordNext := s.w.ordNext + 1 })
    = counted h s from rfl, hr, hd, if_false]
  rfl

theorem onlyReply_counted (h : Hdr) (s : State) : (counted h s).pending = s.pending ∧ (counted h s).cfg = s.cfg ∧ (counted h s).ctl = s.ctl :=
  ⟨rfl, rfl, rfl⟩

theorem onlyReply_finish (op : Nat) (h : Hdr) (s : State) (st d u : Nat) (res : Bytes) (s1 : State) :
    OnlyReply s1 (finish op h s st d u res s1) := onlyReply_complete _ _ _ _ _ _

theorem onWorld_of_eq {f : State → State} {t : State} (hf : f s = t) (hp : t.pending = s.pending) (hc : t.cfg = s.cfg)
    (hk : t.ctl = s.ctl) : onWorld f s = .next t := by
  subst hf; unfold onWorld; rw [← hp, ← hc, ← hk]

theorem onCore_of_eq {f : State → State} {t : State} (hf : f s = t) (hp : t.pending = s.pending) (hc : t.cfg = s.cfg) :
    onCore f s = .next t := by
  subst hf; unfold onCore; rw [← hp, ← hc]

/-- A meaning of a command that is done at once answers the state in which it has been replied to. -/
theorem onWorld_done {st d u : Nat} {res : Bytes} (hr : Ready op h s) (ho : own (counted h s) = .done s1 st d u res)
    (hp : s1.pending = s.pending) (hc : s1.cfg = s.cfg) (hk : s1.ctl = s.ctl) :
    onWorld (startCmd cmd op h own) s = .next (finish op h s st d u res s1) := by
  have := onlyReply_finish op h s st d u res s1
  exact onWorld_of_eq (startCmd_done hr ho) (this.pending.trans hp) (this.cfg.trans hc) (this.ctl.trans hk)

theorem onWorld_later {a b : Nat} (hr : Ready op h s) (ho : own (counted h s) = .later s1 a b)
    (hp : s1.pending = s.pending) (hc : s1.cfg = s.cfg) (hk : s1.ctl = s.ctl) :
    onWorld (startCmd cmd op h own) s = .next (runsOn op h s a b s1) :=
  onWorld_of_eq (startCmd_later hr ho) hp hc hk

theorem onCore_done {st d u : Nat} {res : Bytes} (hr : Ready op h s) (ho : own (counted h s) = .done s1 st d u res)
    (hp : s1.pending = s.pending) (hc : s1.cfg = s.cfg) :
    onCore (startCmd cmd op h own) s = .next (finish op h s st d u res s1) := by
  have := onlyReply_finish op h s st d u res s1
  exact onCore_of_eq (startCmd_done hr ho) (this.pending.trans hp) (this.cfg.trans hc)

end Sys2Proof.Machine
end

