-- ==== Sys2Proof/Laws/Memory.lean ====
section
/-! SUPPORT. Both memories keep their canonical form: it holds at reset, and every operation that writes host memory or
device memory keeps it. -/

-- Declarations are checked one after the other: each check that runs beside them asks for a large stack of its own.
set_option Elab.async false

namespace Sys2Proof.Machine

open Sys2Proof

/-- At reset both memories list nothing, which is the canonical form. -/
theorem reset_wf : Memory.wf State.reset.w.host = true ∧ Memory.wf State.reset.w.dev = true := ⟨rfl, rfl⟩

theorem tabove_filter {α : Type} {t : Tab α} {k : Nat} (p : Nat × α → Bool) (h : tabove k t = true) : tabove k (t.filter p) = true := by
  simp only [tabove, List.all_eq_true] at *
  exact fun e he => h e (List.mem_filter.mp he).1

/-- A table of which entries are dropped keeps the canonical form. -/
theorem twf_filter {α : Type} [DecidableEq α] {d : α} {t : Tab α} (p : Nat × α → Bool) (h : twf d t = true) : twf d (t.filter p) = true := by
  induction t with
  | nil => rfl
  | cons e r ih =>
    obtain ⟨k, v⟩ := e
    obtain ⟨h1, h2, h3⟩ := twf_cons.mp h
    by_cases hp : p (k, v) = true
    · rw [List.filter_cons_of_pos hp]; exact twf_cons.mpr ⟨h1, tabove_filter p h2, ih h3⟩
    · rw [List.filter_cons_of_neg hp]; exact ih h3

/-- `t` holds canonical memories if `s` does. -/
def KeepsForm (s t : State) : Prop :=
  (Memory.wf s.w.host = true → Memory.wf t.w.host = true) ∧ (Memory.wf s.w.dev = true → Memory.wf t.w.dev = true)

theorem KeepsForm.refl (s : State) : KeepsForm s s := ⟨id, id⟩
theorem KeepsForm.trans {s t u : State} (h : KeepsForm s t) (k : KeepsForm t u) : KeepsForm s u :=
  ⟨fun x => k.1 (h.1 x), fun x => k.2 (h.2 x)⟩
theorem KeepsForm.after {s t u : State} (k : KeepsForm t u) (h : KeepsForm s t) : KeepsForm s u := h.trans k
theorem KeepsForm.same {s t : State} (h : t.w.host = s.w.host) (d : t.w.dev = s.w.dev) : KeepsForm s t :=
  ⟨fun x => by rw [h]; exact x, fun x => by rw [d]; exact x⟩

theorem keeps_hostPut (s : State) (a : Nat) (bs : Bytes) : KeepsForm s (s.hostPut a bs) :=
  ⟨fun h => Memory.wf_mwrite a bs h, id⟩

theorem keeps_devWrite (j h buf off : Nat) (bs : Bytes) (s : State) : KeepsForm s (devWrite j h buf off bs s) :=
  ⟨id, fun d => Memory.wf_mwrite _ bs d⟩

/-! ### Reporting -/

theorem keeps_modQueue (s : State) (q : Nat) (f : Queue → Queue) : KeepsForm s (s.modQueue q f) := ⟨id, id⟩
theorem keeps_modJob (s : State) (j : Nat) (f : Job → Job) : KeepsForm s (s.modJob j f) := ⟨id, id⟩
theorem keeps_inflight (s : State) (f : List Run → List Run) : KeepsForm s (s.onW (fun w => { w with inflight := f w.inflight })) := ⟨id, id⟩
theorem keeps_setEv (s : State) (f : World → Ev) : KeepsForm s (s.onW (fun w => { w with ev := f w })) := ⟨id, id⟩

theorem keeps_once60 (s : State) (k : Nat) : KeepsForm s (s.once60 k).2 := by
  unfold State.once60; dsimp only; split <;> exact .same rfl rfl

theorem keeps_slSend (kind sev idx : Nat) (p : Bytes) (s : State) : KeepsForm s (slSend kind sev idx p s) := by
  unfold slSend; dsimp only
  split
  · exact .same rfl rfl
  · split <;> exact .same rfl rfl

theorem keeps_fireVector (v : Nat) (s : State) : KeepsForm s (fireVector v s) := by
  unfold fireVector; dsimp only; split <;> exact .same rfl rfl

theorem keeps_logAdd (cls unit job step : Nat) (loc : Loc) (s : State) : KeepsForm s (logAdd cls unit job step loc s).1 := by
  unfold logAdd; dsimp only
  repeat' (first | exact .same rfl rfl | exact KeepsForm.after (keeps_slSend _ _ _ _ _) (.same rfl rfl) | split)

theorem keeps_event (code unit job step data : Nat) (s : State) : KeepsForm s (event code unit job step data s) := by
  unfold event; dsimp only
  split
  · exact .refl s
  · split
    · exact .same rfl rfl
    · split
      · exact KeepsForm.after (keeps_fireVector _ _) (KeepsForm.after (keeps_setEv _ _) (keeps_hostPut s _ _))
      · exact KeepsForm.after (keeps_logAdd _ _ _ _ _ _) (keeps_setEv s _)

theorem keeps_logEvent (cls unit job step idx : Nat) (s : State) : KeepsForm s (logEvent cls unit job step idx s) := by
  unfold logEvent; split
  · exact .refl s
  · exact keeps_event _ _ _ _ _ _

theorem keeps_logBoth (cls unit job step : Nat) (loc : Loc) (s : State) : KeepsForm s (logBoth cls unit job step loc s) := by
  unfold logBoth; dsimp only; split
  · exact (keeps_logAdd _ _ _ _ _ _).trans (keeps_logEvent _ _ _ _ _ _)
  · exact keeps_logAdd _ _ _ _ _ _

theorem keeps_flt (cls unit job step : Nat) (loc : Loc) (s : State) : KeepsForm s (flt cls unit job step loc s) := by
  unfold flt
  refine (keeps_logBoth cls unit job step loc s).trans ?_
  generalize logBoth cls unit job step loc s = t
  unfold dropNote; dsimp only
  split
  · exact .refl _
  · split
    · exact (keeps_once60 _ _).trans (keeps_logBoth _ _ _ _ _ _)
    · exact .refl _

/-! ### A job's address space and replies -/

theorem keeps_jobWrite (s : State) (j dva : Nat) (bs : Bytes) : KeepsForm s (jobWrite s j dva bs).2 := by
  unfold jobWrite
  have key : ∀ (l : List (Nat × Nat)) (acc : Option (Nat × Nat × Nat) × State), KeepsForm s acc.2 →
      KeepsForm s (l.foldl (fun acc p => match acc with
        | (none, s) => (match xlate s j p.1 true with
          | .fault k g a => (some (k, g, a), s)
          | .at_ h => (none, s.hostPut h ((bs.drop (p.1 - dva)).take p.2)))
        | e => e) acc).2 := by
    intro l
    induction l with
    | nil => exact fun acc h => h
    | cons p r ih =>
      intro acc h
      refine ih _ ?_
      obtain ⟨o, t⟩ := acc
      cases o with
      | some e => exact h
      | none =>
        dsimp only
        split
        · exact h
        · exact h.trans (keeps_hostPut _ _ _)
  exact key _ _ (.refl s)

theorem keeps_pktWrite (s : State) (j a : Nat) (bs : Bytes) : KeepsForm s (pktWrite s j a bs).2 := by
  unfold pktWrite
  split
  · split
    · exact keeps_hostPut _ _ _
    · exact .refl s
  · exact keeps_jobWrite _ _ _ _

theorem keeps_ringWrite (q a : Nat) (bs : Bytes) (s : State) : KeepsForm s (ringWrite q a bs s).2 := by
  unfold ringWrite
  split
  · split
    · exact keeps_hostPut _ _ _
    · exact .refl s
  · exact keeps_jobWrite _ _ _ _

theorem keeps_haltQueue (q err : Nat) (s : State) : KeepsForm s (haltQueue q err s) := by
  unfold haltQueue; dsimp only
  exact KeepsForm.after (keeps_event _ _ _ _ _ _) (KeepsForm.after (keeps_flt _ _ _ _ _ _) (keeps_modQueue _ _ _))

theorem keeps_notePark (ch j kind a : Nat) (s : State) : KeepsForm s (notePark ch j kind a s) := by
  unfold notePark
  refine KeepsForm.after (keeps_flt _ _ _ _ _ _) ?_
  split
  · exact keeps_modJob _ _ _
  · exact .refl s

theorem keeps_pageRequest (j page : Nat) (s : State) : KeepsForm s (pageRequest j page s) := by
  unfold pageRequest; split <;> exact .same rfl rfl

theorem keeps_drainDone (q : Nat) (s : State) : KeepsForm s (drainDone q s) := by
  unfold drainDone; dsimp only; split <;> exact .same rfl rfl

theorem keeps_countReply (h : Hdr) (s : State) : KeepsForm s (countReply h s) := by
  unfold countReply; dsimp only
  refine KeepsForm.after (keeps_drainDone _ _) ?_
  split
  · exact ((keeps_modQueue s _ _).trans (keeps_modQueue _ _ _)).trans (keeps_fireVector _ _)
  · exact keeps_modQueue s _ _

theorem keeps_putReply (h : Hdr) (bs : Bytes) (s : State) : KeepsForm s (putReply h bs s) := by
  unfold putReply; dsimp only
  split
  · split
    · exact keeps_modQueue _ _ _
    · split
      · rename_i s1 heq
        have := keeps_ringWrite h.q ((s.queue h.q).rplBase + 32 * ((s.queue h.q).rplTail % 2 ^ (s.queue h.q).rplLog2))
          (withPhase bs (1 - (s.queue h.q).rplTail / 2 ^ (s.queue h.q).rplLog2 % 2)) s
        rw [heq] at this
        exact this.trans (keeps_countReply _ _)
      · split
        · exact ((keeps_notePark _ _ _ _ s).trans (keeps_modQueue _ _ _)).trans (keeps_pageRequest _ _ _)
        · exact ((keeps_notePark _ _ _ _ s).trans (keeps_modQueue _ _ _)).trans (keeps_haltQueue _ _ _)
  · exact (keeps_modQueue s _ _).trans (keeps_drainDone _ _)

theorem keeps_settleFences (n : Nat) (s : State) : KeepsForm s (settleFences n s) := by
  induction n generalizing s with
  | zero => exact .refl s
  | succ n ih =>
    unfold settleFences
    split
    · exact .refl s
    · exact KeepsForm.after (ih _) ((keeps_inflight s _).trans (keeps_putReply _ _ _))

theorem keeps_complete (r : Run) (status detail unit : Nat) (result : Bytes) (s : State) :
    KeepsForm s (complete r status detail unit result s) := by
  unfold complete; dsimp only
  exact KeepsForm.after (keeps_settleFences _ _) ((keeps_inflight s _).trans (keeps_putReply _ _ _))

theorem keeps_forAll {α : Type} (l : List α) (f : α → State → State) (hf : ∀ x s, KeepsForm s (f x s)) (s : State) :
    KeepsForm s (forAll l f s) := by
  unfold forAll
  induction l generalizing s with
  | nil => exact .refl s
  | cons x r ih => exact (hf x s).trans (ih _)

theorem keeps_completeAll (p : Run → Bool) (status detail unit : Nat) (result : Run → Bytes) (s : State) :
    KeepsForm s (completeAll p status detail unit result s) :=
  keeps_forAll _ _ (fun _ _ => keeps_complete _ _ _ _ _ _) s

/-! ### Device memory -/

theorem keeps_storeSyms (key tier : Nat) (syms : List (Nat × Nat)) (s : State) : KeepsForm s (storeSyms key tier syms s) := by
  unfold storeSyms; dsimp only
  split
  · exact .same rfl rfl
  · split
    · exact .same rfl rfl
    · split <;> exact ⟨id, fun d => Memory.wf_mwrite _ _ d⟩
  · exact .same rfl rfl

theorem keeps_setErr (s : State) (f : World → Err) : KeepsForm s (s.onW (fun w => { w with err := f w })) := ⟨id, id⟩
theorem keeps_setInject (s : State) (f : World → List (Nat × Nat × List (Nat × Nat))) :
    KeepsForm s (s.onW (fun w => { w with inject := f w })) := ⟨id, id⟩

theorem keeps_afterWrite (key n : Nat) (s : State) : KeepsForm s (afterWrite key n s) := by
  unfold afterWrite
  generalize ht : (if s.w.inject.isEmpty then s else s.onW (fun w => { w with
    inject := w.inject.filter (fun x => !(decide (x.1 < key + n) && decide (key < x.1 + x.2.1)) || s.badAt x.1 x.2.1) })) = t
  have h1 : KeepsForm s t := by
    rw [← ht]; split
    · exact .refl s
    · exact keeps_setInject s _
  dsimp only
  refine iteInduction (motive := KeepsForm s) (fun _ => ?_) (fun _ => h1)
  refine iteInduction (motive := KeepsForm s) (fun _ => ?_) (fun _ => h1)
  exact KeepsForm.after (keeps_storeSyms _ _ _ _) (KeepsForm.after (keeps_flt _ _ _ _ _ _) (h1.trans (keeps_setErr _ _)))

theorem keeps_setCk (s : State) (f : World → Ck) : KeepsForm s (s.onW (fun w => { w with ck := f w })) := ⟨id, id⟩

theorem keeps_abandonCkpt (status detail unit cls : Nat) (s : State) : KeepsForm s (abandonCkpt status detail unit cls s) := by
  unfold abandonCkpt ckptReply disarm
  exact KeepsForm.after (keeps_setCk _ _) (KeepsForm.after (keeps_setCk _ _)
    (KeepsForm.after (keeps_completeAll _ _ _ _ _ _) (keeps_flt _ _ _ _ _ _)))

theorem keeps_stageGranule (j h buf g : Nat) (s : State) : KeepsForm s (stageGranule j h buf g s) := by
  unfold stageGranule; dsimp only
  split
  · exact .refl s
  · split
    · exact keeps_abandonCkpt _ _ _ _ _
    · exact .same rfl rfl

theorem keeps_freshen (j h buf off n : Nat) (s : State) : KeepsForm s (freshen j h buf off n s) := by
  unfold freshen
  split
  · exact .refl s
  · split
    · exact .refl s
    · exact .same rfl rfl

/-- A write of a job's declaration keeps both memories in form. -/
theorem keeps_jobPut (j h buf off : Nat) (bs : Bytes) (s : State) : KeepsForm s (jobPut j h buf off bs s) := by
  unfold jobPut; dsimp only
  split
  · exact .refl s
  · refine KeepsForm.after (keeps_afterWrite _ _ _) (KeepsForm.trans ?_ (.same rfl rfl))
    exact KeepsForm.after (keeps_freshen _ _ _ _ _ _)
      ((keeps_forAll _ _ (fun g s => keeps_stageGranule j h buf g s) s).trans (keeps_devWrite _ _ _ _ _ _))

end Sys2Proof.Machine
end

