-- ==== Sys2Proof/Laws/PerInstr.lean ====
section
/-! SUPPORT. What holds of every command as it is written, command by command: the common fields of a well-formed Enrel
command fit their widths. -/

-- Declarations are checked one after the other: each check that runs beside them asks for a large stack of its own.
set_option Elab.async false

open Sys2Proof

/-- The common fields of a well-formed Enrel command fit their widths, and its queue exists (R263, R272). -/
def Sys2Proof.Laws.Heading.Statement (i : Instr) : Prop :=
  ∀ op h, Sys2Proof.Claims.heading i = some (op, h) → WellFormed i = true → h.ok = true

theorem Sys2Proof.Laws.Heading.nop (h : Hdr) :
    Sys2Proof.Laws.Heading.Statement (.nop h) := by
  intro op k e w
  cases e
  simp [WellFormed] at w
  simp [w]

theorem Sys2Proof.Laws.Heading.fence (h : Hdr) (scope : Nat) :
    Sys2Proof.Laws.Heading.Statement (.fence h scope) := by
  intro op k e w
  cases e
  simp [WellFormed] at w
  simp [w]

theorem Sys2Proof.Laws.Heading.jobCreate (h : Hdr) (job pasid flags : Nat) :
    Sys2Proof.Laws.Heading.Statement (.jobCreate h job pasid flags) := by
  intro op k e w
  cases e
  simp [WellFormed] at w
  simp [w]

theorem Sys2Proof.Laws.Heading.jobDestroy (h : Hdr) :
    Sys2Proof.Laws.Heading.Statement (.jobDestroy h) := by
  intro op k e w
  cases e
  simp [WellFormed] at w
  simp [w]

theorem Sys2Proof.Laws.Heading.jobPreempt (h : Hdr) :
    Sys2Proof.Laws.Heading.Statement (.jobPreempt h) := by
  intro op k e w
  cases e
  simp [WellFormed] at w
  simp [w]

theorem Sys2Proof.Laws.Heading.preemptBoundaryReached (job : Nat) :
    Sys2Proof.Laws.Heading.Statement (.preemptBoundaryReached job) := by
  intro op k e
  cases e

theorem Sys2Proof.Laws.Heading.preemptSaveDone (job : Nat) :
    Sys2Proof.Laws.Heading.Statement (.preemptSaveDone job) := by
  intro op k e
  cases e

theorem Sys2Proof.Laws.Heading.jobResume (h : Hdr) :
    Sys2Proof.Laws.Heading.Statement (.jobResume h) := by
  intro op k e w
  cases e
  simp [WellFormed] at w
  simp [w]

theorem Sys2Proof.Laws.Heading.resumeRestoreDone (job : Nat) :
    Sys2Proof.Laws.Heading.Statement (.resumeRestoreDone job) := by
  intro op k e
  cases e

theorem Sys2Proof.Laws.Heading.memMap (h : Hdr) (dva len host page access demand : Nat) :
    Sys2Proof.Laws.Heading.Statement (.memMap h dva len host page access demand) := by
  intro op k e w
  cases e
  simp [WellFormed] at w
  simp [w]

theorem Sys2Proof.Laws.Heading.memUnmap (h : Hdr) (dva len : Nat) :
    Sys2Proof.Laws.Heading.Statement (.memUnmap h dva len) := by
  intro op k e w
  cases e
  simp [WellFormed] at w
  simp [w]

theorem Sys2Proof.Laws.Heading.dmaCopy (h : Hdr) (src dst len srcH dstH : Nat) :
    Sys2Proof.Laws.Heading.Statement (.dmaCopy h src dst len srcH dstH) := by
  intro op k e w
  cases e
  simp [WellFormed] at w
  simp [w]

theorem Sys2Proof.Laws.Heading.dmaGranuleDone (ch granule : Nat) :
    Sys2Proof.Laws.Heading.Statement (.dmaGranuleDone ch granule) := by
  intro op k e
  cases e

theorem Sys2Proof.Laws.Heading.streamPark (ch granule kind : Nat) :
    Sys2Proof.Laws.Heading.Statement (.streamPark ch granule kind) := by
  intro op k e
  cases e

theorem Sys2Proof.Laws.Heading.tensorDeclare (h : Hdr) (addr : Nat) :
    Sys2Proof.Laws.Heading.Statement (.tensorDeclare h addr) := by
  intro op k e w
  cases e
  simp [WellFormed] at w
  simp [w]

theorem Sys2Proof.Laws.Heading.placeSet (h : Hdr) (addr : Nat) :
    Sys2Proof.Laws.Heading.Statement (.placeSet h addr) := by
  intro op k e w
  cases e
  simp [WellFormed] at w
  simp [w]

theorem Sys2Proof.Laws.Heading.placementReport (h : Hdr) (buf len which : Nat) :
    Sys2Proof.Laws.Heading.Statement (.placementReport h buf len which) := by
  intro op k e w
  cases e
  simp [WellFormed] at w
  simp [w]

theorem Sys2Proof.Laws.Heading.setLoad (h : Hdr) (addr len : Nat) :
    Sys2Proof.Laws.Heading.Statement (.setLoad h addr len) := by
  intro op k e w
  cases e
  simp [WellFormed] at w
  simp [w]

theorem Sys2Proof.Laws.Heading.stepRun (h : Hdr) (step seed list entries flags report : Nat) :
    Sys2Proof.Laws.Heading.Statement (.stepRun h step seed list entries flags report) := by
  intro op k e w
  cases e
  simp [WellFormed] at w
  simp [w]

theorem Sys2Proof.Laws.Heading.stepAbort (h : Hdr) :
    Sys2Proof.Laws.Heading.Statement (.stepAbort h) := by
  intro op k e w
  cases e
  simp [WellFormed] at w
  simp [w]

theorem Sys2Proof.Laws.Heading.modePrepare (h : Hdr) (epoch : Nat) :
    Sys2Proof.Laws.Heading.Statement (.modePrepare h epoch) := by
  intro op k e w
  cases e
  simp [WellFormed] at w
  simp [w]

theorem Sys2Proof.Laws.Heading.modeCommit (h : Hdr) (epoch step : Nat) :
    Sys2Proof.Laws.Heading.Statement (.modeCommit h epoch step) := by
  intro op k e w
  cases e
  simp [WellFormed] at w
  simp [w]

theorem Sys2Proof.Laws.Heading.collCompress (h : Hdr) (tensor mode k block : Nat) :
    Sys2Proof.Laws.Heading.Statement (.collCompress h tensor mode k block) := by
  intro op k e w
  cases e
  simp [WellFormed] at w
  simp [w]

theorem Sys2Proof.Laws.Heading.collRun (h : Hdr) (addr : Nat) :
    Sys2Proof.Laws.Heading.Statement (.collRun h addr) := by
  intro op k e w
  cases e
  simp [WellFormed] at w
  simp [w]

theorem Sys2Proof.Laws.Heading.ckptWrite (h : Hdr) (addr gen : Nat) :
    Sys2Proof.Laws.Heading.Statement (.ckptWrite h addr gen) := by
  intro op k e w
  cases e
  simp [WellFormed] at w
  simp [w]

theorem Sys2Proof.Laws.Heading.ckptCommitNotice (h : Hdr) (addr gen : Nat) :
    Sys2Proof.Laws.Heading.Statement (.ckptCommitNotice h addr gen) := by
  intro op k e w
  cases e
  simp [WellFormed] at w
  simp [w]

theorem Sys2Proof.Laws.Heading.ckptRestore (h : Hdr) (addr gen : Nat) :
    Sys2Proof.Laws.Heading.Statement (.ckptRestore h addr gen) := by
  intro op k e w
  cases e
  simp [WellFormed] at w
  simp [w]

theorem Sys2Proof.Laws.Heading.mirrorBind (h : Hdr) (node role : Nat) :
    Sys2Proof.Laws.Heading.Statement (.mirrorBind h node role) := by
  intro op k e w
  cases e
  simp [WellFormed] at w
  simp [w]

theorem Sys2Proof.Laws.Heading.benchCall (h : Hdr) (failed partner : Nat) :
    Sys2Proof.Laws.Heading.Statement (.benchCall h failed partner) := by
  intro op k e w
  cases e
  simp [WellFormed] at w
  simp [w]

theorem Sys2Proof.Laws.Heading.huddle (h : Hdr) (reason boundary : Nat) :
    Sys2Proof.Laws.Heading.Statement (.huddle h reason boundary) := by
  intro op k e w
  cases e
  simp [WellFormed] at w
  simp [w]

theorem Sys2Proof.Laws.Heading.umpireConfig (h : Hdr) (k table : Nat) :
    Sys2Proof.Laws.Heading.Statement (.umpireConfig h k table) := by
  intro op k e w
  cases e
  simp [WellFormed] at w
  simp [w]

theorem Sys2Proof.Laws.Heading.letReplay (h : Hdr) (step : Nat) :
    Sys2Proof.Laws.Heading.Statement (.letReplay h step) := by
  intro op k e w
  cases e
  simp [WellFormed] at w
  simp [w]

theorem Sys2Proof.Laws.Heading.selftest (h : Hdr) (scope set : Nat) :
    Sys2Proof.Laws.Heading.Statement (.selftest h scope set) := by
  intro op k e w
  cases e
  simp [WellFormed] at w
  simp [w]

theorem Sys2Proof.Laws.Heading.drillLoad (h : Hdr) (addr len : Nat) :
    Sys2Proof.Laws.Heading.Statement (.drillLoad h addr len) := by
  intro op k e w
  cases e
  simp [WellFormed] at w
  simp [w]

theorem Sys2Proof.Laws.Heading.linkDiscover (h : Hdr) (mask : Nat) :
    Sys2Proof.Laws.Heading.Statement (.linkDiscover h mask) := by
  intro op k e w
  cases e
  simp [WellFormed] at w
  simp [w]

theorem Sys2Proof.Laws.Heading.topologyPlan (h : Hdr) (addr len : Nat) :
    Sys2Proof.Laws.Heading.Statement (.topologyPlan h addr len) := by
  intro op k e w
  cases e
  simp [WellFormed] at w
  simp [w]

theorem Sys2Proof.Laws.Heading.foulArm (h : Hdr) (mask action rate ms : Nat) :
    Sys2Proof.Laws.Heading.Statement (.foulArm h mask action rate ms) := by
  intro op k e w
  cases e
  simp [WellFormed] at w
  simp [w]

theorem Sys2Proof.Laws.Heading.healthRead (h : Hdr) (buf len what : Nat) :
    Sys2Proof.Laws.Heading.Statement (.healthRead h buf len what) := by
  intro op k e w
  cases e
  simp [WellFormed] at w
  simp [w]

theorem Sys2Proof.Laws.Heading.powerSet (h : Hdr) (cap state : Nat) :
    Sys2Proof.Laws.Heading.Statement (.powerSet h cap state) := by
  intro op k e w
  cases e
  simp [WellFormed] at w
  simp [w]

theorem Sys2Proof.Laws.Heading.resetModule (h : Hdr) (kind : Nat) :
    Sys2Proof.Laws.Heading.Statement (.resetModule h kind) := by
  intro op k e w
  cases e
  simp [WellFormed] at w
  simp [w]

theorem Sys2Proof.Laws.Heading.reinstate (h : Hdr) (addr len : Nat) :
    Sys2Proof.Laws.Heading.Statement (.reinstate h addr len) := by
  intro op k e w
  cases e
  simp [WellFormed] at w
  simp [w]

theorem Sys2Proof.Laws.Heading.diagSnapshot (h : Hdr) (buf len unit : Nat) :
    Sys2Proof.Laws.Heading.Statement (.diagSnapshot h buf len unit) := by
  intro op k e w
  cases e
  simp [WellFormed] at w
  simp [w]

theorem Sys2Proof.Laws.Heading.diagTrace (h : Hdr) (unit on buf len : Nat) :
    Sys2Proof.Laws.Heading.Statement (.diagTrace h unit on buf len) := by
  intro op k e w
  cases e
  simp [WellFormed] at w
  simp [w]

theorem Sys2Proof.Laws.Heading.queueEnable (q value : Nat) :
    Sys2Proof.Laws.Heading.Statement (.queueEnable q value) := by
  intro op k e
  cases e

theorem Sys2Proof.Laws.Heading.queueDisable (q value : Nat) :
    Sys2Proof.Laws.Heading.Statement (.queueDisable q value) := by
  intro op k e
  cases e

theorem Sys2Proof.Laws.Heading.dbCmdTail (q tail : Nat) :
    Sys2Proof.Laws.Heading.Statement (.dbCmdTail q tail) := by
  intro op k e
  cases e

theorem Sys2Proof.Laws.Heading.dbRplHead (q head : Nat) :
    Sys2Proof.Laws.Heading.Statement (.dbRplHead q head) := by
  intro op k e
  cases e

theorem Sys2Proof.Laws.Heading.queueFetch :
    Sys2Proof.Laws.Heading.Statement (.queueFetch) := by
  intro op k e
  cases e

theorem Sys2Proof.Laws.Heading.coalesceTimer (q : Nat) :
    Sys2Proof.Laws.Heading.Statement (.coalesceTimer q) := by
  intro op k e
  cases e

theorem Sys2Proof.Laws.Heading.eventRingEnable (value : Nat) :
    Sys2Proof.Laws.Heading.Statement (.eventRingEnable value) := by
  intro op k e
  cases e

theorem Sys2Proof.Laws.Heading.unitEnWrite (k value : Nat) :
    Sys2Proof.Laws.Heading.Statement (.unitEnWrite k value) := by
  intro op k e
  cases e

theorem Sys2Proof.Laws.Heading.disabledUnitAccess (unit : Nat) (access : Access) :
    Sys2Proof.Laws.Heading.Statement (.disabledUnitAccess unit access) := by
  intro op k e
  cases e

theorem Sys2Proof.Laws.Heading.registerWrite (off width value : Nat) :
    Sys2Proof.Laws.Heading.Statement (.registerWrite off width value) := by
  intro op k e
  cases e

theorem Sys2Proof.Laws.Heading.apertureAccess (write : Bool) (ap off len : Nat) (data : Bytes) :
    Sys2Proof.Laws.Heading.Statement (.apertureAccess write ap off len data) := by
  intro op k e
  cases e

theorem Sys2Proof.Laws.Heading.stkRetrain (stack value : Nat) :
    Sys2Proof.Laws.Heading.Statement (.stkRetrain stack value) := by
  intro op k e
  cases e

theorem Sys2Proof.Laws.Heading.lkCmdRetrain (link : Nat) :
    Sys2Proof.Laws.Heading.Statement (.lkCmdRetrain link) := by
  intro op k e
  cases e

theorem Sys2Proof.Laws.Heading.tpPortDetourWrite (port value : Nat) :
    Sys2Proof.Laws.Heading.Statement (.tpPortDetourWrite port value) := by
  intro op k e
  cases e

theorem Sys2Proof.Laws.Heading.retGoAdd :
    Sys2Proof.Laws.Heading.Statement (.retGoAdd) := by
  intro op k e
  cases e

theorem Sys2Proof.Laws.Heading.retGoClear :
    Sys2Proof.Laws.Heading.Statement (.retGoClear) := by
  intro op k e
  cases e

theorem Sys2Proof.Laws.Heading.errGoArm :
    Sys2Proof.Laws.Heading.Statement (.errGoArm) := by
  intro op k e
  cases e

theorem Sys2Proof.Laws.Heading.atsTranslationCompletion (job host size phys access : Nat) (present : Bool) :
    Sys2Proof.Laws.Heading.Statement (.atsTranslationCompletion job host size phys access present) := by
  intro op k e
  cases e

theorem Sys2Proof.Laws.Heading.atsInvalidation (job host size : Nat) :
    Sys2Proof.Laws.Heading.Statement (.atsInvalidation job host size) := by
  intro op k e
  cases e

theorem Sys2Proof.Laws.Heading.prgResponse (job host code : Nat) :
    Sys2Proof.Laws.Heading.Statement (.prgResponse job host code) := by
  intro op k e
  cases e

theorem Sys2Proof.Laws.Heading.priTimeout (job host : Nat) :
    Sys2Proof.Laws.Heading.Statement (.priTimeout job host) := by
  intro op k e
  cases e

theorem Sys2Proof.Laws.Heading.powerApplied (clkSettle cxlSplit smbAddr : Nat) (slMode : Bool) (rsvd : Nat) :
    Sys2Proof.Laws.Heading.Statement (.powerApplied clkSettle cxlSplit smbAddr slMode rsvd) := by
  intro op k e
  cases e

theorem Sys2Proof.Laws.Heading.pwrEnLow :
    Sys2Proof.Laws.Heading.Statement (.pwrEnLow) := by
  intro op k e
  cases e

theorem Sys2Proof.Laws.Heading.underVoltage :
    Sys2Proof.Laws.Heading.Statement (.underVoltage) := by
  intro op k e
  cases e

theorem Sys2Proof.Laws.Heading.overVoltage :
    Sys2Proof.Laws.Heading.Statement (.overVoltage) := by
  intro op k e
  cases e

theorem Sys2Proof.Laws.Heading.refclkDetect :
    Sys2Proof.Laws.Heading.Statement (.refclkDetect) := by
  intro op k e
  cases e

theorem Sys2Proof.Laws.Heading.settleDone :
    Sys2Proof.Laws.Heading.Statement (.settleDone) := by
  intro op k e
  cases e

theorem Sys2Proof.Laws.Heading.pllLock :
    Sys2Proof.Laws.Heading.Statement (.pllLock) := by
  intro op k e
  cases e

theorem Sys2Proof.Laws.Heading.calibrationDone (common : Cal) (exceptions : List (Nat × Cal)) (cxl : List (Nat × Nat × Nat × Bool × Nat)) :
    Sys2Proof.Laws.Heading.Statement (.calibrationDone common exceptions cxl) := by
  intro op k e
  cases e

theorem Sys2Proof.Laws.Heading.refclkLoss (lock : Bool) :
    Sys2Proof.Laws.Heading.Statement (.refclkLoss lock) := by
  intro op k e
  cases e

theorem Sys2Proof.Laws.Heading.perstAssert :
    Sys2Proof.Laws.Heading.Statement (.perstAssert) := by
  intro op k e
  cases e

theorem Sys2Proof.Laws.Heading.perstRelease :
    Sys2Proof.Laws.Heading.Statement (.perstRelease) := by
  intro op k e
  cases e

theorem Sys2Proof.Laws.Heading.warmReset (cause unit detail : Nat) :
    Sys2Proof.Laws.Heading.Statement (.warmReset cause unit detail) := by
  intro op k e
  cases e

theorem Sys2Proof.Laws.Heading.flushTimeout (g : Gran) :
    Sys2Proof.Laws.Heading.Statement (.flushTimeout g) := by
  intro op k e
  cases e

theorem Sys2Proof.Laws.Heading.heartbeatWatchdog (core : Nat) :
    Sys2Proof.Laws.Heading.Statement (.heartbeatWatchdog core) := by
  intro op k e
  cases e

theorem Sys2Proof.Laws.Heading.stageWatchdog (unit die cell : Nat) :
    Sys2Proof.Laws.Heading.Statement (.stageWatchdog unit die cell) := by
  intro op k e
  cases e

theorem Sys2Proof.Laws.Heading.linkWatchdog (link : Nat) :
    Sys2Proof.Laws.Heading.Statement (.linkWatchdog link) := by
  intro op k e
  cases e

theorem Sys2Proof.Laws.Heading.queueWatchdog (job : Nat) :
    Sys2Proof.Laws.Heading.Statement (.queueWatchdog job) := by
  intro op k e
  cases e

theorem Sys2Proof.Laws.Heading.rateWindowEnd (die : Nat) (counts : List Nat) :
    Sys2Proof.Laws.Heading.Statement (.rateWindowEnd die counts) := by
  intro op k e
  cases e

theorem Sys2Proof.Laws.Heading.visitStart (job pos : Nat) :
    Sys2Proof.Laws.Heading.Statement (.visitStart job pos) := by
  intro op k e
  cases e

theorem Sys2Proof.Laws.Heading.streamItem (job strm mb idx flips side : Nat) :
    Sys2Proof.Laws.Heading.Statement (.streamItem job strm mb idx flips side) := by
  intro op k e
  cases e

theorem Sys2Proof.Laws.Heading.residueMismatch (job st prod mb tile : Nat) :
    Sys2Proof.Laws.Heading.Statement (.residueMismatch job st prod mb tile) := by
  intro op k e
  cases e

theorem Sys2Proof.Laws.Heading.tileReadout (job st prod mb tile cell : Nat) (err : List (Nat × Nat)) :
    Sys2Proof.Laws.Heading.Statement (.tileReadout job st prod mb tile cell err) := by
  intro op k e
  cases e

theorem Sys2Proof.Laws.Heading.sampleCompare (job st prod mb tile : Nat) (err : List (Nat × Nat)) :
    Sys2Proof.Laws.Heading.Statement (.sampleCompare job st prod mb tile err) := by
  intro op k e
  cases e

theorem Sys2Proof.Laws.Heading.thirdComputationDone (job st prod mb tile : Nat) (err : List (Nat × Nat)) :
    Sys2Proof.Laws.Heading.Statement (.thirdComputationDone job st prod mb tile err) := by
  intro op k e
  cases e

theorem Sys2Proof.Laws.Heading.lookupBag (job st mb bag : Nat) :
    Sys2Proof.Laws.Heading.Statement (.lookupBag job st mb bag) := by
  intro op k e
  cases e

theorem Sys2Proof.Laws.Heading.scatterRow (job st mb row : Nat) :
    Sys2Proof.Laws.Heading.Statement (.scatterRow job st mb row) := by
  intro op k e
  cases e

theorem Sys2Proof.Laws.Heading.stepBoundary (job : Nat) :
    Sys2Proof.Laws.Heading.Statement (.stepBoundary job) := by
  intro op k e
  cases e

theorem Sys2Proof.Laws.Heading.updateStageStart (job st : Nat) :
    Sys2Proof.Laws.Heading.Statement (.updateStageStart job st) := by
  intro op k e
  cases e

theorem Sys2Proof.Laws.Heading.rowOptimizerUpdate (job : Nat) :
    Sys2Proof.Laws.Heading.Statement (.rowOptimizerUpdate job) := by
  intro op k e
  cases e

theorem Sys2Proof.Laws.Heading.boundaryPlacement (job : Nat) (failed : List Nat) (cals : List (Nat × Cal)) :
    Sys2Proof.Laws.Heading.Statement (.boundaryPlacement job failed cals) := by
  intro op k e
  cases e

theorem Sys2Proof.Laws.Heading.modeApply (job unit : Nat) :
    Sys2Proof.Laws.Heading.Statement (.modeApply job unit) := by
  intro op k e
  cases e

theorem Sys2Proof.Laws.Heading.stepBarrierEntry (job : Nat) :
    Sys2Proof.Laws.Heading.Statement (.stepBarrierEntry job) := by
  intro op k e
  cases e

theorem Sys2Proof.Laws.Heading.stepBarrierExit (job : Nat) :
    Sys2Proof.Laws.Heading.Statement (.stepBarrierExit job) := by
  intro op k e
  cases e

theorem Sys2Proof.Laws.Heading.stepBarrierSlow (job : Nat) :
    Sys2Proof.Laws.Heading.Statement (.stepBarrierSlow job) := by
  intro op k e
  cases e

theorem Sys2Proof.Laws.Heading.stepCalledGood (job step : Nat) :
    Sys2Proof.Laws.Heading.Statement (.stepCalledGood job step) := by
  intro op k e
  cases e

theorem Sys2Proof.Laws.Heading.stepBarrierUp (job src step : Nat) (applied failed : Bool) (good count node : Nat) :
    Sys2Proof.Laws.Heading.Statement (.stepBarrierUp job src step applied failed good count node) := by
  intro op k e
  cases e

theorem Sys2Proof.Laws.Heading.stepBarrierDown (job step : Nat) (applied failed : Bool) (good count node : Nat) :
    Sys2Proof.Laws.Heading.Statement (.stepBarrierDown job step applied failed good count node) := by
  intro op k e
  cases e

theorem Sys2Proof.Laws.Heading.calledGoodUpdate (job src good : Nat) :
    Sys2Proof.Laws.Heading.Statement (.calledGoodUpdate job src good) := by
  intro op k e
  cases e

theorem Sys2Proof.Laws.Heading.huddleRequest (job src reason boundary good : Nat) :
    Sys2Proof.Laws.Heading.Statement (.huddleRequest job src reason boundary good) := by
  intro op k e
  cases e

theorem Sys2Proof.Laws.Heading.huddleUp (job src boundary count : Nat) :
    Sys2Proof.Laws.Heading.Statement (.huddleUp job src boundary count) := by
  intro op k e
  cases e

theorem Sys2Proof.Laws.Heading.huddleDown (job boundary count : Nat) :
    Sys2Proof.Laws.Heading.Statement (.huddleDown job boundary count) := by
  intro op k e
  cases e

theorem Sys2Proof.Laws.Heading.huddleTimeout (job : Nat) :
    Sys2Proof.Laws.Heading.Statement (.huddleTimeout job) := by
  intro op k e
  cases e

theorem Sys2Proof.Laws.Heading.preemptionNotice (job node front : Nat) :
    Sys2Proof.Laws.Heading.Statement (.preemptionNotice job node front) := by
  intro op k e
  cases e

theorem Sys2Proof.Laws.Heading.lostNotice (node : Nat) :
    Sys2Proof.Laws.Heading.Statement (.lostNotice node) := by
  intro op k e
  cases e

theorem Sys2Proof.Laws.Heading.substituteNotice (node place : Nat) :
    Sys2Proof.Laws.Heading.Statement (.substituteNotice node place) := by
  intro op k e
  cases e

theorem Sys2Proof.Laws.Heading.reelDataReceive (job stage mb serial crc pass first units fmt : Nat) (comp : Bool) (rank : Nat) (data : Bytes) :
    Sys2Proof.Laws.Heading.Statement (.reelDataReceive job stage mb serial crc pass first units fmt comp rank data) := by
  intro op k e
  cases e

theorem Sys2Proof.Laws.Heading.mirrorDeltaReceive (job step kind tensor items off good : Nat) (data : Bytes) :
    Sys2Proof.Laws.Heading.Statement (.mirrorDeltaReceive job step kind tensor items off good data) := by
  intro op k e
  cases e

theorem Sys2Proof.Laws.Heading.mirrorEndOfStep (job step good : Nat) :
    Sys2Proof.Laws.Heading.Statement (.mirrorEndOfStep job step good) := by
  intro op k e
  cases e

theorem Sys2Proof.Laws.Heading.mirrorAck (job step : Nat) (noRoom : Bool) :
    Sys2Proof.Laws.Heading.Statement (.mirrorAck job step noRoom) := by
  intro op k e
  cases e

theorem Sys2Proof.Laws.Heading.mirrorAnchor (job cut : Nat) :
    Sys2Proof.Laws.Heading.Statement (.mirrorAnchor job cut) := by
  intro op k e
  cases e

theorem Sys2Proof.Laws.Heading.mirrorSeed (job kind tensor off : Nat) (data : Bytes) (last : Bool) :
    Sys2Proof.Laws.Heading.Statement (.mirrorSeed job kind tensor off data last) := by
  intro op k e
  cases e

theorem Sys2Proof.Laws.Heading.hotStatePullRequest (job node step : Nat) :
    Sys2Proof.Laws.Heading.Statement (.hotStatePullRequest job node step) := by
  intro op k e
  cases e

theorem Sys2Proof.Laws.Heading.hotStatePullData (job kind section_ tensor items first step : Nat) (data : Bytes) :
    Sys2Proof.Laws.Heading.Statement (.hotStatePullData job kind section_ tensor items first step data) := by
  intro op k e
  cases e

theorem Sys2Proof.Laws.Heading.lazyRestoreBlock (job tensor block : Nat) (ckpt ok : Bool) (data : Bytes) :
    Sys2Proof.Laws.Heading.Statement (.lazyRestoreBlock job tensor block ckpt ok data) := by
  intro op k e
  cases e

theorem Sys2Proof.Laws.Heading.promenadeChunk (job chunk : Nat) :
    Sys2Proof.Laws.Heading.Statement (.promenadeChunk job chunk) := by
  intro op k e
  cases e

theorem Sys2Proof.Laws.Heading.copyBeforeWrite (job handle granule us : Nat) :
    Sys2Proof.Laws.Heading.Statement (.copyBeforeWrite job handle granule us) := by
  intro op k e
  cases e

theorem Sys2Proof.Laws.Heading.messageAck (src cls seq map : Nat) :
    Sys2Proof.Laws.Heading.Statement (.messageAck src cls seq map) := by
  intro op k e
  cases e

theorem Sys2Proof.Laws.Heading.ackDelayTimer (src : Nat) :
    Sys2Proof.Laws.Heading.Statement (.ackDelayTimer src) := by
  intro op k e
  cases e

theorem Sys2Proof.Laws.Heading.messageResendTimer (dst cls seq : Nat) :
    Sys2Proof.Laws.Heading.Statement (.messageResendTimer dst cls seq) := by
  intro op k e
  cases e

theorem Sys2Proof.Laws.Heading.linkSignalDetect (link : Nat) :
    Sys2Proof.Laws.Heading.Statement (.linkSignalDetect link) := by
  intro op k e
  cases e

theorem Sys2Proof.Laws.Heading.linkTrained (link : Nat) (ok : Bool) (ppmTenths : Int) :
    Sys2Proof.Laws.Heading.Statement (.linkTrained link ok ppmTenths) := by
  intro op k e
  cases e

theorem Sys2Proof.Laws.Heading.linkIdentity (link : Nat) (ident : Bytes) :
    Sys2Proof.Laws.Heading.Statement (.linkIdentity link ident) := by
  intro op k e
  cases e

theorem Sys2Proof.Laws.Heading.frameReceive (link : Nat) (frame : Bytes) (corrected bad : Nat) :
    Sys2Proof.Laws.Heading.Statement (.frameReceive link frame corrected bad) := by
  intro op k e
  cases e

theorem Sys2Proof.Laws.Heading.linkDeadTimer (link : Nat) :
    Sys2Proof.Laws.Heading.Statement (.linkDeadTimer link) := by
  intro op k e
  cases e

theorem Sys2Proof.Laws.Heading.linkRetryWindow (link : Nat) :
    Sys2Proof.Laws.Heading.Statement (.linkRetryWindow link) := by
  intro op k e
  cases e

theorem Sys2Proof.Laws.Heading.peerLostTimer (node : Nat) :
    Sys2Proof.Laws.Heading.Statement (.peerLostTimer node) := by
  intro op k e
  cases e

theorem Sys2Proof.Laws.Heading.timeSyncRequest :
    Sys2Proof.Laws.Heading.Statement (.timeSyncRequest) := by
  intro op k e
  cases e

theorem Sys2Proof.Laws.Heading.timeSyncReply (t1 t2 t3 t4 hops : Nat) (adj : Int) :
    Sys2Proof.Laws.Heading.Statement (.timeSyncReply t1 t2 t3 t4 hops adj) := by
  intro op k e
  cases e

theorem Sys2Proof.Laws.Heading.timeSyncLoss :
    Sys2Proof.Laws.Heading.Statement (.timeSyncLoss) := by
  intro op k e
  cases e

theorem Sys2Proof.Laws.Heading.foulDurationExpiry :
    Sys2Proof.Laws.Heading.Statement (.foulDurationExpiry) := by
  intro op k e
  cases e

theorem Sys2Proof.Laws.Heading.foulAuthExpiry :
    Sys2Proof.Laws.Heading.Statement (.foulAuthExpiry) := by
  intro op k e
  cases e

theorem Sys2Proof.Laws.Heading.stackTempSample (stack tenths : Nat) :
    Sys2Proof.Laws.Heading.Statement (.stackTempSample stack tenths) := by
  intro op k e
  cases e

theorem Sys2Proof.Laws.Heading.stackTrip (stack : Nat) :
    Sys2Proof.Laws.Heading.Statement (.stackTrip stack) := by
  intro op k e
  cases e

theorem Sys2Proof.Laws.Heading.stackHot2s (stack : Nat) :
    Sys2Proof.Laws.Heading.Statement (.stackHot2s stack) := by
  intro op k e
  cases e

theorem Sys2Proof.Laws.Heading.phaseSignal (count : Nat) :
    Sys2Proof.Laws.Heading.Statement (.phaseSignal count) := by
  intro op k e
  cases e

theorem Sys2Proof.Laws.Heading.pcRetrainDone (stack pc : Nat) (ok : Bool) (badLanes : List Nat) :
    Sys2Proof.Laws.Heading.Statement (.pcRetrainDone stack pc ok badLanes) := by
  intro op k e
  cases e

theorem Sys2Proof.Laws.Heading.lpddrTrip (pkg : Nat) :
    Sys2Proof.Laws.Heading.Statement (.lpddrTrip pkg) := by
  intro op k e
  cases e

theorem Sys2Proof.Laws.Heading.lpddrTripExit (pkg : Nat) :
    Sys2Proof.Laws.Heading.Statement (.lpddrTripExit pkg) := by
  intro op k e
  cases e

theorem Sys2Proof.Laws.Heading.cxlTimeout (dev : Nat) (g : Gran) :
    Sys2Proof.Laws.Heading.Statement (.cxlTimeout dev g) := by
  intro op k e
  cases e

theorem Sys2Proof.Laws.Heading.cxlLinkDown (dev : Nat) :
    Sys2Proof.Laws.Heading.Statement (.cxlLinkDown dev) := by
  intro op k e
  cases e

theorem Sys2Proof.Laws.Heading.powerSample (sample : Sample) :
    Sys2Proof.Laws.Heading.Statement (.powerSample sample) := by
  intro op k e
  cases e

theorem Sys2Proof.Laws.Heading.capNotHeld :
    Sys2Proof.Laws.Heading.Statement (.capNotHeld) := by
  intro op k e
  cases e

theorem Sys2Proof.Laws.Heading.dieTrip (die : Nat) :
    Sys2Proof.Laws.Heading.Statement (.dieTrip die) := by
  intro op k e
  cases e

theorem Sys2Proof.Laws.Heading.thermalSitoutTimer (still : Bool) :
    Sys2Proof.Laws.Heading.Statement (.thermalSitoutTimer still) := by
  intro op k e
  cases e

theorem Sys2Proof.Laws.Heading.sitOutEntry :
    Sys2Proof.Laws.Heading.Statement (.sitOutEntry) := by
  intro op k e
  cases e

theorem Sys2Proof.Laws.Heading.benchSignalDetect :
    Sys2Proof.Laws.Heading.Statement (.benchSignalDetect) := by
  intro op k e
  cases e

theorem Sys2Proof.Laws.Heading.sitOutExit :
    Sys2Proof.Laws.Heading.Statement (.sitOutExit) := by
  intro op k e
  cases e

theorem Sys2Proof.Laws.Heading.patrolScrub (found : List Scrub) :
    Sys2Proof.Laws.Heading.Statement (.patrolScrub found) := by
  intro op k e
  cases e

theorem Sys2Proof.Laws.Heading.demandScrub (found : Scrub) :
    Sys2Proof.Laws.Heading.Statement (.demandScrub found) := by
  intro op k e
  cases e

theorem Sys2Proof.Laws.Heading.sidelineHeartbeat :
    Sys2Proof.Laws.Heading.Statement (.sidelineHeartbeat) := by
  intro op k e
  cases e

theorem Sys2Proof.Laws.Heading.sidelineResend (seq : Nat) :
    Sys2Proof.Laws.Heading.Statement (.sidelineResend seq) := by
  intro op k e
  cases e

theorem Sys2Proof.Laws.Heading.sidelineAck (seq : Nat) :
    Sys2Proof.Laws.Heading.Statement (.sidelineAck seq) := by
  intro op k e
  cases e

theorem Sys2Proof.Laws.Heading.sidelineDrillChunk (seq : Nat) (payload : Bytes) :
    Sys2Proof.Laws.Heading.Statement (.sidelineDrillChunk seq payload) := by
  intro op k e
  cases e

theorem Sys2Proof.Laws.Heading.sidelineFirmwareChunk (seq : Nat) (payload : Bytes) :
    Sys2Proof.Laws.Heading.Statement (.sidelineFirmwareChunk seq payload) := by
  intro op k e
  cases e

theorem Sys2Proof.Laws.Heading.authReinstate (seq : Nat) (record : Bytes) :
    Sys2Proof.Laws.Heading.Statement (.authReinstate seq record) := by
  intro op k e
  cases e

theorem Sys2Proof.Laws.Heading.authFoul (seq : Nat) (record : Bytes) :
    Sys2Proof.Laws.Heading.Statement (.authFoul seq record) := by
  intro op k e
  cases e

theorem Sys2Proof.Laws.Heading.authEndExclusion (seq : Nat) (record : Bytes) :
    Sys2Proof.Laws.Heading.Statement (.authEndExclusion seq record) := by
  intro op k e
  cases e

theorem Sys2Proof.Laws.Heading.authReset (seq : Nat) (record : Bytes) :
    Sys2Proof.Laws.Heading.Statement (.authReset seq record) := by
  intro op k e
  cases e

theorem Sys2Proof.Laws.Heading.authWake (seq : Nat) (record : Bytes) :
    Sys2Proof.Laws.Heading.Statement (.authWake seq record) := by
  intro op k e
  cases e

theorem Sys2Proof.Laws.Heading.authEnrol (seq : Nat) (record : Bytes) :
    Sys2Proof.Laws.Heading.Statement (.authEnrol seq record) := by
  intro op k e
  cases e

theorem Sys2Proof.Laws.Heading.authProvision (seq : Nat) (record : Bytes) :
    Sys2Proof.Laws.Heading.Statement (.authProvision seq record) := by
  intro op k e
  cases e

theorem Sys2Proof.Laws.Heading.authSendOff (seq : Nat) (record : Bytes) :
    Sys2Proof.Laws.Heading.Statement (.authSendOff seq record) := by
  intro op k e
  cases e

theorem Sys2Proof.Laws.Heading.setEndpointId (op eid : Nat) :
    Sys2Proof.Laws.Heading.Statement (.setEndpointId op eid) := by
  intro op k e
  cases e

theorem Sys2Proof.Laws.Heading.getEndpointId :
    Sys2Proof.Laws.Heading.Statement (.getEndpointId) := by
  intro op k e
  cases e

theorem Sys2Proof.Laws.Heading.getMctpVersionSupport (typ : Nat) :
    Sys2Proof.Laws.Heading.Statement (.getMctpVersionSupport typ) := by
  intro op k e
  cases e

theorem Sys2Proof.Laws.Heading.getMessageTypeSupport :
    Sys2Proof.Laws.Heading.Statement (.getMessageTypeSupport) := by
  intro op k e
  cases e

theorem Sys2Proof.Laws.Heading.getVersion :
    Sys2Proof.Laws.Heading.Statement (.getVersion) := by
  intro op k e
  cases e

theorem Sys2Proof.Laws.Heading.getCapabilities :
    Sys2Proof.Laws.Heading.Statement (.getCapabilities) := by
  intro op k e
  cases e

theorem Sys2Proof.Laws.Heading.negotiateAlgorithms (asym hash : Nat) :
    Sys2Proof.Laws.Heading.Statement (.negotiateAlgorithms asym hash) := by
  intro op k e
  cases e

theorem Sys2Proof.Laws.Heading.getDigests :
    Sys2Proof.Laws.Heading.Statement (.getDigests) := by
  intro op k e
  cases e

theorem Sys2Proof.Laws.Heading.getCertificate (slot off len : Nat) :
    Sys2Proof.Laws.Heading.Statement (.getCertificate slot off len) := by
  intro op k e
  cases e

theorem Sys2Proof.Laws.Heading.challenge (slot : Nat) (nonce : Bytes) :
    Sys2Proof.Laws.Heading.Statement (.challenge slot nonce) := by
  intro op k e
  cases e

theorem Sys2Proof.Laws.Heading.getMeasurements (index : Nat) (signed : Bool) (nonce : Bytes) :
    Sys2Proof.Laws.Heading.Statement (.getMeasurements index signed nonce) := by
  intro op k e
  cases e

theorem Sys2Proof.Laws.Heading.wakeRelease :
    Sys2Proof.Laws.Heading.Statement (.wakeRelease) := by
  intro op k e
  cases e

theorem Sys2Proof.Laws.Heading.priCapabilityEnableWrite (en : Bool) :
    Sys2Proof.Laws.Heading.Statement (.priCapabilityEnableWrite en) := by
  intro op k e
  cases e

theorem Sys2Proof.Laws.Heading.packageTemperatureReport (pkg c : Nat) :
    Sys2Proof.Laws.Heading.Statement (.packageTemperatureReport pkg c) := by
  intro op k e
  cases e

theorem Sys2Proof.Laws.Heading.sidelineLinkChange (up : Bool) :
    Sys2Proof.Laws.Heading.Statement (.sidelineLinkChange up) := by
  intro op k e
  cases e

theorem Sys2Proof.Laws.Heading.dhcpv4Address (addr mask gateway : Nat) :
    Sys2Proof.Laws.Heading.Statement (.dhcpv4Address addr mask gateway) := by
  intro op k e
  cases e

theorem Sys2Proof.Laws.Heading.selftestComplete (cells links : List Nat) (hot : Bool) :
    Sys2Proof.Laws.Heading.Statement (.selftestComplete cells links hot) := by
  intro op k e
  cases e
end

