-- ==== Sys2Proof/Tests/Slice0.lean ====
section
/-! SUPPORT. The model's own tests: witnesses for the hypotheses of the obligations, an ill-formed term for each check of
WellFormed, and a few small tests. The theorems are checked one after the other, since each is evaluated by the kernel. -/

open Sys2Proof Sys2Proof.Machine

set_option Elab.async false

namespace Sys2Proof.Tests

/-! ### Small states -/

/-- A running queue with rings in the host. -/
def ring (job cls : Nat) : Queue :=
  { cmdBase := 0x10000, rplBase := 0x20000, cmdLog2 := 4, rplLog2 := 4, cls := cls, job := job, addrHost := true, state := 1 }
/-- A module in service with every unit enabled, queue 0, and queue 1 of the live job 1. -/
def up : State :=
  { ctl := { power := { phase := .run, reached := true, ready := true }, clk := { running := true, locked := true, frozen := false }, unitEn := 2 ^ 128 - 1 }
    w := { queues := [(0, ring 0xFF 0), (1, ring 1 1)], jobs := [(1, { live := true })] } }
/-- A packet of queue 0 that names no job, and one of queue 1 for job 1. -/
def h0 : Hdr := { q := 0, seq := 7, irq := false, job := 0xFFFF }
def h1 : Hdr := { q := 1, seq := 8, irq := false, job := 1 }
def off : State := up.modPower (fun p => { p with phase := .off })
def phase (p : Phase) : State := up.modPower (fun x => { x with phase := p })

/-- For each kind a sequence, the digest of its record as a number, and the key under which that number twice is the signature. -/
def sigs : List (Nat × Nat × Nat × Nat) := [
  (2, 0x1234A9EC11E4473DAE5830C6454C53E8F54958A78858763AB5B6880B0844B30C5CFA22EE31ADFFDE4D494AEADE0BA2F4,
    0x6D91612D8D78EB863ABAA410C66CF76ACDD54D5CF91C7442095AB48863F5B26BFFB0D2EEFC73A38C1ABCE731BB32AA8E,
    0xDE41AB63D13ABC582E69491FD3FBBFD2665D7D41F29447EBF34D445BAB630D158F7DA96D65973C52F415526CCB0E3265),
  (1, 0x4F2DD4A040CF100111D46D1BB0148E897D09BE50F00DB400492C7F7D57491D4EEF37CB526EEC460560C5718C8AB94034,
    0x51D261C16E16EF40306F63AB693F573A272816C0AF63175CA766EB560CCBEF4F69D78A8C5817FE19D4CF827B6EB25971,
    0x1E8FA9132A05AAC321CE2D9CC35EC1119C2AD631D7D1256CD0AC5C16A1A2817905E0FBF376A9FE0604DB57F834377D95),
  (3, 0x408B4D638FAFE752F524FB521CCD2F667E53EF4A547ACD87AA5C357AF921B43E2DD00D6A2F88056B91657E70C0678597,
    0xD0F9BD3CED195E36D15F00CBF4F976C19A8D82A61DBE9EDB8FA388229ED8E5B3F8F8D324AE04BF25E2E34EFE2BCE0731,
    0x3AC9C98E584EACFB6ADA77B0CE32565C43A45CD71ADC5150E22AE121FBF815A8C054E5D6554C524E10699A107596A4D3),
  (3, 0x2B3BD773183AE0867DE60F6CB0FA75C52FB40E0B11C4FCDDCC35D6191B50F6D137209EB77FC298F4678E5B0D8816BFAF,
    0x885D70236915D26EFC8BC125F45D7469F6A94E3463DF8E7DEC89B0681B6A70AB2C3D08EAB1BEA774B40AF98ACF6D7241,
    0xEFEAB64F5AE920563EA22C05A982576AB1DCE5FAA3CAFD6146B3ECBFC9CDB7333A502CE1AC11AC1EAF8523CBA9C2505F),
  (2, 0x6C5C78327E7F5D0A20BA0C176357C22F1E649144CD2FB0E05165FF6E89341D35E4686D424EAD6ABCA34E4311AD5D1CCA,
    0x69141A2601466E31C6AA125A77CB6E2E38787867BBD9F28792FB0E8A676F34A27AB12AC84F40BA5641523DBACA4155CC,
    0x81C9507E53A2C3411F56C2EF2706D153E5C531537952C93020E3E2DD89E70A19787278DBB3DA9BDFFB7DE75124DBC87D),
  (2, 0xD6044B46C57007D861F3F4B1F29A892B40A16B149BD726BC2BF37B279F3F9B7B91C32E0ED381758DD20C9D6DE37E651C,
    0x41804E8D99B30AD94F1DF3E562FBA0F22BAF77286342A6CE61F86B488BD53D822D3FBA9D11A268EEB304053E5CD2F455,
    0x1537AABD32BF8877630D993FE1C5BD9CB75EA9A2836EA13ACA17EB39CCBA1DB95133D122F916AA8F31CB07D83765A384),
  (1, 0x5E5ADC8B46BE5CA0E0049F3F88D9333CCCE39C8C8F6B597ADB27730E6131313D74676BD7F0F477D4A930F6B8E7DD03FA,
    0xD5FF6870D93D9DE56F4B5A5BBA4EFD3734B1F0B35E81AD22E72E9DD7BE6BD4C81EE6750CE74833B681E59C4451C1F477,
    0x1B2AAFD6315D6CFAE25C658A70C8DAB7CDEE0D4D3A53D54513066AD71BA1EAD1874F1F0A45AD6595C7C8F6958E386EAE),
  (1, 0xFFB9DA3071DB5C0EDA2BE5B83217C0C8629D2B94B0E68F3D9B8186EACD1316A8BA702BB11C5A72B35803921ECE652103,
    0x14A92B839FE365495CA34A97366A6D7F2D83D8C56A007FFDEBBA35ADE95BC23136FDFAAA807D77EEEAE92AB8438ECF98,
    0x2091C5E21F17D10F55AA85F719E8F4AA69692D0A2399C674C15310D244FFAAB5D0C563DD8098E3B60DE10EE5C03C3D3A)]
def sigOf (kind : Nat) : Nat × Nat × Nat × Nat := sigs.getD (kind - 1) (0, 0, 0, 0)
/-- A record of a kind with its argument and body, signed. -/
def authRec (kind arg : Nat) (body : Bytes) : Bytes :=
  layout [(4, 0x48545541), (2, 1), (1, kind), (1, 1), (8, 0), (8, (sigOf kind).1), (8, arg)] ++ zeros 32 ++ padTo 96 body ++
    beBytes 48 (sigOf kind).2.1 ++ beBytes 48 (sigOf kind).2.1
/-- A state whose fleet key signed the record of a kind. -/
def keyed (kind : Nat) (s : State) : State := s.modSl (fun x => { x with fleetKey := some (sigOf kind).2.2, link := true })

/-- A tensor of 4,096 FP32 elements, declared by job 1 under handle 1. -/
def tensor : Decl := { fmt := 1, count := 4096, rowLen := 64 }
/-- 64 KiB of host memory mapped at 0x10000 for reading and writing. -/
def mapped : Mapping := { job := 1, dva := 0x10000, len := 0x10000, host := 0x100000, page := 0, access := 3, demand := true }
def mem : State := (up.modJob 1 (fun b => { b with decls := [(1, tensor)] })).onW (fun w => { w with mmu := { w.mmu with maps := [mapped] } })
def chans (n : Nat) (x : Chan) (s : State) : State := s.onW (fun w => { w with dma := (List.range n).map (fun c => (c, x)) })
/-- A stream of job 1 from the host to its tensor. -/
def stream (done total : Nat) : Chan := { state := 1, job := 1, done := done, total := total, len := 4096 * (total - 1) + 64, src := ⟨0, 0x10000⟩, dst := ⟨1, 0⟩ }
def window (s : State) : State := s.onW (fun w => { w with mmu := { w.mmu with ap := [(15, { handle := 1, job := 1, en := true })] } })
/-- Job 1 runs a step. -/
def stepping (r : StepRun) (s : State) : State := (s.modJob 1 (fun b => { b with run := some r })).onW (fun w => { w with holder := some 1 })
def inflight (x : Run) (s : State) : State := s.onW (fun w => { w with inflight := [x], ordNext := 1 })
def quarters (s : State) : State := forAll (List.range 4) (fun i s => s.setChan (120 + i) { state := 1, user := 4, job := 1 }) s

theorem only {α : Type} {p : α → Prop} {o : Option α} {a : α} (h : o = some a) (hp : p a) : ∀ c, o = some c → p c := by
  intro c hc; rw [h] at hc; cases hc; exact hp
theorem never {α : Type} {p : α → Prop} {o : Option α} (h : o = none) : ∀ c, o = some c → p c := by
  intro c hc; rw [h] at hc; cases hc

/-- A set of one product stage of one FP32 element: activations from tensor 1, the weight tensor 2, the output to tensor 3. -/
def figure : Bytes := layout [(4, 0), (1, 8)] ++ zeros 27
def image : Bytes :=
  layout [(4, 0x47544553), (2, 1), (2, 128), (4, 384), (4, 1), (2, 1), (2, 2), (2, 3), (2, 1), (4, 128), (4, 192), (4, 256), (4, 320), (8, 0), (2, 1), (1, 0), (1, 0), (2, 0), (2, 0)] ++ zeros 72 ++
  layout [(2, 0), (1, 1), (1, 0), (2, 0), (2, 0), (2, 0xFFFF), (2, 0xFFFF), (4, 0), (4, 1), (4, 1), (4, 1), (4, 1), (2, 2)] ++ zeros 30 ++
  layout [(2, 0), (2, 0xFFFF), (1, 0), (1, 0), (2, 0), (2, 1), (1, 1), (1, 0), (4, 1), (4, 1), (2, 0)] ++ zeros 10 ++
  layout [(2, 1), (2, 0), (1, 0), (1, 0), (2, 0xFFFF), (2, 3), (1, 1), (1, 0), (4, 1), (4, 1), (2, 0)] ++ zeros 10 ++
  layout [(2, 1), (1, 0), (1, 1), (4, 1), (8, 4096), (2, 2), (1, 1), (1, 1), (4, 2), (8, 4096), (2, 3), (1, 4), (1, 1), (4, 3), (8, 4096)] ++ zeros 16 ++
  layout [(2, 0), (1, 1), (1, 1), (2, 64), (2, 0), (4, 0x100), (1, 1), (1, 1), (1, 0), (1, 0), (4, crc32 figure)] ++ zeros 12 ++ figure
def three : State := mem.modJob 1 (fun b => { b with decls := [(1, tensor), (2, tensor), (3, tensor)] })
def imaged : State := three.hostPut 0x100000 image
def set : SetImg := parseSet image
def placed : Place := { p := 1, v := 1, rows := [0], chunks := [[0]] }
/-- Job 1 runs a step of the set. -/
def inStep (r : StepRun) : State := stepping r (three.modJob 1 (fun b => { b with cur := some set, place := placed, nextStep := some 1 }))
def ctx (s : State) : Ctx := ⟨s, 1, s.job 1, (s.job 1).cur.getD {}, (s.job 1).run.getD {}⟩
/-- The activation of the product has arrived, and its visit has started. -/
def arrived : StepRun := { visits := [(0, 1)], admitted := 1, items := [{ payload := zeros 64 }] }

theorem pair_of {α β : Type} {o : Option (α × β)} (h : o.isSome = true) : o = some ((o.get h).1, (o.get h).2) := by
  cases o with
  | none => cases h
  | some x => rfl
def again : State := imaged.modJob 1 (fun b => { b with cur := some (loadImage image) })
def other : State := imaged.modJob 1 (fun b => { b with cur := some { digest := 1 } })
def elsewhere : State := imaged.onW (fun w => { w with holder := some 2 })
theorem image_headed : Sys2Proof.Claims.headed image := ⟨by decide +kernel, Or.inl (by decide +kernel)⟩
theorem image_record : firstBad (recordChecks (loadImage image) (setTables image (Sys2Proof.Claims.chkLen image) (Sys2Proof.Claims.planLen image))) = none := by decide +kernel
theorem image_format : firstBad (formatChecks (loadImage image)) = none := by decide +kernel
theorem image_graph : firstBad (graphChecks (loadImage image) (fld image 28 4)) = none := by decide +kernel
theorem image_read {s : State} (r : Ready 0x0301 h1 s) (p : pktRead (counted h1 s) 1 0x10000 384 = .ok image) : Sys2Proof.Claims.imageRead h1 0x10000 384 image s :=
  ⟨r, by decide, p, by decide +kernel⟩
theorem image_loads {s : State} (c : ∀ c, (s.job 1).cur = some c → c.digest ≠ (loadImage image).digest) (g : ∀ c, (s.job 1).staged = some c → c.digest ≠ (loadImage image).digest)
    (d : firstBad (declaredChecks (counted h1 s) 1 (loadImage image)) = none) (u : ∀ u ∈ setUnits (loadImage image), s.unitOn u = true)
    (r : (s.job 1).run = none) : Sys2Proof.Claims.loadable h1 image s :=
  ⟨image_headed, c, g, image_record, by decide +kernel, image_format, image_graph, d, u, r⟩

/-- A step whose visits are both done. -/
def done : StepRun := { arrived with visits := [(0, 2)], tiles := [{ done := true, out := [0] }], items := [{ payload := zeros 64 }, { strm := 1, payload := zeros 64 }] }
def fin : State := inStep done
/-- Job 1 stands at beat 5 before a boundary at which a staged mode is to take effect. -/
def md : State := (stepping { phase := .beats 5 } up).modJob 1 (fun b => { b with stagedMode := some { epoch := 2 }, commit := some 1 })

/-- A drill image of one pattern record, in host memory. -/
def drilled : State := (up.hostPut 0x3000 (layout [(4, 0x4C4C5244), (2, 1), (1, 7), (1, 0), (4, 1184), (2, 1), (2, 0), (4, 1184)])).hostPut 0x3080 [1, 1]

theorem pair {α β : Type} {p : α × β} {a : α} (h : p.1 = a) : p = (a, p.2) := by rw [← h]
/-- Job 1 has a current set of no stages. -/
def bare : State := mem.modJob 1 (fun b => { b with cur := some {} })

theorem ctx_of {s : State} (h : (s.job 1).cur.isSome = true) (k : (s.job 1).run.isSome = true) : ctxOf s 1 = some (ctx s) := by
  unfold ctxOf ctx
  cases h1 : (s.job 1).cur with
  | none => rw [h1] at h; cases h
  | some t => cases h2 : (s.job 1).run with
    | none => rw [h2] at k; cases k
    | some r => simp
/-- A collective descriptor of 64 FP32 elements. -/
def coll (op src dst : Nat) : Bytes :=
  layout [(2, 1), (1, op), (1, 0), (4, src), (4, dst), (8, 64), (1, 1), (1, 0), (2, 0), (4, 0x010101), (4, 0x010101), (8, 0)] ++ zeros 24
def exchange (op : Nat) : SetImg := { img := coll op 1 1, stages := [{ typ := 0x30 }] }
def exchanging (op : Nat) : State := up.modJob 1 (fun b => { b with cur := some (exchange op) })
def toldColl : State := three.hostPut 0x100000 (coll 1 1 2)
def withPlan (s : State) : State := s.onW (fun w => { w with topo := { w.topo with jobPlan := some { ex := 1, ey := 1, ez := 1 } } })
def tile0 : Tile := { done := true, out := [0] }
def samp0 : Samp := { work := 0, checker := 20, res := [1], truth := [1] }
def sampled (x : Samp) : State := up.modJob 1 (fun b => { b with samps := [x] })

def started : StepRun := { visits := [(0, 1)], admitted := 1 }
def resent : StepRun := { started with resent := [(0, 0, 0)] }

def twice : StepRun := { arrived with tiles := [{ redo := 2 }] }
/-- Tables: a set of a lookup stage that pools rows of table 4 and a scatter stage over it, with descriptors at bytes 64 and 128. -/
def tableSet : SetImg :=
  { img := zeros 64 ++ layout [(2, 1), (1, 0), (1, 0), (2, 1), (2, 2), (2, 0)] ++ zeros 54 ++ layout [(2, 1), (1, 1), (1, 0), (2, 0)] ++ zeros 58
    stages := [{ typ := 0x20, par := layout [(2, 4), (2, 0), (4, 1), (4, 16), (4, 64)] }, { idx := 1, typ := 0x21, fig := 1, par := layout [(2, 4), (2, 0), (4, 128)] }]
    streams := [{ src := 0, dst := 1, tensor := 5, fmt := 1, rows := 1, len := 16 }]
    tensors := [{ id := 1, fmt := 1, handle := 1, count := 4096 }, { id := 2, fmt := 1, handle := 2, count := 4096 }, { id := 4, role := 5, fmt := 1, handle := 4, count := 8 }]
    figs := [{ kind := 3, oFmt := 1, body := [0, 1] }, { idx := 1, kind := 3, aFmt := 1, body := [0, 0] }] }
def table : Decl := { kind := 1, fmt := 1, count := 8, rowLen := 16, style := 4 }
def pooling (r : StepRun) : State := stepping r (three.modJob 1 (fun b => { b with
  cur := some tableSet, place := placed, decls := [(1, tensor), (2, tensor), (4, table)] }))
def gradient : StepRun := { visits := [(0, 1)], admitted := 1, items := [{ payload := zeros 64 }] }
def scattered : StepRun := { gradient with rows := [(1, 0x10, 0, 0, {})] }

/-- A set of one update stage over tensor 1 with the gradient tensor 2. -/
def updateSet : SetImg :=
  { stages := [{ typ := 0x40, par := layout [(2, 1), (2, 2), (4, 0), (8, 64)] }]
    tensors := [{ id := 1, role := 1, fmt := 1, handle := 1, count := 4096 }, { id := 2, role := 6, fmt := 1, handle := 2, count := 4096 }]
    figs := [{ kind := 2, oFmt := 1 }] }
def updating (r : StepRun) : State := stepping r (three.modJob 1 (fun b => { b with cur := some updateSet, decls := [(1, { tensor with dbl := true }), (2, tensor)] }))
def beat2 : StepRun := { phase := .beats 2 }
def acc0 : Acc := { stage := 1, table := 4, row := 7, count := 1, sums := List.replicate 16 0 }
def summed (s : State) : State := s.modJob 1 (fun b => { b with accs := [acc0] })
def roomy (s : State) : State := s.onW (fun w => { w with cxl := [(0, { present := true, linkUp := true, mapped := 8 })] })

def oldGood : State := (updating { beat2 with step := 9 }).modJob 1 (fun b => { b with lastGood := some 1 })

/-- Job 1 with a barrier entry and one huddle. -/
def barred (x : Bar) (s : State) : State := s.onW (fun w => { w with reel := { w.reel with bars := [x] } })
def huddled (x : Hud) (s : State) : State := s.onW (fun w => { w with reel := { w.reel with huds := [x] } })
def beat5 : StepRun := { step := 1, phase := .beats 5 }
def waits : StepRun := { step := 1, phase := .barrier }
def own1 : Ent := { step := 1, good := 0, node := 7 }
/-- Two members along X: node 7 at (0, 0, 0) and node 8 at (1, 0, 0), partners of each other. -/
def pair2 : Plan := { kind := 1, ex := 2, ey := 1, ez := 1, places := [⟨7, 0, 0, 0, 8, 9⟩, ⟨8, 1, 0, 0, 7, 0xFFFF⟩] }
def asNode (n : Nat) : State := (up.modJob 1 (fun b => { b with cur := some set })).onW (fun w => { w with holder := some 1, topo := { w.topo with node := n, jobPlan := some pair2 } })
def ended1 : Jrn := { step := 1, ended := true }
def journal (l : List Jrn) : State := up.modJob 1 (fun b => { b with jrn := l })

/-- Link 0 of the module with no plan in force. -/
def linked (k : Lk) : State := up.modLink 0 (fun _ => k)
/-- Node 7 expects node 8 at port 0, which groups links 0 to 2. -/
def planned (s : State) : State := s.onW (fun w => { w with topo := { w.topo with node := 7, plan := some { node := 7, master := 9, ports := [⟨0, 1, 0x7, 8⟩] } } })
def peer : Bytes := layout [(2, 8), (1, 0), (1, 1), (1, 2), (1, 0), (2, 0), (8, 5)] ++ beBytes 32 (beNum (planDigest (planned up))) ++ zeros 16
def allUp : State := forAll (List.range 24) (fun l s => s.modLink l (fun k => { k with state := 3 })) up

/-- A frame of zeros with a control word. -/
def frame0 (ctl : Nat) : Bytes := zeros 2560 ++ leBytes 10 ctl
theorem crc_zeros (n ctl k : Nat) : crc16 (zeros n) ctl k = crc16 [] ctl k := by
  have h : ∀ n, (List.replicate n (0 : Byte)).foldl (fun c b => (List.range 8).foldl (fun c i => crc16Bit c (bit b.toNat (7 - i))) c) 0 = 0 := by
    intro n
    induction n with
    | zero => rfl
    | succ n ih => rw [List.replicate_succ, List.foldl_cons]; exact ih
  unfold crc16 zeros
  rw [h n]; rfl
theorem frame_data (c : Nat) : (frame0 c).take 2560 = zeros 2560 := List.take_left' (List.length_replicate ..)
theorem frame_word (c : Nat) : ((frame0 c).drop 2560).take 10 = (leBytes 10 c).take 10 := congrArg (List.take 10) (List.drop_left' (List.length_replicate ..))
theorem frame_good (c : Nat) (h : frameCrc [] (leNum ((leBytes 10 c).take 10)) = bits (leNum ((leBytes 10 c).take 10)) 67 52) :
    (frame0 c).length = 2570 ∧ frameCrc ((frame0 c).take 2560) (leNum (((frame0 c).drop 2560).take 10)) = bits (leNum (((frame0 c).drop 2560).take 10)) 67 52 := by
  rw [frame_data, frame_word]
  refine ⟨?_, Eq.trans (crc_zeros _ _ _) h⟩
  rw [frame0, List.length_append, zeros, List.length_replicate]
  simp [leBytes]
theorem frame_bits {c : Nat} {p : Nat → Prop} (h : p (leNum ((leBytes 10 c).take 10))) : p (leNum (((frame0 c).drop 2560).take 10)) := by
  rw [frame_word]; exact h
def kept (m : Msg) : State := up.onW (fun w => { w with msgs := { w.msgs with kept := [m] } })
def mate : Msg := { dst := 8, cls := 3, seq := 5 }

/-- The plan image of node 7 with one port entry, at 0x10000 of the host. -/
def planImg : Bytes :=
  layout [(4, 0x4E414C50), (2, 1), (1, 0), (1, 0), (4, 80), (2, 1), (2, 0), (2, 7), (2, 9), (1, 0), (1, 0), (1, 0), (1, 0), (2, 0)] ++ zeros 38 ++
  layout [(1, 0), (1, 1), (2, 0), (4, 7), (2, 8), (6, 0)]
def told (s : State) : State := s.hostPut 0x10000 planImg
def fouled (a : Bool) : State := up.onW (fun w => { w with sl := { w.sl with foulAuth := a } })

/-- Port 6 leads to node 8 over four links. -/
def partner (s : State) : State := forAll [18, 19, 20, 21] (fun l s => s.modLink l (fun k => { k with state := 3, peerNode := 8 })) s
def outTo (o : Nat) (s : State) : State := s.onW (fun w => { w with mr := { w.mr with out := o, outNode := 8 } })
/-- The module holds the mirror of node 8. -/
def holds : State := up.onW (fun w => { w with mr := { w.mr with inn := 2, inNode := 8, pendGib := 1 } })
def wide (s : State) : State := s.onW (fun w => { w with cxl := [(0, { present := true, linkUp := true, mapped := 512 })] })

/-! ### A checkpoint slot of one member with an empty shard: header at 0x10000, record after it, progress at 0x11000, data at 0x12000 -/
/-- SHA-256 of 4,097 zero bytes, and of the record below. -/
def leaf0 : Bytes := leBytes 32 76208649120440791510593618082278700220648308125754111536024428750139639367605
def recsSum : Bytes := leBytes 32 2411498632064799223300975065756184137112001588174656218694978129588024799403
def recs0 : Bytes := zeros 40 ++ layout [(8, 0x12000), (8, 0x11000)] ++ leaf0 ++ zeros 40
def slotHd : Bytes := layout [(4, 0), (2, 1), (2, 1), (4, 2), (4, 2), (8, 0), (1, 1), (1, 1), (1, 1)] ++ zeros 5 ++ leBytes 32 0x55 ++ recsSum ++ zeros 160
def prog0 : Bytes := layout [(4, 1), (4, 4096), (8, 0)] ++ leaf0 ++ zeros 16
def cells (a : Nat) (bs : Bytes) : Memory := (bs.zipIdx.filter (fun e => e.1 != 0)).map (fun e => (a + e.2, e.1))
def hosting (m : Memory) (s : State) : State := s.onW (fun w => { w with host := m })
def slotted : State :=
  hosting (cells 0x100000 slotHd ++ cells 0x100100 recs0 ++ cells 0x101000 prog0) (mem.modJob 1 (fun b => { b with cur := some { digest := 0x55 } }))
def desc (op size : Nat) : Bytes := layout [(2, 1), (1, op), (1, 0), (4, 0), (8, 0), (8, 0x12000), (8, size), (8, 0x11000), (8, 0x10000), (8, 0), (8, 0)]
def descAt (d : Bytes) (s : State) : State := hosting (s.w.host ++ cells 0x104000 d) s
def ck (c : Ck) (s : State) : State := s.onW (fun w => { w with ck := c })

def writing : State := ck { state := 1, armed := true, job := 1, gen := 2, desc := desc 0 8192 } mem
theorem none_of {α : Type} {p : Option (Nat × Nat × Nat) × α} (h : p.1.isNone = true) : p = (none, p.2) := by
  obtain ⟨a, b⟩ := p
  cases a with
  | none => rfl
  | some _ => cases h
theorem leaf_zeros : leafDigest (zeros 4096) = leaf0 := by decide +kernel
theorem tget_none {m : Memory} {a : Nat} (h : ∀ e ∈ m, e.1 ≠ a) : mget m a = 0 := by
  induction m with
  | nil => rfl
  | cons e r ih =>
    show (if e.1 = a then e.2 else tget 0 r a) = 0
    rw [if_neg (h e (List.mem_cons_self ..))]; exact ih (fun x hx => h x (List.mem_cons_of_mem _ hx))
theorem mread_above {m : Memory} : ∀ (n a : Nat), (∀ e ∈ m, e.1 < a) → mread m a n = zeros n := by
  intro n
  induction n with
  | zero => intro a _; rfl
  | succ n ih =>
    intro a h
    have h0 : mget m a = 0 := tget_none (fun e he => Nat.ne_of_lt (h e he))
    show mget m a :: mread m (a + 1) n = zeros (n + 1)
    rw [h0, ih (a + 1) (fun e he => Nat.lt_succ_of_lt (h e he))]; rfl
theorem chunk0 : jobRead (counted h1 slotted) 1 (fld ((recs0.drop (128 * 0)).take 128) 40 8 + fld prog0 8 8) (fld prog0 4 4) = .ok (zeros 4096) := by
  have hp : piecesOf (fld ((recs0.drop (128 * 0)).take 128) 40 8 + fld prog0 8 8) (fld prog0 4 4) = [(0x12000, 4096)] := by decide +kernel
  have hx : xlate (counted h1 slotted) 1 0x12000 false = .at_ 0x102000 := by decide +kernel
  have hb : (counted h1 slotted).hostBad 0x102000 4096 = false := by decide +kernel
  have hm : mread (counted h1 slotted).w.host 0x102000 4096 = zeros 4096 := mread_above _ _ (by decide +kernel)
  unfold jobRead
  rw [hp, List.foldl_cons, List.foldl_nil]
  simp only [hx, hb, hm, Bool.false_eq_true, if_false, List.nil_append]
theorem restoreChunk_ok {s : State} {j k len i : Nat} {recs pr bs : Bytes}
    (h1 : rdOf (jobRead s j (fld ((recs.drop (128 * k)).take 128) 48 8 + 64 * i) 64) = .ok pr) (h2 : fld pr 0 4 ≠ 2)
    (h3 : rdOf (jobRead s j (fld ((recs.drop (128 * k)).take 128) 40 8 + fld pr 8 8) (fld pr 4 4)) = .ok bs)
    (h4 : bit (fld ((recs.drop (128 * k)).take 128) 16 1) 0 = false) (h5 : bs.length = len) (h6 : leafDigest bs = (pr.drop 16).take 32) :
    restoreChunk s j k recs len i = .ok bs := by
  simp [restoreChunk, h1, h2, h3, h4, h5, h6]
theorem restoreChunks_one {s : State} {j k : Nat} {recs x : Bytes} {l : List Sect} (h0 : chunkCount l = 1)
    (h : restoreChunk s j k recs (chunkLen l 0) 0 = .ok x) : restoreChunks s j k recs l (List.range (chunkCount l)) = .ok [x] := by
  rw [h0]; simp [restoreChunks, h]
theorem restored_slot : restoreChunks (counted h1 slotted) 1 0 recs0 (shardSects (counted h1 slotted) 1 0) (List.range (chunkCount (shardSects (counted h1 slotted) 1 0))) = .ok [zeros 4096] :=
  have h5 : chunkLen (shardSects (counted h1 slotted) 1 0) 0 = 4096 := by decide +kernel
  have h6 : leaf0 = (prog0.drop 16).take 32 := by decide +kernel
  restoreChunks_one (by decide +kernel) (restoreChunk_ok (congrArg rdOf (a₂ := .ok prog0) (by decide +kernel)) (by decide +kernel)
    (congrArg rdOf (a₂ := .ok (zeros 4096)) chunk0) (by decide +kernel) ((List.length_replicate ..).trans h5.symm) (leaf_zeros.trans h6))

def sentOff : State := { up with ctl := { up.ctl with health := { up.ctl.health with sentOff := true } } }

/-- Node 9 stands by for node 7; port 6 leads to node 7's partner, node 8. -/
def pair3 : Plan := { pair2 with ports := [⟨6, 7, 0x3C0000, 0xFFFF⟩] }
def benched (s : State) : State := s.onW (fun w => { w with holder := some 1, topo := { w.topo with node := 9, jobPlan := some pair3 } })
def place7 : PlaceEnt := ⟨7, 0, 0, 0, 8, 9⟩
def withMr (m : Mr) (s : State) : State := s.onW (fun w => { w with mr := m })
def calling : State := inflight { hdr := h0, op := 0x0504, a := 1 } up

def stopped : State := up.modClk (fun c => { c with frozen := true })
/-- The tensor in tier 1, its first granule written back by no one yet. -/
def inStack : State := mem.modJob 1 (fun b => { b with decls := [(1, { tensor with tier := 1 })] })
def cached : State := inStack.onW (fun w => { w with cache := [((homeOf inStack 1 1 0).place, [{ key := (2 ^ 33 + 2) * 2 ^ 42, dirty := true }])] })
/-- A cell word of the bench cell 5 with bits turned. -/
def flipped (mask : Nat) : State := up.modCell 5 (fun c => { c with flips := [(7, mask)] })
def win15 : Ap := { handle := 1, job := 1, en := true }
def injecting (e : Err) : State := mem.onW (fun w => { w with err := e, sl := { foulAuth := true } })
def declBytes (n : Nat) : Bytes := layout [(2, 1), (1, 0), (1, 1), (8, n), (4, 64)] ++ zeros 48
def told1 (r : Bytes) : State := mem.hostPut 0x100000 r
def freezing : Bytes := [0, 1, 0xFF, 0xFF] ++ zeros 5 ++ [0xFF] ++ zeros 22
def keeping : Bytes := [0, 0xFF, 0xFF, 0xFF] ++ zeros 5 ++ [0xFF] ++ zeros 22
def replacing : Bytes := [0, 0xFF, 0xFF, 0xFF] ++ zeros 5 ++ [0xFF, 0, 0, 0, 1] ++ zeros 18

theorem some_of {α : Type} {o : Option α} (h : o.isSome = true) : o = some (o.get h) := by
  cases o with
  | none => cases h
  | some x => rfl
/-- Nothing stands before the first visit of the position. -/
theorem may {c : Ctx} {pos : Nat} {v : Visit} (h : tget 0 c.r.visits pos = 0) (k : c.r.cut = none) : Sys2Proof.Claims.visitMay c pos v :=
  ⟨Or.inl h, fun _ => never k⟩
theorem squeezed {s : State} (h : (s.job 1).cur = some (exchange 1)) : Sys2Proof.Claims.compressible s 1 1 :=
  ⟨exchange 1, Or.inl h, parseColl (coll 1 1 1), by decide +kernel, by decide +kernel, by decide +kernel, by decide +kernel⟩
def prepared : State := up.modJob 1 (fun b => { b with modeEpoch := 1, lastPrepared := 1, prev := some {} })
def staging (n : Nat) : State := up.modJob 1 (fun b => { b with stagedMode := some { epoch := 2 }, lastStarted := some n })
def product (r : StepRun) : Ctx := ctx (inStep r)

/-- The first bag lists one row that the table does not have. -/
def outside : State := (imageWrite 1 1 4 [1] (pooling started)).modJob 1 (fun b => { b with decls := b.decls.map (fun e => if e.1 = 4 then (4, { e.2 with count := 0 }) else e) })

/-- Two product stages, the first feeding the second. -/
def chain : SetImg := { set with stages := set.stages ++ [{ (set.stages.getD 0 {}) with idx := 1 }], streams := [set.streams.getD 0 {}, { (set.streams.getD 1 {}) with dst := 1 }] }
def inChain (r : StepRun) : State := stepping r (three.modJob 1 (fun b => { b with cur := some chain, place := placed, nextStep := some 1 }))
def fed : StepRun := { arrived with rows := [(0, 0, 0, 0, { vals := [0] })] }
def twiceSent : StepRun := { fed with resent := [(1, 0, 0)] }

/-- Control bits of a data frame of sequence 1, and of a frame with class 1, each with its check. -/
def ctlData : Nat := 2 + 2 ^ 19 + 2 ^ 52 * frameCrc [] (2 + 2 ^ 19)
def ctlAck : Nat := 1 + 2 ^ 52 * frameCrc [] 1

theorem root_slot : rootDigest ([zeros 4096].map leafDigest) = (recs0.drop 56).take 32 := by rw [List.map_cons, leaf_zeros]; decide +kernel

/-! ### Small tests; expected values from the spec's tables or from the standards it names -/

/-- The digest of the three bytes "abc" that FIPS 180-4 gives. -/
theorem test_sha256_abc : beNum (sha256 [0x61, 0x62, 0x63]) = 0xBA7816BF8F01CFEA414140DE5DAE2223B00361A396177A9CB410FF61F20015AD := by decide +kernel
/-- The check value of CRC-32: the digits 1 to 9. -/
theorem test_crc32_check : crc32 [0x31, 0x32, 0x33, 0x34, 0x35, 0x36, 0x37, 0x38, 0x39] = 0xCBF43926 := by decide +kernel
/-- A NOP packet written out byte by byte from R272 and R273: irq and fence set, sequence 0x04030201, no job. -/
theorem test_packet_nop :
    decodePacket 0 ([0x01, 0x00, 0x03, 0x00, 0x01, 0x02, 0x03, 0x04, 0xFF, 0xFF] ++ zeros 54) =
      some (.nop { q := 0, irq := true, fence := true, seq := 0x04030201, job := 0xFFFF }) := by decide +kernel
/-- A FENCE packet of scope 1 on a job's queue: the scope is the first parameter byte (R272, R279). -/
theorem test_packet_fence :
    decodePacket 5 ([0x02, 0x00, 0x04, 0x00, 0x09, 0x00, 0x00, 0x00, 0x03, 0x00] ++ zeros 6 ++ [0x01] ++ zeros 47) =
      some (.fence { q := 5, jobFence := true, seq := 9, job := 3 } 1) := by decide +kernel
/-- The reply of a NOP (R276): sequence, opcode, status OK, phase 1, queue 0, no unit, no detail. -/
theorem test_nop_reply :
    (match exec (.nop h0) up with
      | .next t => mread t.w.host 0x20000 12
      | _ => []) = [7, 0, 0, 0, 1, 0, 0, 1, 0, 0, 0xFF, 0] := by decide +kernel
/-- A block with nothing to do idles. -/
theorem test_idle : step State.reset = .next State.reset := rfl
/-- A command at the front of the queue is taken, and the one behind it stays. -/
theorem test_queue_order :
    (match step { State.reset with pending := [.pwrEnLow, .pllLock] } with
      | .next t => t.pending == [.pllLock]
      | _ => false) = true := by decide +kernel

/-! ### Well-formedness -/

/-- Every checked command with operands in range is well-formed. -/
theorem test_wellFormed_accepts : ([
    .nop h0, .fence h0 1, .jobCreate h0 1 1 1, .jobDestroy h0, .jobPreempt h0, .jobResume h0, .memMap h0 1 1 1 1 1 1, .memUnmap h0 1 1,
    .dmaCopy h0 1 1 1 1 1, .tensorDeclare h0 1, .placeSet h0 1, .placementReport h0 1 1 1, .setLoad h0 1 1, .stepRun h0 1 1 1 1 1 1, .stepAbort h0,
    .modePrepare h0 1, .modeCommit h0 1 1, .collCompress h0 1 1 1 1, .collRun h0 1, .ckptWrite h0 1 1, .ckptCommitNotice h0 1 1, .ckptRestore h0 1 1,
    .mirrorBind h0 1 1, .benchCall h0 1 1, .huddle h0 1 1, .umpireConfig h0 1 1, .letReplay h0 1, .selftest h0 1 1, .drillLoad h0 1 1,
    .linkDiscover h0 1, .topologyPlan h0 1 1, .foulArm h0 1 1 1 1, .healthRead h0 1 1 1, .powerSet h0 1 1, .resetModule h0 1, .reinstate h0 1 1,
    .diagSnapshot h0 1 1 1, .diagTrace h0 1 1 1 1, .preemptBoundaryReached 1, .preemptSaveDone 1, .resumeRestoreDone 1, .dmaGranuleDone 1 1,
    .streamPark 1 1 1, .queueEnable 1 1, .queueDisable 1 1, .dbCmdTail 1 1, .dbRplHead 1 1, .coalesceTimer 1, .eventRingEnable 1, .unitEnWrite 1 1,
    .disabledUnitAccess 1 .hostRead, .registerWrite 0 4 1, .apertureAccess false 1 1 1 [], .stkRetrain 1 1, .lkCmdRetrain 1, .tpPortDetourWrite 1 1,
    .atsTranslationCompletion 1 1 4096 1 1 false, .atsInvalidation 1 1 4096, .prgResponse 1 1 1, .priTimeout 1 1, .powerApplied 1 1 1 false 1,
    .calibrationDone {} [] [], .warmReset 2 1 1, .flushTimeout ⟨1, 1, 0⟩, .heartbeatWatchdog 1, .stageWatchdog 1 1 1, .linkWatchdog 1,
    .queueWatchdog 1, .rateWindowEnd 1 (List.replicate 144 0), .visitStart 1 1, .streamItem 1 1 1 1 1 1, .residueMismatch 1 1 1 1 1,
    .tileReadout 1 1 1 1 1 1 [], .sampleCompare 1 1 1 1 1 [], .thirdComputationDone 1 1 1 1 1 [], .lookupBag 1 1 1 1, .scatterRow 1 1 1 1,
    .stepBoundary 1, .updateStageStart 1 1, .rowOptimizerUpdate 1, .boundaryPlacement 1 [] [], .modeApply 1 1, .stepBarrierEntry 1,
    .stepBarrierExit 1, .stepBarrierSlow 1, .stepCalledGood 1 1, .stepBarrierUp 1 1 1 false false 1 1 1, .stepBarrierDown 1 1 false false 1 1 1,
    .calledGoodUpdate 1 1 1, .huddleRequest 1 1 1 1 1, .huddleUp 1 1 1 1, .huddleDown 1 1 1, .huddleTimeout 1, .preemptionNotice 1 1 1,
    .lostNotice 1, .substituteNotice 1 1, .reelDataReceive 1 1 1 1 1 1 1 1 1 false 1 [], .mirrorDeltaReceive 1 1 1 1 1 1 1 [],
    .mirrorEndOfStep 1 1 1, .mirrorAck 1 1 false, .mirrorAnchor 1 1, .mirrorSeed 1 1 1 1 [] false, .hotStatePullRequest 1 1 1,
    .hotStatePullData 1 2 1 1 1 1 1 [], .lazyRestoreBlock 1 1 1 false false [], .promenadeChunk 1 1, .copyBeforeWrite 1 1 1 1, .messageAck 1 1 1 1,
    .ackDelayTimer 1, .messageResendTimer 1 1 1, .linkSignalDetect 1, .linkTrained 1 false 0, .linkIdentity 1 (zeros 64),
    .frameReceive 1 (zeros 2570) 1 1, .linkDeadTimer 1, .linkRetryWindow 1, .peerLostTimer 1, .timeSyncReply 1 1 1 1 1 0, .stackTempSample 1 1,
    .stackTrip 1, .stackHot2s 1, .pcRetrainDone 1 1 false [], .lpddrTrip 1, .lpddrTripExit 1, .cxlTimeout 1 ⟨1, 1, 0⟩, .cxlLinkDown 1,
    .powerSample ⟨0, 0, 0, [1, 2, 3, 4], 0, 0, 0⟩, .dieTrip 1, .patrolScrub [], .demandScrub (.hub 0 0 false), .sidelineResend 1, .sidelineAck 1,
    .sidelineDrillChunk 1 [], .sidelineFirmwareChunk 1 [], .authReinstate 1 (zeros 256), .authFoul 1 (zeros 256), .authEndExclusion 1 (zeros 256),
    .authReset 1 (zeros 256), .authWake 1 (zeros 256), .authEnrol 1 (zeros 256), .authProvision 1 (zeros 256), .authSendOff 1 (zeros 256),
    .setEndpointId 1 1, .getMctpVersionSupport 1, .negotiateAlgorithms 1 1, .getCertificate 1 1 1, .challenge 1 (zeros 32),
    .getMeasurements 1 false (zeros 32), .packageTemperatureReport 1 1, .dhcpv4Address 1 1 1, .selftestComplete [] [] false] : List Instr).all WellFormed = true := by decide +kernel

/-- An ill-formed term for each check, part 1: one operand out of its range, the others in theirs. -/
theorem test_wellFormed_refuses_1 : ([
    .nop { h0 with seq := 2 ^ 32 }, .fence { h0 with seq := 2 ^ 32 } 1, .fence h0 (256 ^ 1), .jobCreate { h0 with seq := 2 ^ 32 } 1 1 1,
    .jobCreate h0 (256 ^ 1) 1 1, .jobCreate h0 1 (256 ^ 4) 1, .jobCreate h0 1 1 (256 ^ 1), .jobDestroy { h0 with seq := 2 ^ 32 },
    .jobPreempt { h0 with seq := 2 ^ 32 }, .jobResume { h0 with seq := 2 ^ 32 }, .memMap { h0 with seq := 2 ^ 32 } 1 1 1 1 1 1,
    .memMap h0 (256 ^ 8) 1 1 1 1 1, .memMap h0 1 (256 ^ 8) 1 1 1 1, .memMap h0 1 1 (256 ^ 8) 1 1 1, .memMap h0 1 1 1 (256 ^ 1) 1 1,
    .memMap h0 1 1 1 1 (256 ^ 1) 1, .memMap h0 1 1 1 1 1 (256 ^ 1), .memUnmap { h0 with seq := 2 ^ 32 } 1 1, .memUnmap h0 (256 ^ 8) 1,
    .memUnmap h0 1 (256 ^ 8), .dmaCopy { h0 with seq := 2 ^ 32 } 1 1 1 1 1, .dmaCopy h0 (256 ^ 8) 1 1 1 1, .dmaCopy h0 1 (256 ^ 8) 1 1 1,
    .dmaCopy h0 1 1 (256 ^ 8) 1 1, .dmaCopy h0 1 1 1 (256 ^ 4) 1, .dmaCopy h0 1 1 1 1 (256 ^ 4), .tensorDeclare { h0 with seq := 2 ^ 32 } 1,
    .tensorDeclare h0 (256 ^ 8), .placeSet { h0 with seq := 2 ^ 32 } 1, .placeSet h0 (256 ^ 8), .placementReport { h0 with seq := 2 ^ 32 } 1 1 1,
    .placementReport h0 (256 ^ 8) 1 1, .placementReport h0 1 (256 ^ 4) 1, .placementReport h0 1 1 (256 ^ 1), .setLoad { h0 with seq := 2 ^ 32 } 1 1,
    .setLoad h0 (256 ^ 8) 1, .setLoad h0 1 (256 ^ 4), .stepRun { h0 with seq := 2 ^ 32 } 1 1 1 1 1 1, .stepRun h0 (256 ^ 8) 1 1 1 1 1,
    .stepRun h0 1 (256 ^ 8) 1 1 1 1, .stepRun h0 1 1 (256 ^ 8) 1 1 1, .stepRun h0 1 1 1 (256 ^ 2) 1 1, .stepRun h0 1 1 1 1 (256 ^ 2) 1,
    .stepRun h0 1 1 1 1 1 (256 ^ 8), .stepAbort { h0 with seq := 2 ^ 32 }, .modePrepare { h0 with seq := 2 ^ 32 } 1, .modePrepare h0 (256 ^ 4),
    .modeCommit { h0 with seq := 2 ^ 32 } 1 1, .modeCommit h0 (256 ^ 4) 1, .modeCommit h0 1 (256 ^ 8)] : List Instr).all (fun i => !WellFormed i) = true := by decide +kernel

/-- An ill-formed term for each check, part 2: one operand out of its range, the others in theirs. -/
theorem test_wellFormed_refuses_2 : ([
    .collCompress { h0 with seq := 2 ^ 32 } 1 1 1 1, .collCompress h0 (256 ^ 2) 1 1 1, .collCompress h0 1 (256 ^ 1) 1 1,
    .collCompress h0 1 1 (256 ^ 1) 1, .collCompress h0 1 1 1 (256 ^ 2), .collRun { h0 with seq := 2 ^ 32 } 1, .collRun h0 (256 ^ 8),
    .ckptWrite { h0 with seq := 2 ^ 32 } 1 1, .ckptWrite h0 (256 ^ 8) 1, .ckptWrite h0 1 (256 ^ 4), .ckptCommitNotice { h0 with seq := 2 ^ 32 } 1 1,
    .ckptCommitNotice h0 (256 ^ 8) 1, .ckptCommitNotice h0 1 (256 ^ 4), .ckptRestore { h0 with seq := 2 ^ 32 } 1 1, .ckptRestore h0 (256 ^ 8) 1,
    .ckptRestore h0 1 (256 ^ 4), .mirrorBind { h0 with seq := 2 ^ 32 } 1 1, .mirrorBind h0 (256 ^ 2) 1, .mirrorBind h0 1 (256 ^ 1),
    .benchCall { h0 with seq := 2 ^ 32 } 1 1, .benchCall h0 (256 ^ 2) 1, .benchCall h0 1 (256 ^ 2), .huddle { h0 with seq := 2 ^ 32 } 1 1,
    .huddle h0 (256 ^ 1) 1, .huddle h0 1 (256 ^ 8), .umpireConfig { h0 with seq := 2 ^ 32 } 1 1, .umpireConfig h0 (256 ^ 1) 1,
    .umpireConfig h0 1 (256 ^ 8), .letReplay { h0 with seq := 2 ^ 32 } 1, .letReplay h0 (256 ^ 8), .selftest { h0 with seq := 2 ^ 32 } 1 1,
    .selftest h0 (256 ^ 1) 1, .selftest h0 1 (256 ^ 1), .drillLoad { h0 with seq := 2 ^ 32 } 1 1, .drillLoad h0 (256 ^ 8) 1,
    .drillLoad h0 1 (256 ^ 4), .linkDiscover { h0 with seq := 2 ^ 32 } 1, .linkDiscover h0 (256 ^ 2), .topologyPlan { h0 with seq := 2 ^ 32 } 1 1,
    .topologyPlan h0 (256 ^ 8) 1, .topologyPlan h0 1 (256 ^ 4), .foulArm { h0 with seq := 2 ^ 32 } 1 1 1 1, .foulArm h0 (256 ^ 4) 1 1 1,
    .foulArm h0 1 (256 ^ 1) 1 1, .foulArm h0 1 1 (256 ^ 1) 1, .foulArm h0 1 1 1 (256 ^ 4), .healthRead { h0 with seq := 2 ^ 32 } 1 1 1,
    .healthRead h0 (256 ^ 8) 1 1, .healthRead h0 1 (256 ^ 4) 1, .healthRead h0 1 1 (256 ^ 1)] : List Instr).all (fun i => !WellFormed i) = true := by decide +kernel

/-- An ill-formed term for each check, part 3: one operand out of its range, the others in theirs. -/
theorem test_wellFormed_refuses_3 : ([
    .powerSet { h0 with seq := 2 ^ 32 } 1 1, .powerSet h0 (256 ^ 2) 1, .powerSet h0 1 (256 ^ 1), .resetModule { h0 with seq := 2 ^ 32 } 1,
    .resetModule h0 (256 ^ 1), .reinstate { h0 with seq := 2 ^ 32 } 1 1, .reinstate h0 (256 ^ 8) 1, .reinstate h0 1 (256 ^ 4),
    .diagSnapshot { h0 with seq := 2 ^ 32 } 1 1 1, .diagSnapshot h0 (256 ^ 8) 1 1, .diagSnapshot h0 1 (256 ^ 4) 1, .diagSnapshot h0 1 1 (256 ^ 1),
    .diagTrace { h0 with seq := 2 ^ 32 } 1 1 1 1, .diagTrace h0 (256 ^ 1) 1 1 1, .diagTrace h0 1 (256 ^ 1) 1 1, .diagTrace h0 1 1 (256 ^ 8) 1,
    .diagTrace h0 1 1 1 (256 ^ 4), .preemptBoundaryReached 64, .preemptSaveDone 64, .resumeRestoreDone 64, .dmaGranuleDone 128 1,
    .streamPark 128 1 1, .streamPark 1 1 0, .streamPark 1 1 6, .queueEnable 8192 1, .queueEnable 1 (256 ^ 8), .queueDisable 8192 1,
    .queueDisable 1 (256 ^ 8), .dbCmdTail 8192 1, .dbCmdTail 1 (256 ^ 4), .dbRplHead 8192 1, .dbRplHead 1 (256 ^ 4), .coalesceTimer 8192,
    .eventRingEnable (256 ^ 4), .unitEnWrite 4 1, .unitEnWrite 1 (256 ^ 4), .disabledUnitAccess (256 ^ 1) .hostRead, .registerWrite 0x01100000 4 1,
    .registerWrite 0 3 1, .registerWrite 0 4 (2 ^ 32), .registerWrite 2 4 1, .apertureAccess false 16 1 1 [], .apertureAccess false 1 1 0 [],
    .apertureAccess false 1 1 4097 [], .stkRetrain 12 1, .stkRetrain 1 (256 ^ 4), .lkCmdRetrain 24, .tpPortDetourWrite 12 1,
    .tpPortDetourWrite 1 (256 ^ 8), .atsTranslationCompletion 64 1 4096 1 1 false] : List Instr).all (fun i => !WellFormed i) = true := by decide +kernel

/-- An ill-formed term for each check, part 4: one operand out of its range, the others in theirs. -/
theorem test_wellFormed_refuses_4 : ([
    .atsTranslationCompletion 1 (256 ^ 8) 4096 1 1 false, .atsTranslationCompletion 1 1 4095 1 1 false,
    .atsTranslationCompletion 1 1 4096 (256 ^ 8) 1 false, .atsTranslationCompletion 1 1 4096 1 (256 ^ 1) false, .atsInvalidation 64 1 4096,
    .atsInvalidation 1 (256 ^ 8) 4096, .atsInvalidation 1 1 4095, .prgResponse 64 1 1, .prgResponse 1 (256 ^ 8) 1, .prgResponse 1 1 3,
    .priTimeout 64 1, .priTimeout 1 (256 ^ 8), .powerApplied 4 1 1 false 1, .powerApplied 1 4 1 false 1, .powerApplied 1 1 8 false 1,
    .powerApplied 1 1 1 false 16, .calibrationDone {} [(576, {})] [], .calibrationDone {} [] [(4, 1, 1, false, 1)], .warmReset 1 1 1,
    .warmReset 10 1 1, .warmReset 2 (256 ^ 1) 1, .warmReset 2 1 (256 ^ 4), .flushTimeout ⟨64, 1, 0⟩, .flushTimeout ⟨1, 2 ^ 32, 0⟩,
    .heartbeatWatchdog 4, .stageWatchdog (256 ^ 1) 1 1, .stageWatchdog 1 4 1, .stageWatchdog 1 1 144, .linkWatchdog 24, .queueWatchdog 64,
    .rateWindowEnd 4 (List.replicate 144 0), .rateWindowEnd 1 [], .visitStart 64 1, .visitStart 1 128, .streamItem 64 1 1 1 1 1,
    .streamItem 1 6144 1 1 1 1, .streamItem 1 1 4096 1 1 1, .residueMismatch 64 1 1 1 1, .residueMismatch 1 (256 ^ 2) 1 1 1,
    .residueMismatch 1 1 2 1 1, .residueMismatch 1 1 1 4096 1, .tileReadout 64 1 1 1 1 1 [], .tileReadout 1 (256 ^ 2) 1 1 1 1 [],
    .tileReadout 1 1 2 1 1 1 [], .tileReadout 1 1 1 4096 1 1 [], .tileReadout 1 1 1 1 1 576 [], .tileReadout 1 1 1 1 1 1 [(4096, 1)],
    .sampleCompare 64 1 1 1 1 [], .sampleCompare 1 (256 ^ 2) 1 1 1 [], .sampleCompare 1 1 2 1 1 []] : List Instr).all (fun i => !WellFormed i) = true := by decide +kernel

/-- An ill-formed term for each check, part 5: one operand out of its range, the others in theirs. -/
theorem test_wellFormed_refuses_5 : ([
    .sampleCompare 1 1 1 4096 1 [], .sampleCompare 1 1 1 1 1 [(4096, 1)], .thirdComputationDone 64 1 1 1 1 [],
    .thirdComputationDone 1 (256 ^ 2) 1 1 1 [], .thirdComputationDone 1 1 2 1 1 [], .thirdComputationDone 1 1 1 4096 1 [],
    .thirdComputationDone 1 1 1 1 1 [(4096, 1)], .lookupBag 64 1 1 1, .lookupBag 1 1024 1 1, .lookupBag 1 1 4096 1, .scatterRow 64 1 1 1,
    .scatterRow 1 1024 1 1, .scatterRow 1 1 4096 1, .stepBoundary 64, .updateStageStart 64 1, .updateStageStart 1 1024, .rowOptimizerUpdate 64,
    .boundaryPlacement 64 [] [], .boundaryPlacement 1 [576] [], .boundaryPlacement 1 [] [(576, {})], .modeApply 64 1, .modeApply 1 (256 ^ 1),
    .stepBarrierEntry 64, .stepBarrierExit 64, .stepBarrierSlow 64, .stepCalledGood 64 1, .stepCalledGood 1 (256 ^ 8),
    .stepBarrierUp 64 1 1 false false 1 1 1, .stepBarrierUp 1 65536 1 false false 1 1 1, .stepBarrierUp 1 1 (256 ^ 8) false false 1 1 1,
    .stepBarrierUp 1 1 1 false false (256 ^ 8) 1 1, .stepBarrierUp 1 1 1 false false 1 (256 ^ 4) 1, .stepBarrierUp 1 1 1 false false 1 1 65536,
    .stepBarrierDown 64 1 false false 1 1 1, .stepBarrierDown 1 (256 ^ 8) false false 1 1 1, .stepBarrierDown 1 1 false false (256 ^ 8) 1 1,
    .stepBarrierDown 1 1 false false 1 (256 ^ 4) 1, .stepBarrierDown 1 1 false false 1 1 65536, .calledGoodUpdate 64 1 1,
    .calledGoodUpdate 1 65536 1, .calledGoodUpdate 1 1 (256 ^ 8), .huddleRequest 64 1 1 1 1, .huddleRequest 1 65536 1 1 1,
    .huddleRequest 1 1 (256 ^ 1) 1 1, .huddleRequest 1 1 1 (256 ^ 8) 1, .huddleRequest 1 1 1 1 (256 ^ 8), .huddleUp 64 1 1 1, .huddleUp 1 65536 1 1,
    .huddleUp 1 1 (256 ^ 8) 1, .huddleUp 1 1 1 (256 ^ 4)] : List Instr).all (fun i => !WellFormed i) = true := by decide +kernel

/-- An ill-formed term for each check, part 6: one operand out of its range, the others in theirs. -/
theorem test_wellFormed_refuses_6 : ([
    .huddleDown 64 1 1, .huddleDown 1 (256 ^ 8) 1, .huddleDown 1 1 (256 ^ 4), .huddleTimeout 64, .preemptionNotice 64 1 1,
    .preemptionNotice 1 65536 1, .preemptionNotice 1 1 (256 ^ 2), .lostNotice 65536, .substituteNotice 65536 1, .substituteNotice 1 (256 ^ 8),
    .reelDataReceive 64 1 1 1 1 1 1 1 1 false 1 [], .reelDataReceive 1 (256 ^ 2) 1 1 1 1 1 1 1 false 1 [],
    .reelDataReceive 1 1 (256 ^ 2) 1 1 1 1 1 1 false 1 [], .reelDataReceive 1 1 1 (256 ^ 4) 1 1 1 1 1 false 1 [],
    .reelDataReceive 1 1 1 1 (256 ^ 4) 1 1 1 1 false 1 [], .reelDataReceive 1 1 1 1 1 7 1 1 1 false 1 [],
    .reelDataReceive 1 1 1 1 1 1 1 1 (256 ^ 1) false 1 [], .reelDataReceive 1 1 1 1 1 1 1 1 1 false (256 ^ 2) [],
    .mirrorDeltaReceive 64 1 1 1 1 1 1 [], .mirrorDeltaReceive 1 (256 ^ 8) 1 1 1 1 1 [], .mirrorDeltaReceive 1 1 0 1 1 1 1 [],
    .mirrorDeltaReceive 1 1 6 1 1 1 1 [], .mirrorDeltaReceive 1 1 1 (256 ^ 2) 1 1 1 [], .mirrorDeltaReceive 1 1 1 1 (256 ^ 4) 1 1 [],
    .mirrorDeltaReceive 1 1 1 1 1 (256 ^ 8) 1 [], .mirrorDeltaReceive 1 1 1 1 1 1 (256 ^ 8) [], .mirrorEndOfStep 64 1 1,
    .mirrorEndOfStep 1 (256 ^ 8) 1, .mirrorEndOfStep 1 1 (256 ^ 8), .mirrorAck 64 1 false, .mirrorAck 1 (256 ^ 8) false, .mirrorAnchor 64 1,
    .mirrorAnchor 1 (256 ^ 8), .mirrorSeed 64 1 1 1 [] false, .mirrorSeed 1 0 1 1 [] false, .mirrorSeed 1 10 1 1 [] false,
    .mirrorSeed 1 1 (256 ^ 2) 1 [] false, .mirrorSeed 1 1 1 (256 ^ 8) [] false, .hotStatePullRequest 64 1 1, .hotStatePullRequest 1 65536 1,
    .hotStatePullRequest 1 1 (256 ^ 8), .hotStatePullData 64 2 1 1 1 1 1 [], .hotStatePullData 1 1 1 1 1 1 1 [], .hotStatePullData 1 4 1 1 1 1 1 [],
    .hotStatePullData 1 2 0 1 1 1 1 [], .hotStatePullData 1 2 5 1 1 1 1 [], .hotStatePullData 1 2 1 (256 ^ 2) 1 1 1 [],
    .hotStatePullData 1 2 1 1 (256 ^ 4) 1 1 [], .hotStatePullData 1 2 1 1 1 (256 ^ 8) 1 [], .hotStatePullData 1 2 1 1 1 1 (256 ^ 8) []] : List Instr).all (fun i => !WellFormed i) = true := by decide +kernel

/-- An ill-formed term for each check, part 7: one operand out of its range, the others in theirs. -/
theorem test_wellFormed_refuses_7 : ([
    .lazyRestoreBlock 64 1 1 false false [], .lazyRestoreBlock 1 (256 ^ 2) 1 false false [], .promenadeChunk 64 1, .copyBeforeWrite 64 1 1 1,
    .copyBeforeWrite 1 (256 ^ 4) 1 1, .copyBeforeWrite 1 1 1 (256 ^ 2), .messageAck 65536 1 1 1, .messageAck 1 (256 ^ 1) 1 1,
    .messageAck 1 1 (256 ^ 4) 1, .ackDelayTimer 65536, .messageResendTimer 65536 1 1, .messageResendTimer 1 (256 ^ 1) 1,
    .messageResendTimer 1 1 (256 ^ 4), .linkSignalDetect 24, .linkTrained 24 false 0, .linkIdentity 24 (zeros 64), .linkIdentity 1 [],
    .frameReceive 24 (zeros 2570) 1 1, .frameReceive 1 [] 1 1, .frameReceive 1 (zeros 2570) 1 16, .linkDeadTimer 24, .linkRetryWindow 24,
    .peerLostTimer 65536, .timeSyncReply (256 ^ 8) 1 1 1 1 0, .timeSyncReply 1 (256 ^ 8) 1 1 1 0, .timeSyncReply 1 1 (256 ^ 8) 1 1 0,
    .timeSyncReply 1 1 1 (256 ^ 8) 1 0, .timeSyncReply 1 1 1 1 (256 ^ 1) 0, .stackTempSample 12 1, .stackTempSample 1 4096, .stackTrip 12,
    .stackHot2s 12, .pcRetrainDone 12 1 false [], .pcRetrainDone 1 64 false [], .pcRetrainDone 1 1 false [40], .lpddrTrip 24, .lpddrTripExit 24,
    .cxlTimeout 4 ⟨1, 1, 0⟩, .cxlTimeout 1 ⟨64, 1, 0⟩, .cxlTimeout 1 ⟨1, 2 ^ 32, 0⟩, .cxlLinkDown 4, .dieTrip 5, .patrolScrub [.hub 256 0 false],
    .demandScrub (.hub 256 0 false), .sidelineResend (256 ^ 4), .sidelineAck (256 ^ 4), .sidelineDrillChunk (256 ^ 4) [],
    .sidelineFirmwareChunk (256 ^ 4) [], .authReinstate (256 ^ 4) (zeros 256), .authReinstate 1 []] : List Instr).all (fun i => !WellFormed i) = true := by decide +kernel

/-- An ill-formed term for each check, part 8: one operand out of its range, the others in theirs. -/
theorem test_wellFormed_refuses_8 : ([
    .authFoul (256 ^ 4) (zeros 256), .authFoul 1 [], .authEndExclusion (256 ^ 4) (zeros 256), .authEndExclusion 1 [],
    .authReset (256 ^ 4) (zeros 256), .authReset 1 [], .authWake (256 ^ 4) (zeros 256), .authWake 1 [], .authEnrol (256 ^ 4) (zeros 256),
    .authEnrol 1 [], .authProvision (256 ^ 4) (zeros 256), .authProvision 1 [], .authSendOff (256 ^ 4) (zeros 256), .authSendOff 1 [],
    .setEndpointId (256 ^ 1) 1, .setEndpointId 1 (256 ^ 1), .getMctpVersionSupport (256 ^ 1), .negotiateAlgorithms (256 ^ 4) 1,
    .negotiateAlgorithms 1 (256 ^ 4), .getCertificate (256 ^ 1) 1 1, .getCertificate 1 (256 ^ 2) 1, .getCertificate 1 1 (256 ^ 2),
    .challenge (256 ^ 1) (zeros 32), .challenge 1 [], .getMeasurements (256 ^ 1) false (zeros 32), .getMeasurements 1 false [],
    .packageTemperatureReport 24 1, .packageTemperatureReport 1 256, .dhcpv4Address (256 ^ 4) 1 1, .dhcpv4Address 1 (256 ^ 4) 1,
    .dhcpv4Address 1 1 (256 ^ 4), .selftestComplete [576] [] false, .selftestComplete [] [24] false, .nop { h0 with q := 8192 },
    .nop { h0 with job := 65536 }, .demandScrub (.cell 4 0 0 false), .demandScrub (.cell 0 144 0 false), .demandScrub (.cell 0 0 262144 false),
    .demandScrub (.hub 0 (256 ^ 4) false), .demandScrub (.tier1 768 0 0 ⟨1, 1, 0⟩ false), .demandScrub (.tier1 0 20971520 0 ⟨1, 1, 0⟩ false),
    .demandScrub (.tier1 0 0 72 ⟨1, 1, 0⟩ false), .demandScrub (.tier1 0 0 0 ⟨64, 1, 0⟩ false), .demandScrub (.tier2 24 0 0 ⟨1, 1, 0⟩ false),
    .demandScrub (.tier2 0 4 0 ⟨1, 1, 0⟩ false), .demandScrub (.tier2 0 0 (256 ^ 4) ⟨1, 1, 0⟩ false), .demandScrub (.tier2 0 0 0 ⟨64, 1, 0⟩ false),
    .powerSample ⟨0, 0, 0, [], 0, 0, 0⟩, .disabledUnitAccess 1 (.firmware 4), .demandScrub (.figure 0 0 8192 false)] : List Instr).all (fun i => !WellFormed i) = true := by decide +kernel

/-- An ill-formed term for each check, part 9: one operand out of its range, the others in theirs. -/
theorem test_wellFormed_refuses_9 : ([
    .demandScrub (.figure 4 0 0 false), .demandScrub (.figure 0 144 0 false)] : List Instr).all (fun i => !WellFormed i) = true := by decide +kernel

/-! ### Witnesses -/

/-- Values that meet the hypotheses of `Obligations.StepRunsTheFrontCommand`, clause by clause. -/
theorem witness_StepRunsTheFrontCommand :
    (∃ (s : State), (s.pending = []) ∧ (s.ctl.clk.running = false)) ∧
    (∃ (s : State), (s.pending = []) ∧ (s.ctl.clk.running = true)) :=
  ⟨⟨{}, by decide +kernel⟩,
    ⟨up, by decide +kernel⟩⟩

/-- Values that meet the hypotheses of `Obligations.AdministrativeCommandsComplete`, clause by clause. -/
theorem witness_AdministrativeCommandsComplete :
    (∃ (h : Hdr) (s : State), (Ready 0x0001 h s)) ∧
    (∃ (h : Hdr) (scope : Nat) (s : State), (Ready 0x0002 h s) ∧ (scope ≤ 2) ∧ ((scope = 2 → h.q = 0)) ∧ (s.w.inflight = [])) ∧
    (∃ (h : Hdr) (scope : Nat) (s : State) (x : Run), (Ready 0x0002 h s) ∧ (scope ≤ 2) ∧ ((scope = 2 → h.q = 0)) ∧ ((∀ r ∈ s.w.inflight, r.op ≠ 0x0002)) ∧ (x ∈ s.w.inflight) ∧ (x.ord < s.w.ordNext) ∧ ((scope = 0 → x.hdr.q = h.q)) ∧ ((scope = 1 → x.hdr.job = h.job))) ∧
    (∃ (h : Hdr) (buf : Nat) (len : Nat) (what : Nat) (bs : Bytes) (s : State), (Ready 0x0801 h s) ∧ (h.job = 0xFFFF) ∧ ((what = 0 ∧ bs = healthBlock s ∨ what = 3 ∧ bs = survBytes s.ctl.surv)) ∧ (bs.length ≤ len) ∧ (s.hostOk buf bs.length = true)) ∧
    (∃ (h : Hdr) (len : Nat) (what : Nat) (bs : Bytes) (s : State), (Ready 0x0801 h s) ∧ (h.job = 0xFFFF) ∧ ((what = 0 ∧ bs = healthBlock s ∨ what = 3 ∧ bs = survBytes s.ctl.surv)) ∧ (len < bs.length)) ∧
    (∃ (h : Hdr) (cap : Nat) (s : State), (Ready 0x0802 h s) ∧ (900 ≤ cap) ∧ (cap ≤ 1200) ∧ (cap ≠ s.ctl.power.capW)) ∧
    (∃ (h : Hdr) (s : State), (Ready 0x0802 h s) ∧ ((∀ e ∈ s.w.jobs, e.2.live = false)) ∧ (s.w.mr.out = 0) ∧ (s.w.mr.inn = 0) ∧ ((∀ e ∈ s.w.stk, e.2.level ≠ 4)) ∧ ((∀ e ∈ s.w.lp, e.2.held = 0))) ∧
    (∃ (h : Hdr) (s : State), (h.q = 0) ∧ (Ready 0x0803 h s)) ∧
    (∃ (h : Hdr) (buf : Nat) (len : Nat) (bs : Bytes) (s : State), (Ready 0x0F01 h s) ∧ (h.job = 0xFFFF) ∧ (s.unitOn 0x05 = true) ∧ (bs = s.w.ump.caps.flatMap (fun e => e.2)) ∧ (bs.length ≤ len) ∧ (s.hostOk buf bs.length = true)) ∧
    (∃ (h : Hdr) (unit : Nat) (on : Nat) (s : State), (Ready 0x0F02 h s) ∧ (knownUnit unit = true) ∧ (s.unitOn unit = true) ∧ (on ≤ 1)) :=
  ⟨⟨h0, up, by unfold Ready; decide +kernel⟩,
    ⟨h0, 2, up, by unfold Ready; decide +kernel⟩,
    ⟨h1, 1, up.onW (fun w => { w with inflight := [{ hdr := h1, op := 0x0203 }], ordNext := 1 }), { hdr := h1, op := 0x0203 }, by unfold Ready; decide +kernel⟩,
    ⟨h0, 0x3000, 4096, 0, healthBlock up, up, by unfold Ready; decide +kernel⟩,
    ⟨h0, 0, 0, healthBlock up, up, by unfold Ready; decide +kernel⟩,
    ⟨h0, 900, up, by unfold Ready; decide +kernel⟩,
    ⟨h0, up.onW (fun w => { w with jobs := [] }), by unfold Ready; decide +kernel⟩,
    ⟨h0, up, by unfold Ready; decide +kernel⟩,
    ⟨h0, 0x3000, 0, [], up, by unfold Ready; decide +kernel⟩,
    ⟨h0, 0x6B, 1, up, by unfold Ready; decide +kernel⟩⟩

/-- Values that meet the hypotheses of `Obligations.ReplyIsWrittenToItsSlot`, clause by clause. -/
theorem witness_ReplyIsWrittenToItsSlot :
    ∃ (h : Hdr) (s1 : State) (a : _), 
    let c := s1.queue h.q
    let slot := c.rplBase + 32 * (c.rplTail % 2 ^ c.rplLog2)
    ((s1.queue h.q).state = 1) ∧ ((s1.queue h.q).addrHost = true) ∧ ((s1.queue h.q).parked = []) ∧ ((∀ r ∈ s1.w.inflight, r.op ≠ 0x0002)) ∧ (Sys2Proof.Claims.rising s1.w.queues) ∧ (Memory.wf s1.w.host = true) ∧ (s1.hostOk ((s1.queue h.q).rplBase + 32 * ((s1.queue h.q).rplTail % 2 ^ (s1.queue h.q).rplLog2)) 32 = true) ∧ (a < slot ∨ slot + 32 ≤ a) :=
  ⟨h1, up, 0, by unfold Sys2Proof.Claims.rising; dsimp only; decide +kernel⟩

/-- Values that meet the hypotheses of `Obligations.HealthReadWritesOnlyWhole`, clause by clause. -/
theorem witness_HealthReadWritesOnlyWhole :
    (∃ (h : Hdr) (buf : Nat) (len : Nat) (s : State), 
    let n := min (len / 64) s.w.flog.recs.length
    (Ready 0x0801 h s) ∧ (h.job = 0xFFFF) ∧ (64 ≤ len) ∧ (s.hostOk buf (64 * n) = true)) ∧
    (∃ (h : Hdr) (len : Nat) (s : State), (Ready 0x0801 h s) ∧ (h.job = 0xFFFF) ∧ (len < 64)) :=
  ⟨⟨h0, 0x3000, 64, up.onW (fun w => { w with flog := { recs := [{}, {}] } }), by unfold Ready; dsimp only; decide +kernel⟩,
    ⟨h0, 63, up, by unfold Ready; decide +kernel⟩⟩

/-- Values that meet the hypotheses of `Obligations.AuthorisationRecordsAct`, clause by clause. -/
theorem witness_AuthorisationRecordsAct :
    (∃ (seq : Nat) (r : Bytes) (s : State), (Sys2Proof.Claims.arrives 1 seq r s) ∧ (s.ctl.health.sentOff = true)) ∧
    (∃ (seq : Nat) (r : Bytes) (s : State), (Sys2Proof.Claims.arrives 2 seq r s)) ∧
    (∃ (seq : Nat) (r : Bytes) (s : State), (Sys2Proof.Claims.arrives 3 seq r s) ∧ (Sys2Proof.Claims.rising s.w.cells) ∧ ((s.cell (authCell r)).excluded = true)) ∧
    (∃ (seq : Nat) (r : Bytes) (s : State), (Sys2Proof.Claims.arrives 4 seq r s)) ∧
    (∃ (seq : Nat) (r : Bytes) (s : State), (Sys2Proof.Claims.arrives 5 seq r s) ∧ (s.ctl.power.phase = .sitOut) ∧ (s.ctl.power.thermSit = false) ∧ (s.ctl.power.wakePending = 0)) ∧
    (∃ (seq : Nat) (r : Bytes) (s : State), (Sys2Proof.Claims.arrives 6 seq r s) ∧ (s.w.sl.fleetKey ≠ some (beNum ((r.drop 64).take 48), beNum ((r.drop 112).take 48)))) ∧
    (∃ (seq : Nat) (r : Bytes) (s : State), (Sys2Proof.Claims.arrives 7 seq r s) ∧ (s.w.sl.prov = false)) ∧
    (∃ (seq : Nat) (r : Bytes) (s : State), (Sys2Proof.Claims.arrives 8 seq r s) ∧ (s.ctl.health.sentOff = false) ∧ ((∀ l < 24, (s.link l).state = 0 ∨ (s.link l).state = 4))) :=
  ⟨⟨(sigOf 1).1, authRec 1 0 [], (keyed 1 up).modHealth (fun x => { x with sentOff := true }), by unfold Sys2Proof.Claims.arrives; decide +kernel⟩,
    ⟨(sigOf 2).1, authRec 2 60 [], keyed 2 up, by unfold Sys2Proof.Claims.arrives; decide +kernel⟩,
    ⟨(sigOf 3).1, authRec 3 (5 * 2 ^ 32) [], (keyed 3 up).modCell 5 (fun c => { c with excluded := true }), by unfold Sys2Proof.Claims.rising Sys2Proof.Claims.arrives; decide +kernel⟩,
    ⟨(sigOf 4).1, authRec 4 0 [], keyed 4 up, by unfold Sys2Proof.Claims.arrives; decide +kernel⟩,
    ⟨(sigOf 5).1, authRec 5 0 [], keyed 5 (phase .sitOut), by unfold Sys2Proof.Claims.arrives; decide +kernel⟩,
    ⟨(sigOf 6).1, authRec 6 0 [], keyed 6 up, by unfold Sys2Proof.Claims.arrives; decide +kernel⟩,
    ⟨(sigOf 7).1, authRec 7 0 (zeros 12 ++ leBytes 4 0x0100007F ++ [0, 0, 2]), keyed 7 up, by unfold Sys2Proof.Claims.arrives; decide +kernel⟩,
    ⟨(sigOf 8).1, authRec 8 0 [], keyed 8 up, by unfold Sys2Proof.Claims.arrives; decide +kernel⟩⟩

/-- Values that meet the hypotheses of `Obligations.ReinstateByCommand`, clause by clause. -/
theorem witness_ReinstateByCommand :
    (∃ (h : Hdr) (addr : Nat) (r : Bytes) (s : State) (st : _) (d : _), (Ready 0x0804 h s) ∧ (h.job = 0xFFFF) ∧ (s.hostOk addr 256 = true) ∧ (s.hostBad addr 256 = false) ∧ (r = mread s.w.host addr 256) ∧ (authFail 1 r (counted h s) = some (st, d))) ∧
    (∃ (h : Hdr) (addr : Nat) (r : Bytes) (s : State), (Ready 0x0804 h s) ∧ (h.job = 0xFFFF) ∧ (s.hostOk addr 256 = true) ∧ (s.hostBad addr 256 = false) ∧ (r = mread s.w.host addr 256) ∧ (authFail 1 r (counted h s) = none) ∧ (s.ctl.health.sentOff = false)) ∧
    (∃ (h : Hdr) (addr : Nat) (r : Bytes) (s : State), (Ready 0x0804 h s) ∧ (h.job = 0xFFFF) ∧ (s.hostOk addr 256 = true) ∧ (s.hostBad addr 256 = false) ∧ (r = mread s.w.host addr 256) ∧ (authFail 1 r (counted h s) = none) ∧ (s.ctl.health.sentOff = true)) ∧
    (∃ (h : Hdr) (addr : Nat) (r : Bytes) (s : State) (st : _) (d : _), (Ready 0x0804 h s) ∧ (h.job = 0xFFFF) ∧ (s.hostOk addr 256 = true) ∧ (s.hostBad addr 256 = false) ∧ (r = mread s.w.host addr 256) ∧ (authFail 1 r (counted h s) = some (st, d))) :=
  ⟨⟨h0, 0x3000, zeros 256, up, 0x11, 2 ^ 31, by unfold Ready; decide +kernel⟩,
    ⟨h0, 0x3000, authRec 1 0 [], (keyed 1 up).hostPut 0x3000 (authRec 1 0 []), by unfold Ready; decide +kernel⟩,
    ⟨h0, 0x3000, authRec 1 0 [], ((keyed 1 up).hostPut 0x3000 (authRec 1 0 [])).modHealth (fun x => { x with sentOff := true }), by unfold Ready; decide +kernel⟩,
    ⟨h0, 0x3000, zeros 256, up, 0x11, 2 ^ 31, by unfold Ready; decide +kernel⟩⟩

/-- Values that meet the hypotheses of `Obligations.SidelineRecordsComplete`, clause by clause. -/
theorem witness_SidelineRecordsComplete :
    (∃ (s : State), (s.slUp = true)) ∧
    (∃ (seq : Nat) (r : SlRec) (s : State), (s.slUp = true) ∧ (s.w.sl.held.find? (fun x => x.seq == seq) = some r)) ∧
    (∃ (s : State), (s.slUp = true)) ∧
    (∃ (seq : Nat) (p : Bytes) (x : Xfer) (s : State), (s.slUp = true) ∧ ((∀ e ∈ s.w.sl.handled, e.1 ≠ seq)) ∧ (chunkIn s.w.sl.drill p = some x) ∧ (covered x.got x.total = false)) ∧
    (∃ (seq : Nat) (p : Bytes) (x : Xfer) (s : State), (s.slUp = true) ∧ ((∀ e ∈ s.w.sl.handled, e.1 ≠ seq)) ∧ (chunkIn s.w.sl.fw p = some x) ∧ (covered x.got x.total = false)) ∧
    (∃ (s : State), (s.ctl.power.phase ≠ .off) ∧ (s.w.sl.link = false) ∧ (s.w.sl.held = [])) ∧
    (∃ (s : State), (s.slUp = true) ∧ (s.w.sl.dhcp = true)) ∧
    (∃ (c : Instr) (seq : Nat) (st : Nat) (p : Bytes) (s : State), ((c = .sidelineDrillChunk seq p ∨ c = .sidelineFirmwareChunk seq p ∨ c = .authReinstate seq p ∨ c = .authFoul seq p ∨ c = .authEndExclusion seq p ∨ c = .authReset seq p ∨ c = .authWake seq p ∨ c = .authEnrol seq p ∨ c = .authProvision seq p ∨ c = .authSendOff seq p)) ∧ (s.slUp = true) ∧ (s.w.sl.handled.find? (fun e => e.1 == seq) = some (seq, st))) :=
  ⟨⟨(up.modSl (fun x => { x with link := true })), by decide +kernel⟩,
    ⟨3, { seq := 3, kind := 2 }, up.modSl (fun x => { x with link := true, held := [{ seq := 3, kind := 2 }] }), by decide +kernel⟩,
    ⟨(up.modSl (fun x => { x with link := true })), by decide +kernel⟩,
    ⟨3, layout [(4, 9), (4, 2), (4, 0), (4, 0)] ++ [5], { id := 9, total := 2, data := [(0, 5)], got := [(0, 1)] }, (up.modSl (fun x => { x with link := true })), by decide +kernel⟩,
    ⟨3, layout [(4, 9), (4, 2), (4, 1), (4, 0)] ++ [5], { id := 9, total := 2, data := [(1, 5)], got := [(1, 1)] }, (up.modSl (fun x => { x with link := true })), by decide +kernel⟩,
    ⟨up, by decide +kernel⟩,
    ⟨(up.modSl (fun x => { x with link := true })), by decide +kernel⟩,
    ⟨.authWake 3 [], 3, 0xA0, [], up.modSl (fun x => { x with link := true, handled := [(3, 0xA0)] }), by exact ⟨by simp, by decide +kernel, by decide +kernel⟩⟩⟩

/-- Values that meet the hypotheses of `Obligations.ManagementBusAnswers`, clause by clause. -/
theorem witness_ManagementBusAnswers :
    (∃ (op : Nat) (eid : Nat) (s : State), (s.ctl.power.phase ≠ .off) ∧ (op % 4 ≤ 1) ∧ (8 ≤ eid) ∧ (eid ≤ 0xFE)) ∧
    (∃ (s : State), (s.ctl.power.phase ≠ .off)) ∧
    (∃ (typ : Nat) (s : State), (s.ctl.power.phase ≠ .off) ∧ ((typ = 0xFF ∨ typ = 0x00 ∨ typ = 0x05))) ∧
    (∃ (s : State), (s.ctl.power.phase ≠ .off)) :=
  ⟨⟨1, 8, up, by decide +kernel⟩,
    ⟨up, by decide +kernel⟩,
    ⟨0xFF, up, by decide +kernel⟩,
    ⟨up, by decide +kernel⟩⟩

/-- Values that meet the hypotheses of `Obligations.SpdmExchangeRuns`, clause by clause. -/
theorem witness_SpdmExchangeRuns :
    (∃ (s : State), (s.ctl.power.phase ≠ .off)) ∧
    (∃ (s : State), (s.ctl.power.phase = .run) ∧ (s.ctl.power.sitPending = false) ∧ (1 ≤ s.ctl.mctp.spdm)) ∧
    (∃ (asym : Nat) (hash : Nat) (s : State), (s.ctl.power.phase = .run) ∧ (s.ctl.power.sitPending = false) ∧ (2 ≤ s.ctl.mctp.spdm) ∧ (bit asym 7 = true) ∧ (bit hash 1 = true)) ∧
    (∃ (s : State), (s.ctl.power.phase = .run) ∧ (s.ctl.power.sitPending = false) ∧ (3 ≤ s.ctl.mctp.spdm)) ∧
    (∃ (s : State), (s.ctl.power.phase = .run) ∧ (s.ctl.power.sitPending = false) ∧ (3 ≤ s.ctl.mctp.spdm)) ∧
    (∃ (s : State), (s.ctl.power.phase = .run) ∧ (s.ctl.power.sitPending = false) ∧ (3 ≤ s.ctl.mctp.spdm)) ∧
    (∃ (i : Nat) (s : State), (s.ctl.power.phase = .run) ∧ (s.ctl.power.sitPending = false) ∧ (3 ≤ s.ctl.mctp.spdm) ∧ (1 ≤ i) ∧ (i ≤ 8)) ∧
    (∃ (c : Instr) (s : State), ((c = .getCapabilities ∨ (∃ a h, c = .negotiateAlgorithms a h) ∨ c = .getDigests ∨ (∃ x y z, c = .getCertificate x y z) ∨ (∃ x n, c = .challenge x n) ∨ (∃ i b n, c = .getMeasurements i b n))) ∧ (s.ctl.power.phase ≠ .off) ∧ (spdmBusy s = true)) :=
  ⟨⟨up, by decide +kernel⟩,
    ⟨(up.modMctp (fun m => { m with spdm := 3 })), by decide +kernel⟩,
    ⟨0x80, 2, (up.modMctp (fun m => { m with spdm := 3 })), by decide +kernel⟩,
    ⟨(up.modMctp (fun m => { m with spdm := 3 })), by decide +kernel⟩,
    ⟨(up.modMctp (fun m => { m with spdm := 3 })), by decide +kernel⟩,
    ⟨(up.modMctp (fun m => { m with spdm := 3 })), by decide +kernel⟩,
    ⟨8, (up.modMctp (fun m => { m with spdm := 3 })), by decide +kernel⟩,
    ⟨.getDigests, up.modPower (fun p => { p with sitPending := true }), by exact ⟨by simp, by decide +kernel, by decide +kernel⟩⟩⟩

/-- Values that meet the hypotheses of `Obligations.PowerAndClockBringUp`, clause by clause. -/
theorem witness_PowerAndClockBringUp :
    (∃ (cs : Nat) (xs : Nat) (smb : Nat) (s : State), (s.ctl.power.phase = .off) ∧ (cs < 4) ∧ (xs < 3) ∧ (smb < 8)) ∧
    (∃ (s : State), (s.ctl.power.phase = .waitRefclk)) ∧
    (∃ (s : State), (s.ctl.power.phase = .settling) ∧ (s.ctl.power.bringup ≠ .sitOutReturn)) ∧
    (∃ (s : State), (s.ctl.power.phase = .locking) ∧ (s.ctl.power.bringup = .cold)) ∧
    (∃ (s : State), (s.ctl.power.phase = .locking) ∧ (s.ctl.power.bringup = .refclkReturn) ∧ (s.ctl.power.uncal = false)) ∧
    (∃ (s : State), (s.ctl.power.phase ≠ .off)) ∧
    (∃ (s : State), (s.ctl.power.reached = true) ∧ (s.ctl.power.phase = .run)) ∧
    (∃ (s : State), (s.ctl.power.phase = .run)) :=
  ⟨⟨3, 2, 7, off, by decide +kernel⟩,
    ⟨phase .waitRefclk, by decide +kernel⟩,
    ⟨(phase .settling), by decide +kernel⟩,
    ⟨phase .locking, by decide +kernel⟩,
    ⟨(phase .locking).modPower (fun p => { p with bringup := .refclkReturn, uncal := false }), by decide +kernel⟩,
    ⟨up, by decide +kernel⟩,
    ⟨up, by decide +kernel⟩,
    ⟨up, by decide +kernel⟩⟩

/-- Values that meet the hypotheses of `Obligations.RailsOffKeepsTheKeepStore`, clause by clause. -/
theorem witness_RailsOffKeepsTheKeepStore :
    ∃ (c : Instr) (s : State), ((c = .pwrEnLow ∨ c = .underVoltage ∨ c = .overVoltage)) ∧ (s.ctl.power.phase ≠ .off) :=
  ⟨.overVoltage, up, by exact ⟨by simp, by decide +kernel⟩⟩

/-- Values that meet the hypotheses of `Obligations.CalibrationAndSitOutExitBringTheModuleUp`, clause by clause. -/
theorem witness_CalibrationAndSitOutExitBringTheModuleUp :
    (∃ (s : State), (s.ctl.power.phase = .calibrating) ∧ (s.ctl.power.coldDies = false)) ∧
    (∃ (r : Retention) (s : State), (s.ctl.power.phase = .sitOut) ∧ (s.ctl.power.wakePending ≠ 0) ∧ (s.ctl.power.retention = some r)) :=
  ⟨⟨phase .calibrating, by decide +kernel⟩,
    ⟨{ capW := 1000, targetMv := 750, tjLimitC := 100 }, (phase .sitOut).modPower (fun p => { p with wakePending := 2, retention := some { capW := 1000, targetMv := 750, tjLimitC := 100 } }), by decide +kernel⟩⟩

/-- Values that meet the hypotheses of `Obligations.ClockLossStopsTheModule`, clause by clause. -/
theorem witness_ClockLossStopsTheModule :
    ∃ (lock : Bool) (s : State), (s.ctl.power.phase = .run) ∧ ((lock = true → s.ctl.clk.locked = true)) ∧ ((∀ l < 24, (s.link l).state = 0 ∨ (s.link l).state = 4)) :=
  ⟨true, up, by decide +kernel⟩

/-- Values that meet the hypotheses of `Obligations.WarmResetLeavesASurvivalRecord`, clause by clause. -/
theorem witness_WarmResetLeavesASurvivalRecord :
    ∃ (cause : Nat) (s : State), (2 ≤ cause) ∧ (cause ≤ 9) ∧ (s.ctl.power.phase = .run) :=
  ⟨9, up, by decide +kernel⟩

/-- Values that meet the hypotheses of `Obligations.WatchdogsAndFlush`, clause by clause. -/
theorem witness_WatchdogsAndFlush :
    (∃ (s : State), (s.ctl.power.phase = .run) ∧ (s.ctl.ident.failed = false)) ∧
    (∃ (s : State), (s.ctl.power.phase = .run) ∧ (s.ctl.ident.failed = false)) ∧
    (∃ (l : Nat) (s : State), (l < 24) ∧ (Sys2Proof.Claims.rising s.w.lk) ∧ ((s.link l).state = 3)) ∧
    (∃ (job : Nat) (r : Run) (s : State), (job < 64) ∧ (s.ctl.power.phase = .run) ∧ (s.ctl.ident.failed = false) ∧ (r ∈ s.w.inflight) ∧ (r.hdr.job = job) ∧ ((s.job job).pstate ≠ 2) ∧ (Sys2Proof.Claims.rising s.ctl.health.tripped)) ∧
    (∃ (g : Gran) (s : State), (s.ctl.power.phase = .run) ∧ (g ∈ dirtyGrans s (fun _ => true))) :=
  ⟨⟨up, by decide +kernel⟩,
    ⟨up, by decide +kernel⟩,
    ⟨23, up.modLink 23 (fun l => { l with state := 3 }), by unfold Sys2Proof.Claims.rising; decide +kernel⟩,
    ⟨63, { hdr := { h1 with job := 63 }, op := 0x0203 }, up.onW (fun w => { w with inflight := [{ hdr := { h1 with job := 63 }, op := 0x0203 }] }), by unfold Sys2Proof.Claims.rising; decide +kernel⟩,
    ⟨⟨1, 1, 0⟩, cached, by decide +kernel⟩⟩

/-- Values that meet the hypotheses of `Obligations.PowerControllerActs`, clause by clause. -/
theorem witness_PowerControllerActs :
    (∃ (s : State), (s.ctl.power.phase ≠ .off)) ∧
    (∃ (s : State), (s.ctl.power.phase = .run) ∧ (s.ctl.power.nowMv ≤ 600) ∧ (s.ctl.power.gate ≤ 8) ∧ (s.ctl.power.stkCap = true)) ∧
    (∃ (die : Nat) (s : State), (die ≤ 4) ∧ (s.ctl.power.phase = .run) ∧ (s.w.holder = none)) :=
  ⟨⟨up, by decide +kernel⟩,
    ⟨up.modPower (fun p => { p with nowMv := 600, gate := 8, stkCap := true }), by decide +kernel⟩,
    ⟨4, up, by decide +kernel⟩⟩

/-- Values that meet the hypotheses of `Obligations.SitOutIsEnteredAndWoken`, clause by clause. -/
theorem witness_SitOutIsEnteredAndWoken :
    (∃ (s : State), (s.ctl.power.sitPending = true) ∧ (s.ctl.power.phase = .run)) ∧
    (∃ (s : State), (s.ctl.power.dieTripped = true) ∧ (s.ctl.power.phase = .run)) ∧
    (∃ (s : State), (s.cfg.wakeBench = true) ∧ (s.ctl.power.phase = .sitOut) ∧ (s.ctl.power.thermSit = false) ∧ (s.ctl.power.wakePending = 0)) :=
  ⟨⟨up.modPower (fun p => { p with sitPending := true }), by decide +kernel⟩,
    ⟨up.modPower (fun p => { p with dieTripped := true }), by decide +kernel⟩,
    ⟨{ phase .sitOut with cfg := { up.cfg with wakeBench := true } }, by decide +kernel⟩⟩

/-- Values that meet the hypotheses of `Obligations.RateWindowIsMeasured`, clause by clause. -/
theorem witness_RateWindowIsMeasured :
    ∃ (die : Nat) (s : State), (die < 4) ∧ (s.ctl.power.phase = .run) ∧ ((tget {} s.cfg.die die).run = true) ∧ ((tget {} s.cfg.die die).driftEn = false) ∧ ((tget {} s.cfg.die die).floorEn = false) ∧ (Sys2Proof.Claims.rising s.w.cells) :=
  ⟨3, { up with cfg := { up.cfg with die := [(3, { driftEn := false, floorEn := false })] } }, by unfold Sys2Proof.Claims.rising; decide +kernel⟩

/-- Values that meet the hypotheses of `Obligations.QueueContextIsEnabledAndDisabled`, clause by clause. -/
theorem witness_QueueContextIsEnabledAndDisabled :
    (∃ (q : Nat) (v : Nat) (c : Queue) (s : State), (q < 8192) ∧ (s.unitOn 0x01 = true) ∧ ((s.queue q).state = 0) ∧ (c = cfgFields (setBit v 24 true) (s.queue q)) ∧ (4 ≤ c.cmdLog2) ∧ (c.cmdLog2 ≤ c.rplLog2) ∧ (c.rplLog2 ≤ 15) ∧ (c.cmdBase % 4096 = 0) ∧ (c.rplBase % 4096 = 0) ∧ ((q = 0 → c.cls = 0 ∧ c.addrHost = true)) ∧ ((q ≠ 0 → s.live c.job = true))) ∧
    (∃ (q : Nat) (v : Nat) (c : Queue) (s : State), (q < 8192) ∧ (s.unitOn 0x01 = true) ∧ ((s.queue q).state = 0) ∧ (c = cfgFields (setBit v 24 true) (s.queue q)) ∧ (c.cmdLog2 < 4 ∨ 15 < c.cmdLog2 ∨ c.rplLog2 < 4 ∨ 15 < c.rplLog2)) ∧
    (∃ (q : Nat) (v : Nat) (c : Queue) (s : State), (q < 8192) ∧ (s.unitOn 0x01 = true) ∧ ((s.queue q).state = 0) ∧ (c = cfgFields (setBit v 24 true) (s.queue q)) ∧ (4 ≤ c.rplLog2) ∧ (c.rplLog2 < c.cmdLog2) ∧ (c.cmdLog2 ≤ 15)) ∧
    (∃ (q : Nat) (v : Nat) (e : Nat) (c : Queue) (s : State), (q < 8192) ∧ (s.unitOn 0x01 = true) ∧ ((s.queue q).state = 0) ∧ (c = cfgFields (setBit v 24 true) (s.queue q)) ∧ (enableErr s q c = some e)) ∧
    (∃ (q : Nat) (s : State), (q < 8192) ∧ (s.unitOn 0x01 = true) ∧ ((s.queue q).state = 1) ∧ (Sys2Proof.Claims.rising s.w.queues)) :=
  ⟨⟨1, 0x01011144, _, up.setQueue 1 { cmdBase := 0x1000, rplBase := 0x2000, job := 1, cls := 1 }, by and_intros <;> first | decide +kernel | rfl⟩,
    ⟨1, 0, _, up.setQueue 1 {}, by and_intros <;> first | decide +kernel | rfl⟩,
    ⟨1, 0x45, _, up.setQueue 1 {}, by and_intros <;> first | decide +kernel | rfl⟩,
    ⟨1, 0, 1, _, up.setQueue 1 {}, by and_intros <;> first | decide +kernel | rfl⟩,
    ⟨1, up, by unfold Sys2Proof.Claims.rising; decide +kernel⟩⟩

/-- Values that meet the hypotheses of `Obligations.DoorbellsMoveTheirPointers`, clause by clause. -/
theorem witness_DoorbellsMoveTheirPointers :
    (∃ (q : Nat) (v : Nat) (s : State), (q < 8192) ∧ (v < 65536) ∧ (s.unitOn 0x01 = true) ∧ ((s.queue q).state = 1 ∨ (s.queue q).state = 3) ∧ (v ≠ (s.queue q).cmdTail) ∧ ((v + 65536 - (s.queue q).cmdHead) % 65536 ≤ 2 ^ (s.queue q).cmdLog2)) ∧
    (∃ (q : Nat) (v : Nat) (s : State), (q < 8192) ∧ (v < 65536) ∧ (s.unitOn 0x01 = true) ∧ ((s.queue q).state = 1 ∨ (s.queue q).state = 3) ∧ (v = (s.queue q).cmdTail)) ∧
    (∃ (q : Nat) (v : Nat) (s : State), (q < 8192) ∧ (v < 65536) ∧ (s.unitOn 0x01 = true) ∧ ((s.queue q).state = 1 ∨ (s.queue q).state = 3) ∧ (v ≠ (s.queue q).cmdTail) ∧ (2 ^ (s.queue q).cmdLog2 < (v + 65536 - (s.queue q).cmdHead) % 65536) ∧ (Sys2Proof.Claims.rising s.w.queues)) ∧
    (∃ (q : Nat) (s : State), (q < 8192) ∧ (s.unitOn 0x01 = true) ∧ ((s.queue q).state = 0 ∨ (s.queue q).state = 2)) :=
  ⟨⟨1, 16, up, by decide +kernel⟩,
    ⟨1, 0, up, by decide +kernel⟩,
    ⟨1, 17, up, by unfold Sys2Proof.Claims.rising; decide +kernel⟩,
    ⟨8191, up, by decide +kernel⟩⟩

/-- Values that meet the hypotheses of `Obligations.EventRingAndCoalescing`, clause by clause. -/
theorem witness_EventRingAndCoalescing :
    (∃ (q : Nat) (s : State), ((s.queue q).coalUs ≠ 0) ∧ ((s.queue q).unsig ≠ 0) ∧ ((tget {} s.w.msix (s.queue q).vector).masked = false)) ∧
    (∃ (q : Nat) (s : State), ((s.queue q).coalUs = 0 ∨ (s.queue q).unsig = 0)) :=
  ⟨⟨1, up.modQueue 1 (fun q => { q with coalUs := 1, unsig := 1 }), by decide +kernel⟩,
    ⟨1, up, by decide +kernel⟩⟩

/-- Values that meet the hypotheses of `Obligations.FetchStartsTheCommand`, clause by clause. -/
theorem witness_FetchStartsTheCommand :
    (∃ (c : Instr), ((encodePacket c).isSome = true)) ∧
    (∃ (bs : Bytes) (s : State), (s.ctl.clk.frozen = false) ∧ (s.unitOn 0x01 = true) ∧ (s.w.waits = []) ∧ (s.w.inflight = []) ∧ ((∀ e ∈ s.w.queues, e.2.fetched = [])) ∧ ((s.queue 0).parked = []) ∧ (Sys2Proof.Claims.rising s.w.queues) ∧ (canFetch s 0 = 1) ∧ (ringRead 0 (fetchAddr (s.queue 0)) 64 s = .ok bs)) ∧
    (∃ (s : State), (s.ctl.clk.frozen = false) ∧ (s.unitOn 0x01 = false) ∧ (s.w.waits = []) ∧ ((∀ e ∈ s.w.queues, e.2.fetched = []))) :=
  ⟨⟨.nop h0, by decide +kernel⟩,
    ⟨mread [] 0x10000 64, up.modQueue 0 (fun q => { q with cmdTail := 1 }), by unfold Sys2Proof.Claims.rising; decide +kernel⟩,
    ⟨up.setUnits 0, by decide +kernel⟩⟩

/-- Values that meet the hypotheses of `Obligations.RegistersTakeTheirFields`, clause by clause. -/
theorem witness_RegistersTakeTheirFields :
    (∃ (off : Nat), (0x4000 ≤ off) ∧ (off < 0x4100)) ∧
    (∃ (off : Nat) (width : Nat) (u : Nat) (s : State), (width = 4 ∨ width = 8) ∧ (off % width = 0) ∧ (windowUnit off = some u) ∧ (s.unitOn u = false)) ∧
    (∃ (u : Nat) (s : State), (s.unitOn u = false)) ∧
    (∃ (u : Nat) (s : State), (s.unitOn u = true)) ∧
    (∃ (k : Nat) (v : Nat) (new : Nat) (s : State), (k < 4) ∧ (s.ctl.power.phase = .run) ∧ (s.ctl.ident.failed = false) ∧ (new = s.ctl.unitEn % 2 ^ (32 * k) + 2 ^ (32 * k) * (v.land (unitMask k)) + 2 ^ (32 * (k + 1)) * (s.ctl.unitEn / 2 ^ (32 * (k + 1)))) ∧ ((∀ l < 24, s.unitOn (0x30 + l) = true → bit new (0x30 + l) = true)) ∧ ((∀ l < 24, (s.link l).state = 0 → (s.link l).sig = false))) :=
  ⟨⟨0x40FF, by decide +kernel⟩,
    ⟨0x2BFFF8, 8, 0x1B, {}, by decide +kernel⟩,
    ⟨3, {}, by decide +kernel⟩,
    ⟨3, up, by decide +kernel⟩,
    ⟨3, 0xFFF, _, up, by and_intros <;> first | decide +kernel | rfl⟩⟩

/-- Values that meet the hypotheses of `Obligations.JobContextsAreCreatedAndDestroyed`, clause by clause. -/
theorem witness_JobContextsAreCreatedAndDestroyed :
    (∃ (h : Hdr) (job : Nat) (s : State), (Ready 0x0101 h s) ∧ (job < 64) ∧ ((∀ r ∈ s.w.inflight, r.op ≠ 0x0102)) ∧ ((s.job job).live = false) ∧ (survivor s job = none)) ∧
    (∃ (h : Hdr) (job : Nat) (s : State), (Ready 0x0101 h s) ∧ (job < 64) ∧ ((∀ r ∈ s.w.inflight, r.op ≠ 0x0102)) ∧ ((s.job job).live = true)) ∧
    (∃ (h : Hdr) (job : Nat) (s : State), (Ready 0x0101 h s) ∧ (64 ≤ job)) ∧
    (∃ (h : Hdr) (s : State), (Ready 0x0102 h s) ∧ (h.q = 0) ∧ (s.w.inflight = []) ∧ (s.w.waits = []) ∧ (s.live h.job = true) ∧ (s.w.dma = []) ∧ ((∀ e ∈ s.w.queues, e.1 ≠ 0 → e.2.job = h.job → e.2.state = 0)) ∧ (Sys2Proof.Claims.rising s.w.jobs)) ∧
    (∃ (h : Hdr) (s : State), (Ready 0x0102 h s) ∧ (s.w.inflight = []) ∧ (s.live h.job = false)) :=
  ⟨⟨h0, 63, up, by unfold Ready; decide +kernel⟩,
    ⟨h0, 1, up, by unfold Ready; decide +kernel⟩,
    ⟨h0, 64, up, by unfold Ready; decide +kernel⟩,
    ⟨{ h0 with job := 1 }, up.onW (fun w => { w with queues := [(0, ring 0xFF 0)] }), by unfold Ready Sys2Proof.Claims.rising; decide +kernel⟩,
    ⟨{ h0 with job := 2 }, up, by unfold Ready; decide +kernel⟩⟩

/-- Values that meet the hypotheses of `Obligations.PreemptionStopsAndResumesTheJob`, clause by clause. -/
theorem witness_PreemptionStopsAndResumesTheJob :
    (∃ (h : Hdr) (s : State), (Ready 0x0103 h s) ∧ ((s.job h.job).pstate = 2)) ∧
    (∃ (h : Hdr) (s : State), (Ready 0x0103 h s) ∧ ((s.job h.job).pstate = 0) ∧ (preemptDeferred s h.job = false) ∧ (Sys2Proof.Claims.rising s.w.jobs)) ∧
    (∃ (j : Nat) (node : Nat) (s : State), (s.live j = true) ∧ ((s.job j).pstate = 0) ∧ (preemptDeferred s j = false) ∧ (node ≠ s.w.topo.node) ∧ (Sys2Proof.Claims.rising s.w.jobs)) ∧
    (∃ (j : Nat) (s : State), (s.ctl.clk.frozen = false) ∧ (s.live j = true) ∧ ((s.job j).pstate = 1) ∧ ((s.job j).run = none) ∧ (saving s j = false) ∧ (frontsKnown s j = true) ∧ (Sys2Proof.Claims.rising s.w.jobs) ∧ (Sys2Proof.Claims.rising s.w.dma)) ∧
    (∃ (j : Nat) (s : State), (s.ctl.clk.frozen = false) ∧ ((s.job j).pstate = 1) ∧ (saving s j = true) ∧ ((∀ i < 4, (s.chan (120 + i)).state ≤ 1 ∧ (s.chan (120 + i)).job = j)) ∧ (quartersMapped s = true) ∧ (Sys2Proof.Claims.rising s.w.jobs) ∧ (Sys2Proof.Claims.rising s.w.dma)) ∧
    (∃ (h : Hdr) (s : State), (Ready 0x0104 h s) ∧ ((s.job h.job).pstate = 0) ∧ ((s.job h.job).waiting = [])) ∧
    (∃ (h : Hdr) (s : State), (Ready 0x0104 h s) ∧ ((s.job h.job).pstate = 2) ∧ ((s.job h.job).cur = none) ∧ ((s.w.holder = none ∨ s.w.holder = some h.job)) ∧ (saving s h.job = false) ∧ (Sys2Proof.Claims.rising s.w.dma)) ∧
    (∃ (j : Nat) (r : Run) (s : State), (s.ctl.clk.frozen = false) ∧ (r ∈ s.w.inflight) ∧ (r.op = 0x0104) ∧ (r.hdr.job = j) ∧ ((∀ i < 4, (s.chan (120 + i)).state ≤ 1)) ∧ (quartersMapped s = true) ∧ ((s.job j).waiting = []) ∧ (Sys2Proof.Claims.rising s.w.jobs)) :=
  ⟨⟨{ h0 with job := 1 }, up.modJob 1 (fun b => { b with pstate := 2 }), by unfold Ready; decide +kernel⟩,
    ⟨{ h0 with job := 1 }, up, by unfold Ready Sys2Proof.Claims.rising; decide +kernel⟩,
    ⟨1, 2, up, by unfold Sys2Proof.Claims.rising; decide +kernel⟩,
    ⟨1, up.modJob 1 (fun b => { b with pstate := 1, fronts := [(0xFFFF, 0)] }), by unfold Sys2Proof.Claims.rising; decide +kernel⟩,
    ⟨1, quarters (up.modJob 1 (fun b => { b with pstate := 1 })), by unfold Sys2Proof.Claims.rising; decide +kernel⟩,
    ⟨{ h0 with job := 1 }, up, by unfold Ready; decide +kernel⟩,
    ⟨{ h0 with job := 1 }, up.modJob 1 (fun b => { b with pstate := 2 }), by unfold Ready Sys2Proof.Claims.rising; decide +kernel⟩,
    ⟨1, { hdr := h1, op := 0x0104 }, inflight { hdr := h1, op := 0x0104 } (quarters up), by unfold Sys2Proof.Claims.rising; decide +kernel⟩⟩

/-- Values that meet the hypotheses of `Obligations.MappingsAndTranslation`, clause by clause. -/
theorem witness_MappingsAndTranslation :
    (∃ (h : Hdr) (dva : Nat) (len : Nat) (host : Nat) (page : Nat) (access : Nat) (demand : Nat) (m : Mapping) (s : State), (Ready 0x0201 h s) ∧ (page ≤ 2) ∧ (dva % pageBytes page = 0) ∧ (len % pageBytes page = 0) ∧ (host % pageBytes page = 0) ∧ (0x10000 ≤ dva) ∧ (len ≠ 0) ∧ (dva + len ≤ 2 ^ 48) ∧ (access % 4 ≠ 0) ∧ ((demand % 2 = 1 → (s.job h.job).ats = true ∧ (s.job h.job).pri = true)) ∧ (m = { job := h.job, dva := dva, len := len, host := host, page := page, access := access % 4, demand := bit demand 0 }) ∧ ((∀ x ∈ s.w.mmu.maps, x.job = h.job → x.dva + x.len ≤ dva ∨ dva + len ≤ x.dva)) ∧ (mapEntries s + len / pageBytes page ≤ 262144)) ∧
    (∃ (h : Hdr) (dva : Nat) (len : Nat) (host : Nat) (page : Nat) (access : Nat) (demand : Nat) (m : Mapping) (s : State), (Ready 0x0201 h s) ∧ (page ≤ 2) ∧ (dva % pageBytes page = 0) ∧ (len % pageBytes page = 0) ∧ (host % pageBytes page = 0) ∧ (0x10000 ≤ dva) ∧ (len ≠ 0) ∧ (dva + len ≤ 2 ^ 48) ∧ (access % 4 ≠ 0) ∧ ((demand % 2 = 1 → (s.job h.job).ats = true ∧ (s.job h.job).pri = true)) ∧ (m = { job := h.job, dva := dva, len := len, host := host, page := page, access := access % 4, demand := bit demand 0 }) ∧ (m ∈ s.w.mmu.maps)) ∧
    (∃ (h : Hdr) (dva : Nat) (len : Nat) (host : Nat) (page : Nat) (access : Nat) (demand : Nat) (m : Mapping) (s : State), (Ready 0x0201 h s) ∧ (page ≤ 2) ∧ (dva % pageBytes page = 0) ∧ (len % pageBytes page = 0) ∧ (host % pageBytes page = 0) ∧ (0x10000 ≤ dva) ∧ (len ≠ 0) ∧ (dva + len ≤ 2 ^ 48) ∧ (access % 4 ≠ 0) ∧ ((demand % 2 = 1 → (s.job h.job).ats = true ∧ (s.job h.job).pri = true)) ∧ (m = { job := h.job, dva := dva, len := len, host := host, page := page, access := access % 4, demand := bit demand 0 }) ∧ ((∀ x ∈ s.w.mmu.maps, x.job = h.job → x.dva + x.len ≤ dva ∨ dva + len ≤ x.dva)) ∧ (262144 < mapEntries s + len / pageBytes page) ∧ (m ∉ s.w.mmu.maps)) ∧
    (∃ (h : Hdr) (dva : Nat) (len : Nat) (s : State), (Ready 0x0202 h s) ∧ ((∀ m ∈ s.w.mmu.maps, m.job = h.job → (cutMapping dva (dva + len) m).2 = false))) ∧
    (∃ (h : Hdr) (dva : Nat) (len : Nat) (s : State), (Ready 0x0202 h s) ∧ ((∀ c < 128, (s.chan c).state ≠ 2)) ∧ ((∃ m ∈ s.w.mmu.maps, m.job = h.job ∧ (cutMapping dva (dva + len) m).2 = true))) ∧
    (∃ (j : Nat) (s : State), (s.live j = true) ∧ ((s.job j).ats = true) ∧ (s.w.mmu.atc.length < 16384)) ∧
    (∃ (j : Nat) (host : Nat) (s : State), ((j, host / 4096) ∈ s.w.mmu.priOut) ∧ (Sys2Proof.Claims.nothingHeld s)) ∧
    (∃ (j : Nat) (host : Nat) (s : State), ((j, host / 4096) ∉ s.w.mmu.priOut)) ∧
    (∃ (s : State), (Sys2Proof.Claims.nothingHeld s)) :=
  ⟨⟨h1, 2 ^ 48 - 0x10000, 0x10000, 0, 0, 3, 0, { job := 1, dva := 2 ^ 48 - 0x10000, len := 0x10000, host := 0, page := 0, access := 3, demand := false }, up, by unfold Ready; decide +kernel⟩,
    ⟨h1, 0x10000, 0x10000, 0x100000, 0, 3, 1, mapped, mem.modJob 1 (fun b => { b with ats := true, pri := true }), by unfold Ready; decide +kernel⟩,
    ⟨h1, 0x10000, 65536 * 262145, 0, 0, 1, 0, { job := 1, dva := 0x10000, len := 65536 * 262145, host := 0, page := 0, access := 1, demand := false }, up, by unfold Ready; decide +kernel⟩,
    ⟨h1, 0x20000, 0x10000, mem, by unfold Ready; decide +kernel⟩,
    ⟨h1, 0x10000, 0x10000, mem, by unfold Ready; decide +kernel⟩,
    ⟨1, up.modJob 1 (fun b => { b with ats := true }), by decide +kernel⟩,
    ⟨1, 0x1000, up.onW (fun w => { w with mmu := { w.mmu with priOut := [(1, 1)] } }), by unfold Sys2Proof.Claims.nothingHeld; decide +kernel⟩,
    ⟨1, 0x1000, up, by decide +kernel⟩,
    ⟨up, by unfold Sys2Proof.Claims.nothingHeld; decide +kernel⟩⟩

/-- Values that meet the hypotheses of `Obligations.DmaStreamsMoveGranulesInOrder`, clause by clause. -/
theorem witness_DmaStreamsMoveGranulesInOrder :
    (∃ (h : Hdr) (src : Nat) (dst : Nat) (len : Nat) (srcH : Nat) (dstH : Nat) (c : Nat) (x : Chan) (s : State), (Ready 0x0203 h s) ∧ (len ≠ 0) ∧ (len % 64 = 0) ∧ (len ≤ 2 ^ 40) ∧ (srcH ≠ 0 ∨ dstH ≠ 0) ∧ ((srcH = 0 → src % 64 = 0 ∧ src + len ≤ 2 ^ 48)) ∧ ((dstH = 0 → dst % 64 = 0 ∧ dst + len ≤ 2 ^ 48)) ∧ (sideOk s h.job srcH src len = true) ∧ (sideOk s h.job dstH dst len = true) ∧ ((srcH = dstH → src + len ≤ dst ∨ dst + len ≤ src)) ∧ (usedRole s h.job dstH = none) ∧ ((∀ k, usedRole s h.job srcH = some k → k = 4 ∨ k = 6)) ∧ ((s.w.inflight.filter (fun r => r.op = 0x0203 && r.hdr.job = h.job)).length < 1024) ∧ (s.w.dmaWait = []) ∧ (x = { job := h.job, queue := h.q, len := len, total := (len + 4095) / 4096, src := ⟨srcH, src⟩, dst := ⟨dstH, dst⟩ }) ∧ (c < 80) ∧ ((s.chan c).state = 0) ∧ ((∀ k < c, (s.chan k).state ≠ 0))) ∧
    (∃ (h : Hdr) (src : Nat) (dst : Nat) (len : Nat) (srcH : Nat) (dstH : Nat) (x : Chan) (s : State), (Ready 0x0203 h s) ∧ (len ≠ 0) ∧ (len % 64 = 0) ∧ (len ≤ 2 ^ 40) ∧ (srcH ≠ 0 ∨ dstH ≠ 0) ∧ ((srcH = 0 → src % 64 = 0 ∧ src + len ≤ 2 ^ 48)) ∧ ((dstH = 0 → dst % 64 = 0 ∧ dst + len ≤ 2 ^ 48)) ∧ (sideOk s h.job srcH src len = true) ∧ (sideOk s h.job dstH dst len = true) ∧ ((srcH = dstH → src + len ≤ dst ∨ dst + len ≤ src)) ∧ (usedRole s h.job dstH = none) ∧ ((∀ k, usedRole s h.job srcH = some k → k = 4 ∨ k = 6)) ∧ ((s.w.inflight.filter (fun r => r.op = 0x0203 && r.hdr.job = h.job)).length < 1024) ∧ (s.w.dmaWait = []) ∧ (x = { job := h.job, queue := h.q, len := len, total := (len + 4095) / 4096, src := ⟨srcH, src⟩, dst := ⟨dstH, dst⟩ }) ∧ ((∀ c < 80, (s.chan c).state ≠ 0))) ∧
    (∃ (c : Nat) (g : Nat) (bs : Bytes) (x : Chan) (s : State) (s0 : State) (s1 : State), (s.ctl.clk.frozen = false) ∧ (c < 80) ∧ (x = s.chan c) ∧ (x.state = 1) ∧ (x.done ≤ g) ∧ (g < x.total) ∧ (g < x.done + 16) ∧ (g ∉ x.above) ∧ (granReady s x g = true) ∧ (granOff s x g = none) ∧ (s0 = (if x.src.handle = 0 then s.modXing xHost (Xing.pass 1) else readDev 0 x.job x.src.handle (granAt x.src g) (granLen x g) (s.modXing xHost (Xing.pass 1)))) ∧ (s1 = (if x.dst.handle = 0 then (jobWrite s0 x.job (granAt x.dst g) bs).2 else imageWrite x.job x.dst.handle (granAt x.dst g) bs s0)) ∧ (granRead s0 x g = .ok bs) ∧ (hostPoisons s0 x g = false) ∧ (g = x.done) ∧ (x.above = []) ∧ (g + 1 < x.total)) ∧
    (∃ (c : Nat) (g : Nat) (bs : Bytes) (x : Chan) (s : State) (s0 : State) (s1 : State), (s.ctl.clk.frozen = false) ∧ (c < 80) ∧ (x = s.chan c) ∧ (x.state = 1) ∧ (x.done ≤ g) ∧ (g < x.total) ∧ (g < x.done + 16) ∧ (g ∉ x.above) ∧ (granReady s x g = true) ∧ (granOff s x g = none) ∧ (s0 = (if x.src.handle = 0 then s.modXing xHost (Xing.pass 1) else readDev 0 x.job x.src.handle (granAt x.src g) (granLen x g) (s.modXing xHost (Xing.pass 1)))) ∧ (s1 = (if x.dst.handle = 0 then (jobWrite s0 x.job (granAt x.dst g) bs).2 else imageWrite x.job x.dst.handle (granAt x.dst g) bs s0)) ∧ (granRead s0 x g = .ok bs) ∧ (hostPoisons s0 x g = false) ∧ (x.done < g) ∧ (x.done ∉ x.above)) ∧
    (∃ (c : Nat) (g : Nat) (bs : Bytes) (x : Chan) (s : State) (s0 : State) (s1 : State), (s.ctl.clk.frozen = false) ∧ (c < 80) ∧ (x = s.chan c) ∧ (x.state = 1) ∧ (x.done ≤ g) ∧ (g < x.total) ∧ (g < x.done + 16) ∧ (g ∉ x.above) ∧ (granReady s x g = true) ∧ (granOff s x g = none) ∧ (s0 = (if x.src.handle = 0 then s.modXing xHost (Xing.pass 1) else readDev 0 x.job x.src.handle (granAt x.src g) (granLen x g) (s.modXing xHost (Xing.pass 1)))) ∧ (s1 = (if x.dst.handle = 0 then (jobWrite s0 x.job (granAt x.dst g) bs).2 else imageWrite x.job x.dst.handle (granAt x.dst g) bs s0)) ∧ (granRead s0 x g = .ok bs) ∧ (hostPoisons s0 x g = false) ∧ (g = x.done) ∧ (x.above = []) ∧ (g + 1 = x.total)) ∧
    (∃ (c : Nat) (s : State), (c < 80) ∧ ((s.chan c).state ≠ 1) ∧ (s.ctl.clk.frozen = false)) ∧
    (∃ (s : State), (s.ctl.clk.frozen = true) ∧ ((s.xing xHost).held.length < 32)) ∧
    (∃ (c : Nat) (g : Nat) (a : Nat) (page : Nat) (s : State), (c < 80) ∧ ((s.chan c).state = 1) ∧ ((s.chan c).done ≤ g) ∧ (g < (s.chan c).total) ∧ (g < (s.chan c).done + 16) ∧ ((granFaults s (s.chan c) g).find? (fun f => f.1 == 2) = some (2, a, page)) ∧ (canRequest s (s.chan c).job a = true) ∧ (Sys2Proof.Claims.rising s.w.dma) ∧ (Sys2Proof.Claims.rising s.w.jobs)) :=
  ⟨⟨h1, 0x10000, 0, 4096, 0, 1, 79, { job := 1, queue := 1, len := 4096, total := 1, src := ⟨0, 0x10000⟩, dst := ⟨1, 0⟩ }, chans 79 (stream 0 2) mem, by unfold Ready; and_intros <;> decide +kernel⟩,
    ⟨h1, 0x10000, 0, 4096, 0, 1, { job := 1, queue := 1, len := 4096, total := 1, src := ⟨0, 0x10000⟩, dst := ⟨1, 0⟩ }, chans 80 (stream 0 2) mem, by unfold Ready; and_intros <;> decide +kernel⟩,
    ⟨79, 0, mread [] 0x100000 4096, stream 0 2, chans 80 (stream 0 2) mem, _, _, by and_intros <;> first | decide +kernel | rfl⟩,
    ⟨79, 1, mread [] 0x101000 64, stream 0 2, chans 80 (stream 0 2) mem, _, _, by and_intros <;> first | decide +kernel | rfl⟩,
    ⟨79, 1, mread [] 0x101000 64, stream 1 2, chans 80 (stream 1 2) mem, _, _, by and_intros <;> first | decide +kernel | rfl⟩,
    ⟨79, up, by decide +kernel⟩,
    ⟨stopped, by decide +kernel⟩,
    ⟨79, 0, 0x10000, 0x100, chans 80 (stream 0 2) (mem.modJob 1 (fun b => { b with ats := true, pri := true })), by unfold Sys2Proof.Claims.rising; decide +kernel⟩⟩

/-- Values that meet the hypotheses of `Obligations.AperturesReachDeclarations`, clause by clause. -/
theorem witness_AperturesReachDeclarations :
    (∃ (ap : Nat) (off : Nat) (data : Bytes) (x : Ap) (d : Decl) (s : State), (x = tget {} s.w.mmu.ap ap) ∧ (ap < 16) ∧ (x.en = true) ∧ (s.live x.job = true) ∧ (s.decl x.job x.handle = some d) ∧ (data ≠ []) ∧ (x.offset + off + data.length ≤ d.imageBytes) ∧ ((homesOf s x.job x.handle (x.offset + off) data.length).all (fun h => s.unitOn h.unit) = true) ∧ (missingAt s x.job x.handle (x.offset + off) data.length = none) ∧ (rangeFree s x.job x.handle (x.offset + off) data.length = true) ∧ ((∀ y ∈ s.w.apWait, y.job ≠ x.job ∨ y.handle ≠ x.handle))) ∧
    (∃ (ap : Nat) (off : Nat) (len : Nat) (x : Ap) (d : Decl) (s : State) (s1 : State), (x = tget {} s.w.mmu.ap ap) ∧ (ap < 16) ∧ (x.en = true) ∧ (s.live x.job = true) ∧ (s.decl x.job x.handle = some d) ∧ (0 < len) ∧ (x.offset + off + len ≤ d.imageBytes) ∧ ((homesOf s x.job x.handle (x.offset + off) len).all (fun h => s.unitOn h.unit) = true) ∧ (missingAt s x.job x.handle (x.offset + off) len = none) ∧ (rangeFree s x.job x.handle (x.offset + off) len = true) ∧ ((∀ y ∈ s.w.apWait, y.job ≠ x.job ∨ y.handle ≠ x.handle)) ∧ (s1 = readDev 0 x.job x.handle (x.offset + off) len s)) ∧
    (∃ (ap : Nat) (off : Nat) (data : Bytes) (x : Ap) (d : Decl) (s : State) (h : _), (x = tget {} s.w.mmu.ap ap) ∧ (ap < 16) ∧ (x.en = true) ∧ (s.live x.job = true) ∧ (s.decl x.job x.handle = some d) ∧ (data ≠ []) ∧ (x.offset + off + data.length ≤ d.imageBytes) ∧ ((homesOf s x.job x.handle (x.offset + off) data.length).find? (fun h => !s.unitOn h.unit) = some h)) ∧
    (∃ (ap : Nat) (off : Nat) (len : Nat) (x : Ap) (d : Decl) (s : State) (h : _), (x = tget {} s.w.mmu.ap ap) ∧ (ap < 16) ∧ (x.en = true) ∧ (s.live x.job = true) ∧ (s.decl x.job x.handle = some d) ∧ (0 < len) ∧ (x.offset + off + len ≤ d.imageBytes) ∧ ((homesOf s x.job x.handle (x.offset + off) len).find? (fun h => !s.unitOn h.unit) = some h)) ∧
    (∃ (ap : Nat) (off : Nat) (len : Nat) (x : Ap) (d : Decl) (s : State), (x = tget {} s.w.mmu.ap ap) ∧ (ap < 16) ∧ (x.en = true) ∧ (s.live x.job = true) ∧ (s.decl x.job x.handle = some d) ∧ (0 < len) ∧ (d.imageBytes < x.offset + off + len)) ∧
    (∃ (ap : Nat) (off : Nat) (data : Bytes) (x : Ap) (d : Decl) (s : State), (x = tget {} s.w.mmu.ap ap) ∧ (ap < 16) ∧ (x.en = true) ∧ (s.live x.job = true) ∧ (s.decl x.job x.handle = some d) ∧ (d.imageBytes < x.offset + off + data.length)) ∧
    (∃ (ap : Nat) (len : Nat) (s : State), (16 ≤ ap ∨ (tget {} s.w.mmu.ap ap).en = false ∨ s.live (tget {} s.w.mmu.ap ap).job = false ∨ s.decl (tget {} s.w.mmu.ap ap).job (tget {} s.w.mmu.ap ap).handle = none) ∧ (0 < len)) :=
  ⟨⟨15, 16376, [1, 2, 3, 4, 5, 6, 7, 8], win15, tensor, window mem, by decide +kernel⟩,
    ⟨15, 0, 8, win15, tensor, window mem, _, by and_intros <;> first | decide +kernel | rfl⟩,
    ⟨15, 0, [1], win15, tensor, (window mem).setUnits 0, homeOf ((window mem).setUnits 0) 1 1 0, by decide +kernel⟩,
    ⟨15, 0, 1, win15, tensor, (window mem).setUnits 0, homeOf ((window mem).setUnits 0) 1 1 0, by decide +kernel⟩,
    ⟨15, 16384, 1, win15, tensor, window mem, by decide +kernel⟩,
    ⟨15, 16384, [1], win15, tensor, window mem, by decide +kernel⟩,
    ⟨16, 1, up, by decide +kernel⟩⟩

/-- Values that meet the hypotheses of `Obligations.StackThermalLadder`, clause by clause. -/
theorem witness_StackThermalLadder :
    (∃ (st : Nat) (t : Nat) (c : StkCfg) (s : State), (st < 12) ∧ (t < 4096) ∧ (s.unitOn (0x10 + st) = true) ∧ ((s.stack st).tripped = false) ∧ (Sys2Proof.Claims.rising s.w.stk) ∧ (c = tget {} s.cfg.stk st)) ∧
    (∃ (st : Nat) (s : State), (st < 12) ∧ (s.unitOn (0x10 + st) = true) ∧ ((s.stack st).tripped = false) ∧ (s.w.holder = none)) ∧
    (∃ (st : Nat) (j : Nat) (r : StepRun) (s : State), (st < 12) ∧ (s.unitOn (0x10 + st) = true) ∧ ((s.stack st).tripped = false) ∧ (s.w.holder = some j) ∧ ((s.job j).run = some r) ∧ (r.fail = none) ∧ (hudOf s j = none) ∧ (s.w.topo.jobPlan = none) ∧ (Sys2Proof.Claims.rising s.w.stk) ∧ (Sys2Proof.Claims.rising s.w.jobs)) ∧
    (∃ (st : Nat) (s : State), (st < 12) ∧ (s.unitOn (0x10 + st) = true) ∧ (10 * (tget {} s.cfg.stk st).hotC ≤ (s.stack st).tempTenths) ∧ (s.w.holder = none)) ∧
    (∃ (s : State), (Sys2Proof.Claims.rising s.w.stk)) :=
  ⟨⟨11, 4095, {}, up, by unfold Sys2Proof.Claims.rising; decide +kernel⟩,
    ⟨11, up, by decide +kernel⟩,
    ⟨11, 1, {}, stepping {} up, by unfold Sys2Proof.Claims.rising; decide +kernel⟩,
    ⟨11, up.modStack 11 (fun x => { x with tempTenths := 950 }), by decide +kernel⟩,
    ⟨up, by unfold Sys2Proof.Claims.rising; decide +kernel⟩⟩

/-- Values that meet the hypotheses of `Obligations.RetrainingHoldsAndSteers`, clause by clause. -/
theorem witness_RetrainingHoldsAndSteers :
    (∃ (st : Nat) (q : Nat) (s : State), (st < 12) ∧ (q < 64) ∧ (s.unitOn (0x10 + st) = true) ∧ ((∀ k < 64, (s.pc (64 * st + k)).state ≠ 1 ∧ (s.pc (64 * st + k)).requested = false)) ∧ ((s.pc (64 * st + q)).state = 0) ∧ ((s.stack st).tripped = false) ∧ ((s.stack st).waves = false) ∧ (((s.pc (64 * st + q)).trained = false ∨ (s.pc (64 * st + q)).trainNs + 100000000 ≤ s.ctl.clk.ns)) ∧ (Sys2Proof.Claims.rising s.w.pcs)) ∧
    (∃ (st : Nat) (q : Nat) (s : State) (l : _), (st < 12) ∧ (q < 64) ∧ ((s.pc (64 * st + q)).state = 1) ∧ ((s.pc (64 * st + q)).requested = false) ∧ ((s.pc (64 * st + q)).failLanes = []) ∧ ((s.stack st).tripped = false) ∧ (s.w.apWait = []) ∧ (Sys2Proof.Claims.rising s.w.pcs) ∧ (Sys2Proof.Claims.rising s.w.lanes) ∧ (l < 72) ∧ (tget {} s.w.lanes (32 * st + q / 2) = {}) ∧ ((s.pc (64 * st + q / 2 * 2 + (1 - q % 2))).state = 0)) :=
  ⟨⟨11, 63, up, by unfold Sys2Proof.Claims.rising; decide +kernel⟩,
    ⟨11, 63, up.modPc 767 (fun p => { p with state := 1 }), 71, by unfold Sys2Proof.Claims.rising; decide +kernel⟩⟩

/-- Values that meet the hypotheses of `Obligations.TierTwoAndThreeEvents`, clause by clause. -/
theorem witness_TierTwoAndThreeEvents :
    (∃ (pkg : Nat), (pkg < 24)) ∧
    (∃ (pkg : Nat) (s : State), (pkg < 24) ∧ (s.unitOn (0x20 + pkg / 6) = true) ∧ (bit (tget {} s.w.lp (pkg / 6)).held (pkg % 6) = false) ∧ (s.w.holder = none)) ∧
    (∃ (pkg : Nat) (s : State), (pkg < 24) ∧ (bit (tget {} s.w.lp (pkg / 6)).held (pkg % 6) = true)) ∧
    (∃ (pkg : Nat) (s : State), (pkg < 24) ∧ (s.w.apWait = [])) ∧
    (∃ (dev : Nat) (s : State), (dev < 4) ∧ ((tget {} s.w.cxl dev).linkUp = true) ∧ (s.w.holder = none)) ∧
    (∃ (dev : Nat) (g : Gran) (r : StepRun) (s : State), (dev < 4) ∧ ((tget {} s.w.cxl dev).present = true) ∧ ((∀ c < 80, (s.chan c).state ≠ 1)) ∧ ((s.job g.job).run = some r) ∧ (r.fail = none) ∧ (Sys2Proof.Claims.rising s.w.jobs) ∧ (Sys2Proof.Claims.rising s.w.cxl)) :=
  ⟨⟨23, by decide +kernel⟩,
    ⟨23, up, by decide +kernel⟩,
    ⟨23, up.onW (fun w => { w with lp := [(3, { held := 0x20 })] }), by decide +kernel⟩,
    ⟨23, up, by decide +kernel⟩,
    ⟨3, up.onW (fun w => { w with cxl := [(3, { present := true, linkUp := true })] }), by decide +kernel⟩,
    ⟨3, { job := 1, handle := 1, g := 0 }, {}, (stepping {} up).onW (fun w => { w with cxl := [(3, { present := true, linkUp := true })] }), by unfold Sys2Proof.Claims.rising; decide +kernel⟩⟩

/-- Values that meet the hypotheses of `Obligations.ScrubsCorrectMarkAndRetire`, clause by clause. -/
theorem witness_ScrubsCorrectMarkAndRetire :
    (∃ (d : Nat) (c : Nat) (s : State), (s.ctl.clk.frozen = false) ∧ ((∀ e ∈ s.w.cells, e.2.flips = [])) ∧ (d < 4) ∧ (c < 144) ∧ (s.unitOn (0x50 + d) = true) ∧ (Sys2Proof.Claims.rising s.w.cells)) ∧
    (∃ (k : Nat) (word : Nat) (mask : Nat) (s : State), (s.ctl.clk.frozen = false) ∧ (k < 576) ∧ (s.unitOn (0x50 + k / 144) = true) ∧ (Sys2Proof.Claims.rising s.w.cells) ∧ ((s.cell k).flips = [(word, mask)]) ∧ ((∀ e ∈ s.w.cells, e.1 ≠ k → e.2.flips = [])) ∧ (popCount mask 72 = 1)) ∧
    (∃ (k : Nat) (word : Nat) (mask : Nat) (s : State), (s.ctl.clk.frozen = false) ∧ (k < 576) ∧ (s.unitOn (0x50 + k / 144) = true) ∧ (Sys2Proof.Claims.rising s.w.cells) ∧ ((s.cell k).flips = [(word, mask)]) ∧ ((∀ e ∈ s.w.cells, e.1 ≠ k → e.2.flips = [])) ∧ (popCount mask 72 = 2)) ∧
    (∃ (s : State), (s.ctl.clk.frozen = false) ∧ ((∀ e ∈ s.w.cells, e.2.flips = []))) ∧
    (∃ (s : State), (s.ctl.clk.frozen = false) ∧ ((∀ e ∈ s.w.cells, e.2.flips = []))) ∧
    (∃ (p : Nat) (g : Nat) (key : Nat) (pos : Gran) (s : State), (s.ctl.clk.frozen = false) ∧ (p < 768) ∧ (key = unitKey s 1 g pos) ∧ (scrubSkips s { tier := 1, place := p } key pos = false)) ∧
    (∃ (e : Nat × Nat × Nat × Nat) (s : State), (e = (s.w.ret.tier, b2n s.w.ret.bank, s.w.ret.place, s.w.ret.index)) ∧ (e ∉ s.w.ret.entries) ∧ (retReason s = 0) ∧ (s.w.holder ≠ none)) ∧
    (∃ (s : State), ((s.w.ret.tier, b2n s.w.ret.bank, s.w.ret.place, s.w.ret.index) ∈ s.w.ret.entries)) ∧
    (∃ (s : State), ((s.w.ret.tier, b2n s.w.ret.bank, s.w.ret.place, s.w.ret.index) ∉ s.w.ret.entries) ∧ (retReason s ≠ 0)) :=
  ⟨⟨3, 143, up, by unfold Sys2Proof.Claims.rising; decide +kernel⟩,
    ⟨5, 7, 1, flipped 1, by unfold Sys2Proof.Claims.rising; decide +kernel⟩,
    ⟨5, 7, 3, flipped 3, by unfold Sys2Proof.Claims.rising; decide +kernel⟩,
    ⟨up, by decide +kernel⟩,
    ⟨up, by decide +kernel⟩,
    ⟨767, 0, _, { job := 1, handle := 1, g := 0 }, up, by and_intros <;> first | decide +kernel | rfl⟩,
    ⟨(1, 0, 0, 0), up.onW (fun w => { w with ret := { tier := 1 }, holder := some 1 }), by decide +kernel⟩,
    ⟨up.onW (fun w => { w with ret := { tier := 1, entries := [(1, 0, 0, 0)] } }), by decide +kernel⟩,
    ⟨up, by decide +kernel⟩⟩

/-- Values that meet the hypotheses of `Obligations.InjectorArmsOrRefuses`, clause by clause. -/
theorem witness_InjectorArmsOrRefuses :
    (∃ (s : State), (s.w.sl.foulAuth = true) ∧ (s.w.err.target = 1) ∧ (s.w.err.mode = 1 ∨ s.w.err.mode = 3) ∧ (s.w.err.c < 144) ∧ (s.w.err.die < 4) ∧ (s.w.err.handleOrWord < 262144) ∧ (s.unitOn (0x50 + s.w.err.die) = true) ∧ ((s.cell (144 * s.w.err.die + s.w.err.c)).retired = false)) ∧
    (∃ (x : Home) (s : State), (s.w.sl.foulAuth = true) ∧ (s.w.err.target = 2 ∨ (s.w.err.target = 3 ∧ (errLine s).isSome = true)) ∧ (s.w.err.mode = 1 ∨ s.w.err.mode = 3) ∧ (errHome s = some x) ∧ (s.unitOn x.unit = true) ∧ (homeRetired s x = false)) ∧
    (∃ (s : State), (s.w.sl.foulAuth = true) ∧ (s.w.err.target = 1) ∧ (s.w.err.mode = 2) ∧ (s.w.err.c < 144) ∧ (s.w.err.die < 4) ∧ (s.w.err.handleOrWord < 262144) ∧ (s.unitOn (0x50 + s.w.err.die) = true) ∧ ((s.cell (144 * s.w.err.die + s.w.err.c)).retired = false) ∧ (Sys2Proof.Claims.rising s.w.cells) ∧ ((s.cell (144 * s.w.err.die + s.w.err.c)).flips = []) ∧ (s.w.err.mask % 2 ^ 72 ≠ 0)) ∧
    (∃ (n : Nat) (s : State), ((n = 1 ∧ s.w.sl.foulAuth = false ∨ n = 6 ∧ s.w.sl.foulAuth = true ∧ (s.w.err.target = 0 ∨ s.w.err.mode = 0) ∨ n = 3 ∧ s.w.sl.foulAuth = true ∧ s.w.err.mode ≠ 0 ∧ (3 < s.w.err.target ∨ s.w.err.target = 1 ∧ (144 ≤ s.w.err.c ∨ 4 ≤ s.w.err.die ∨ 262144 ≤ s.w.err.handleOrWord) ∨ (s.w.err.target = 2 ∨ s.w.err.target = 3) ∧ errHome s = none) ∨ n = 2 ∧ s.w.sl.foulAuth = true ∧ s.w.err.mode ≠ 0 ∧ (s.w.err.target = 1 ∧ s.w.err.c < 144 ∧ s.w.err.die < 4 ∧ s.w.err.handleOrWord < 262144 ∧ s.unitOn (0x50 + s.w.err.die) = false ∨ (s.w.err.target = 2 ∨ s.w.err.target = 3) ∧ (∃ x, errHome s = some x ∧ s.unitOn x.unit = false)) ∨ n = 4 ∧ s.w.sl.foulAuth = true ∧ s.w.err.mode ≠ 0 ∧ (s.w.err.target = 1 ∧ s.w.err.c < 144 ∧ s.w.err.die < 4 ∧ s.w.err.handleOrWord < 262144 ∧ s.unitOn (0x50 + s.w.err.die) = true ∧ (s.cell (144 * s.w.err.die + s.w.err.c)).retired = true ∨ (s.w.err.target = 2 ∨ s.w.err.target = 3) ∧ (∃ x, errHome s = some x ∧ s.unitOn x.unit = true ∧ homeRetired s x = true)) ∨ n = 5 ∧ s.w.sl.foulAuth = true ∧ s.w.err.mode ≠ 0 ∧ s.w.err.target = 3 ∧ (∃ x, errHome s = some x ∧ s.unitOn x.unit = true ∧ homeRetired s x = false) ∧ errLine s = none))) :=
  ⟨⟨injecting { target := 1, mode := 1, die := 3, c := 143 }, by decide +kernel⟩,
    ⟨{ tier := 2, place := 37 }, injecting { target := 2, mode := 1, job := 1, handleOrWord := 1 }, by decide +kernel⟩,
    ⟨injecting { target := 1, mode := 2, mask := 1 }, by unfold Sys2Proof.Claims.rising; decide +kernel⟩,
    ⟨1, up, Or.inl ⟨rfl, by decide +kernel⟩⟩⟩

/-- Values that meet the hypotheses of `Obligations.TensorsAreDeclaredPlacedAndReported`, clause by clause. -/
theorem witness_TensorsAreDeclaredPlacedAndReported :
    (∃ (h : Hdr) (addr : Nat) (b : Bytes) (d : Decl) (s : State), (Ready 0x0204 h s) ∧ (pktRead (counted h s) h.job addr 64 = .ok b) ∧ (d = parseDecl b) ∧ (firstBad (declChecks b) = none) ∧ ((counted h s).declared + d.total + (counted h s).reserved ≤ (counted h s).installed) ∧ (pinFits (counted h s) h.job d = true)) ∧
    (∃ (h : Hdr) (addr : Nat) (o : Nat) (b : Bytes) (s : State), (Ready 0x0204 h s) ∧ (pktRead (counted h s) h.job addr 64 = .ok b) ∧ (firstBad (declChecks b) = some o)) ∧
    (∃ (h : Hdr) (addr : Nat) (b : Bytes) (d : Decl) (s : State), (Ready 0x0204 h s) ∧ (pktRead (counted h s) h.job addr 64 = .ok b) ∧ (d = parseDecl b) ∧ (firstBad (declChecks b) = none) ∧ ((counted h s).installed < (counted h s).declared + d.total + (counted h s).reserved ∨ pinFits (counted h s) h.job d = false)) ∧
    (∃ (h : Hdr) (addr : Nat) (r : Bytes) (new : Job) (p : Place) (s : State), (Ready 0x0205 h s) ∧ (pktRead (counted h s) h.job addr 32 = .ok r) ∧ (firstBad (psetChecks (counted h s) h.job r) = none) ∧ ((s.job h.job).psPending = []) ∧ (new = applyPSet r (s.job h.job)) ∧ ((s.job h.job).run = none) ∧ (bit (fld r 13 1) 0 = false) ∧ (trialPlace (counted h s) h.job new = some p) ∧ (new ≠ s.job h.job)) ∧
    (∃ (h : Hdr) (addr : Nat) (r : Bytes) (new : Job) (p : Place) (s : State), (Ready 0x0205 h s) ∧ (pktRead (counted h s) h.job addr 32 = .ok r) ∧ (firstBad (psetChecks (counted h s) h.job r) = none) ∧ ((s.job h.job).psPending = []) ∧ (new = applyPSet r (s.job h.job)) ∧ ((s.job h.job).run = none) ∧ (bit (fld r 13 1) 0 = true) ∧ (trialPlace (counted h s) h.job new = some p)) ∧
    (∃ (h : Hdr) (addr : Nat) (r : Bytes) (new : Job) (p : Place) (s : State), (Ready 0x0205 h s) ∧ (pktRead (counted h s) h.job addr 32 = .ok r) ∧ (firstBad (psetChecks (counted h s) h.job r) = none) ∧ ((s.job h.job).psPending = []) ∧ (new = applyPSet r (s.job h.job)) ∧ ((s.job h.job).run = none) ∧ (bit (fld r 13 1) 0 = false) ∧ (trialPlace (counted h s) h.job new = some p) ∧ (new = s.job h.job)) ∧
    (∃ (h : Hdr) (addr : Nat) (r : Bytes) (new : Job) (s : State), (Ready 0x0205 h s) ∧ (pktRead (counted h s) h.job addr 32 = .ok r) ∧ (firstBad (psetChecks (counted h s) h.job r) = none) ∧ ((s.job h.job).psPending = []) ∧ (new = applyPSet r (s.job h.job)) ∧ ((s.job h.job).run ≠ none) ∧ (bit (fld r 13 1) 0 = false) ∧ (new ≠ s.job h.job) ∧ (trialPlace (counted h s) h.job new ≠ none)) ∧
    (∃ (h : Hdr) (addr : Nat) (r : Bytes) (new : Job) (s : State), (Ready 0x0205 h s) ∧ (pktRead (counted h s) h.job addr 32 = .ok r) ∧ (firstBad (psetChecks (counted h s) h.job r) = none) ∧ ((s.job h.job).psPending = []) ∧ (new = applyPSet r (s.job h.job)) ∧ ((s.job h.job).run ≠ none) ∧ (bit (fld r 13 1) 0 = true)) ∧
    (∃ (h : Hdr) (buf : Nat) (len : Nat) (bs : Bytes) (t : SetImg) (s : State) (s1 : State), (Ready 0x0206 h s) ∧ ((s.job h.job).cur = some t) ∧ (bs = report (counted h s) h.job t (s.job h.job).place (s.job h.job).place.cause) ∧ (bs.length ≤ len) ∧ (pktWrite (counted h s) h.job buf bs = (none, s1))) ∧
    (∃ (h : Hdr) (len : Nat) (bs : Bytes) (t : SetImg) (s : State), (Ready 0x0206 h s) ∧ ((s.job h.job).cur = some t) ∧ (bs = report (counted h s) h.job t (s.job h.job).place (s.job h.job).place.cause) ∧ (len < bs.length)) :=
  ⟨⟨h1, 0x10000, declBytes 64, parseDecl (declBytes 64), told1 (declBytes 64), by unfold Ready; and_intros <;> first | decide +kernel⟩,
    ⟨h1, 0x10000, 0, zeros 64, mem, by unfold Ready; and_intros <;> first | decide +kernel⟩,
    ⟨h1, 0x10000, declBytes (2 ^ 44), parseDecl (declBytes (2 ^ 44)), told1 (declBytes (2 ^ 44)), by unfold Ready; and_intros <;> first | decide +kernel⟩,
    ⟨h1, 0x10000, freezing, _, {}, told1 freezing, by unfold Ready; and_intros <;> first | decide +kernel | rfl⟩,
    ⟨h1, 0x10000, replacing, _, {}, told1 replacing, by unfold Ready; and_intros <;> first | decide +kernel | rfl⟩,
    ⟨h1, 0x10000, keeping, _, {}, told1 keeping, by unfold Ready; and_intros <;> first | decide +kernel | rfl⟩,
    ⟨h1, 0x10000, freezing, _, stepping {} (told1 freezing), by unfold Ready; and_intros <;> first | decide +kernel | rfl⟩,
    ⟨h1, 0x10000, replacing, _, stepping {} (told1 replacing), by unfold Ready; and_intros <;> first | decide +kernel | rfl⟩,
    ⟨h1, 0x10000, 4096, _, {}, bare, _, by unfold Ready; and_intros <;> first | decide +kernel | exact pair (by decide +kernel) | rfl⟩,
    ⟨h1, 0, _, {}, bare, by unfold Ready; and_intros <;> first | decide +kernel | rfl⟩⟩

/-- Values that meet the hypotheses of `Obligations.SetsAreLoadedAndMadeCurrent`, clause by clause (part 1). -/
theorem witness_SetsAreLoadedAndMadeCurrent_1 :
    (∃ (h : Hdr) (addr : Nat) (len : Nat) (img : Bytes) (p : Place) (tiers : List (Nat × Nat × Nat)) (s : State), (Sys2Proof.Claims.imageRead h addr len img s) ∧ (Sys2Proof.Claims.loadable h img s) ∧ ((s.job h.job).cur = none) ∧ (s.w.holder = none ∨ s.w.holder = some h.job) ∧ (Sys2Proof.Claims.rising s.w.jobs) ∧ (placeJob (counted h s) h.job (loadImage img) 0 = some (p, tiers))) ∧
    (∃ (h : Hdr) (addr : Nat) (len : Nat) (img : Bytes) (p : Place) (tiers : List (Nat × Nat × Nat)) (s : State), (Sys2Proof.Claims.imageRead h addr len img s) ∧ (Sys2Proof.Claims.loadable h img s) ∧ ((s.job h.job).cur ≠ none) ∧ (placeJob (counted h s) h.job (loadImage img) 6 = some (p, tiers))) :=
  ⟨⟨h1, 0x10000, 384, image, _, _, imaged, image_read (by unfold Ready; decide +kernel) (by decide +kernel), image_loads (never (by decide +kernel)) (never (by decide +kernel)) (by decide +kernel) (by decide +kernel) (by decide +kernel), by decide +kernel, by decide +kernel, by unfold Sys2Proof.Claims.rising; decide +kernel, pair_of (by decide +kernel)⟩,
    ⟨h1, 0x10000, 384, image, _, _, other, image_read (by unfold Ready; decide +kernel) (by decide +kernel), image_loads (only (a := { digest := 1 }) (by decide +kernel) (by decide +kernel)) (never (by decide +kernel)) (by decide +kernel) (by decide +kernel) (by decide +kernel), by decide +kernel, pair_of (by decide +kernel)⟩⟩

/-- Values that meet the hypotheses of `Obligations.SetsAreLoadedAndMadeCurrent`, clause by clause (part 2). -/
theorem witness_SetsAreLoadedAndMadeCurrent_2 :
    (∃ (h : Hdr) (addr : Nat) (len : Nat) (img : Bytes) (x : Place × List (Nat × Nat × Nat)) (s : State), (Sys2Proof.Claims.imageRead h addr len img s) ∧ (Sys2Proof.Claims.loadable h img s) ∧ ((s.job h.job).cur = none) ∧ (heldByOther s h.job = true) ∧ (placeJob (counted h s) h.job (loadImage img) 0 = some x)) ∧
    (∃ (h : Hdr) (addr : Nat) (len : Nat) (img : Bytes) (s : State) (o : _), (Sys2Proof.Claims.imageRead h addr len img s) ∧ (firstBad (headerChecks img (Sys2Proof.Claims.chkLen img) (Sys2Proof.Claims.planLen img)) = some o)) :=
  ⟨⟨h1, 0x10000, 384, image, _, elsewhere, image_read (by unfold Ready; decide +kernel) (by decide +kernel), image_loads (never (by decide +kernel)) (never (by decide +kernel)) (by decide +kernel) (by decide +kernel) (by decide +kernel), by decide +kernel, by decide +kernel, pair_of (by decide +kernel)⟩,
    ⟨h1, 0x10000, 64, zeros 8 ++ [64] ++ zeros 55, mem.hostPut 0x100008 [64], 0, by and_intros <;> first | decide +kernel | exact (by unfold Ready; decide +kernel)⟩⟩

/-- Values that meet the hypotheses of `Obligations.SetsAreLoadedAndMadeCurrent`, clause by clause (part 3). -/
theorem witness_SetsAreLoadedAndMadeCurrent_3 :
    ∃ (h : Hdr) (addr : Nat) (len : Nat) (img : Bytes) (s : State), (Sys2Proof.Claims.imageRead h addr len img s) ∧ (Sys2Proof.Claims.headed img) ∧ ((∃ c, (s.job h.job).cur = some c ∧ c.digest = (loadImage img).digest)) :=
  ⟨h1, 0x10000, 384, image, again, image_read (by unfold Ready; decide +kernel) (by decide +kernel), image_headed, loadImage image, by decide +kernel, rfl⟩

/-- Values that meet the hypotheses of `Obligations.RecordsThatCannotBeReached`, clause by clause. -/
theorem witness_RecordsThatCannotBeReached :
    (∃ (h : Hdr) (addr : Nat) (n : Nat) (off : Nat) (op : Nat) (k : Nat) (page : Nat) (a : Nat) (c : Instr) (s : State), ((c = .tensorDeclare h addr ∧ op = 0x0204 ∧ n = 64 ∧ off = 16) ∨ (c = .placeSet h addr ∧ op = 0x0205 ∧ n = 32 ∧ off = 16) ∨ (c = .drillLoad h addr n ∧ op = 0x0604 ∧ n ≤ 16777216 ∧ off = 16) ∨ ((∃ e, e ≤ 10 ∧ c = .umpireConfig h e addr) ∧ addr ≠ 0 ∧ op = 0x0601 ∧ n = 16 ∧ off = 24)) ∧ (Ready op h s) ∧ (pktRead (counted h s) h.job addr n = .fault k page a) ∧ (k ≠ 2)) ∧
    (∃ (h : Hdr) (addr : Nat) (n : Nat) (off : Nat) (op : Nat) (k : Nat) (page : Nat) (a : Nat) (c : Instr) (s : State), ((c = .tensorDeclare h addr ∧ op = 0x0204 ∧ n = 64 ∧ off = 16) ∨ (c = .placeSet h addr ∧ op = 0x0205 ∧ n = 32 ∧ off = 16) ∨ (c = .drillLoad h addr n ∧ op = 0x0604 ∧ n ≤ 16777216 ∧ off = 16) ∨ ((∃ e, e ≤ 10 ∧ c = .umpireConfig h e addr) ∧ addr ≠ 0 ∧ op = 0x0601 ∧ n = 16 ∧ off = 24)) ∧ (Ready op h s) ∧ (pktRead (counted h s) h.job addr n = .fault k page a) ∧ (k = 2)) :=
  ⟨⟨h1, 0x30000, 64, 16, 0x0204, 1, 0, 0x30000, .tensorDeclare h1 0x30000, mem, by refine ⟨Or.inl ⟨rfl, rfl, rfl, rfl⟩, ?_, ?_, ?_⟩ <;> (first | decide +kernel | (unfold Ready; decide +kernel))⟩,
    ⟨h1, 0x10000, 64, 16, 0x0204, 2, 0x100, 0x10000, .tensorDeclare h1 0x10000, (mem.modJob 1 (fun b => { b with ats := true, pri := true })).onW (fun w => { w with hostAbsent := [0x100] }), by refine ⟨Or.inl ⟨rfl, rfl, rfl, rfl⟩, ?_, ?_, ?_⟩ <;> (first | decide +kernel | (unfold Ready; decide +kernel))⟩⟩

/-- Values that meet the hypotheses of `Obligations.UmpireSettingsAndTests`, clause by clause. -/
theorem witness_UmpireSettingsAndTests :
    (∃ (h : Hdr) (k : Nat) (s : State), (Ready 0x0601 h s) ∧ (k ≤ 10)) ∧
    (∃ (h : Hdr) (k : Nat) (s : State), (Ready 0x0601 h s) ∧ (10 < k)) ∧
    (∃ (h : Hdr) (addr : Nat) (len : Nat) (img : Bytes) (s : State) (o : _), (Ready 0x0604 h s) ∧ (len ≤ 16777216) ∧ (pktRead (counted h s) h.job addr len = .ok img) ∧ (firstFail (drillChecks img) = some o)) ∧
    (∃ (h : Hdr) (addr : Nat) (len : Nat) (img : Bytes) (s : State), (Ready 0x0604 h s) ∧ (len ≤ 16777216) ∧ (pktRead (counted h s) h.job addr len = .ok img) ∧ (firstFail (drillChecks img) = none) ∧ (drillRoom s img = true)) ∧
    (∃ (h : Hdr) (scope : Nat) (set : Nat) (s : State), (Ready 0x0603 h s) ∧ (scope ≤ 2) ∧ ((set = 0 ∨ ∃ d ∈ s.w.ump.drills, d.num = set)) ∧ (scope = 0) ∧ (arrayHeld s = true)) ∧
    (∃ (h : Hdr) (scope : Nat) (set : Nat) (s : State), (Ready 0x0603 h s) ∧ (scope ≤ 2) ∧ ((set = 0 ∨ ∃ d ∈ s.w.ump.drills, d.num = set)) ∧ ((scope = 0 → arrayHeld s = false))) ∧
    (∃ (r : Run) (s : State), (s.ctl.clk.frozen = false) ∧ (s.w.inflight.find? (fun r => r.op = 0x0603) = some r)) ∧
    (∃ (r : Run) (k : Nat) (s : State), (s.ctl.clk.frozen = false) ∧ (s.w.inflight.find? (fun r => r.op = 0x0603) = some r) ∧ (r.a = 0) ∧ (k < 576) ∧ ((s.cell k).retired = false) ∧ (Sys2Proof.Claims.rising s.w.cells)) ∧
    (∃ (s : State), (s.ctl.clk.frozen = false) ∧ ((∀ r ∈ s.w.inflight, r.op ≠ 0x0603))) :=
  ⟨⟨h1, 10, up, by unfold Ready; decide +kernel⟩,
    ⟨h1, 11, up, by unfold Ready; decide +kernel⟩,
    ⟨h0, 0x3000, 0, [], up, 0, by unfold Ready; and_intros <;> first | decide +kernel⟩,
    ⟨h0, 0x3000, 1184, mread drilled.w.host 0x3000 1184, drilled, by unfold Ready; and_intros <;> first | decide +kernel⟩,
    ⟨h0, 0, 0, (stepping {} up).modJob 1 (fun b => { b with cur := some {} }), by unfold Ready; decide +kernel⟩,
    ⟨h0, 2, 0, up, by unfold Ready; decide +kernel⟩,
    ⟨{ hdr := h0, op := 0x0603 }, inflight { hdr := h0, op := 0x0603 } up, by decide +kernel⟩,
    ⟨{ hdr := h0, op := 0x0603 }, 575, inflight { hdr := h0, op := 0x0603 } up, by unfold Sys2Proof.Claims.rising; decide +kernel⟩,
    ⟨up, by decide +kernel⟩⟩

/-- Values that meet the hypotheses of `Obligations.StepsAreAcceptedAndStart`, clause by clause. -/
theorem witness_StepsAreAcceptedAndStart :
    (∃ (h : Hdr) (step : Nat) (s : State), (Ready 0x0302 h s) ∧ ((∃ n, (s.job h.job).nextStep = some n ∧ n ≠ step))) ∧
    (∃ (h : Hdr) (step : Nat) (s : State), (Ready 0x0302 h s) ∧ ((s.job h.job).nextStep = none ∨ (s.job h.job).nextStep = some step) ∧ (2 ≤ outstanding s 0x0302 h.job)) ∧
    (∃ (h : Hdr) (step : Nat) (entries : Nat) (s : State), (Ready 0x0302 h s) ∧ ((s.job h.job).nextStep = none ∨ (s.job h.job).nextStep = some step) ∧ (outstanding s 0x0302 h.job < 2) ∧ (1024 < entries)) ∧
    (∃ (h : Hdr) (step : Nat) (entries : Nat) (flags : Nat) (s : State), (Ready 0x0302 h s) ∧ ((s.job h.job).nextStep = none ∨ (s.job h.job).nextStep = some step) ∧ (outstanding s 0x0302 h.job < 2) ∧ (entries ≤ 1024) ∧ (bits flags 2 1 = 3)) ∧
    (∃ (h : Hdr) (step : Nat) (entries : Nat) (flags : Nat) (s : State), (Ready 0x0302 h s) ∧ ((s.job h.job).nextStep = none ∨ (s.job h.job).nextStep = some step) ∧ (outstanding s 0x0302 h.job < 2) ∧ (entries ≤ 1024) ∧ (bits flags 2 1 ≠ 3) ∧ (heldByOther s h.job = true) ∧ ((s.job h.job).pstate = 0)) ∧
    (∃ (h : Hdr) (step : Nat) (list : Nat) (entries : Nat) (flags : Nat) (s : State) (bs : _), (Ready 0x0302 h s) ∧ ((s.job h.job).nextStep = none ∨ (s.job h.job).nextStep = some step) ∧ (outstanding s 0x0302 h.job < 2) ∧ (entries ≤ 1024) ∧ (bits flags 2 1 ≠ 3) ∧ (heldByOther s h.job = false) ∧ ((s.job h.job).cur ≠ none) ∧ (Sys2Proof.Claims.rising s.w.jobs) ∧ ((s.job h.job).run ≠ none) ∧ (pktRead (counted h s) h.job list (32 * entries) = .ok bs)) ∧
    (∃ (h : Hdr) (step : Nat) (entries : Nat) (flags : Nat) (s : State), (Ready 0x0302 h s) ∧ ((s.job h.job).nextStep = none ∨ (s.job h.job).nextStep = some step) ∧ (outstanding s 0x0302 h.job < 2) ∧ (entries ≤ 1024) ∧ (bits flags 2 1 ≠ 3) ∧ (heldByOther s h.job = false) ∧ ((s.job h.job).cur ≠ none) ∧ (entries = 0) ∧ ((s.job h.job).waiting = []) ∧ (Sys2Proof.Claims.freeToStart s h.job) ∧ (Sys2Proof.Claims.rising s.w.jobs)) ∧
    (∃ (h : Hdr) (step : Nat) (s : State), (Ready 0x0602 h s) ∧ ((s.job h.job).entry? step = none)) ∧
    (∃ (h : Hdr) (step : Nat) (s : State) (e : _), (Ready 0x0602 h s) ∧ ((s.job h.job).entry? step = some e) ∧ (e.failed = true) ∧ (e.nInputs = 0) ∧ (e.inputs = []) ∧ ((s.job h.job).nextStep = some step) ∧ ((s.job h.job).waiting = []) ∧ (Sys2Proof.Claims.freeToStart s h.job) ∧ (Sys2Proof.Claims.rising s.w.jobs)) :=
  ⟨⟨h1, 5, up.modJob 1 (fun b => { b with nextStep := some 4 }), by exact ⟨by unfold Ready; decide +kernel, 4, by decide +kernel, by decide⟩⟩,
    ⟨h1, 5, up.onW (fun w => { w with inflight := [{ hdr := h1, op := 0x0302 }, { hdr := h1, op := 0x0302 }] }), by unfold Ready; decide +kernel⟩,
    ⟨h1, 5, 1025, up, by unfold Ready; decide +kernel⟩,
    ⟨h1, 5, 1024, 6, up, by unfold Ready; decide +kernel⟩,
    ⟨h1, 5, 0, 0, up.onW (fun w => { w with holder := some 2 }), by unfold Ready; decide +kernel⟩,
    ⟨h1, 1, 0, 0, 0, inStep {}, [], by unfold Ready Sys2Proof.Claims.rising; (repeat' apply And.intro) <;> decide +kernel⟩,
    ⟨h1, 1, 0, 0, three.modJob 1 (fun b => { b with cur := some set, topoDue := false }), by unfold Ready Sys2Proof.Claims.rising Sys2Proof.Claims.freeToStart; (repeat' apply And.intro) <;> decide +kernel⟩,
    ⟨h1, 5, up, by unfold Ready; decide +kernel⟩,
    ⟨h1, 5, up.modJob 1 (fun b => { b with nextStep := some 5, topoDue := false, jrn := [{ step := 5, failed := true, ended := true }] }), { step := 5, failed := true, ended := true }, by unfold Ready Sys2Proof.Claims.rising Sys2Proof.Claims.freeToStart; (repeat' apply And.intro) <;> decide +kernel⟩⟩

/-- Values that meet the hypotheses of `Obligations.StepsAreAborted`, clause by clause. -/
theorem witness_StepsAreAborted :
    (∃ (h : Hdr) (s : State), (Ready 0x0303 h s) ∧ ((s.job h.job).run = none)) ∧
    (∃ (h : Hdr) (s : State) (r : _) (k : _), (Ready 0x0303 h s) ∧ ((s.job h.job).run = some r) ∧ (r.phase = .beats k)) ∧
    (∃ (h : Hdr) (s : State) (r : _), 
    let s1 := modRun h.job (fun r => { r with abort := true, cut := some r.admitted, parts_ := r.parts_.filter (fun x => decide (x < r.admitted)) ++ [r.admitted] }) (runsOn 0x0303 h s r.step 0 (counted h s))
    (Ready 0x0303 h s) ∧ ((s.job h.job).run = some r) ∧ (r.phase = .run) ∧ (Sys2Proof.Claims.rising s.w.jobs) ∧ (stepDrained s1 h.job = false)) ∧
    (∃ (j : Nat) (c : Ctx) (s : State), (s.ctl.clk.frozen = false) ∧ (ctxOf s j = some c) ∧ (c.r.phase = .run) ∧ (c.r.abort = false) ∧ (Sys2Proof.Claims.rising s.w.jobs) ∧ (c.finished = false)) ∧
    (∃ (j : Nat) (c : Ctx) (s : State), (s.ctl.clk.frozen = false) ∧ (ctxOf s j = some c) ∧ (c.r.phase = .run) ∧ (c.r.abort = false) ∧ (Sys2Proof.Claims.rising s.w.jobs) ∧ (c.finished = true) ∧ ((∀ x ∈ c.r.tiles, x.poison = false)) ∧ ((∀ x ∈ c.r.rows, x.2.2.2.2.poison = false)) ∧ ((∀ st ∈ c.t.stages, isExchange st = false ∧ isScatter st = false)) ∧ (s.w.err.state ≠ 1) ∧ (badCells c s = []) ∧ ((∀ e ∈ s.w.cells, e.2.figBad = false))) :=
  ⟨⟨h1, up, by unfold Ready; decide +kernel⟩,
    ⟨h1, stepping { phase := .beats 3 } up, { phase := .beats 3 }, 3, by unfold Ready; decide +kernel⟩,
    ⟨h1, inStep { visits := [(0, 1)], admitted := 1 }, { visits := [(0, 1)], admitted := 1 }, by unfold Ready Sys2Proof.Claims.rising; dsimp only; decide +kernel⟩,
    ⟨1, ctx (inStep {}), inStep {}, by unfold Sys2Proof.Claims.rising; (repeat' apply And.intro) <;> first | rfl | decide +kernel⟩,
    ⟨1, ctx fin, fin, by unfold Sys2Proof.Claims.rising; (repeat' apply And.intro) <;> first | rfl | decide +kernel⟩⟩

/-- Values that meet the hypotheses of `Obligations.ModesAreStagedCommittedAndApplied`, clause by clause. -/
theorem witness_ModesAreStagedCommittedAndApplied :
    (∃ (h : Hdr) (e : Nat) (pl : Option Place) (b : Job) (b1 : Job) (s : State), (Ready 0x0304 h s) ∧ (b = s.job h.job) ∧ (b.stagedMode = none) ∧ (b.modeEpoch < e) ∧ (e ≤ b.modeEpoch + 127) ∧ (b.lastPrepared < e) ∧ (firstGood b = true) ∧ ((∀ u ∈ modeUnits (stagedAs b e), s.unitOn u = true)) ∧ (absentLink (counted h s) (stagedAs b e) = none) ∧ (stagedFits (counted h s) h.job = some pl) ∧ ((∀ r ∈ s.w.inflight, r.op ≠ 0x0305)) ∧ (Sys2Proof.Claims.rising s.w.jobs) ∧ (b1 = { b with stagedPlace := pl.getD b.stagedPlace })) ∧
    (∃ (h : Hdr) (e : Nat) (b : Job) (s : State), (Ready 0x0304 h s) ∧ (b = s.job h.job) ∧ (b.stagedMode = none) ∧ (preparedBefore b e = true)) ∧
    (∃ (h : Hdr) (e : Nat) (b : Job) (s : State), (Ready 0x0304 h s) ∧ (b = s.job h.job) ∧ (b.stagedMode = none) ∧ (preparedBefore b e = false) ∧ (e ≤ b.modeEpoch ∨ b.modeEpoch + 127 < e ∨ e ≤ b.lastPrepared)) ∧
    (∃ (h : Hdr) (e : Nat) (b : Job) (s : State), (Ready 0x0304 h s) ∧ (b = s.job h.job) ∧ (b.stagedMode = none) ∧ (b.modeEpoch < e) ∧ (e ≤ b.modeEpoch + 127) ∧ (b.lastPrepared < e) ∧ (firstGood b = false)) ∧
    (∃ (h : Hdr) (e : Nat) (b : Job) (s : State), (Ready 0x0304 h s) ∧ (b = s.job h.job) ∧ (b.stagedMode = none) ∧ (b.modeEpoch < e) ∧ (e ≤ b.modeEpoch + 127) ∧ (b.lastPrepared < e) ∧ (firstGood b = true) ∧ ((∃ u ∈ modeUnits (stagedAs b e), s.unitOn u = false))) ∧
    (∃ (h : Hdr) (e : Nat) (step : Nat) (m : Mode) (s : State), (Ready 0x0305 h s) ∧ ((s.job h.job).stagedMode = some m) ∧ (m.epoch = e) ∧ ((∀ n, (s.job h.job).lastStarted = some n → n < step)) ∧ ((s.job h.job).commit = none)) ∧
    (∃ (h : Hdr) (e : Nat) (m : Mode) (s : State), (Ready 0x0305 h s) ∧ ((s.job h.job).stagedMode = some m) ∧ (m.epoch ≠ e) ∧ ((s.job h.job).lastCommit = none)) ∧
    (∃ (h : Hdr) (e : Nat) (step : Nat) (m : Mode) (s : State), (Ready 0x0305 h s) ∧ ((s.job h.job).stagedMode = some m) ∧ (m.epoch = e) ∧ ((∃ n, (s.job h.job).lastStarted = some n ∧ step ≤ n))) ∧
    (∃ (j : Nat) (r : StepRun) (m : Mode) (s : State), (s.ctl.clk.frozen = false) ∧ ((s.job j).run = some r) ∧ (r.phase = .beats 5) ∧ (r.applyOk = none) ∧ ((s.job j).stagedMode = some m) ∧ ((s.job j).commit = some (r.step + 1)) ∧ ((∀ u ∈ modeUnits m, s.unitOn u = true)) ∧ (m.set = none) ∧ (m.compress = []) ∧ (s.w.holder = some j) ∧ ((s.job j).cur.bind SetImg.plan = s.w.topo.jobPlan) ∧ (Sys2Proof.Claims.rising s.w.jobs)) ∧
    (∃ (j : Nat) (unit : Nat) (r : StepRun) (m : Mode) (s : State), (s.ctl.clk.frozen = false) ∧ ((s.job j).run = some r) ∧ (r.phase = .beats 5) ∧ (r.applyOk = none) ∧ ((s.job j).stagedMode = some m) ∧ ((s.job j).commit = some (r.step + 1)) ∧ (unit ≠ 0xFF)) ∧
    (∃ (j : Nat) (u : Nat) (r : StepRun) (m : Mode) (s : State), (s.ctl.clk.frozen = false) ∧ ((s.job j).run = some r) ∧ (r.phase = .beats 5) ∧ (r.applyOk = none) ∧ ((s.job j).stagedMode = some m) ∧ ((s.job j).commit = some (r.step + 1)) ∧ ((modeUnits m).find? (fun u => !s.unitOn u) = some u)) ∧
    (∃ (j : Nat) (r : StepRun) (s : State), (s.ctl.clk.frozen = false) ∧ ((s.job j).run = some r) ∧ (r.phase ≠ .beats 5 ∨ (s.job j).commit = none)) :=
  ⟨⟨h1, 2, none, _, _, up, by unfold Ready Sys2Proof.Claims.rising; and_intros <;> first | decide +kernel | rfl⟩,
    ⟨h1, 1, _, prepared, by unfold Ready; and_intros <;> first | decide +kernel | rfl⟩,
    ⟨h1, 129, _, up, by unfold Ready; and_intros <;> first | decide +kernel | rfl⟩,
    ⟨h1, 128, _, up.modJob 1 (fun b => { b with epochFirst := some 3 }), by unfold Ready; and_intros <;> first | decide +kernel | rfl⟩,
    ⟨h1, 2, _, (up.setUnits (2 ^ 128 - 1 - 2 ^ 5)).modJob 1 (fun b => { b with stK := some 3 }), by unfold Ready; and_intros <;> first | decide +kernel | rfl⟩,
    ⟨h1, 2, 10, { epoch := 2 }, staging 9, by unfold Ready; and_intros <;> decide +kernel⟩,
    ⟨h1, 3, { epoch := 2 }, staging 8, by unfold Ready; and_intros <;> first | decide +kernel⟩,
    ⟨h1, 2, 9, { epoch := 2 }, staging 9, by unfold Ready; and_intros <;> decide +kernel⟩,
    ⟨1, { phase := .beats 5 }, { epoch := 2 }, md, by unfold Sys2Proof.Claims.rising; and_intros <;> first | decide +kernel⟩,
    ⟨1, 5, { phase := .beats 5 }, { epoch := 2 }, md, by and_intros <;> first | decide +kernel⟩,
    ⟨1, 5, { phase := .beats 5 }, { epoch := 2, k := some 3 }, (md.setUnits 0).modJob 1 (fun b => { b with stagedMode := some { epoch := 2, k := some 3 } }), by and_intros <;> first | decide +kernel⟩,
    ⟨1, {}, stepping {} up, by decide +kernel⟩⟩

/-- Values that meet the hypotheses of `Obligations.CollectivesAreSetRunAndReceived`, clause by clause. -/
theorem witness_CollectivesAreSetRunAndReceived :
    (∃ (h : Hdr) (tensor : Nat) (mode : Nat) (k : Nat) (block : Nat) (e : Nat × Nat × Nat × Nat) (s : State), (Ready 0x0401 h s) ∧ (Sys2Proof.Claims.compressible s h.job tensor) ∧ (tensor ≠ 0) ∧ (mode ≠ 0) ∧ (mode ≤ 2) ∧ ((mode = 1 → 3 ≤ k ∧ k ≤ 10)) ∧ ((mode = 2 → block ∈ [32, 64, 128, 256, 512, 1024])) ∧ ((∀ x ∈ (s.job h.job).stCompress, x.1 ≠ tensor)) ∧ ((s.job h.job).compress.find? (fun x => x.1 == tensor) = none) ∧ (e = (tensor, mode, if mode = 1 then k else 0, if mode = 2 then block else 0))) ∧
    (∃ (h : Hdr) (tensor : Nat) (mode : Nat) (k : Nat) (block : Nat) (e : Nat × Nat × Nat × Nat) (s : State), (Ready 0x0401 h s) ∧ (Sys2Proof.Claims.compressible s h.job tensor) ∧ (tensor ≠ 0) ∧ (mode ≤ 2) ∧ ((mode = 1 → 3 ≤ k ∧ k ≤ 10)) ∧ ((mode = 2 → block ∈ [32, 64, 128, 256, 512, 1024])) ∧ ((∀ x ∈ (s.job h.job).stCompress, x.1 ≠ tensor)) ∧ (e = (tensor, mode, if mode = 1 then k else 0, if mode = 2 then block else 0)) ∧ ((s.job h.job).compress.find? (fun x => x.1 == tensor) = some e ∨ ((s.job h.job).compress.find? (fun x => x.1 == tensor) = none ∧ mode = 0))) ∧
    (∃ (h : Hdr) (tensor : Nat) (s : State), (Ready 0x0401 h s) ∧ (tensor = 0 ∨ ¬ Sys2Proof.Claims.compressible s h.job tensor)) ∧
    (∃ (h : Hdr) (tensor : Nat) (mode : Nat) (s : State), (Ready 0x0401 h s) ∧ (Sys2Proof.Claims.compressible s h.job tensor) ∧ (tensor ≠ 0) ∧ (2 < mode)) ∧
    (∃ (h : Hdr) (tensor : Nat) (mode : Nat) (k : Nat) (s : State), (Ready 0x0401 h s) ∧ (Sys2Proof.Claims.compressible s h.job tensor) ∧ (tensor ≠ 0) ∧ (mode = 1) ∧ (k < 3 ∨ 10 < k)) ∧
    (∃ (h : Hdr) (tensor : Nat) (mode : Nat) (block : Nat) (s : State), (Ready 0x0401 h s) ∧ (Sys2Proof.Claims.compressible s h.job tensor) ∧ (tensor ≠ 0) ∧ (mode = 2) ∧ (block ∉ [32, 64, 128, 256, 512, 1024])) ∧
    (∃ (h : Hdr) (addr : Nat) (src : Nat) (dst : Nat) (bs : Bytes) (ds : Decl) (dd : Decl) (s : State), (Ready 0x0402 h s) ∧ (pktRead (counted h s) h.job addr 64 = .ok bs) ∧ (firstBad (collChecks bs 0 (planExt s.w.topo.jobPlan) false) = none) ∧ ((parseColl bs).src = src) ∧ ((parseColl bs).dst = dst) ∧ (dst ≠ 0) ∧ (s.decl h.job src = some ds) ∧ (s.decl h.job dst = some dd) ∧ (ds.kind = 0) ∧ (dd.kind = 0) ∧ (ds.fmt = (parseColl bs).fmt) ∧ (dd.fmt = (parseColl bs).fmt) ∧ ((parseColl bs).count ≤ ds.count) ∧ ((parseColl bs).count ≤ dd.count) ∧ ((parseColl bs).op ≠ 3) ∧ ((s.job h.job).run ≠ none)) ∧
    (∃ (h : Hdr) (addr : Nat) (src : Nat) (dst : Nat) (bs : Bytes) (ds : Decl) (dd : Decl) (s : State), (Ready 0x0402 h s) ∧ (pktRead (counted h s) h.job addr 64 = .ok bs) ∧ (firstBad (collChecks bs 0 (planExt s.w.topo.jobPlan) false) = none) ∧ ((parseColl bs).src = src) ∧ ((parseColl bs).dst = dst) ∧ (dst ≠ 0) ∧ (s.decl h.job src = some ds) ∧ (s.decl h.job dst = some dd) ∧ (ds.kind = 0) ∧ (dd.kind = 0) ∧ (ds.fmt = (parseColl bs).fmt) ∧ (dd.fmt = (parseColl bs).fmt) ∧ ((parseColl bs).count ≤ ds.count) ∧ ((parseColl bs).count ≤ dd.count) ∧ ((parseColl bs).op ≠ 3) ∧ ((s.job h.job).run = none) ∧ ((s.job h.job).waiting = []) ∧ (s.w.topo.jobPlan = none)) ∧
    (∃ (h : Hdr) (addr : Nat) (src : Nat) (dst : Nat) (bs : Bytes) (ds : Decl) (dd : Decl) (s : State), (Ready 0x0402 h s) ∧ (pktRead (counted h s) h.job addr 64 = .ok bs) ∧ (firstBad (collChecks bs 0 (planExt s.w.topo.jobPlan) false) = none) ∧ ((parseColl bs).src = src) ∧ ((parseColl bs).dst = dst) ∧ (dst ≠ 0) ∧ (s.decl h.job src = some ds) ∧ (s.decl h.job dst = some dd) ∧ (ds.kind = 0) ∧ (dd.kind = 0) ∧ (ds.fmt = (parseColl bs).fmt) ∧ (dd.fmt = (parseColl bs).fmt) ∧ ((parseColl bs).count ≤ ds.count) ∧ ((parseColl bs).count ≤ dd.count) ∧ ((parseColl bs).op ≠ 3) ∧ ((s.job h.job).run = none) ∧ ((s.job h.job).waiting = []) ∧ (s.w.topo.jobPlan ≠ none) ∧ (s.w.reel.invs = []) ∧ ((∀ r ∈ s.w.inflight, r.hdr ≠ h)) ∧ (s.w.holder = none ∨ s.w.holder = some h.job)) ∧
    (∃ (j : Nat) (stage : Nat) (serial : Nat) (d : Bytes) (data : Bytes) (s : State), (s.live j = true) ∧ (stage ≠ 0xFFFF) ∧ (ownDesc s j stage serial = some d) ∧ ((parseColl d).op = 5) ∧ (data.length = (parseColl d).seg) ∧ (s.w.reel.invs = [])) ∧
    (∃ (j : Nat) (stage : Nat) (serial : Nat) (crc : Nat) (d : Bytes) (s : State), (s.live j = true) ∧ (stage ≠ 0xFFFF) ∧ (ownDesc s j stage serial = some d) ∧ (crc32 d ≠ crc)) ∧
    (∃ (j : Nat) (stage : Nat) (serial : Nat) (s : State), (s.live j = true) ∧ (stage ≠ 0xFFFF) ∧ (ownDesc s j stage serial = none)) ∧
    (∃ (j : Nat) (serial : Nat) (s : State), (s.live j = true) ∧ (ownDesc s j 0xFFFF serial = none) ∧ (s.w.reel.invs = [])) :=
  ⟨⟨h1, 1, 1, 10, 0, (1, 1, 10, 0), exchanging 1, by unfold Ready; and_intros <;> first | decide +kernel | exact squeezed (by decide +kernel)⟩,
    ⟨h1, 1, 1, 10, 0, (1, 1, 10, 0), (exchanging 1).modJob 1 (fun b => { b with compress := [(1, 1, 10, 0)] }), by unfold Ready; and_intros <;> first | decide +kernel | exact squeezed (by decide +kernel)⟩,
    ⟨h1, 0, up, by unfold Ready; and_intros <;> first | decide +kernel | exact Or.inl rfl⟩,
    ⟨h1, 1, 3, exchanging 1, by unfold Ready; and_intros <;> first | decide +kernel | exact squeezed (by decide +kernel)⟩,
    ⟨h1, 1, 1, 11, exchanging 1, by unfold Ready; and_intros <;> first | decide +kernel | exact squeezed (by decide +kernel)⟩,
    ⟨h1, 1, 2, 33, exchanging 1, by unfold Ready; and_intros <;> first | decide +kernel | exact squeezed (by decide +kernel)⟩,
    ⟨h1, 0x10000, 1, 2, coll 1 1 2, tensor, tensor, stepping {} toldColl, by unfold Ready; and_intros <;> first | decide +kernel⟩,
    ⟨h1, 0x10000, 1, 2, coll 1 1 2, tensor, tensor, toldColl, by unfold Ready; and_intros <;> first | decide +kernel⟩,
    ⟨h1, 0x10000, 1, 2, coll 1 1 2, tensor, tensor, withPlan toldColl, by unfold Ready; and_intros <;> first | decide +kernel⟩,
    ⟨1, 0, 0, coll 5 1 1, [], exchanging 5, by and_intros <;> first | decide +kernel⟩,
    ⟨1, 0, 0, 5, coll 1 1 1, exchanging 1, by and_intros <;> first | decide +kernel⟩,
    ⟨1, 0, 0, up, by and_intros <;> first | decide +kernel⟩,
    ⟨1, 7, up, by and_intros <;> first | decide +kernel⟩⟩

/-- Values that meet the hypotheses of `Obligations.VisitsAndItemsMoveTheStep`, clause by clause. -/
theorem witness_VisitsAndItemsMoveTheStep :
    (∃ (j : Nat) (pos : Nat) (c : Ctx) (v : Visit) (s : State), (ctxOf s j = some c) ∧ (s.ctl.clk.frozen = false) ∧ (c.r.phase = .run) ∧ (pos < c.b.place.p) ∧ (c.b.pstate ≠ 2) ∧ ((c.order pos)[tget 0 c.r.visits pos]? = some v) ∧ (Sys2Proof.Claims.visitMay c pos v)) ∧
    (∃ (j : Nat) (pos : Nat) (c : Ctx) (v : Visit) (s : State), (ctxOf s j = some c) ∧ (s.ctl.clk.frozen = false) ∧ ((c.order pos)[tget 0 c.r.visits pos]? = some v) ∧ (¬ Sys2Proof.Claims.visitMay c pos v)) ∧
    (∃ (j : Nat) (s : State), (s.ctl.clk.frozen = false) ∧ (ctxOf s j = none)) ∧
    (∃ (j : Nat) (strm : Nat) (m : Nat) (idx : Nat) (c : Ctx) (q : Strm) (row : Row) (s : State), (ctxOf s j = some c) ∧ (s.ctl.clk.frozen = false) ∧ (c.r.phase = .run) ∧ (strm < 4096) ∧ (c.t.streams[strm]? = some q) ∧ ((∀ st ∈ c.t.stages, isExchange st = false)) ∧ (q.src ≠ 0xFFFF) ∧ (q.dst ≠ 0xFFFF) ∧ (q.retain = true ∨ c.active q.dst m = true) ∧ (m < c.t.mb) ∧ (idx < q.rows * rowItems q.fmt q.len) ∧ (c.portAt q m idx = true) ∧ (c.credit q m idx = true) ∧ ((∀ x ∈ c.r.items ++ c.r.held, ¬ (x.strm = strm ∧ x.mb = m ∧ x.idx = idx))) ∧ ((strm, m, idx) ∉ c.r.resent) ∧ (c.srcRow q m (idx / max (rowItems q.fmt q.len) 1) = some row) ∧ (Sys2Proof.Claims.rising s.w.jobs)) ∧
    (∃ (j : Nat) (strm : Nat) (m : Nat) (idx : Nat) (c : Ctx) (x : Feed) (s : State), (ctxOf s j = some c) ∧ (s.ctl.clk.frozen = false) ∧ (c.r.phase = .run) ∧ (m < c.t.mb) ∧ ((∀ st ∈ c.t.stages, isExchange st = false)) ∧ (c.feed strm m idx = some x) ∧ ((∀ y ∈ c.r.items ++ c.r.held, ¬ (y.strm = strm ∧ y.mb = m ∧ y.idx = idx))) ∧ (Sys2Proof.Claims.rising s.w.jobs)) ∧
    (∃ (j : Nat) (strm : Nat) (m : Nat) (idx : Nat) (c : Ctx) (x : Feed) (s : State), (ctxOf s j = some c) ∧ (s.ctl.clk.frozen = false) ∧ (c.r.phase = .run) ∧ (m < c.t.mb) ∧ ((∀ st ∈ c.t.stages, isExchange st = false)) ∧ (c.feed strm m idx = some x) ∧ ((∀ y ∈ c.r.items ++ c.r.held, ¬ (y.strm = strm ∧ y.mb = m ∧ y.idx = idx))) ∧ ((strm, m, idx) ∉ c.r.resent) ∧ (Sys2Proof.Claims.rising s.w.jobs)) ∧
    (∃ (j : Nat) (strm : Nat) (m : Nat) (idx : Nat) (a : Nat) (b : Nat) (c : Ctx) (x : Feed) (s : State), (ctxOf s j = some c) ∧ (s.ctl.clk.frozen = false) ∧ (c.r.phase = .run) ∧ (m < c.t.mb) ∧ ((∀ st ∈ c.t.stages, isExchange st = false)) ∧ (c.feed strm m idx = some x) ∧ ((∀ y ∈ c.r.items ++ c.r.held, ¬ (y.strm = strm ∧ y.mb = m ∧ y.idx = idx))) ∧ ((strm, m, idx) ∈ c.r.resent) ∧ (x.src = some a) ∧ (x.dst = some b) ∧ (Sys2Proof.Claims.rising s.w.jobs)) ∧
    (∃ (j : Nat) (strm : Nat) (m : Nat) (idx : Nat) (c : Ctx) (q : Strm) (s : State), (ctxOf s j = some c) ∧ (s.ctl.clk.frozen = false) ∧ (strm < 4096) ∧ (c.t.streams[strm]? = some q) ∧ ((∀ st ∈ c.t.stages, isExchange st = false)) ∧ (q.rows * rowItems q.fmt q.len ≤ idx ∨ c.t.mb ≤ m ∨ (∃ x ∈ c.r.items, x.strm = strm ∧ x.mb = m ∧ x.idx = idx))) :=
  ⟨⟨1, 0, product {}, ⟨true, 0, 0⟩, inStep {}, by and_intros <;> first | decide +kernel | exact ctx_of (by decide +kernel) (by decide +kernel)⟩,
    ⟨1, 0, product { cut := some 0 }, ⟨true, 0, 0⟩, inStep { cut := some 0 }, by and_intros <;> first | decide +kernel | exact ctx_of (by decide +kernel) (by decide +kernel) | exact fun x => absurd (x.2 rfl 0 (by decide +kernel)) (by decide)⟩,
    ⟨1, up, by decide +kernel⟩,
    ⟨1, 1, 0, 0, ctx (inChain fed), chain.streams.getD 1 {}, { vals := [0] }, inChain fed, by unfold Sys2Proof.Claims.rising; and_intros <;> first | decide +kernel | exact ctx_of (by decide +kernel) (by decide +kernel)⟩,
    ⟨1, 0, 0, 0, product started, _, inStep started, by unfold Sys2Proof.Claims.rising; and_intros <;> first | decide +kernel | exact ctx_of (by decide +kernel) (by decide +kernel) | exact some_of (by decide +kernel)⟩,
    ⟨1, 0, 0, 0, product started, _, inStep started, by unfold Sys2Proof.Claims.rising; and_intros <;> first | decide +kernel | exact ctx_of (by decide +kernel) (by decide +kernel) | exact some_of (by decide +kernel)⟩,
    ⟨1, 1, 0, 0, 0, 0, ctx (inChain twiceSent), _, inChain twiceSent, by unfold Sys2Proof.Claims.rising; and_intros <;> first | decide +kernel | exact ctx_of (by decide +kernel) (by decide +kernel) | exact some_of (by decide +kernel)⟩,
    ⟨1, 0, 0, 1, product started, set.streams.getD 0 {}, inStep started, by and_intros <;> first | decide +kernel | exact ctx_of (by decide +kernel) (by decide +kernel)⟩⟩

/-- Values that meet the hypotheses of `Obligations.TilesAreReadOutAndChecked`, clause by clause. -/
theorem witness_TilesAreReadOutAndChecked :
    (∃ (j : Nat) (e : Nat) (prod : Nat) (m : Nat) (tile : Nat) (c : Ctx) (st : Stage) (f : Fig) (raw : List (Nat × Nat)) (truth : List (Nat × Nat)) (p : Bool) (s : State), (ctxOf s j = some c) ∧ (s.ctl.clk.frozen = false) ∧ (c.t.stage? (e % 0x8000) = some st) ∧ (c.t.fig? st = some f) ∧ (isProduct st = true) ∧ (spans c.t st (decide (0x8000 ≤ e)) prod = false) ∧ (c.r.phase = .run) ∧ (Sys2Proof.Claims.tileOf c.r e prod m tile = none) ∧ (tile < tilesOf c.t e prod) ∧ (prod ∈ prodsOf c.t e) ∧ (m < c.t.mb) ∧ (c.active e m = true) ∧ (c.productRaw st f e prod m tile = some (raw, truth, p)) ∧ (Sys2Proof.Claims.rising s.w.jobs)) ∧
    (∃ (j : Nat) (e : Nat) (prod : Nat) (m : Nat) (tile : Nat) (c : Ctx) (x : Tile) (s : State), (ctxOf s j = some c) ∧ (s.ctl.clk.frozen = false) ∧ (Sys2Proof.Claims.tileOf c.r e prod m tile = some x) ∧ (x.done = true)) ∧
    (∃ (j : Nat) (e : Nat) (prod : Nat) (m : Nat) (tile : Nat) (c : Ctx) (t0 : Tile) (s : State), (ctxOf s j = some c) ∧ (s.ctl.clk.frozen = false) ∧ (tile < tilesOf c.t e prod) ∧ (c.active e m = true) ∧ (t0 = (Sys2Proof.Claims.tileOf c.r e prod m tile).getD { st := e, prod := prod, mb := m, tile := tile }) ∧ (t0.done = false) ∧ (t0.redo < 2)) ∧
    (∃ (j : Nat) (e : Nat) (prod : Nat) (m : Nat) (tile : Nat) (k : Nat) (c : Ctx) (t0 : Tile) (s : State), (ctxOf s j = some c) ∧ (s.ctl.clk.frozen = false) ∧ (tile < tilesOf c.t e prod) ∧ (c.active e m = true) ∧ (Sys2Proof.Claims.tileOf c.r e prod m tile = some t0) ∧ (t0.done = false) ∧ (2 ≤ t0.redo) ∧ (k = c.tileCell e prod tile)) ∧
    (∃ (j : Nat) (st : Nat) (prod : Nat) (m : Nat) (tile : Nat) (err : List (Nat × Nat)) (x : Samp) (s : State), (s.ctl.clk.frozen = false) ∧ ((s.job j).samps.find? (fun x => x.isTile st prod m tile && x.state = 0) = some x) ∧ (flipAll x.truth err = x.res)) ∧
    (∃ (j : Nat) (st : Nat) (prod : Nat) (m : Nat) (tile : Nat) (k : Nat) (err : List (Nat × Nat)) (x : Samp) (s : State), (s.ctl.clk.frozen = false) ∧ ((s.job j).samps.find? (fun x => x.isTile st prod m tile && x.state = 0) = some x) ∧ (flipAll x.truth err ≠ x.res) ∧ (pickChecker s [x.work, x.checker] (x.work / 144) = some k)) ∧
    (∃ (j : Nat) (st : Nat) (prod : Nat) (m : Nat) (tile : Nat) (err : List (Nat × Nat)) (x : Samp) (s : State), (s.ctl.clk.frozen = false) ∧ ((s.job j).samps.find? (fun x => x.isTile st prod m tile && x.state = 1) = some x) ∧ (flipAll x.truth err = x.got)) ∧
    (∃ (j : Nat) (st : Nat) (prod : Nat) (m : Nat) (tile : Nat) (err : List (Nat × Nat)) (x : Samp) (s : State), (s.ctl.clk.frozen = false) ∧ ((s.job j).samps.find? (fun x => x.isTile st prod m tile && x.state = 1) = some x) ∧ (flipAll x.truth err ≠ x.got) ∧ (flipAll x.truth err = x.res)) :=
  ⟨⟨1, 0, 0, 0, 0, product arrived, set.stages.getD 0 {}, set.figs.getD 0 {}, [(0, 0)], [(0, 0)], false, inStep arrived, by unfold Sys2Proof.Claims.rising Sys2Proof.Claims.tileOf; and_intros <;> first | decide +kernel | exact ctx_of (by decide +kernel) (by decide +kernel)⟩,
    ⟨1, 0, 0, 0, 0, ctx fin, tile0, fin, by unfold Sys2Proof.Claims.tileOf; and_intros <;> first | decide +kernel | exact ctx_of (by decide +kernel) (by decide +kernel)⟩,
    ⟨1, 0, 0, 0, 0, product arrived, {}, inStep arrived, by unfold Sys2Proof.Claims.tileOf; and_intros <;> first | decide +kernel | exact ctx_of (by decide +kernel) (by decide +kernel)⟩,
    ⟨1, 0, 0, 0, 0, _, product twice, { redo := 2 }, inStep twice, by unfold Sys2Proof.Claims.tileOf; and_intros <;> first | decide +kernel | exact ctx_of (by decide +kernel) (by decide +kernel) | rfl⟩,
    ⟨1, 0, 0, 0, 0, [], samp0, sampled samp0, by decide +kernel⟩,
    ⟨1, 0, 0, 0, 0, (pickChecker (sampled samp0) [0, 20] 0).getD 0, [(0, 1)], samp0, sampled samp0, by decide +kernel⟩,
    ⟨1, 0, 0, 0, 0, [(0, 2)], { samp0 with state := 1, got := [3] }, sampled { samp0 with state := 1, got := [3] }, by decide +kernel⟩,
    ⟨1, 0, 0, 0, 0, [], { samp0 with state := 1, got := [3] }, sampled { samp0 with state := 1, got := [3] }, by decide +kernel⟩⟩

/-- Values that meet the hypotheses of `Obligations.BagsArePooledAndRowsScattered`, clause by clause. -/
theorem witness_BagsArePooledAndRowsScattered :
    (∃ (j : Nat) (e : Nat) (m : Nat) (bag : Nat) (h : Nat) (c : Ctx) (st : Stage) (f : Fig) (d : Decl) (list : List (Nat × Nat)) (s : State), (ctxOf s j = some c) ∧ (s.ctl.clk.frozen = false) ∧ (c.t.stage? e = some st) ∧ (c.t.fig? st = some f) ∧ (c.decl st.table = some (h, d)) ∧ (isLookup st = true) ∧ (c.r.phase = .run) ∧ (bag < st.bags) ∧ (m < c.t.mb) ∧ (c.active e m = true) ∧ (c.portRow e f.port m bag = none) ∧ (s.w.mr.missing = []) ∧ (c.bag (parseGather (c.t.img.drop st.desc)) d.nrows (m * st.bags + bag) = some list) ∧ ((∀ p ∈ list, ∀ x ∈ c.readHomes s st.table h d (m * st.bags + bag) p.1, homeHeld s x = false)) ∧ (Sys2Proof.Claims.rising s.w.jobs) ∧ (Sys2Proof.Claims.rising s.w.se)) ∧
    (∃ (j : Nat) (e : Nat) (m : Nat) (bag : Nat) (h : Nat) (c : Ctx) (st : Stage) (f : Fig) (d : Decl) (s : State), (ctxOf s j = some c) ∧ (s.ctl.clk.frozen = false) ∧ (c.t.stage? e = some st) ∧ (c.t.fig? st = some f) ∧ (c.decl st.table = some (h, d)) ∧ (isLookup st = true) ∧ (c.r.phase = .run) ∧ (bag < st.bags) ∧ (m < c.t.mb) ∧ (c.active e m = true) ∧ (c.portRow e f.port m bag = none) ∧ (c.bag (parseGather (c.t.img.drop st.desc)) d.nrows (m * st.bags + bag) = none) ∧ (Sys2Proof.Claims.rising s.w.jobs)) ∧
    (∃ (j : Nat) (e : Nat) (m : Nat) (bag : Nat) (c : Ctx) (st : Stage) (f : Fig) (s : State), (ctxOf s j = some c) ∧ (s.ctl.clk.frozen = false) ∧ (c.t.stage? e = some st) ∧ (c.t.fig? st = some f) ∧ (st.bags ≤ bag ∨ c.portRow e f.port m bag ≠ none)) ∧
    (∃ (j : Nat) (e : Nat) (m : Nat) (row : Nat) (h : Nat) (c : Ctx) (st : Stage) (lk : Stage) (f : Fig) (q : Strm) (gr : Row) (d : Decl) (list : List (Nat × Nat)) (new : Job) (s : State), (ctxOf s j = some c) ∧ (s.ctl.clk.frozen = false) ∧ (c.t.stage? e = some st) ∧ (c.t.fig? st = some f) ∧ (c.decl st.table = some (h, d)) ∧ (c.t.stage? (parseRowOpt (c.t.img.drop st.desc)).lookup = some lk) ∧ (c.t.in? e f.port = some q) ∧ (c.sinkRow q m row = some gr) ∧ (isScatter st = true) ∧ (c.r.phase = .run) ∧ (row < lk.bags) ∧ (m < c.t.mb) ∧ (d.rowLen ≤ 16384) ∧ (Sys2Proof.Claims.rising s.w.jobs) ∧ (c.portRow e 0x10 m row = none) ∧ (list = (c.bag (parseGather (c.t.img.drop lk.desc)) d.nrows (m * lk.bags + row)).getD []) ∧ (new = list.foldl (fun b p => addAcc e st.table p.1 d.rowLen ((rowFp32 q.fmt gr).map (fun x => scatterTerm (parseGather (c.t.img.drop lk.desc)) (parseRowOpt (c.t.img.drop st.desc)).qg list.length p.2 x)) b) (s.job j)) ∧ (new.accs.length ≤ 1000)) ∧
    (∃ (j : Nat) (e : Nat) (m : Nat) (row : Nat) (c : Ctx) (s : State), (ctxOf s j = some c) ∧ (s.ctl.clk.frozen = false) ∧ (c.portRow e 0x10 m row ≠ none)) :=
  ⟨⟨1, 0, 0, 0, 4, ctx (pooling started), tableSet.stages.getD 0 {}, tableSet.figs.getD 0 {}, table, [], pooling started, by unfold Sys2Proof.Claims.rising; and_intros <;> first | decide +kernel | exact ctx_of (by decide +kernel) (by decide +kernel)⟩,
    ⟨1, 0, 0, 0, 4, ctx outside, tableSet.stages.getD 0 {}, tableSet.figs.getD 0 {}, { table with count := 0 }, outside, by unfold Sys2Proof.Claims.rising; and_intros <;> first | decide +kernel | exact ctx_of (by decide +kernel) (by decide +kernel)⟩,
    ⟨1, 0, 0, 1, ctx (pooling started), tableSet.stages.getD 0 {}, tableSet.figs.getD 0 {}, pooling started, by and_intros <;> first | decide +kernel | exact ctx_of (by decide +kernel) (by decide +kernel)⟩,
    ⟨1, 1, 0, 0, 4, ctx (pooling gradient), tableSet.stages.getD 1 {}, tableSet.stages.getD 0 {}, tableSet.figs.getD 1 {}, tableSet.streams.getD 0 {}, { vals := List.replicate 16 0 }, table, [], _, pooling gradient, by unfold Sys2Proof.Claims.rising; and_intros <;> first | decide +kernel | exact ctx_of (by decide +kernel) (by decide +kernel) | rfl⟩,
    ⟨1, 1, 0, 0, ctx (pooling scattered), pooling scattered, by and_intros <;> first | decide +kernel | exact ctx_of (by decide +kernel) (by decide +kernel)⟩⟩

/-- Values that meet the hypotheses of `Obligations.BoundaryWorkIsDoneInBeats`, clause by clause. -/
theorem witness_BoundaryWorkIsDoneInBeats :
    (∃ (j : Nat) (st : Nat) (h : Nat) (len : Nat) (c : Ctx) (g : Stage) (f : Fig) (d : Decl) (s : State) (sr : State), (ctxOf s j = some c) ∧ (s.ctl.clk.frozen = false) ∧ (c.t.stage? st = some g) ∧ (c.t.fig? g = some f) ∧ (c.decl g.upParam = some (h, d)) ∧ (c.r.phase = .beats 2) ∧ (isUpdate g = true) ∧ (st ∉ c.r.updated) ∧ ((∀ x ∈ c.t.stages, isExchange x = true → x.idx ∈ c.r.exchanged)) ∧ (c.r.fail = none) ∧ (prevGood c.b c.r.step = true) ∧ (c.updBad g f = false) ∧ (d.dbl = true) ∧ (len = max d.rowLen 1) ∧ (sr = unitsFail j st ((g.upParam :: g.upGrad :: g.upStates.filter (fun x => x != 0)).flatMap c.tensOff).eraseDups (forAll (g.upParam :: g.upGrad :: g.upStates.filter (fun x => x != 0)) (fun id s => match c.decl id with | some (h, d) => readDev 0 j h 0 d.imageBytes s | none => s) s))) ∧
    (∃ (j : Nat) (st : Nat) (h : Nat) (c : Ctx) (g : Stage) (f : Fig) (d : Decl) (s : State), (ctxOf s j = some c) ∧ (s.ctl.clk.frozen = false) ∧ (c.t.stage? st = some g) ∧ (c.t.fig? g = some f) ∧ (c.decl g.upParam = some (h, d)) ∧ (c.r.phase = .beats 2) ∧ (isUpdate g = true) ∧ (st ∉ c.r.updated) ∧ ((∀ x ∈ c.t.stages, isExchange x = true → x.idx ∈ c.r.exchanged)) ∧ (c.r.fail ≠ none)) ∧
    (∃ (j : Nat) (st : Nat) (h : Nat) (c : Ctx) (g : Stage) (f : Fig) (d : Decl) (s : State), (ctxOf s j = some c) ∧ (s.ctl.clk.frozen = false) ∧ (c.t.stage? st = some g) ∧ (c.t.fig? g = some f) ∧ (c.decl g.upParam = some (h, d)) ∧ (c.r.phase ≠ .beats 2 ∨ isUpdate g = false ∨ st ∈ c.r.updated ∨ (c.r.fail = none ∧ prevGood c.b c.r.step = false))) ∧
    (∃ (j : Nat) (c : Ctx) (s : State), (ctxOf s j = some c) ∧ (s.ctl.clk.frozen = false) ∧ (c.r.phase = .beats 2) ∧ (c.r.rowsDone = false) ∧ ((∃ x ∈ c.t.stages, isScatter x = true)) ∧ ((∀ x ∈ c.t.stages, isScatter x = true → fld (c.t.img.drop x.desc) 28 4 = 0 ∨ x.idx ∈ c.r.exchanged)) ∧ (c.r.fail = none) ∧ (Sys2Proof.Claims.rising s.w.jobs) ∧ ((s.job j).accs = []) ∧ (undoUsed (s.job j) ≤ undoRoom s c.t)) ∧
    (∃ (j : Nat) (h : Nat) (c : Ctx) (a : Acc) (st : Stage) (d : Decl) (new : Bytes) (s : State), (ctxOf s j = some c) ∧ (s.ctl.clk.frozen = false) ∧ (c.r.phase = .beats 2) ∧ (c.r.rowsDone = false) ∧ ((∃ x ∈ c.t.stages, isScatter x = true)) ∧ ((∀ x ∈ c.t.stages, isScatter x = true → fld (c.t.img.drop x.desc) 28 4 = 0 ∨ x.idx ∈ c.r.exchanged)) ∧ (c.r.fail = none) ∧ (Sys2Proof.Claims.rising s.w.jobs) ∧ ((s.job j).accs = [a]) ∧ (a.flagged = false) ∧ (c.t.stage? a.stage = some st) ∧ (c.decl a.table = some (h, d)) ∧ (rowsFree s j h d [a.row] = true) ∧ (readsBad s j h 0 (a.row * rowBytes d) (rowBytes d) = false) ∧ (s.w.inject = []) ∧ (c.constBad = false) ∧ (undoUsed (s.job j) + 16 + rowBytes d ≤ undoRoom s c.t) ∧ (s.w.mr.cutKnown = false) ∧ (s.w.ck.armed = false) ∧ (s.w.err.state ≠ 1) ∧ (Memory.wf s.w.dev) ∧ (new = newRow (parseRowOpt (c.t.img.drop st.desc)) (c.r.sc.getD (parseRowOpt (c.t.img.drop st.desc)).lr 0) c.r.seed c.r.step a.table d a (tableRow s j h d a.row)) ∧ (new.length = rowBytes d) ∧ (0 < rowBytes d)) ∧
    (∃ (j : Nat) (c : Ctx) (s : State), (ctxOf s j = some c) ∧ (s.ctl.clk.frozen = false) ∧ (c.r.phase ≠ .beats 2 ∨ c.r.rowsDone = true ∨ (∀ x ∈ c.t.stages, isScatter x = false))) ∧
    (∃ (j : Nat) (c : Ctx) (c1 : Ctx) (s : State), (ctxOf s j = some c) ∧ (s.ctl.clk.frozen = false) ∧ (c.r.report = 0) ∧ (c.r.phase = .beats 2) ∧ ((∀ x ∈ c.t.stages, isUpdate x = true → x.idx ∈ c.r.updated)) ∧ ((c.r.rowsDone = true ∨ ∀ x ∈ c.t.stages, isScatter x = false)) ∧ ((∀ x ∈ c.t.stages, isExchange x = true → x.idx ∈ c.r.exchanged)) ∧ (ctxOf (beat3 j c s) j = some c1)) ∧
    (∃ (j : Nat) (c : Ctx) (s : State), (ctxOf s j = some c) ∧ (s.ctl.clk.frozen = false) ∧ (c.r.report = 0) ∧ (c.r.phase ≠ .beats 2 ∨ (∃ x ∈ c.t.stages, isUpdate x = true ∧ x.idx ∉ c.r.updated) ∨ (∃ x ∈ c.t.stages, isExchange x = true ∧ x.idx ∉ c.r.exchanged) ∨ (c.r.rowsDone = false ∧ ∃ x ∈ c.t.stages, isScatter x = true))) :=
  ⟨⟨1, 0, 1, 64, ctx (updating beat2), updateSet.stages.getD 0 {}, updateSet.figs.getD 0 {}, { tensor with dbl := true }, updating beat2, _, by and_intros <;> first | decide +kernel | exact ctx_of (by decide +kernel) (by decide +kernel) | rfl⟩,
    ⟨1, 0, 1, ctx (updating { beat2 with fail := some {} }), updateSet.stages.getD 0 {}, updateSet.figs.getD 0 {}, { tensor with dbl := true }, updating { beat2 with fail := some {} }, by and_intros <;> first | decide +kernel | exact ctx_of (by decide +kernel) (by decide +kernel)⟩,
    ⟨1, 0, 1, ctx (updating {}), updateSet.stages.getD 0 {}, updateSet.figs.getD 0 {}, { tensor with dbl := true }, updating {}, by and_intros <;> first | decide +kernel | exact ctx_of (by decide +kernel) (by decide +kernel)⟩,
    ⟨1, ctx (pooling beat2), pooling beat2, by unfold Sys2Proof.Claims.rising; and_intros <;> first | decide +kernel | exact ctx_of (by decide +kernel) (by decide +kernel)⟩,
    ⟨1, 4, ctx (roomy (summed (pooling beat2))), acc0, tableSet.stages.getD 1 {}, table, _, roomy (summed (pooling beat2)), by unfold Sys2Proof.Claims.rising; and_intros <;> first | decide +kernel | exact ctx_of (by decide +kernel) (by decide +kernel) | rfl⟩,
    ⟨1, ctx (pooling {}), pooling {}, by and_intros <;> first | decide +kernel | exact ctx_of (by decide +kernel) (by decide +kernel)⟩,
    ⟨1, ctx (inStep beat2), ctx (beat3 1 (ctx (inStep beat2)) (inStep beat2)), inStep beat2, by and_intros <;> first | decide +kernel | exact ctx_of (by decide +kernel) (by decide +kernel)⟩,
    ⟨1, ctx (pooling {}), pooling {}, by and_intros <;> first | decide +kernel | exact ctx_of (by decide +kernel) (by decide +kernel)⟩⟩

/-- Values that meet the hypotheses of `Obligations.StepBarrierEntersAndExits`, clause by clause. -/
theorem witness_StepBarrierEntersAndExits :
    (∃ (j : Nat) (r : StepRun) (s : State), ((s.job j).run = some r) ∧ (s.ctl.clk.frozen = false) ∧ (r.phase = .beats 5) ∧ ((s.job j).commit = none) ∧ (s.w.mr.out = 0) ∧ (Sys2Proof.Claims.alone s) ∧ (barOf s j = none) ∧ (Sys2Proof.Claims.rising s.w.jobs)) ∧
    (∃ (j : Nat) (r : StepRun) (s : State), ((s.job j).run = some r) ∧ (s.ctl.clk.frozen = false) ∧ (r.phase ≠ .beats 5 ∨ ((s.job j).commit = some (r.step + 1) ∧ (s.job j).stagedMode ≠ none ∧ r.applyOk = none))) ∧
    (∃ (j : Nat) (s : State), ((∀ x ∈ s.w.reel.bars, x.job = j → x.own = none ∧ x.kids = []))) ∧
    (∃ (j : Nat) (step : Nat) (x : Bar) (o : Ent) (s : State), (barOf s j = some x) ∧ (x.own = some o) ∧ (o.step = step) ∧ (x.exit = none)) ∧
    (∃ (j : Nat) (step : Nat) (x : Bar) (o : Ent) (s : State), (barOf s j = some x) ∧ (x.own = some o) ∧ (o.step ≠ step ∨ x.exit ≠ none)) ∧
    (∃ (j : Nat) (r : StepRun) (x : Bar) (o : Ent) (e : Ent) (s : State), ((s.job j).run = some r) ∧ (barOf s j = some x) ∧ (x.own = some o) ∧ (s.ctl.clk.frozen = false) ∧ (x.exit = some e) ∧ (r.phase = .barrier) ∧ (e.step = r.step) ∧ (r.applyOk = none) ∧ ((s.job j).stagedMode = none) ∧ (e.failed = false) ∧ (o.failed = false) ∧ ((s.job j).waiting = []) ∧ (hudOf s j = none) ∧ (s.w.ck.state ≠ 1) ∧ ((s.job j).lastGood = none ∨ e.good ≤ (s.job j).jobGood) ∧ (Sys2Proof.Claims.rising s.w.jobs) ∧ ((∀ k ∈ x.kids, k.step ≤ r.step)) ∧ ((∀ y ∈ s.w.reel.bars, y.job = j → y = x))) ∧
    (∃ (j : Nat) (r : StepRun) (x : Bar) (o : Ent) (e : Ent) (s : State), ((s.job j).run = some r) ∧ (barOf s j = some x) ∧ (x.own = some o) ∧ (s.ctl.clk.frozen = false) ∧ (x.exit = some e) ∧ (r.phase = .barrier) ∧ (e.step = r.step) ∧ (e.failed = true ∨ o.failed = true)) ∧
    (∃ (j : Nat) (x : Bar) (s : State), (barOf s j = some x) ∧ (s.ctl.clk.frozen = false) ∧ (x.exit = none)) ∧
    (∃ (j : Nat) (x : Bar) (o : Ent) (s : State), (barOf s j = some x) ∧ (x.own = some o) ∧ (x.exit = none) ∧ (x.kids = [])) ∧
    (∃ (j : Nat) (s : State), (s.ctl.clk.frozen = false) ∧ (barOf s j = none)) :=
  ⟨⟨1, beat5, stepping beat5 up, by unfold Sys2Proof.Claims.rising Sys2Proof.Claims.alone; decide +kernel⟩,
    ⟨1, waits, stepping waits up, by decide +kernel⟩,
    ⟨1, up, by decide +kernel⟩,
    ⟨1, 1, { job := 1, own := some own1 }, own1, barred { job := 1, own := some own1 } (stepping waits up), by decide +kernel⟩,
    ⟨1, 2, { job := 1, own := some own1 }, own1, barred { job := 1, own := some own1 } (stepping waits up), by decide +kernel⟩,
    ⟨1, waits, { job := 1, own := some own1, exit := some own1 }, own1, own1, barred { job := 1, own := some own1, exit := some own1 } (stepping waits up), by unfold Sys2Proof.Claims.rising; decide +kernel⟩,
    ⟨1, waits, { job := 1, own := some own1, exit := some { own1 with failed := true } }, own1, { own1 with failed := true }, barred { job := 1, own := some own1, exit := some { own1 with failed := true } } (stepping waits up), by decide +kernel⟩,
    ⟨1, { job := 1, own := some own1 }, barred { job := 1, own := some own1 } (stepping waits up), by decide +kernel⟩,
    ⟨1, { job := 1, own := some own1 }, own1, barred { job := 1, own := some own1 } (stepping waits up), by decide +kernel⟩,
    ⟨1, up, by decide +kernel⟩⟩

/-- Values that meet the hypotheses of `Obligations.StepsAreCalledGood`, clause by clause. -/
theorem witness_StepsAreCalledGood :
    (∃ (j : Nat) (n : Nat) (s : State), (s.ctl.clk.frozen = false) ∧ (goodConds s j n = false)) ∧
    (∃ (j : Nat) (n : Nat) (s : State), (s.ctl.clk.frozen = false) ∧ (goodConds s j n = true) ∧ (n ≠ noGood) ∧ (Sys2Proof.Claims.alone s) ∧ (s.w.mr.inNode = 0xFFFF) ∧ (s.w.ck.state ≠ 1) ∧ (barOf s j = none) ∧ (Sys2Proof.Claims.rising s.w.jobs)) ∧
    (∃ (j : Nat) (n : Nat) (e : Jrn) (s : State), ((s.job j).entry? n = some e) ∧ (goodConds s j n = true)) ∧
    (∃ (j n : Nat) (e : Jrn) (s : State), (s.job j).entry? n = some e ∧ goodConds s j n = true ∧ ∃ x ∈ (s.job j).jrn, x.step < n) ∧
    (∃ (j : Nat) (src : Nat) (good : Nat) (s : State), (upNode s j = some src) ∧ ((s.job j).jobGood < good)) ∧
    (∃ (j : Nat) (src : Nat) (s : State), (upNode s j ≠ some src) ∧ (src ∈ downNodes s j) ∧ (barOf s j = none) ∧ (Sys2Proof.Claims.rising s.w.jobs)) ∧
    (∃ (j : Nat) (src : Nat) (good : Nat) (s : State), ((upNode s j = some src ∧ good ≤ (s.job j).jobGood) ∨ (upNode s j ≠ some src ∧ src ∉ downNodes s j))) :=
  ⟨⟨1, 1, up, by decide +kernel⟩,
    ⟨1, 1, journal [ended1], by unfold Sys2Proof.Claims.rising Sys2Proof.Claims.alone; decide +kernel⟩,
    ⟨1, 1, ended1, journal [ended1], by decide +kernel⟩,
    ⟨1, 2, { ended1 with step := 2 }, journal [{ ended1 with good := true }, { ended1 with step := 2 }], by decide +kernel⟩,
    ⟨1, 7, 3, asNode 8, by decide +kernel⟩,
    ⟨1, 8, asNode 7, by unfold Sys2Proof.Claims.rising; decide +kernel⟩,
    ⟨1, 9, 0, up, by decide +kernel⟩⟩

/-- Values that meet the hypotheses of `Obligations.HuddlesGatherAndEnd`, clause by clause. -/
theorem witness_HuddlesGatherAndEnd :
    (∃ (h : Hdr) (reason : Nat) (s : State), (Ready 0x0505 h s) ∧ (1 ≤ reason) ∧ (reason ≤ 6) ∧ (hudOf s h.job ≠ none)) ∧
    (∃ (h : Hdr) (reason : Nat) (s : State), (Ready 0x0505 h s) ∧ (1 ≤ reason) ∧ (reason ≤ 6) ∧ (hudOf s h.job = none) ∧ (reason ≠ 2) ∧ (reason ≠ 4) ∧ (Sys2Proof.Claims.alone s) ∧ ((s.job h.job).run = none) ∧ ((s.job h.job).waiting = []) ∧ (s.w.ck.state ≠ 1)) ∧
    (∃ (h : Hdr) (reason : Nat) (s : State), (Ready 0x0505 h s) ∧ (reason = 0 ∨ 6 < reason)) ∧
    (∃ (j : Nat) (src : Nat) (reason : Nat) (s : State), ((∀ x, hudOf s j = some x → ∀ q ∈ x.reqs, q.1 ≠ src)) ∧ (reason ≠ 4)) ∧
    (∃ (j : Nat) (src : Nat) (x : Hud) (s : State), (hudOf s j = some x) ∧ ((∃ q ∈ x.reqs, q.1 = src))) ∧
    (∃ (j : Nat) (x : Hud) (s : State), (hudOf s j = some x) ∧ (x.entered = false) ∧ (x.cut = none) ∧ ((∃ n ∈ liveMembers s j, ∀ q ∈ x.reqs, q.1 ≠ n)) ∧ ((∀ y ∈ s.w.reel.huds, y.job = j → y = x))) ∧
    (∃ (j : Nat) (boundary : Nat) (count : Nat) (x : Hud) (s : State), (hudOf s j = some x) ∧ (x.entered = true) ∧ (x.cut = some boundary) ∧ (count = (liveMembers s j).length)) ∧
    (∃ (j : Nat) (boundary : Nat) (count : Nat) (s : State), ((∀ x, hudOf s j = some x → x.entered = false ∨ x.cut ≠ some boundary ∨ count ≠ (liveMembers s j).length))) ∧
    (∃ (j : Nat) (x : Hud) (s : State), (hudOf s j = some x) ∧ (x.entered = true) ∧ (x.exited = false) ∧ (x.timedOut = false)) ∧
    (∃ (j : Nat) (s : State), ((∀ x, hudOf s j = some x → x.entered = false ∨ x.exited = true ∨ x.timedOut = true))) :=
  ⟨⟨h1, 3, huddled { job := 1, reqs := [(7, 1, 0)] } up, by unfold Ready; decide +kernel⟩,
    ⟨h1, 3, up, by unfold Ready Sys2Proof.Claims.alone; decide +kernel⟩,
    ⟨h1, 0, up, by unfold Ready; decide +kernel⟩,
    ⟨1, 7, 3, up, by and_intros <;> decide +kernel⟩,
    ⟨1, 7, { job := 1, reqs := [(7, 1, 0)] }, huddled { job := 1, reqs := [(7, 1, 0)] } up, by decide +kernel⟩,
    ⟨1, { job := 1, reqs := [(7, 1, 0)] }, huddled { job := 1, reqs := [(7, 1, 0)] } (asNode 7), by decide +kernel⟩,
    ⟨1, 5, 1, { job := 1, entered := true, cut := some 5 }, huddled { job := 1, entered := true, cut := some 5 } up, by decide +kernel⟩,
    ⟨1, 0, 0, up, by and_intros <;> decide +kernel⟩,
    ⟨1, { job := 1, entered := true, cut := some 5 }, huddled { job := 1, entered := true, cut := some 5 } up, by decide +kernel⟩,
    ⟨1, up, by and_intros <;> decide +kernel⟩⟩

/-- Values that meet the hypotheses of `Obligations.LinksTrainAndAreJudged`, clause by clause. -/
theorem witness_LinksTrainAndAreJudged :
    (∃ (l : Nat) (s : State), (l < 24) ∧ (linkUsable s l = true) ∧ ((s.link l).state = 0 ∨ ((s.link l).state = 4 ∧ (s.link l).fails < (tget {} s.cfg.lk l).trainFail)) ∧ (Sys2Proof.Claims.rising s.w.lk)) ∧
    (∃ (l : Nat) (s : State), (l < 24) ∧ (Sys2Proof.Claims.rising s.w.lk) ∧ (linkUsable s l = false ∨ (s.link l).state = 1 ∨ (s.link l).state = 2 ∨ (s.link l).state = 3 ∨ ((s.link l).state = 4 ∧ (tget {} s.cfg.lk l).trainFail ≤ (s.link l).fails))) ∧
    (∃ (l : Nat) (s : State), (l < 24) ∧ (Sys2Proof.Claims.rising s.w.lk) ∧ ((s.link l).state = 1) ∧ (foulAll s l = false)) ∧
    (∃ (l : Nat) (ok : Bool) (s : State), (l < 24) ∧ (Sys2Proof.Claims.rising s.w.lk) ∧ ((s.link l).state = 1) ∧ (ok = false ∨ foulAll s l = true)) ∧
    (∃ (l : Nat) (s : State), ((s.link l).state ≠ 1)) ∧
    (∃ (l : Nat) (s : State), (l < 24) ∧ (Sys2Proof.Claims.rising s.w.lk) ∧ ((s.link l).state = 2 ∨ (s.link l).state = 3)) ∧
    (∃ (l : Nat) (s : State), ((s.link l).state ≠ 2) ∧ ((s.link l).state ≠ 3)) ∧
    (∃ (l : Nat) (s : State), (l < 24) ∧ (Sys2Proof.Claims.rising s.w.lk) ∧ (linkUsable s l = true) ∧ ((s.link l).state = 0 ∨ (s.link l).state = 4)) ∧
    (∃ (l : Nat) (s : State), (l < 24) ∧ (Sys2Proof.Claims.rising s.w.lk) ∧ (linkUsable s l = true) ∧ ((s.link l).state = 2 ∨ (s.link l).state = 3)) ∧
    (∃ (l : Nat) (s : State), (l < 24) ∧ (s.unitOn (0x30 + l) = true) ∧ ((portOfLink s l).isSome = false ∨ (s.link l).state = 1)) ∧
    (∃ (l : Nat) (s : State), (l < 24) ∧ (s.unitOn (0x30 + l) = false)) ∧
    (∃ (l : Nat) (s : State), (l < 24) ∧ (Sys2Proof.Claims.rising s.w.lk) ∧ ((s.link l).retryWin ≤ (tget {} s.cfg.lk l).retryThr)) ∧
    (∃ (l : Nat) (s : State), (l < 24) ∧ (Sys2Proof.Claims.rising s.w.lk) ∧ ((tget {} s.cfg.lk l).retryThr < (s.link l).retryWin) ∧ ((s.link l).winBase < 9)) ∧
    (∃ (l : Nat) (s : State), (l < 24) ∧ (Sys2Proof.Claims.rising s.w.lk) ∧ ((tget {} s.cfg.lk l).retryThr < (s.link l).retryWin) ∧ ((s.link l).winBase = 9)) ∧
    (∃ (l : Nat) (s : State), (l < 24) ∧ (Sys2Proof.Claims.rising s.w.lk) ∧ ((s.link l).state = 3)) ∧
    (∃ (l : Nat) (d : Bytes) (s : State), (l < 24) ∧ (Sys2Proof.Claims.rising s.w.lk) ∧ ((s.link l).state = 2) ∧ ((s.link l).accepted = true) ∧ ((s.link l).peerNode = fld d 0 2) ∧ ((s.link l).serial = fld d 8 8) ∧ (fld d 0 2 ∉ s.w.topo.lost)) ∧
    (∃ (l : Nat) (d : Bytes) (s : State), (l < 24) ∧ (Sys2Proof.Claims.rising s.w.lk) ∧ ((s.link l).state = 2) ∧ ((s.link l).accepted = false) ∧ (fld d 0 2 ≠ 0xFFFF) ∧ (judge (Sys2Proof.Claims.peerTold l d s) l = 0)) ∧
    (∃ (l : Nat) (d : Bytes) (s : State), (l < 24) ∧ (Sys2Proof.Claims.rising s.w.lk) ∧ ((s.link l).state = 2) ∧ ((s.link l).accepted = false) ∧ (fld d 0 2 ≠ 0xFFFF) ∧ (2 ≤ judge (Sys2Proof.Claims.peerTold l d s) l)) ∧
    (∃ (l : Nat) (s : State), ((s.link l).state ≠ 2) ∧ ((s.link l).state ≠ 3)) ∧
    (∃ (h : Hdr) (mask : Nat) (l : Nat) (e : PortEnt) (s : State), (Ready 0x0701 h s) ∧ (Sys2Proof.Claims.rising s.w.lk) ∧ (mask < 4096) ∧ (e ∈ portEnts s) ∧ (bit mask e.port = true) ∧ (bit e.mask l = true) ∧ (l < 24) ∧ (linkUsable s l = true) ∧ ((s.link l).state = 4)) ∧
    (∃ (h : Hdr) (mask : Nat) (s : State), (Ready 0x0701 h s) ∧ (Sys2Proof.Claims.rising s.w.lk) ∧ (mask < 4096) ∧ ((∀ e ∈ portEnts s, bit mask e.port = true → ∀ l < 24, bit e.mask l = true → (s.link l).state = 3))) ∧
    (∃ (h : Hdr) (mask : Nat) (s : State), (Ready 0x0701 h s) ∧ (4096 ≤ mask)) :=
  ⟨⟨0, linked {}, by unfold Sys2Proof.Claims.rising; decide +kernel⟩,
    ⟨0, linked { state := 1 }, by unfold Sys2Proof.Claims.rising; decide +kernel⟩,
    ⟨0, linked { state := 1 }, by unfold Sys2Proof.Claims.rising; decide +kernel⟩,
    ⟨0, false, linked { state := 1 }, by unfold Sys2Proof.Claims.rising; decide +kernel⟩,
    ⟨0, linked {}, by decide +kernel⟩,
    ⟨0, linked { state := 2 }, by unfold Sys2Proof.Claims.rising; decide +kernel⟩,
    ⟨0, linked {}, by decide +kernel⟩,
    ⟨0, linked { state := 4 }, by unfold Sys2Proof.Claims.rising; decide +kernel⟩,
    ⟨0, linked { state := 3 }, by unfold Sys2Proof.Claims.rising; decide +kernel⟩,
    ⟨0, linked { state := 1 }, by decide +kernel⟩,
    ⟨0, up.setUnits 0, by decide +kernel⟩,
    ⟨0, linked {}, by unfold Sys2Proof.Claims.rising; decide +kernel⟩,
    ⟨0, linked { retryWin := 1000000000 }, by unfold Sys2Proof.Claims.rising; decide +kernel⟩,
    ⟨0, linked { retryWin := 1000000000, winBase := 9 }, by unfold Sys2Proof.Claims.rising; decide +kernel⟩,
    ⟨0, linked { state := 3 }, by unfold Sys2Proof.Claims.rising; decide +kernel⟩,
    ⟨0, peer, linked { state := 2, accepted := true, peerNode := 8, serial := 5 }, by unfold Sys2Proof.Claims.rising; decide +kernel⟩,
    ⟨0, peer, planned (linked { state := 2 }), by unfold Sys2Proof.Claims.rising Sys2Proof.Claims.peerTold; decide +kernel⟩,
    ⟨0, peer, linked { state := 2 }, by unfold Sys2Proof.Claims.rising Sys2Proof.Claims.peerTold; decide +kernel⟩,
    ⟨0, linked {}, by decide +kernel⟩,
    ⟨h0, 1, 0, ⟨0, 1, 0x7, 0xFFFF⟩, linked { state := 4 }, by unfold Ready Sys2Proof.Claims.rising; decide +kernel⟩,
    ⟨h0, 1, allUp, by unfold Ready Sys2Proof.Claims.rising; decide +kernel⟩,
    ⟨h0, 4096, up, by unfold Ready; decide +kernel⟩⟩

/-- Values that meet the hypotheses of `Obligations.FramesAndMessagesArrive`, clause by clause. -/
theorem witness_FramesAndMessagesArrive :
    (∃ (l : Nat) (s : State), (24 ≤ l ∨ ((s.link l).state ≠ 2 ∧ (s.link l).state ≠ 3))) ∧
    (∃ (l : Nat) (frame : Bytes) (bad : Nat) (seq : Nat) (s : State), (l < 24) ∧ ((s.link l).state = 2 ∨ (s.link l).state = 3) ∧ (Sys2Proof.Claims.rising s.w.lk) ∧ ((∀ n ∈ Sys2Proof.Claims.lanesRun s l bad, n < 3)) ∧ (Sys2Proof.Claims.frameGood frame bad) ∧ (bits (Sys2Proof.Claims.ctlOf frame) 1 0 = 2) ∧ (bits (Sys2Proof.Claims.ctlOf frame) 30 19 = seq) ∧ (seq = ((s.link l).rxSeq + 1) % 4096) ∧ (bit (Sys2Proof.Claims.ctlOf frame) 43 = false)) ∧
    (∃ (l : Nat) (bad : Nat) (s : State), (l < 24) ∧ ((s.link l).state = 2 ∨ (s.link l).state = 3) ∧ (Sys2Proof.Claims.rising s.w.lk) ∧ ((∃ n ∈ Sys2Proof.Claims.lanesRun s l bad, 3 ≤ n))) ∧
    (∃ (l : Nat) (frame : Bytes) (bad : Nat) (s : State), (l < 24) ∧ ((s.link l).state = 2 ∨ (s.link l).state = 3) ∧ (Sys2Proof.Claims.rising s.w.lk) ∧ ((∀ n ∈ Sys2Proof.Claims.lanesRun s l bad, n < 3)) ∧ (¬ Sys2Proof.Claims.frameGood frame bad)) ∧
    (∃ (l : Nat) (frame : Bytes) (bad : Nat) (s : State), (l < 24) ∧ ((s.link l).state = 2 ∨ (s.link l).state = 3) ∧ (Sys2Proof.Claims.rising s.w.lk) ∧ ((∀ n ∈ Sys2Proof.Claims.lanesRun s l bad, n < 3)) ∧ (Sys2Proof.Claims.frameGood frame bad) ∧ (bits (Sys2Proof.Claims.ctlOf frame) 1 0 = 1 ∨ bits (Sys2Proof.Claims.ctlOf frame) 1 0 = 2) ∧ (bits (Sys2Proof.Claims.ctlOf frame) 30 19 ≠ ((s.link l).rxSeq + 1) % 4096)) ∧
    (∃ (src : Nat) (s : State), ((s.w.msgs.unacked.filter (fun e => e.1 == src)).length ≤ 312)) ∧
    (∃ (dst : Nat) (cls : Nat) (seq : Nat) (m : Msg) (s : State), (s.w.msgs.kept.find? (fun m => m.dst == dst && m.cls == cls && m.seq == seq) = some m) ∧ (m.resends < 3)) ∧
    (∃ (dst : Nat) (cls : Nat) (seq : Nat) (m : Msg) (s : State), (s.w.msgs.kept.find? (fun m => m.dst == dst && m.cls == cls && m.seq == seq) = some m) ∧ (3 ≤ m.resends)) ∧
    (∃ (dst : Nat) (cls : Nat) (seq : Nat) (s : State), ((∀ m ∈ s.w.msgs.kept, ¬ (m.dst = dst ∧ m.cls = cls ∧ m.seq = seq)))) ∧
    (∃ (k : Nat) (s : State), (k < 12) ∧ (Sys2Proof.Claims.rising s.w.topo.ports)) ∧
    (∃ (k : Nat), (12 ≤ k)) ∧
    (∃ (node : Nat) (s : State), (node ≠ 0xFFFF) ∧ ((∃ e ∈ portEnts s, portPeer s e = node)) ∧ ((∀ e ∈ portEnts s, portPeer s e = node → linksUp s e = 0))) ∧
    (∃ (node : Nat) (s : State), (node = 0xFFFF ∨ (∃ e ∈ portEnts s, portPeer s e = node ∧ linksUp s e ≠ 0) ∨ (∀ e ∈ portEnts s, portPeer s e ≠ node))) ∧
    (∃ (node : Nat) (s : State), (node ∉ s.w.topo.lost) ∧ (node ≠ s.w.topo.node) ∧ ((∀ j < 64, s.live j = false)) ∧ (s.w.mr.missing = []) ∧ (s.w.apWait = []) ∧ ((∀ c < 128, (s.chan c).state ≠ 2))) ∧
    (∃ (node : Nat) (s : State), (node ∈ s.w.topo.lost ∨ node = s.w.topo.node)) ∧
    (∃ (node : Nat) (place : Nat) (p : Plan) (e : PlaceEnt) (s : State), (s.w.topo.jobPlan = some p) ∧ (p.places[place]? = some e) ∧ (e.subst = node) ∧ (node ≠ 0xFFFF) ∧ (s.w.holder = none) ∧ ((node, e.node) ∉ s.w.topo.subs)) ∧
    (∃ (node : Nat) (place : Nat) (s : State), ((∀ p e, s.w.topo.jobPlan = some p → p.places[place]? = some e → e.subst ≠ node ∨ node = 0xFFFF))) :=
  ⟨⟨24, up, by decide +kernel⟩,
    ⟨0, frame0 ctlData, 0, 1, linked { state := 3, rxSeq := 0 }, by decide, by decide +kernel, by unfold Sys2Proof.Claims.rising; decide +kernel, by decide +kernel, ⟨rfl, frame_good ctlData (by decide +kernel)⟩, frame_bits (p := fun v => bits v 1 0 = 2) (by decide +kernel), frame_bits (p := fun v => bits v 30 19 = 1) (by decide +kernel), rfl, frame_bits (p := fun v => bit v 43 = false) (by decide +kernel)⟩,
    ⟨0, 1, linked { state := 3, badRun := [2] }, by unfold Sys2Proof.Claims.rising Sys2Proof.Claims.lanesRun; decide +kernel⟩,
    ⟨0, [], 1, linked { state := 3 }, by unfold Sys2Proof.Claims.rising Sys2Proof.Claims.lanesRun; and_intros <;> first | decide +kernel | exact fun x => absurd x.1 (by decide)⟩,
    ⟨0, frame0 ctlAck, 0, linked { state := 3, rxSeq := 5 }, by decide, by decide +kernel, by unfold Sys2Proof.Claims.rising; decide +kernel, by decide +kernel, ⟨rfl, frame_good ctlAck (by decide +kernel)⟩, frame_bits (p := fun v => bits v 1 0 = 1 ∨ bits v 1 0 = 2) (by decide +kernel), frame_bits (p := fun v => bits v 30 19 ≠ (5 + 1) % 4096) (by decide +kernel)⟩,
    ⟨8, up, by decide +kernel⟩,
    ⟨8, 3, 5, mate, kept mate, by decide +kernel⟩,
    ⟨8, 3, 5, { mate with resends := 3 }, kept { mate with resends := 3 }, by decide +kernel⟩,
    ⟨8, 3, 5, up, by decide +kernel⟩,
    ⟨1, up, by unfold Sys2Proof.Claims.rising; decide +kernel⟩,
    ⟨12, by decide +kernel⟩,
    ⟨8, planned up, by decide +kernel⟩,
    ⟨0xFFFF, up, by decide +kernel⟩,
    ⟨8, planned (up.modJob 1 (fun b => { b with live := false })), by decide +kernel⟩,
    ⟨0xFFFF, up, by decide +kernel⟩,
    ⟨9, 0, pair2, ⟨7, 0, 0, 0, 8, 9⟩, (asNode 8).onW (fun w => { w with holder := none }), by decide +kernel⟩,
    ⟨8, 0, up, fun p _ h => by cases h⟩⟩

/-- Values that meet the hypotheses of `Obligations.PlansTimeAndFoulMode`, clause by clause. -/
theorem witness_PlansTimeAndFoulMode :
    (∃ (h : Hdr) (addr : Nat) (len : Nat) (b : Bytes) (s : State), (Ready 0x0702 h s) ∧ ((∀ j < 64, s.live j = true → (s.job j).cur = none)) ∧ (64 ≤ len) ∧ (len ≤ 256) ∧ (pktRead (counted h s) h.job addr len = .ok b) ∧ (firstBad (planChecks b 0 0 ++ [(8, fld b 8 4 == len)]) = none) ∧ ((∀ p, s.w.topo.plan = some p → p.img ≠ b))) ∧
    (∃ (h : Hdr) (addr : Nat) (len : Nat) (b : Bytes) (p : Plan) (s : State), (Ready 0x0702 h s) ∧ ((∀ j < 64, s.live j = true → (s.job j).cur = none)) ∧ (64 ≤ len) ∧ (len ≤ 256) ∧ (pktRead (counted h s) h.job addr len = .ok b) ∧ (firstBad (planChecks b 0 0 ++ [(8, fld b 8 4 == len)]) = none) ∧ (s.w.topo.plan = some p) ∧ (p.img = b)) ∧
    (∃ (h : Hdr) (s : State), (Ready 0x0702 h s) ∧ ((∃ j < 64, s.live j = true ∧ (s.job j).cur ≠ none))) ∧
    (∃ (h : Hdr) (len : Nat) (s : State), (Ready 0x0702 h s) ∧ ((∀ j < 64, s.live j = true → (s.job j).cur = none)) ∧ (256 < len ∨ len < 64)) ∧
    (∃ (l : Nat) (s : State), (isMaster s = false) ∧ (s.ctl.clk.running = true) ∧ (upstream s = some l)) ∧
    (∃ (s : State), (isMaster s = false) ∧ (s.ctl.clk.running = true) ∧ (upstream s = none)) ∧
    (∃ (s : State), (isMaster s = true ∨ s.ctl.clk.running = false)) ∧
    (∃ (t1 : Nat) (t2 : Nat) (t3 : Nat) (t4 : Nat) (off : Int) (s : State), (isMaster s = false) ∧ (s.ctl.clk.running = true) ∧ (s.w.topo.upLink ≠ 0x1F) ∧ (off = (((t2 : Int) - t1) - ((t4 : Int) - t3)) / 2)) ∧
    (∃ (h : Hdr) (mask : Nat) (action : Nat) (rate : Nat) (ms : Nat) (s : State), (Ready 0x0703 h s) ∧ (1 ≤ action) ∧ (action ≤ 3) ∧ (0 < mask) ∧ (mask < 2 ^ 24) ∧ (rate ≤ 30) ∧ (1 ≤ ms) ∧ (ms ≤ 3600000) ∧ (s.w.sl.foulAuth = true)) ∧
    (∃ (h : Hdr) (mask : Nat) (rate : Nat) (s : State), (Ready 0x0703 h s) ∧ (mask < 2 ^ 24) ∧ (rate ≤ 30) ∧ (s.w.sl.foulAuth = true)) ∧
    (∃ (h : Hdr) (action : Nat) (s : State), (Ready 0x0703 h s) ∧ (3 < action)) ∧
    (∃ (h : Hdr) (mask : Nat) (action : Nat) (s : State), (Ready 0x0703 h s) ∧ (action ≤ 3) ∧ (2 ^ 24 ≤ mask ∨ (action ≠ 0 ∧ mask = 0))) ∧
    (∃ (h : Hdr) (mask : Nat) (action : Nat) (rate : Nat) (s : State), (Ready 0x0703 h s) ∧ (action ≤ 3) ∧ (mask < 2 ^ 24) ∧ ((action ≠ 0 → mask ≠ 0)) ∧ (30 < rate)) ∧
    (∃ (h : Hdr) (mask : Nat) (action : Nat) (rate : Nat) (ms : Nat) (s : State), (Ready 0x0703 h s) ∧ (1 ≤ action) ∧ (action ≤ 3) ∧ (0 < mask) ∧ (mask < 2 ^ 24) ∧ (rate ≤ 30) ∧ (ms = 0 ∨ 3600000 < ms)) ∧
    (∃ (h : Hdr) (mask : Nat) (action : Nat) (rate : Nat) (ms : Nat) (s : State), (Ready 0x0703 h s) ∧ (action ≤ 3) ∧ (mask < 2 ^ 24) ∧ ((action ≠ 0 → mask ≠ 0 ∧ 1 ≤ ms ∧ ms ≤ 3600000)) ∧ (rate ≤ 30) ∧ (s.w.sl.foulAuth = false)) ∧
    (∃ (s : State), (s.w.foul.armed ≠ 0)) ∧
    (∃ (s : State), (s.w.sl.foulAuth = true)) ∧
    (∃ (s : State), (s.w.foul.armed = 0)) ∧
    (∃ (s : State), (s.w.sl.foulAuth = false)) :=
  ⟨⟨h0, 0x10000, 80, planImg, told up, by unfold Ready; and_intros <;> decide +kernel⟩,
    ⟨h0, 0x10000, 80, planImg, parsePlan planImg, (told up).onW (fun w => { w with topo := { w.topo with plan := some (parsePlan planImg) } }), by unfold Ready; and_intros <;> first | decide +kernel⟩,
    ⟨h0, up.modJob 1 (fun b => { b with cur := some set }), by unfold Ready; decide +kernel⟩,
    ⟨h0, 32, up, by unfold Ready; decide +kernel⟩,
    ⟨0, linked { state := 3 }, by decide +kernel⟩,
    ⟨up, by decide +kernel⟩,
    ⟨{ up with ctl := { up.ctl with clk := {} } }, by decide +kernel⟩,
    ⟨0, 0, 0, 0, 0, up.onW (fun w => { w with topo := { w.topo with upLink := 0 } }), by decide +kernel⟩,
    ⟨h0, 1, 1, 0, 1, fouled true, by unfold Ready; decide +kernel⟩,
    ⟨h0, 1, 0, fouled true, by unfold Ready; decide +kernel⟩,
    ⟨h0, 4, up, by unfold Ready; decide +kernel⟩,
    ⟨h0, 0, 1, up, by unfold Ready; decide +kernel⟩,
    ⟨h0, 1, 1, 31, up, by unfold Ready; decide +kernel⟩,
    ⟨h0, 1, 1, 0, 0, up, by unfold Ready; decide +kernel⟩,
    ⟨h0, 1, 1, 0, 1, up, by unfold Ready; decide +kernel⟩,
    ⟨up.onW (fun w => { w with foul := { armed := 1 } }), by decide +kernel⟩,
    ⟨fouled true, by decide +kernel⟩,
    ⟨up, by decide +kernel⟩,
    ⟨up, by decide +kernel⟩⟩

/-- Values that meet the hypotheses of `Obligations.MirrorIsBoundFedAndAnchored`, clause by clause. -/
theorem witness_MirrorIsBoundFedAndAnchored :
    (∃ (h : Hdr) (node : Nat) (s : State), (Ready 0x0503 h s) ∧ (partnerUp s node = true) ∧ (s.w.topo.jobPlan = none) ∧ ((∀ e ∈ s.w.jobs, (s.job e.1).run = none)) ∧ (s.w.mr.out = 0 ∨ s.w.mr.out = 3)) ∧
    (∃ (h : Hdr) (node : Nat) (s : State), (Ready 0x0503 h s) ∧ (partnerUp s node = true) ∧ (s.w.topo.jobPlan = none) ∧ ((∀ e ∈ s.w.jobs, (s.job e.1).run = none)) ∧ (mirrorRoom (counted h s) = true) ∧ (s.w.mr.inn = 0 ∨ s.w.mr.inn = 3)) ∧
    (∃ (h : Hdr) (node : Nat) (s : State), (Ready 0x0503 h s) ∧ (partnerUp s node = true) ∧ (s.w.topo.jobPlan = none) ∧ ((∀ e ∈ s.w.jobs, (s.job e.1).run = none)) ∧ (s.w.mr.outNode = node) ∧ (s.w.mr.out = 1 ∨ s.w.mr.out = 2)) ∧
    (∃ (h : Hdr) (role : Nat) (s : State), (Ready 0x0503 h s) ∧ (1 < role)) ∧
    (∃ (h : Hdr) (node : Nat) (role : Nat) (s : State), (Ready 0x0503 h s) ∧ (role ≤ 1) ∧ (partnerUp s node = false)) ∧
    (∃ (h : Hdr) (node : Nat) (s : State), (Ready 0x0503 h s) ∧ (partnerUp s node = true) ∧ (s.w.topo.jobPlan = none) ∧ (mirrorRoom (counted h s) = false)) ∧
    (∃ (h : Hdr) (node : Nat) (s : State), (Ready 0x0503 h s) ∧ (partnerUp s node = true) ∧ (s.w.topo.jobPlan = none) ∧ ((∃ e ∈ s.w.jobs, (s.job e.1).run ≠ none))) ∧
    (∃ (s : State), (holding s = false)) ∧
    (∃ (j : Nat) (step : Nat) (kind : Nat) (tensor : Nat) (off : Nat) (good : Nat) (data : Bytes) (s : State) (s1 : State), (holding s = true) ∧ (j < 64) ∧ (s1 = mirrorGood j good s) ∧ ((j, step) ∉ s1.w.mr.noRoom) ∧ (kind ≠ 3) ∧ (kind ≠ 4) ∧ (deltaRoom s1.w.mr kind (mirKey j tensor) off data = true)) ∧
    (∃ (j : Nat) (step : Nat) (tensor : Nat) (off : Nat) (good : Nat) (data : Bytes) (s : State) (s1 : State), (holding s = true) ∧ (j < 64) ∧ (s1 = mirrorGood j good s) ∧ ((j, step) ∉ s1.w.mr.noRoom) ∧ (deltaRoom s1.w.mr 3 (mirKey j tensor) off data = true)) ∧
    (∃ (j : Nat) (step : Nat) (kind : Nat) (tensor : Nat) (off : Nat) (good : Nat) (data : Bytes) (s : State) (s1 : State), (holding s = true) ∧ (j < 64) ∧ (s1 = mirrorGood j good s) ∧ ((j, step) ∉ s1.w.mr.noRoom) ∧ (kind ≠ 4) ∧ (deltaRoom s1.w.mr kind (mirKey j tensor) off data = false)) ∧
    (∃ (j : Nat) (step : Nat) (good : Nat) (s : State) (s1 : State), (holding s = true) ∧ (j < 64) ∧ (s1 = mirrorGood j good s) ∧ ((j, step) ∉ s1.w.mr.noRoom)) ∧
    (∃ (j : Nat) (step : Nat) (good : Nat) (s : State) (s1 : State), (holding s = true) ∧ (j < 64) ∧ (s1 = mirrorGood j good s) ∧ ((j, step) ∈ s1.w.mr.noRoom)) ∧
    (∃ (s : State), (holding s = true)) ∧
    (∃ (j : Nat) (s : State), (holding s = true) ∧ (j < 64)) ∧
    (∃ (j : Nat) (s : State), (s.w.mr.out = 1 ∨ s.w.mr.out = 2) ∧ (j < 64)) ∧
    (∃ (j : Nat) (s : State), (s.w.mr.out = 1) ∧ (64 ≤ j) ∧ (s.w.mr.exposed = false)) ∧
    (∃ (s : State), (s.w.mr.out ≠ 1) ∧ (s.w.mr.out ≠ 2)) :=
  ⟨⟨h0, 8, partner up, by unfold Ready; decide +kernel⟩,
    ⟨h0, 8, wide (partner up), by unfold Ready; decide +kernel⟩,
    ⟨h0, 8, outTo 1 (partner up), by unfold Ready; decide +kernel⟩,
    ⟨h0, 2, up, by unfold Ready; decide +kernel⟩,
    ⟨h0, 8, 0, up, by unfold Ready; decide +kernel⟩,
    ⟨h0, 8, partner up, by unfold Ready; decide +kernel⟩,
    ⟨h0, 8, partner (stepping {} up), by unfold Ready; decide +kernel⟩,
    ⟨up, by decide +kernel⟩,
    ⟨1, 1, 1, 0, 0, 0, [], holds, _, by and_intros <;> first | decide +kernel | rfl⟩,
    ⟨1, 1, 0, 0, 0, [], holds, _, by and_intros <;> first | decide +kernel | rfl⟩,
    ⟨1, 1, 2, 0, 0, 0, [0], holds.onW (fun w => { w with mr := { w.mr with pendGib := 0 } }), _, by and_intros <;> first | decide +kernel | rfl⟩,
    ⟨1, 1, 0, holds, _, by and_intros <;> first | decide +kernel | rfl⟩,
    ⟨1, 1, 0, holds.onW (fun w => { w with mr := { w.mr with noRoom := [(1, 1)] } }), _, by and_intros <;> first | decide +kernel | rfl⟩,
    ⟨holds, by decide +kernel⟩,
    ⟨1, holds, by decide +kernel⟩,
    ⟨1, outTo 1 up, by decide +kernel⟩,
    ⟨64, outTo 1 up, by decide +kernel⟩,
    ⟨up, by decide +kernel⟩⟩

/-- Values that meet the hypotheses of `Obligations.BenchModuleTakesOver`, clause by clause. -/
theorem witness_BenchModuleTakesOver :
    (∃ (h : Hdr) (failed : Nat) (partner : Nat) (j : Nat) (p : Plan) (e : PlaceEnt) (s : State), (Ready 0x0504 h s) ∧ (s.w.holder = some j) ∧ (s.w.topo.jobPlan = some p) ∧ (p.places.find? (fun e => e.node == failed) = some e) ∧ (e.subst = s.w.topo.node) ∧ (standing s e.partner = partner) ∧ (partnerUp s partner = true) ∧ (partner ∉ s.w.topo.lost) ∧ ((s.job j).run = none) ∧ ((s.job j).waiting = []) ∧ (s.w.mr.callJob ≠ j)) ∧
    (∃ (h : Hdr) (s : State), (Ready 0x0504 h s) ∧ (s.w.holder = none ∨ s.w.topo.jobPlan = none)) ∧
    (∃ (h : Hdr) (failed : Nat) (j : Nat) (p : Plan) (s : State), (Ready 0x0504 h s) ∧ (s.w.holder = some j) ∧ (s.w.topo.jobPlan = some p) ∧ ((∀ e, p.places.find? (fun e => e.node == failed) = some e → e.subst ≠ s.w.topo.node))) ∧
    (∃ (h : Hdr) (failed : Nat) (partner : Nat) (j : Nat) (p : Plan) (e : PlaceEnt) (s : State), (Ready 0x0504 h s) ∧ (s.w.holder = some j) ∧ (s.w.topo.jobPlan = some p) ∧ (p.places.find? (fun e => e.node == failed) = some e) ∧ (e.subst = s.w.topo.node) ∧ (standing s e.partner ≠ partner ∨ partnerUp s partner = false)) ∧
    (∃ (h : Hdr) (failed : Nat) (partner : Nat) (j : Nat) (p : Plan) (e : PlaceEnt) (s : State), (Ready 0x0504 h s) ∧ (s.w.holder = some j) ∧ (s.w.topo.jobPlan = some p) ∧ (p.places.find? (fun e => e.node == failed) = some e) ∧ (e.subst = s.w.topo.node) ∧ (standing s e.partner = partner) ∧ (partnerUp s partner = true) ∧ (partner ∈ s.w.topo.lost)) ∧
    (∃ (node : Nat) (s : State), (mayPull s node = true) ∧ (s.w.mr.outNode = node) ∧ (s.w.mr.out = 2)) ∧
    (∃ (node : Nat) (s : State), (mayPull s node = false)) ∧
    (∃ (j : Nat) (tensor : Nat) (first : Nat) (s : State), ((∃ r ∈ s.w.inflight, r.op = 0x0504 ∧ r.a = j)) ∧ ((∀ r ∈ s.w.inflight, r.op = 0x0504 → r.a = j → r.b ≠ 1)) ∧ (s.w.mr.callJob = j) ∧ ((3, tensor, first) ∉ s.w.mr.pulled)) ∧
    (∃ (j : Nat) (tensor : Nat) (first : Nat) (s : State), ((∃ r ∈ s.w.inflight, r.op = 0x0504 ∧ r.a = j)) ∧ ((∀ r ∈ s.w.inflight, r.op = 0x0504 → r.a = j → r.b ≠ 1)) ∧ (s.w.mr.callJob = j) ∧ ((3, tensor, first) ∈ s.w.mr.pulled)) ∧
    (∃ (j : Nat) (sect : Nat) (s : State), (sect ≠ 4) ∧ ((∀ r ∈ s.w.inflight, r.op = 0x0504 → r.a ≠ j))) ∧
    (∃ (j : Nat) (tensor : Nat) (block : Nat) (r : Tens) (d : Decl) (s : State), (s.w.mr.callJob = j) ∧ ((tensor, block) ∈ s.w.mr.missing) ∧ ((tensor, block) ∉ s.w.mr.gone) ∧ ((s.job j).cur.bind (fun t => t.tens? tensor) = some r) ∧ (s.decl j r.handle = some d) ∧ (s.w.apWait = []) ∧ ((∀ c < 128, (s.chan c).state ≠ 2)) ∧ (s.w.ck.armed = false) ∧ (s.w.err.state ≠ 1)) ∧
    (∃ (j : Nat) (tensor : Nat) (block : Nat) (s : State), (s.w.mr.callJob = j) ∧ ((tensor, block) ∈ s.w.mr.missing) ∧ ((tensor, block) ∉ s.w.mr.gone)) ∧
    (∃ (j : Nat) (tensor : Nat) (block : Nat) (s : State), (s.w.mr.callJob ≠ j ∨ (tensor, block) ∉ s.w.mr.missing ∨ (tensor, block) ∈ s.w.mr.gone)) :=
  ⟨⟨h0, 7, 8, 1, pair3, place7, benched (partner up), by unfold Ready; decide +kernel⟩,
    ⟨h0, up, by unfold Ready; decide +kernel⟩,
    ⟨h0, 77, 1, pair3, benched up, by unfold Ready; and_intros <;> decide +kernel⟩,
    ⟨h0, 7, 8, 1, pair3, place7, benched up, by unfold Ready; decide +kernel⟩,
    ⟨h0, 7, 8, 1, pair3, place7, (benched (partner up)).onW (fun w => { w with topo := { w.topo with lost := [8] } }), by unfold Ready; decide +kernel⟩,
    ⟨8, withMr { inSeeded := true, inAnchored := true, inNode := 8, outNode := 8, out := 2 } up, by decide +kernel⟩,
    ⟨8, up, by decide +kernel⟩,
    ⟨1, 2, 0, withMr { callJob := 1 } calling, by decide +kernel⟩,
    ⟨1, 2, 0, withMr { callJob := 1, pulled := [(3, 2, 0)] } calling, by decide +kernel⟩,
    ⟨1, 0, up, by decide +kernel⟩,
    ⟨1, 2, 0, { id := 2, role := 1, fmt := 1, handle := 2, count := 4096 }, tensor, withMr { callJob := 1, missing := [(2, 0)] } (inStep {}), by and_intros <;> first | decide +kernel⟩,
    ⟨1, 2, 0, withMr { callJob := 1, missing := [(2, 0)] } (inStep {}), by decide +kernel⟩,
    ⟨1, 2, 0, up, by decide +kernel⟩⟩

/-- Values that meet the hypotheses of `Obligations.CheckpointsAreWrittenCommittedAndRestored`, clause by clause. -/
theorem witness_CheckpointsAreWrittenCommittedAndRestored :
    (∃ (h : Hdr) (addr : Nat) (gen : Nat) (d : Bytes) (s : State), (Ready 0x0501 h s) ∧ (pktRead (counted h s) h.job addr 64 = .ok d) ∧ (firstBad (ckptDescChecks d) = none) ∧ (fld d 2 1 = 0) ∧ (s.w.ck.anchored < gen) ∧ (s.w.ck.lost = none) ∧ (s.w.ck.state = 0) ∧ (s.w.ck.gen = 0) ∧ (fld d 8 8 = 0 ∨ (s.job h.job).lastStarted.getD 0 ≤ fld d 8 8) ∧ (areaHolds (counted h s) h.job d = true)) ∧
    (∃ (h : Hdr) (addr : Nat) (gen : Nat) (d : Bytes) (s : State), (Ready 0x0501 h s) ∧ (pktRead (counted h s) h.job addr 64 = .ok d) ∧ (firstBad (ckptDescChecks d) = none) ∧ (fld d 2 1 = 0) ∧ (s.w.ck.anchored < gen) ∧ (s.w.ck.lost = none) ∧ (s.w.ck.state = 0) ∧ (s.w.ck.gen = 0) ∧ (fld d 8 8 = 0 ∨ (s.job h.job).lastStarted.getD 0 ≤ fld d 8 8) ∧ (areaHolds (counted h s) h.job d = false)) ∧
    (∃ (h : Hdr) (addr : Nat) (gen : Nat) (d : Bytes) (s : State), (Ready 0x0501 h s) ∧ (pktRead (counted h s) h.job addr 64 = .ok d) ∧ (firstBad (ckptDescChecks d) = none) ∧ (fld d 2 1 = 0) ∧ (s.w.ck.anchored < gen) ∧ (s.w.ck.lost = none) ∧ (s.w.ck.job = h.job) ∧ (s.w.ck.gen = gen) ∧ (s.w.ck.state = 2)) ∧
    (∃ (h : Hdr) (addr : Nat) (gen : Nat) (d : Bytes) (s : State), (Ready 0x0501 h s) ∧ (pktRead (counted h s) h.job addr 64 = .ok d) ∧ (firstBad (ckptDescChecks d) = none) ∧ (fld d 2 1 = 0) ∧ (gen ≤ s.w.ck.anchored)) ∧
    (∃ (h : Hdr) (addr : Nat) (o : Nat) (d : Bytes) (s : State), (Ready 0x0501 h s) ∧ (pktRead (counted h s) h.job addr 64 = .ok d) ∧ (firstBad (ckptDescChecks d) = some o)) ∧
    (∃ (h : Hdr) (addr : Nat) (gen : Nat) (d : Bytes) (hd : Bytes) (recs : Bytes) (s : State), (Ready 0x0501 h s) ∧ (pktRead (counted h s) h.job addr 64 = .ok d) ∧ (firstBad (ckptDescChecks d) = none) ∧ (fld d 2 1 = 1) ∧ (pktRead (counted h s) h.job (slotAddr (fld d 40 8) gen) 256 = .ok hd) ∧ (pktRead (counted h s) h.job (slotAddr (fld d 40 8) gen + 256) (128 * fld hd 6 2) = .ok recs) ∧ (fld hd 8 4 = gen) ∧ (slotValid hd recs = true) ∧ ((gen, (recs.drop (128 * myIndex s + 56)).take 32) ∈ s.w.ck.digests) ∧ ((∀ e ∈ s.w.ck.digests, e.1 = gen → e.2 = (recs.drop (128 * myIndex s + 56)).take 32))) ∧
    (∃ (h : Hdr) (addr : Nat) (gen : Nat) (d : Bytes) (hd : Bytes) (recs : Bytes) (s : State), (Ready 0x0501 h s) ∧ (pktRead (counted h s) h.job addr 64 = .ok d) ∧ (firstBad (ckptDescChecks d) = none) ∧ (fld d 2 1 = 1) ∧ (pktRead (counted h s) h.job (slotAddr (fld d 40 8) gen) 256 = .ok hd) ∧ (pktRead (counted h s) h.job (slotAddr (fld d 40 8) gen + 256) (128 * fld hd 6 2) = .ok recs) ∧ (fld hd 8 4 ≠ gen)) ∧
    (∃ (j : Nat) (i : Nat) (bs : Bytes) (s : State) (s0 : State) (s1 : State) (s2 : State), (s.ctl.clk.frozen = false) ∧ (s.w.ck.state = 1) ∧ (s.w.ck.armed = true) ∧ (s.w.ck.job = j) ∧ (i < chunkCount s.w.ck.srcs) ∧ (i ∉ s.w.ck.done) ∧ ((s.chan (96 + i % 16)).state = 0) ∧ ((∀ p ∈ chunkParts s.w.ck.srcs i, partFree s j p = true)) ∧ (s0 = forAll (chunkParts s.w.ck.srcs i) (partTouch j) (s.modXing xHost (Xing.pass 1))) ∧ ((∀ p ∈ chunkParts s.w.ck.srcs i, partBad s0 j p = none)) ∧ (s.w.ck.again = false) ∧ (s.w.ck.group ≤ 1) ∧ (s.w.ck.comp = false) ∧ (bs = streamRead s0 (chunkBytes * i) (chunkLen s.w.ck.srcs i)) ∧ (jobWrite s0 j (fld s.w.ck.desc 16 8 + chunkBytes * i) bs = (none, s1)) ∧ (jobWrite s1 j (fld s.w.ck.desc 32 8 + 64 * i) (progressRec 1 bs.length (chunkBytes * i) (leafDigest bs) (myIndex s)) = (none, s2))) ∧
    (∃ (j : Nat) (i : Nat) (s : State), (s.ctl.clk.frozen = false) ∧ (s.w.ck.state ≠ 1 ∨ s.w.ck.armed = false ∨ s.w.ck.job ≠ j ∨ chunkCount s.w.ck.srcs ≤ i ∨ i ∈ s.w.ck.done)) ∧
    (∃ (j : Nat) (handle : Nat) (g : Nat) (x : Sect) (s : State), (s.ctl.clk.frozen = false) ∧ (s.w.ck.srcs.find? (fun x => x.kind != 2 && (keySide x.key).1 = handle && decide (65536 * g < x.bytes)) = some x) ∧ (s.w.ck.armed = true) ∧ (s.w.ck.job = j) ∧ (x.key / 65536 + g ∉ s.w.ck.copied)) ∧
    (∃ (j : Nat) (s : State), (s.ctl.clk.frozen = false) ∧ (s.w.ck.armed = false ∨ s.w.ck.job ≠ j ∨ s.w.ck.srcs = [])) ∧
    (∃ (h : Hdr) (addr : Nat) (gen : Nat) (c : Nat) (hd : Bytes) (recs : Bytes) (t : SetImg) (l : List Sect) (xs : List Bytes) (s : State), (Ready 0x0502 h s) ∧ (pktRead (counted h s) h.job (slotAddr addr gen) 256 = .ok hd) ∧ (pktRead (counted h s) h.job (slotAddr addr gen + 256) (128 * fld hd 6 2) = .ok recs) ∧ (slotValid hd recs = true) ∧ (fld hd 8 4 = gen) ∧ (s.w.topo.jobPlan = none) ∧ ([fld hd 6 2, fld hd 24 1, fld hd 25 1, fld hd 26 1] = [1, 1, 1, 1]) ∧ ((s.job h.job).cur = some t) ∧ (t.digest = fld hd 32 32) ∧ ((s.job h.job).run = none) ∧ ((s.job h.job).waiting = []) ∧ (s.w.ck.state = 0) ∧ (s.w.ck.gen = 0) ∧ (c = fld hd 16 8) ∧ (l = shardSects (counted h s) h.job c) ∧ (restoreChunks (counted h s) h.job 0 recs l (List.range (chunkCount l)) = .ok xs) ∧ (rootDigest (xs.map leafDigest) = (recs.drop 56).take 32)) ∧
    (∃ (h : Hdr) (addr : Nat) (gen : Nat) (hd : Bytes) (recs : Bytes) (t : SetImg) (s : State), (Ready 0x0502 h s) ∧ (pktRead (counted h s) h.job (slotAddr addr gen) 256 = .ok hd) ∧ (pktRead (counted h s) h.job (slotAddr addr gen + 256) (128 * fld hd 6 2) = .ok recs) ∧ (slotValid hd recs = true) ∧ (fld hd 8 4 = gen) ∧ (s.w.topo.jobPlan = none) ∧ ([fld hd 6 2, fld hd 24 1, fld hd 25 1, fld hd 26 1] = [1, 1, 1, 1]) ∧ ((s.job h.job).cur = some t) ∧ (t.digest = fld hd 32 32) ∧ ((s.job h.job).run ≠ none)) ∧
    (∃ (h : Hdr) (addr : Nat) (gen : Nat) (hd : Bytes) (recs : Bytes) (s : State), (Ready 0x0502 h s) ∧ (pktRead (counted h s) h.job (slotAddr addr gen) 256 = .ok hd) ∧ (pktRead (counted h s) h.job (slotAddr addr gen + 256) (128 * fld hd 6 2) = .ok recs) ∧ (slotValid hd recs = false ∨ fld hd 8 4 ≠ gen)) :=
  ⟨⟨h1, 0x14000, 2, desc 0 8192, descAt (desc 0 8192) mem, by unfold Ready; decide +kernel⟩,
    ⟨h1, 0x14000, 2, desc 0 0, descAt (desc 0 0) mem, by unfold Ready; decide +kernel⟩,
    ⟨h1, 0x14000, 2, desc 0 8192, ck { job := 1, gen := 2, state := 2 } (descAt (desc 0 8192) mem), by unfold Ready; decide +kernel⟩,
    ⟨h1, 0x14000, 0, desc 0 8192, descAt (desc 0 8192) mem, by unfold Ready; decide +kernel⟩,
    ⟨h1, 0x14000, 0, zeros 64, mem, by unfold Ready; decide +kernel⟩,
    ⟨h1, 0x14000, 2, desc 1 8192, slotHd, recs0, ck { digests := [(2, leaf0)] } (descAt (desc 1 8192) slotted), by unfold Ready; and_intros <;> first | decide +kernel⟩,
    ⟨h1, 0x14000, 2, desc 1 8192, zeros 256, [], descAt (desc 1 8192) mem, by unfold Ready; and_intros <;> first | decide +kernel⟩,
    ⟨1, 0, _, writing, _, _, _, by and_intros <;> first | decide +kernel | exact none_of (by decide +kernel) | rfl⟩,
    ⟨1, 0, up, by decide +kernel⟩,
    ⟨1, 1, 0, { key := 2 ^ 49, bytes := 65536 }, ck { armed := true, job := 1, srcs := [{ key := 2 ^ 49, bytes := 65536 }] } mem, by decide +kernel⟩,
    ⟨1, up, by decide +kernel⟩,
    ⟨h1, 0x10000, 2, 0, slotHd, recs0, { digest := 0x55 }, _, [zeros 4096], slotted, by unfold Ready; refine ⟨?_, ?_, ?_, ?_, ?_, ?_, ?_, ?_, ?_, ?_, ?_, ?_, ?_, ?_, rfl, restored_slot, root_slot⟩ <;> decide +kernel⟩,
    ⟨h1, 0x10000, 2, slotHd, recs0, { digest := 0x55 }, stepping {} slotted, by unfold Ready; and_intros <;> first | decide +kernel⟩,
    ⟨h1, 0x10000, 2, zeros 256, [], mem, by unfold Ready; and_intros <;> first | decide +kernel⟩⟩

/-- Values that meet the hypotheses of `Obligations.CommonChecksComeFirst`, clause by clause. -/
theorem witness_CommonChecksComeFirst :
    (∃ (c : Instr) (op : Nat) (st : Nat) (d : Nat) (u : Nat) (h : Hdr) (s : State), (Sys2Proof.Claims.heading c = some (op, h)) ∧ (commonFail (counted h s) op h = some (st, d, u))) ∧
    (∃ (c : Instr) (op : Nat) (h : Hdr) (s : State), (Sys2Proof.Claims.heading c = some (op, h)) ∧ (s.ctl.health.sentOff = true) ∧ (¬ (h.q = 0 ∧ (op = 0x0801 ∨ op = 0x0804)))) ∧
    (∃ (c : Instr) (op : Nat) (h : Hdr) (s : State), 
    let breaks : Prop := (h.q ≠ 0 ∧ h.job ≠ (s.queue h.q).job) ∨ (h.q = 0 ∧ h.job ≠ 0xFFFF ∧ 64 ≤ h.job) ∨ (opNeedsJob op = true ∧ s.live h.job = false) ∨ (op = 0x0102 ∧ h.job = 0xFFFF)
    (Sys2Proof.Claims.heading c = some (op, h)) ∧ (s.ctl.health.sentOff = false) ∧ ((h.q ≠ 0 → opQ op ≠ 0)) ∧ ((h.q = 0 → opQ op = 1 → h.job ≠ 0xFFFF)) ∧ (breaks)) ∧
    (∃ (c : Instr) (op : Nat) (h : Hdr) (s : State), 
    let breaks : Prop := (h.q ≠ 0 ∧ h.job ≠ (s.queue h.q).job) ∨ (h.q = 0 ∧ h.job ≠ 0xFFFF ∧ 64 ≤ h.job) ∨ (opNeedsJob op = true ∧ s.live h.job = false) ∨ (op = 0x0102 ∧ h.job = 0xFFFF)
    (Sys2Proof.Claims.heading c = some (op, h)) ∧ (s.ctl.health.sentOff = false) ∧ ((h.q ≠ 0 → opQ op ≠ 0)) ∧ ((h.q = 0 → opQ op = 1 → h.job ≠ 0xFFFF)) ∧ (¬ breaks)) :=
  ⟨⟨.nop h0, 1, 144, 0, 255, h0, sentOff, by decide +kernel⟩,
    ⟨.nop h0, 1, h0, sentOff, by decide +kernel⟩,
    ⟨.jobDestroy h0, 0x0102, h0, up, by dsimp only; decide +kernel⟩,
    ⟨.nop h0, 1, h0, up, by dsimp only; decide +kernel⟩⟩

/-- Values that meet the hypotheses of `Obligations.MirrorNeedsTierThree`, clause by clause. -/
theorem witness_MirrorNeedsTierThree :
    ∃ (h : Hdr) (node : Nat) (s : State), (Ready 0x0503 h s) ∧ (partnerUp s node = true) ∧ ((s.w.topo.jobPlan = none ∨ ∃ e, myPlace s = some e ∧ standing s e.partner = node)) ∧ (sumNat (s.w.cxl.map (fun e => e.2.mapped)) < 512) :=
  ⟨h0, 8, partner up, by unfold Ready; decide +kernel⟩

/-- Values that meet the hypotheses of `Obligations.SettingsStayInRange`, clause by clause. -/
theorem witness_SettingsStayInRange :
    ∃ (s : State) (t : State), (s.cfg.ranged = true) ∧ (step s = .next t) :=
  ⟨State.reset, State.reset, by decide +kernel, rfl⟩

/-- Values that meet the hypotheses of `Obligations.PacketsAreReadAsWritten`, clause by clause. -/
theorem witness_PacketsAreReadAsWritten :
    (∃ (c : Instr) (b : Bytes), (WellFormed c = true) ∧ (encodePacket c = some b) ∧ ((∀ h addr gen, c ≠ .ckptCommitNotice h addr gen))) ∧
    (∃ (h : Hdr) (addr : Nat) (gen : Nat) (b : Bytes), (WellFormed (.ckptCommitNotice h addr gen) = true) ∧ (encodePacket (.ckptCommitNotice h addr gen) = some b)) ∧
    (∃ (q : Nat) (b : Bytes) (c : Instr), (decodePacket q b = some c)) :=
  ⟨⟨.nop h0, _, by decide +kernel, rfl, fun _ _ _ => nofun⟩,
    ⟨h1, 0, 0, _, by decide +kernel, rfl⟩,
    ⟨0, (encodePacket (.nop h0)).getD [], .nop h0, by decide +kernel⟩⟩

end Sys2Proof.Tests
end

section
/-! The masks of `exec` (R280, R564): every command runs under `onWorld`, `onCore` or `onAll`, and each of them answers a next
state with the queue of waiting commands as it was. -/

namespace Sys2Proof.Machine

open Sys2Proof

/-- Settles O1: `step` is a match on the queue, and no word of the command table spells a command. -/
theorem stepRunsTheFrontCommand : Obligations.StepRunsTheFrontCommand := by
  refine ⟨fun _ _ _ => rfl, fun s hq hr => ?_, fun s hq hr => ?_, fun _ _ _ => rfl⟩
  · have stands : idle s = s := by unfold idle; rw [hr]; rfl
    simp [step, hq, stands]
  · simp [step, idle, hq, hr, wrapAdd]

/-- Settles O2: whichever mask a command runs under, it answers a next state and takes no part of the queue. -/
theorem commandsNeverTouchTheQueueNorStop : Obligations.CommandsNeverTouchTheQueueNorStop := by
  intro c s
  cases c <;> exact ⟨_, rfl, rfl⟩

end Sys2Proof.Machine
end

section
/-! What is left alone by the shared operations that change more than the log: the ones here change the world and neither the
settings, the control state nor the queue. -/

namespace Sys2Proof.Machine

open Sys2Proof

/-- `t` differs from `s` at most in the world. -/
def OnlyWorld (s t : State) : Prop := t = { s with w := t.w }

namespace OnlyWorld

variable {s t u : State}

theorem refl (s : State) : OnlyWorld s s := rfl

theorem trans (h : OnlyWorld s t) (k : OnlyWorld t u) : OnlyWorld s u := by
  unfold OnlyWorld at *
  rw [k, h]

theorem cfg (h : OnlyWorld s t) : t.cfg = s.cfg := by rw [h]
theorem ctl (h : OnlyWorld s t) : t.ctl = s.ctl := by rw [h]

theorem ite {p : Prop} [Decidable p] (h : OnlyWorld s t) (k : OnlyWorld s u) : OnlyWorld s (if p then t else u) := by
  split
  · exact h
  · exact k

theorem onW (s : State) (f : World → World) : OnlyWorld s (s.onW f) := rfl
theorem modLink (s : State) (l : Nat) (f : Lk → Lk) : OnlyWorld s (s.modLink l f) := rfl

theorem forAll {α : Type} (l : List α) (f : α → State → State) (hf : ∀ x s, OnlyWorld s (f x s)) (s : State) :
    OnlyWorld s (forAll l f s) := by
  unfold Machine.forAll
  induction l generalizing s with
  | nil => exact refl s
  | cons x r ih => exact (hf x s).trans (ih _)

end OnlyWorld

theorem OnlyLog.world {s t : State} (h : OnlyLog s t) : OnlyWorld s t := by
  unfold OnlyWorld; unfold OnlyLog at h; rw [h]

theorem onlyWorld_flt (cls unit job step : Nat) (loc : Loc) (s : State) : OnlyWorld s (flt cls unit job step loc s) :=
  (onlyLog_flt _ _ _ _ _ _).world

/-! ### Ports and links (R334, R337, R348) -/

theorem onlyWorld_refreshPorts (s : State) : OnlyWorld s (refreshPorts s) := by
  unfold refreshPorts
  refine (OnlyWorld.forAll _ _ (fun k s => ?_) s).trans (OnlyWorld.forAll _ _ (fun l s => OnlyWorld.modLink s l _) _)
  exact .ite ((OnlyWorld.onW s _).trans (onlyWorld_flt _ _ _ _ _ _))
    (.ite ((OnlyWorld.onW s _).trans (onlyWorld_flt _ _ _ _ _ _)) (OnlyWorld.onW s _))

theorem onlyWorld_refreshDetours (s : State) : OnlyWorld s (refreshDetours s) := by
  unfold refreshDetours
  refine OnlyWorld.forAll _ _ (fun k s => .ite (.refl s) (.ite ?_ (.ite ?_ (.refl s)))) s
  · split
    · exact .ite (.refl s) ((OnlyWorld.onW s _).trans (onlyWorld_flt _ _ _ _ _ _))
    · exact .refl s
  · exact (OnlyWorld.onW s _).trans (onlyWorld_flt _ _ _ _ _ _)

theorem onlyWorld_relink (s : State) : OnlyWorld s (relink s) :=
  (onlyWorld_refreshPorts s).trans (onlyWorld_refreshDetours _)

theorem onlyWorld_linkDown (l cause : Nat) (s : State) : OnlyWorld s (linkDown l cause s) := by
  unfold linkDown
  have logged : ∀ (s1 : State) (loc : Loc), OnlyWorld s s1 → OnlyWorld s (flt 0x3102 (0x30 + l) 0xFF 0 loc s1) :=
    fun _ _ h => h.trans (onlyWorld_flt _ _ _ _ _ _)
  refine (OnlyWorld.ite (OnlyWorld.trans ?_ (onlyLog_benchAdvice _ _ _).world) ?_).trans (onlyWorld_relink _)
  · exact logged _ _ (OnlyWorld.modLink s l _)
  · exact logged _ _ (OnlyWorld.modLink s l _)

theorem onlyWorld_wakeLinks (s : State) : OnlyWorld s (wakeLinks s) :=
  OnlyWorld.forAll _ _ (fun l s => .ite (OnlyWorld.modLink s l _) (.refl s)) s

/-! ### The end of foul mode (R496, R539) -/

theorem onlyWorld_disarmFoul (s : State) : OnlyWorld s (disarmFoul s) :=
  .ite (.refl s) ((OnlyWorld.onW s _).trans (onlyWorld_flt _ _ _ _ _ _))

theorem onlyWorld_endFoulAuth (s : State) : OnlyWorld s (endFoulAuth s) :=
  .ite (.refl s) (((OnlyWorld.onW s _).trans (onlyWorld_disarmFoul _)).trans (onlyWorld_flt _ _ _ _ _ _))

end Sys2Proof.Machine
end

section
/-! The ranges of the settings (R40, R52, R260, R269, R303, R356, R357, R385, R416, R454, R464, R489), field by field, and what a
change of one setting must show to keep them all. -/

namespace Sys2Proof.Machine

open Sys2Proof

/-- The settings of a die lie in the ranges of R40. -/
def DieCfg.ranged (d : DieCfg) : Bool := within 100 10000 d.windowUs && within 5 200 d.driftTenths && within 1 255 d.persist

/-- The settings of a link lie in the ranges of R356. -/
def LkCfg.ranged (k : LkCfg) : Bool := within 1 65535 k.retryThr && within 1 15 k.trainFail

/-- `Cfg.ranged` with a name for each range. -/
structure Cfg.Ranged (c : Cfg) : Prop where
  escLimit : within 1 15 c.escLimit = true
  escWindowS : within 60 65535 c.escWindowS = true
  qwdBudget : c.qwdBudget.all (fun e => within 1000 600000 e.2) = true
  settleUs : within 1000 500000 c.settleUs = true
  die : c.die.all (fun e => e.2.ranged) = true
  lk : c.lk.all (fun e => e.2.ranged) = true
  lostMs : within 5 40 c.lostMs = true
  deadUs : within 20 1000 c.deadUs = true
  huddleMs : within 50 5000 c.huddleMs = true
  slowMs : within 1 10000 c.slowMs = true
  rotPeriod : within 8 4096 c.rotPeriod = true
  depth : within 2 8 c.depth = true
  ckCeThr : within 1 65535 c.ckCeThr = true
  ckWindowMin : within 1 60 c.ckWindowMin = true
  ckTjMarginC : within 1 20 c.ckTjMarginC = true
  mrWarn : within 50 95 c.mrWarn = true
  mrPendGib : within 4 64 c.mrPendGib = true
  seWarn : c.seWarn.all (fun e => within 50 95 e.2) = true
  sideSev : within 1 3 c.sideSev = true
  provSev : within 1 3 c.provSev = true
  w0 : within 1 255 c.w0 = true
  w1 : within 1 255 c.w1 = true
  w2 : within 1 255 c.w2 = true
  w3 : within 1 255 c.w3 = true
  priTimeoutMs : within 10 60000 c.priTimeoutMs = true

theorem Cfg.ranged_iff (c : Cfg) : c.ranged = true ↔ c.Ranged := by
  simp only [Cfg.ranged, Bool.and_eq_true, and_assoc]
  constructor
  · intro ⟨escLimit, escWindowS, qwdBudget, settleUs, die, lk, lostMs, deadUs, huddleMs, slowMs, rotPeriod, depth, ckCeThr,
      ckWindowMin, ckTjMarginC, mrWarn, mrPendGib, seWarn, sideSev, provSev, w0, w1, w2, w3, priTimeoutMs⟩
    exact ⟨escLimit, escWindowS, qwdBudget, settleUs, die, lk, lostMs, deadUs, huddleMs, slowMs, rotPeriod, depth, ckCeThr,
      ckWindowMin, ckTjMarginC, mrWarn, mrPendGib, seWarn, sideSev, provSev, w0, w1, w2, w3, priTimeoutMs⟩
  · intro h
    exact ⟨h.escLimit, h.escWindowS, h.qwdBudget, h.settleUs, h.die, h.lk, h.lostMs, h.deadUs, h.huddleMs, h.slowMs,
      h.rotPeriod, h.depth, h.ckCeThr, h.ckWindowMin, h.ckTjMarginC, h.mrWarn, h.mrPendGib, h.seWarn, h.sideSev,
      h.provSev, h.w0, h.w1, h.w2, h.w3, h.priTimeoutMs⟩

/-- The settings at their reset values are in range. -/
theorem Cfg.ranged_default : Cfg.Ranged {} := (Cfg.ranged_iff _).mp (by decide)

/-! ### Fields and tables of fields -/

/-- A field that takes only values of its range stays in it (R564). -/
theorem within_pick {lo hi v old : Nat} (h : within lo hi old = true) : within lo hi (pick lo hi v old) = true := by
  unfold pick
  split
  · simp_all [within]
  · exact h

theorem DieCfg.ranged_iff {d : DieCfg} :
    d.ranged = true ↔ within 100 10000 d.windowUs = true ∧ within 5 200 d.driftTenths = true ∧ within 1 255 d.persist = true := by
  simp [DieCfg.ranged, and_assoc]

theorem LkCfg.ranged_iff {k : LkCfg} : k.ranged = true ↔ within 1 65535 k.retryThr = true ∧ within 1 15 k.trainFail = true := by
  simp [LkCfg.ranged]

section tables

variable {α : Type} {d : α} {t : Tab α} {p : α → Bool}

/-- What holds of the default and of every listed entry holds of whatever entry is read. -/
theorem tget_of_all (k : Nat) (hd : p d = true) (ht : t.all (fun e => p e.2) = true) : p (tget d t k) = true := by
  induction t with
  | nil => exact hd
  | cons e r ih =>
    obtain ⟨k', v⟩ := e
    simp only [List.all_cons, Bool.and_eq_true] at ht
    unfold tget
    split
    · exact ht.1
    · exact ih ht.2

theorem all_tput [DecidableEq α] (k : Nat) {v : α} (hv : p v = true) (ht : t.all (fun e => p e.2) = true) :
    (tput d t k v).all (fun e => p e.2) = true := by
  induction t with
  | nil => unfold tput; split <;> simp [hv]
  | cons e r ih =>
    obtain ⟨k', v'⟩ := e
    simp only [List.all_cons, Bool.and_eq_true] at ht
    obtain ⟨he, hr⟩ := ht
    unfold tput
    split
    · split <;> simp [hv, he, hr]
    · split
      · split <;> simp [hv, hr]
      · simp [he, ih hr]

/-- A table keeps what holds of all its entries when an entry is changed to one of which it holds again. -/
theorem all_tmod [DecidableEq α] (k : Nat) {f : α → α} (hd : p d = true) (hf : ∀ v, p v = true → p (f v) = true)
    (ht : t.all (fun e => p e.2) = true) : (tmod d t k f).all (fun e => p e.2) = true :=
  all_tput k (hf _ (tget_of_all k hd ht)) ht

/-- A table of ranged numbers takes only values of the range. -/
theorem all_tput_pick {lo hi v old : Nat} {t : Tab Nat} (k : Nat) (hd : within lo hi old = true)
    (ht : t.all (fun e => within lo hi e.2) = true) :
    (tput old t k (pick lo hi v (tget old t k))).all (fun e => within lo hi e.2) = true :=
  all_tput k (within_pick (tget_of_all (p := within lo hi) k hd ht)) ht

end tables

/-- A change of a die's settings that keeps them in range keeps all settings in range. -/
theorem Cfg.Ranged.modDie {c : Cfg} (h : c.Ranged) (d : Nat) {f : DieCfg → DieCfg} (hf : ∀ x : DieCfg, x.ranged = true → (f x).ranged = true) :
    Cfg.Ranged { c with die := tmod {} c.die d f } :=
  { h with die := all_tmod (p := DieCfg.ranged) d (by decide) hf h.die }

/-- The same of a link's settings. -/
theorem Cfg.Ranged.modLk {c : Cfg} (h : c.Ranged) (l : Nat) {f : LkCfg → LkCfg} (hf : ∀ x : LkCfg, x.ranged = true → (f x).ranged = true) :
    Cfg.Ranged { c with lk := tmod {} c.lk l f } :=
  { h with lk := all_tmod (p := LkCfg.ranged) l (by decide) hf h.lk }

end Sys2Proof.Machine
end

section
/-! What a register write keeps (R11, R62, R564): block by block of BAR0, no write reaches UNIT_EN, the identity store, the
management bus, the survival record, the module's phase or its sending off, and every setting stays in its range. -/

namespace Sys2Proof.Machine

open Sys2Proof

/-- What stands through every register write from `s` to `t`. -/
structure RegKeeps (s t : State) : Prop where
  unitEn : t.ctl.unitEn = s.ctl.unitEn
  ident : t.ctl.ident = s.ctl.ident
  mctp : t.ctl.mctp = s.ctl.mctp
  surv : t.ctl.surv = s.ctl.surv
  phase : t.ctl.power.phase = s.ctl.power.phase
  sentOff : t.ctl.health.sentOff = s.ctl.health.sentOff
  ranged : s.cfg.Ranged → t.cfg.Ranged

namespace RegKeeps

variable {s t u : State}

theorem refl (s : State) : RegKeeps s s := ⟨rfl, rfl, rfl, rfl, rfl, rfl, id⟩

theorem trans (h : RegKeeps s t) (k : RegKeeps t u) : RegKeeps s u :=
  ⟨k.unitEn.trans h.unitEn, k.ident.trans h.ident, k.mctp.trans h.mctp, k.surv.trans h.surv, k.phase.trans h.phase,
    k.sentOff.trans h.sentOff, fun c => k.ranged (h.ranged c)⟩

theorem ite {p : Prop} [Decidable p] (h : RegKeeps s t) (k : RegKeeps s u) : RegKeeps s (if p then t else u) := by
  split
  · exact h
  · exact k

/-- One change, and where a condition holds another one after it. -/
theorem andThenIf {p : Prop} [Decidable p] (h : RegKeeps s t) (k : RegKeeps t u) : RegKeeps s (if p then u else t) :=
  .ite (h.trans k) h

/-- A change of the world keeps them. -/
theorem world (s : State) (w : World) : RegKeeps s { s with w := w } := ⟨rfl, rfl, rfl, rfl, rfl, rfl, id⟩

theorem of_onlyWorld (h : OnlyWorld s t) : RegKeeps s t := by
  rw [h]
  exact world s t.w

theorem modCfg (s : State) {f : Cfg → Cfg} (h : s.cfg.Ranged → (f s.cfg).Ranged) : RegKeeps s (s.modCfg f) :=
  ⟨rfl, rfl, rfl, rfl, rfl, rfl, h⟩

theorem modPower (s : State) {f : Power → Power} (h : (f s.ctl.power).phase = s.ctl.power.phase) : RegKeeps s (s.modPower f) :=
  ⟨rfl, rfl, rfl, rfl, h, rfl, id⟩

theorem modHealth (s : State) {f : Health → Health} (h : (f s.ctl.health).sentOff = s.ctl.health.sentOff) : RegKeeps s (s.modHealth f) :=
  ⟨rfl, rfl, rfl, rfl, rfl, h, id⟩

theorem modClk (s : State) (f : Clk → Clk) : RegKeeps s (s.modClk f) := ⟨rfl, rfl, rfl, rfl, rfl, rfl, id⟩

variable {f : Nat → State → State}

theorem onLo (w : Wr) (h : ∀ v s, RegKeeps s (f v s)) (s : State) : RegKeeps s (w.onLo f s) := by
  unfold Wr.onLo
  split
  · exact h _ s
  · exact refl s

theorem onHi (w : Wr) (h : ∀ v s, RegKeeps s (f v s)) (s : State) : RegKeeps s (w.onHi f s) := by
  unfold Wr.onHi
  split
  · exact h _ s
  · exact refl s

theorem on64 (w : Wr) (now : Nat) (h : ∀ v s, RegKeeps s (f v s)) (s : State) : RegKeeps s (w.on64 now f s) := h _ s

end RegKeeps

/-! ### Blocks without a unit -/

variable (o : Nat) (w : Wr) (s : State)

theorem regKeeps_healthReg : RegKeeps s (healthReg o w s) := by
  unfold healthReg
  refine .ite (.onLo w (fun v s => ?_) s) (.ite (.onLo w (fun v s => ?_) s) (.refl s))
  · exact .modCfg s fun h => { h with escLimit := within_pick h.escLimit, escWindowS := within_pick h.escWindowS }
  · refine .andThenIf ?_ (.modHealth _ rfl)
    exact .modCfg s fun h => { h with qwdBudget := all_tput_pick _ (by decide) h.qwdBudget }

theorem regKeeps_powerReg : RegKeeps s (powerReg o w s) := by
  unfold powerReg
  refine .ite (.onLo w (fun v s => .modPower s rfl) s) (.ite (.onLo w (fun v s => ?_) s)
    (.ite (.onLo w (fun v s => ?_) s) (.ite (.onLo w (fun v s => ?_) s) (.refl s))))
  · exact RegKeeps.trans (.modCfg s fun h => { h with }) (.modPower _ rfl)
  · exact .modCfg s fun h => { h with }
  · exact .modCfg s fun h => { h with }

theorem regKeeps_clockReg : RegKeeps s (clockReg o w s) := by
  unfold clockReg
  refine .ite (.onLo w (fun v s => ?_) s) (.ite (.onLo w (fun v s => ?_) s) (.ite (.on64 w _ (fun v s => .modClk s _) s) (.refl s)))
  · exact .modCfg s fun h => { h with settleUs := within_pick h.settleUs }
  · exact .ite (.modClk s _) (.refl s)

theorem regKeeps_eventReg : RegKeeps s (eventReg o w s) := by
  unfold eventReg
  refine .ite (.on64 w _ (fun v s => .ite (.refl s) (.world s _)) s) (.ite (.onLo w (fun v s => .world s _) s)
    (.ite (.onLo w (fun v s => ?_) s) (.ite (.onLo w (fun v s => .world s _) s) (.refl s))))
  exact .modCfg s fun h => { h with }

theorem regKeeps_faultReg : RegKeeps s (faultReg o w s) := by
  unfold faultReg
  refine .ite (.onLo w (fun v s => ?_) s) (.ite (.onLo w (fun v s => ?_) s) (.ite ?_ (.ite (.onLo w (fun v s => ?_) s) (.ite ?_
    (.ite (.on64 w _ (fun v s => .world s _) s) (.ite (.on64 w _ (fun v s => .world s _) s) (.ite (.on64 w _ (fun v s => .world s _) s)
    (.ite (.onLo w (fun v s => .world s _) s) (.ite (.on64 w _ (fun v s => .world s _) s) (.ite (.onLo w (fun v s => ?_) s) (.refl s)))))))))))
  · exact .modCfg s fun h => { h with }
  · exact .modCfg s fun h => { h with sideSev := within_pick h.sideSev }
  · exact RegKeeps.trans (.onLo w (fun v s => .world s _) s) (.onHi w (fun v s => .world s _) _)
  · exact .andThenIf (.ite (.world s _) (.refl s)) (.world _ _)
  · exact RegKeeps.trans (.onLo w (fun v s => .world s _) s) (.onHi w (fun v s => .world s _) _)
  · exact .ite (.world s _) (.refl s)

theorem regKeeps_topoReg : RegKeeps s (topoReg o w s) := by
  unfold topoReg
  refine .ite (.onLo w (fun v s => ?_) s) (.ite (.onHi w (fun v s => .world s _) s) (.refl s))
  exact .modCfg s fun h => { h with lostMs := within_pick h.lostMs, deadUs := within_pick h.deadUs }

theorem regKeeps_msixReg : RegKeeps s (msixReg o w s) := by
  unfold msixReg
  refine .ite (.on64 w _ (fun v s => .world s _) s) (RegKeeps.trans (.onLo w (fun v s => .world s _) s) (.onHi w (fun v s => ?_) _))
  exact .ite (RegKeeps.trans (.world s _) (.of_onlyWorld (onlyLog_fireVector _ _).world)) (.world s _)

/-! ### Blocks of units -/

theorem regKeeps_mmuReg : RegKeeps s (mmuReg o w s) := by
  unfold mmuReg
  refine .ite (.onLo w (fun v s => ?_) s) (.ite (.ite ?_ (.on64 w _ (fun v s => .world s _) s))
    (.ite (.on64 w _ (fun v s => .ite (.world s _) (.refl s)) s) (.refl s)))
  · exact .modCfg s fun h => { h with priTimeoutMs := within_pick h.priTimeoutMs }
  · exact RegKeeps.trans (.onLo w (fun v s => .world s _) s) (.onHi w (fun v s => .world s _) _)

theorem regKeeps_qctxReg : RegKeeps s (qctxReg o w s) := by
  unfold qctxReg
  exact .ite (.on64 w _ (fun v s => .ite (.world s _) (.refl s)) s) (.ite (.on64 w _ (fun v s => .ite (.world s _) (.refl s)) s)
    (.ite (.on64 w _ (fun v s => .world s _) s) (.refl s)))

theorem regKeeps_qarbReg : RegKeeps s (qarbReg o w s) := by
  unfold qarbReg
  refine .ite (.onLo w (fun v s => ?_) s) (.refl s)
  exact .modCfg s fun h => { h with w0 := within_pick h.w0, w1 := within_pick h.w1, w2 := within_pick h.w2, w3 := within_pick h.w3 }

theorem regKeeps_stackReg (st : Nat) : RegKeeps s (stackReg st o w s) := by
  unfold stackReg
  refine .ite (.onLo w (fun v s => ?_) s) (.ite (.onLo w (fun v s => .ite ?_ (.refl s)) s) (.ite (.onLo w (fun v s => .world s _) s) (.refl s)))
  · exact .modCfg s fun h => { h with }
  · exact .modCfg s fun h => { h with }

theorem regKeeps_linkReg (l : Nat) : RegKeeps s (linkReg l o w s) := by
  unfold linkReg
  refine .ite (RegKeeps.trans (.onLo w (fun v s => ?_) s) (.onHi w (fun v s => .ite (.world s _) (.refl s)) _)) (.refl s)
  refine .modCfg s fun h => h.modLk l fun k hk => ?_
  obtain ⟨retryThr, trainFail⟩ := LkCfg.ranged_iff.mp hk
  exact LkCfg.ranged_iff.mpr ⟨within_pick retryThr, within_pick trainFail⟩

theorem regKeeps_reelReg : RegKeeps s (reelReg o w s) := by
  unfold reelReg
  refine .ite (.onLo w (fun v s => ?_) s) (.refl s)
  exact .modCfg s fun h => { h with huddleMs := within_pick h.huddleMs, slowMs := within_pick h.slowMs }

theorem regKeeps_arrayReg (d : Nat) : RegKeeps s (arrayReg d o w s) := by
  unfold arrayReg
  refine .ite (RegKeeps.trans (.onLo w (fun v s => ?_) s) (.onHi w (fun v s => ?_) _)) (.ite (.onLo w (fun v s => ?_) s)
    (.ite (RegKeeps.trans (.onLo w (fun v s => .ite (.world s _) (.refl s)) s) (.onHi w (fun v s => .ite (.world s _) (.refl s)) _))
    (.ite (.onLo w (fun v s => ?_) s) (.refl s))))
  · exact .modCfg s fun h => h.modDie d fun x hx => hx
  · refine .modCfg s fun h => h.modDie d fun x hx => ?_
    obtain ⟨windowUs, rest⟩ := DieCfg.ranged_iff.mp hx
    exact DieCfg.ranged_iff.mpr ⟨within_pick windowUs, rest⟩
  · refine .modCfg s fun h => h.modDie d fun x hx => ?_
    obtain ⟨windowUs, driftTenths, persist⟩ := DieCfg.ranged_iff.mp hx
    exact DieCfg.ranged_iff.mpr ⟨windowUs, within_pick driftTenths, within_pick persist⟩
  · exact .modCfg s fun h => { h with seWarn := all_tput_pick _ (by decide) h.seWarn }

theorem regKeeps_umpireReg : RegKeeps s (umpireReg o w s) := by
  unfold umpireReg
  refine .ite (.onLo w (fun v s => ?_) s) (.refl s)
  exact .modCfg s fun h => { h with rotPeriod := within_pick h.rotPeriod, depth := within_pick h.depth }

theorem regKeeps_ckptReg : RegKeeps s (ckptReg o w s) := by
  unfold ckptReg
  refine .ite (.onLo w (fun v s => ?_) s) (.refl s)
  exact .modCfg s fun h =>
    { h with ckCeThr := within_pick h.ckCeThr, ckWindowMin := within_pick h.ckWindowMin, ckTjMarginC := within_pick h.ckTjMarginC }

theorem regKeeps_mirrorReg : RegKeeps s (mirrorReg o w s) := by
  unfold mirrorReg
  refine .ite (.onLo w (fun v s => ?_) s) (.refl s)
  refine .andThenIf ?_ (.world _ _)
  exact .modCfg s fun h => { h with mrWarn := within_pick h.mrWarn, mrPendGib := within_pick h.mrPendGib }

/-! ### The map of BAR0 -/

theorem regKeeps_slotWrite (off : Nat) : RegKeeps s (slotWrite off w s) := by
  unfold slotWrite
  exact .ite (regKeeps_healthReg _ w s) <| .ite (regKeeps_powerReg _ w s) <| .ite (regKeeps_clockReg _ w s) <|
    .ite (regKeeps_eventReg _ w s) <| .ite (regKeeps_faultReg _ w s) <| .ite (regKeeps_mmuReg _ w s) <|
    .ite (regKeeps_qctxReg _ w s) <| .ite (regKeeps_qarbReg _ w s) <| .ite (regKeeps_stackReg _ w s _) <|
    .ite (regKeeps_linkReg _ w s _) <| .ite (regKeeps_topoReg _ w s) <| .ite (regKeeps_reelReg _ w s) <|
    .ite (regKeeps_arrayReg _ w s _) <| .ite (regKeeps_umpireReg _ w s) <| .ite (regKeeps_ckptReg _ w s) <|
    .ite (regKeeps_mirrorReg _ w s) <| .ite (regKeeps_msixReg _ w s) (.refl s)

theorem regKeeps_disabledHit (u : Nat) : RegKeeps s (disabledHit u true s) := by
  have abort : RegKeeps s (disabledOutcome u .hostWrite s) := ⟨rfl, rfl, rfl, rfl, rfl, rfl, id⟩
  exact abort.trans (.of_onlyWorld (onlyWorld_flt _ _ _ _ _ _))

theorem regKeeps_registerWrite (off width v : Nat) : RegKeeps s (registerWrite off width v s) := by
  unfold registerWrite
  refine .ite (.refl s) ?_
  split
  · exact regKeeps_slotWrite _ s _
  · exact .ite (regKeeps_slotWrite _ s _) (regKeeps_disabledHit s _)

end Sys2Proof.Machine
end

section
/-! Registers and disabled units (R11, R62-R64, R513, R564): the statement of the register writes. -/

namespace Sys2Proof.Machine

open Sys2Proof

/-- A register write answers the state its meaning makes, the queue apart. -/
theorem exec_registerWrite (off width v : Nat) (s : State) : ∃ t, exec (.registerWrite off width v) s = .next t ∧ RegKeeps s t :=
  ⟨_, rfl, { regKeeps_registerWrite s off width v with }⟩

theorem onAll_of_eq {f : State → State} {s t : State} (hf : f s = t) (hp : t.pending = s.pending) : onAll f s = .next t := by
  subst hf; rw [onAll_eq, ← hp]

/-! ### UNIT_EN's own block (R62) and the cap (R513) -/

theorem registerWrite_unitEn_block {off : Nat} (width v : Nat) (s : State) (lo : 0x4000 ≤ off) (hi : off < 0x4100) :
    registerWrite off width v s = s := by
  have none_ : windowUnit off = none := by unfold windowUnit; rw [if_pos (by omega)]
  unfold registerWrite
  rw [none_]
  split
  · rfl
  · have e : ∀ w, slotWrite (off / 8 * 8) w s = eventReg (off / 8 * 8 - 0x4000) w s := by
      intro w
      unfold slotWrite
      simp only [Bool.and_eq_true, decide_eq_true_eq]
      rw [if_neg (by omega), if_neg (by omega), if_neg (by omega), if_pos (by omega)]
    rw [e]
    unfold eventReg
    rw [if_neg (by omega), if_neg (by omega), if_neg (by omega), if_neg (by omega)]

theorem registerWrite_cap (v : Nat) (s : State) :
    registerWrite 0x2000 4 v s = s.modPower (fun p => { p with
      capW := if 900 ≤ v % 65536 ∧ v % 65536 ≤ 1200 then v % 65536 else p.capW }) := by
  have field : bits (v % 2 ^ 32) 15 0 = v % 65536 := by simp only [bits, Nat.shiftRight_zero]; omega
  have slot : registerWrite 0x2000 4 v s = s.modPower (fun p => { p with capW := pick 900 1200 (bits (v % 2 ^ 32) 15 0) p.capW }) := rfl
  rw [slot, field]
  simp [pick]

/-! ### Windows of disabled units (R64) -/

theorem registerWrite_disabled {off width u : Nat} (v : Nat) {s : State} (hw : width = 4 ∨ width = 8) (ha : off % width = 0)
    (hu : windowUnit off = some u) (hoff : s.unitOn u = false) : registerWrite off width v s = disabledAccess u .hostWrite s := by
  unfold registerWrite
  have taken : ¬(!(width = 4 || width = 8) || off % width != 0) = true := by rcases hw with rfl | rfl <;> simp [ha]
  rw [if_neg taken, hu]
  simp [hostWrite, hoff, disabledHit]

theorem disabledAccess_pending (u : Nat) (a : Access) (s : State) : (disabledAccess u a s).pending = s.pending := by
  unfold disabledAccess
  rw [(onlyLog_flt _ _ _ _ _ _).pending]
  cases a <;> rfl

theorem disabledAccess_cfg (u : Nat) (a : Access) (s : State) : (disabledAccess u a s).cfg = s.cfg := by
  unfold disabledAccess
  rw [(onlyLog_flt _ _ _ _ _ _).cfg]
  cases a <;> rfl

/-- What DISABLED_UNIT_ACCESS runs, and under which mask. -/
theorem exec_disabledUnitAccess (u : Nat) (a : Access) (s : State) :
    exec (.disabledUnitAccess u a) s = onCore (fun s => if s.unitOn u then s else disabledAccess u a s) s := rfl

theorem exec_disabledUnitAccess_off {u : Nat} (a : Access) {s : State} (hoff : s.unitOn u = false) :
    exec (.disabledUnitAccess u a) s = .next (disabledAccess u a s) := by
  rw [exec_disabledUnitAccess]
  exact onCore_of_eq (by simp [hoff]) (disabledAccess_pending u a s) (disabledAccess_cfg u a s)

theorem exec_disabledUnitAccess_on {u : Nat} (a : Access) {s : State} (hon : s.unitOn u = true) :
    exec (.disabledUnitAccess u a) s = .next s := by
  rw [exec_disabledUnitAccess]
  exact onCore_of_eq (by simp [hon]) rfl rfl

/-! ### UNIT_EN written by firmware (R63) -/

/-- UNIT_EN with register `k` written: the implemented bits of that register and no other. -/
def unitEnWith (s : State) (k v : Nat) : Nat :=
  s.ctl.unitEn % 2 ^ (32 * k) + 2 ^ (32 * k) * (v.land (unitMask k)) + 2 ^ (32 * (k + 1)) * (s.ctl.unitEn / 2 ^ (32 * (k + 1)))

/-- The links that a write of UNIT_ENk switches off. -/
def linksCleared (s : State) (k v : Nat) : List Nat :=
  (List.range 24).filter (fun l => s.unitOn (0x30 + l) && !bit (unitEnWith s k v) (0x30 + l))

/-- A link goes off with its unit (R63). -/
def linkOff (l : Nat) (s : State) : State :=
  (if (s.link l).state = 0 || (s.link l).state = 4 then s else linkDown l 7 s).modLink l (fun k => { k with state := 0 })

theorem onlyWorld_linkOff (l : Nat) (s : State) : OnlyWorld s (linkOff l s) :=
  (OnlyWorld.ite (.refl s) (onlyWorld_linkDown l 7 s)).trans (OnlyWorld.modLink _ l _)

/-- In service: the register takes its bits, the links it clears go off, and those it may train start. -/
theorem unitEnWrite_running {k v : Nat} {s : State} (hk : k < 4) (hp : s.ctl.power.phase = .run) (hf : s.ctl.ident.failed = false) :
    unitEnWrite k v s =
      (let s2 := wakeLinks (forAll (linksCleared s k v) linkOff (s.setUnits (unitEnWith s k v)))
      if (linksCleared s k v).isEmpty then s2 else relink s2) := by
  unfold unitEnWrite
  rw [if_neg (by simp [State.power, hp, hf, hk])]
  rfl

theorem onlyWorld_unitEnWrite {k v : Nat} {s : State} (hk : k < 4) (hp : s.ctl.power.phase = .run) (hf : s.ctl.ident.failed = false) :
    OnlyWorld (s.setUnits (unitEnWith s k v)) (unitEnWrite k v s) := by
  rw [unitEnWrite_running hk hp hf]
  have woken := (OnlyWorld.forAll (linksCleared s k v) linkOff onlyWorld_linkOff (s.setUnits (unitEnWith s k v))).trans (onlyWorld_wakeLinks _)
  exact .ite woken (woken.trans (onlyWorld_relink _))

/-- A loop of which no element changes the state leaves it. -/
theorem forAll_eq_self {α : Type} {l : List α} {f : α → State → State} {s : State} (h : ∀ x ∈ l, f x s = s) : forAll l f s = s := by
  unfold forAll
  induction l with
  | nil => rfl
  | cons x r ih => rw [List.foldl_cons, h x (by simp), ih (fun y hy => h y (by simp [hy]))]

theorem wakeLinks_eq_self {s : State} (h : ∀ l < 24, (s.link l).state = 0 → (s.link l).sig = false) : wakeLinks s = s := by
  refine forAll_eq_self fun l hl => if_neg ?_
  have dark := h l (List.mem_range.mp hl)
  simp only [Bool.and_eq_true, decide_eq_true_eq, not_and]
  intro ⟨hs, hsig⟩
  simp [dark hs] at hsig

theorem unitEnWrite_no_link {k v : Nat} {s : State} (hk : k < 4) (hp : s.ctl.power.phase = .run) (hf : s.ctl.ident.failed = false)
    (on : ∀ l < 24, s.unitOn (0x30 + l) = true → bit (unitEnWith s k v) (0x30 + l) = true)
    (dark : ∀ l < 24, (s.link l).state = 0 → (s.link l).sig = false) : unitEnWrite k v s = s.setUnits (unitEnWith s k v) := by
  have stay : linksCleared s k v = [] := by
    refine List.filter_eq_nil_iff.mpr fun l hl => ?_
    have := on l (List.mem_range.mp hl)
    simp only [Bool.and_eq_true, not_and, Bool.not_eq_true', Bool.not_eq_false]
    exact this
  rw [unitEnWrite_running hk hp hf, stay]
  exact wakeLinks_eq_self (s := s.setUnits _) dark

/-- Settles O24: each clause is the meaning's own equation above; the frame of REGISTER_WRITE is `RegKeeps`. -/
theorem registersTakeTheirFields : Obligations.RegistersTakeTheirFields := by
  refine ⟨fun off width v s => ?_, fun off width v s lo hi => ?_, fun v s => ?_, fun off width v u s hw ha hu hoff => ?_,
    fun u s => ⟨fun hoff => ?_, fun a hon => ?_⟩, fun k v new s hk hp hf hn => ?_, fun k v new s hk hp hf hn on dark => ?_⟩
  · obtain ⟨t, ht, keeps⟩ := exec_registerWrite off width v s
    exact ⟨t, ht, keeps.unitEn, keeps.ident, keeps.mctp, keeps.surv, keeps.phase, keeps.sentOff⟩
  · exact onAll_of_eq (registerWrite_unitEn_block width v s lo hi) rfl
  · exact onAll_of_eq (registerWrite_cap v s) rfl
  · exact ⟨onAll_of_eq (registerWrite_disabled v hw ha hu hoff) (disabledAccess_pending u .hostWrite s),
      exec_disabledUnitAccess_off .hostWrite hoff⟩
  · refine ⟨exec_disabledUnitAccess_off .hostRead hoff, fun core hc => ?_, exec_disabledUnitAccess_off .fromUnit hoff⟩
    rw [exec_disabledUnitAccess_off (.firmware core) hoff, disabledAccess, disabledOutcome, Nat.mod_eq_of_lt hc]
    rfl
  · exact exec_disabledUnitAccess_on a hon
  · subst hn
    exact ⟨_, rfl, rfl, congrArg Ctl.unitEn (onlyWorld_unitEnWrite hk hp hf).ctl⟩
  · subst hn
    exact onCore_of_eq (unitEnWrite_no_link hk hp hf on dark) rfl rfl

end Sys2Proof.Machine
end

section
/-! Settings through resets, sit-out and provisioning (R459-R461, R509, R511, R538, R551), and the step that keeps them in range. -/

namespace Sys2Proof.Machine

open Sys2Proof

section settings

variable {s : State}

theorem flt_cfg (cls unit job step : Nat) (loc : Loc) (s : State) : (flt cls unit job step loc s).cfg = s.cfg :=
  (onlyLog_flt _ _ _ _ _ _).cfg

theorem makeStale_cfg (l : List Gran) (s : State) : (makeStale l s).cfg = s.cfg := by
  unfold makeStale
  dsimp only
  split <;> rfl

/-- The settings a reset leaves are the reset values, with a severity that was provisioned (R461, R538). -/
theorem ranged_cfgAfter (h : s.cfg.Ranged) {settle : Nat} (hs : within 1000 500000 settle = true) : (cfgAfter s settle).Ranged := by
  refine { Cfg.ranged_default with settleUs := hs, sideSev := ?_, provSev := h.provSev }
  change within 1 3 (if s.w.sl.prov then s.cfg.provSev else 1) = true
  split
  · exact h.provSev
  · decide

/-- The straps choose one of four settle times, all in range (R52, R548). -/
theorem within_strap (n : Nat) :
    within 1000 500000 (if n = 0 then 1000 else if n = 1 then 5000 else if n = 2 then 20000 else 100000) = true := by
  split_ifs <;> decide

theorem ranged_powerApplied (clkSettle cxlSplit smbAddr : Nat) (slMode : Bool) (rsvd : Nat) (h : s.cfg.Ranged) :
    (powerApplied clkSettle cxlSplit smbAddr slMode rsvd s).cfg.Ranged := by
  unfold powerApplied
  dsimp only
  split
  · exact h
  · rw [((OnlyWorld.ite (onlyWorld_flt _ _ _ _ _ _) (.refl _)).trans (.ite (.refl _) (onlyWorld_flt _ _ _ _ _ _))).cfg]
    exact { h with settleUs := within_strap (clkSettle % 4) }

theorem ranged_inputTrip (cls : Nat) (h : s.cfg.Ranged) : (inputTrip cls s).cfg.Ranged := by
  unfold inputTrip
  split
  · exact h
  · exact ranged_cfgAfter (s := flt0 cls 0xFF 0xFF 0 s) (by rw [flt0, flt_cfg]; exact h) (by decide)

/-- A warm reset leaves the settings of `cfgAfter`, with the settle time as it was (R52, R461). -/
theorem warmReset_cfg (cause detail : Nat) (s : State) :
    ∃ s1, s1.cfg = s.cfg ∧ (warmReset cause detail s).cfg = cfgAfter s1 s1.cfg.settleUs :=
  ⟨_, (makeStale_cfg _ _).trans ((onlyWorld_endFoulAuth _).cfg.trans (flt_cfg _ _ _ _ _ _)), rfl⟩

theorem ranged_warmResetEvent (cause unit detail : Nat) (h : s.cfg.Ranged) : (warmResetEvent cause unit detail s).cfg.Ranged := by
  unfold warmResetEvent
  dsimp only
  split
  · exact h
  · obtain ⟨s1, same, after⟩ := warmReset_cfg cause (unit % 256 + (if cause = 5 then 256 * (detail % 262144) else 0)) s
    rw [after]
    rw [← same] at h
    exact ranged_cfgAfter h h.settleUs

theorem ranged_enterSitOut (thermal : Bool) (h : s.cfg.Ranged) : (enterSitOut thermal s).cfg.Ranged :=
  { Cfg.ranged_default with
    escLimit := h.escLimit, escWindowS := h.escWindowS, settleUs := h.settleUs, sideSev := h.sideSev, provSev := h.provSev }

theorem ranged_sitOutExit (h : s.cfg.Ranged) : (sitOutExit s).cfg.Ranged := by
  unfold sitOutExit
  split
  · exact h
  · exact { h with }

/-! ### Provisioning (R538) -/

theorem ok_of_firstBad_none {l : List (Nat × Bool)} (h : firstBad l = none) : ∀ e ∈ l, e.2 = true := by
  induction l with
  | nil => simp
  | cons e r ih =>
    obtain ⟨o, ok⟩ := e
    unfold firstBad at h
    split at h
    · rename_i rest
      cases ok with
      | true => simpa using fun a b hm => ih rest (a, b) hm
      | false => simp at h
    · split at h <;> cases h

/-- A provisioning record that passes its checks names a severity of 1 to 3 (R535). -/
theorem provision_severity {r : Bytes} (h : authFail 7 r s = none) : within 1 3 (fld r 82 1) = true := by
  have fields : firstBad (authFields 7 r) = none := by
    unfold authFail at h
    split at h
    · cases h
    · assumption
  have listed : (82, within 1 3 (fld r 82 1)) ∈ authFields 7 r := List.mem_append_right _ List.mem_cons_self
  exact ok_of_firstBad_none fields _ listed

theorem ranged_authRun_provision (r : Bytes) (h : s.cfg.Ranged) : (authRun 7 r s).2.2.cfg.Ranged := by
  unfold authRun
  split
  · change (flt _ _ _ _ _ s).cfg.Ranged
    rw [flt_cfg]; exact h
  · rename_i passed
    have noted : (flt 0x7201 0x09 0xFF 0 (locCause 7 0x09) (s.modSl (fun x => { x with authSeq := fld r 16 8 }))).cfg = s.cfg := flt_cfg _ _ _ _ _ _
    rw [← noted] at h
    change (if sameProvision r _ then (1, 1, _) else (0, 0, provision r _)).2.2.cfg.Ranged
    split
    · exact h
    · exact { h with sideSev := provision_severity passed, provSev := provision_severity passed }

theorem ranged_authArrive_provision (seq : Nat) (r : Bytes) (h : s.cfg.Ranged) : (authArrive 7 seq r s).cfg.Ranged := by
  have run := ranged_authRun_provision r h
  unfold authArrive slArrive
  dsimp only
  split
  · exact h
  · split
    · rw [(onlyLog_slOnce _ _ _ _).cfg]; exact h
    · rw [(onlyLog_slOnce _ _ _ _).cfg]; exact run

/-! ### The step -/

/-- A command that runs under `onWorld` or `onCore` leaves the settings; each of the others keeps them in range. -/
theorem exec_ranged (c : Instr) (h : s.cfg.Ranged) : ∃ t, exec c s = .next t ∧ t.cfg.Ranged := by
  cases c
  case powerApplied a b c d e => exact ⟨_, rfl, ranged_powerApplied a b c d e h⟩
  case pwrEnLow => exact ⟨_, rfl, ranged_inputTrip 0x4303 h⟩
  case underVoltage => exact ⟨_, rfl, ranged_inputTrip 0x4303 h⟩
  case overVoltage => exact ⟨_, rfl, ranged_inputTrip 0x4304 h⟩
  case warmReset cause unit detail => exact ⟨_, rfl, ranged_warmResetEvent cause unit detail h⟩
  case thermalSitoutTimer still =>
    refine ⟨_, rfl, ?_⟩
    change (if _ then enterSitOut true (flt0 0x4203 0xFF 0xFF 0 s) else s).cfg.Ranged
    split
    · exact ranged_enterSitOut true (by rw [flt0, flt_cfg]; exact h)
    · exact h
  case sitOutEntry =>
    refine ⟨_, rfl, ?_⟩
    change (if _ then enterSitOut false s else s).cfg.Ranged
    split
    · exact ranged_enterSitOut false h
    · exact h
  case sitOutExit => exact ⟨_, rfl, ranged_sitOutExit h⟩
  case authProvision seq record => exact ⟨_, rfl, ranged_authArrive_provision seq record h⟩
  case registerWrite off width v =>
    obtain ⟨t, ht, keeps⟩ := exec_registerWrite off width v s
    exact ⟨t, ht, keeps.ranged h⟩
  all_goals exact ⟨_, rfl, h⟩

end settings

/-- Settles O59, by the command at the front of the queue; with none waiting the settings stand. -/
theorem settingsStayInRange : Obligations.SettingsStayInRange := by
  intro s t h e
  rw [Cfg.ranged_iff] at h ⊢
  unfold step at e
  split at e
  · cases e; exact h
  · rename_i c r _
    obtain ⟨u, hu, ranged⟩ := exec_ranged (s := { s with pending := r }) c h
    rw [hu] at e
    cases e
    exact ranged

end Sys2Proof.Machine
end

section
/-! MIRROR_BIND of role 1 on a module that lacks the room for a partner's mirror (R27, R420 check 4). -/

namespace Sys2Proof.Machine

open Sys2Proof

/-- A module with less than 512 GiB of mapped tier 3 has no room for a mirror, whatever tier 2 holds (R27). -/
theorem mirrorRoom_of_tierThree_lt {s : State} (low : sumNat (s.w.cxl.map (fun e => e.2.mapped)) < 512) : mirrorRoom s = false := by
  have short : decide (512 ≤ sumNat (s.w.cxl.map (fun e => e.2.mapped))) = false := decide_eq_false (Nat.not_le_of_lt low)
  unfold mirrorRoom
  rw [short]
  exact Bool.and_false _

/-- Checks 1 to 3 of R420 pass for role 1 toward a partner that is up and stands where the plan in force expects it; without
room check 4 decides, whether or not a step runs. -/
theorem mirrorBindOwn_noRoom {s : State} {node : Nat} (up : partnerUp s node = true)
    (placed : s.w.topo.jobPlan = none ∨ ∃ e, myPlace s = some e ∧ standing s e.partner = node) (room : mirrorRoom s = false) :
    mirrorBindOwn node 1 s = failC s 0x20 := by
  unfold mirrorBindOwn
  cases plan : s.w.topo.jobPlan with
  | none => simp [up, room]
  | some p =>
    obtain ⟨e, mine, stands⟩ := placed.resolve_left (by simp [plan])
    simp [up, mine, stands, room]

/-- Settles O57: counting the command leaves the ports, the plan and the mapped tier 3, so its own part fails check 4 of R420. -/
theorem mirrorNeedsTierThree : Obligations.MirrorNeedsTierThree := by
  intro h node s ready up placed low
  have own : mirrorBindOwn node 1 (counted h s) = failC (counted h s) 0x20 :=
    mirrorBindOwn_noRoom (s := counted h s) up placed (mirrorRoom_of_tierThree_lt low)
  exact onWorld_done ready own rfl rfl rfl

end Sys2Proof.Machine
end

section
/-! The module comes up (R53, R62, R511, R522): what boot changes of the control state, and what bringing the units up makes of
the boot's result. -/

namespace Sys2Proof.Machine

open Sys2Proof

section bringUp

variable {s : State}

/-- `t` differs from `s` at most in the world and the identity store. -/
def OnlyIdent (s t : State) : Prop := t = { s with ctl := { s.ctl with ident := t.ctl.ident }, w := t.w }

namespace OnlyIdent

variable {t u : State}

theorem trans (h : OnlyIdent s t) (k : OnlyIdent t u) : OnlyIdent s u := by
  unfold OnlyIdent at *
  rw [k, h]

theorem modIdent (s : State) (f : Ident → Ident) : OnlyIdent s (s.modIdent f) := rfl

theorem of_onlyWorld (h : OnlyWorld s t) : OnlyIdent s t := by
  unfold OnlyIdent
  rw [h]

theorem power (h : OnlyIdent s t) : t.ctl.power = s.ctl.power := by rw [h]

end OnlyIdent

theorem onlyIdent_flt (cls unit job step : Nat) (loc : Loc) (s : State) : OnlyIdent s (flt cls unit job step loc s) :=
  .of_onlyWorld (onlyWorld_flt _ _ _ _ _ _)

theorem onlyIdent_startImage (slot fallback : Bool) (s : State) : OnlyIdent s (startImage slot fallback s) := by
  have started : ∀ (f : Ident → Ident) (loc : Loc), OnlyIdent s (flt 0x7101 0xFF 0xFF 0 loc (s.modIdent f)) :=
    fun f loc => (OnlyIdent.modIdent s f).trans (onlyIdent_flt _ _ _ _ _ _)
  unfold startImage
  dsimp only
  split
  · exact (started _ _).trans ((OnlyIdent.modIdent _ _).trans (onlyIdent_flt _ _ _ _ _ _))
  · exact started _ _

/-- The boot ROM writes the identity store and its events, whichever slot passes (R522). -/
theorem onlyIdent_boot (s : State) : OnlyIdent s (boot s) := by
  unfold boot
  dsimp only
  split
  · exact onlyIdent_startImage _ _ s
  · split
    · exact (onlyIdent_flt _ _ _ _ _ s).trans (onlyIdent_startImage _ _ _)
    · exact (OnlyIdent.modIdent s _).trans (onlyIdent_flt _ _ _ _ _ _)

/-- `t` is in service as R62 and R522 leave it: ready where firmware started, with no unit where it did not; the cap and the wake
record stand as in `p`. -/
structure InService (p : Power) (t : State) : Prop where
  phase : t.ctl.power.phase = .run
  ready : t.ctl.power.ready = !t.ctl.ident.failed
  unitEn : t.ctl.ident.failed = true → t.ctl.unitEn = 0
  alive : t.ctl.ident.failed = false → t.ctl.health.alive = 0xF
  capW : t.ctl.power.capW = p.capW
  lastWake : t.ctl.power.lastWake = p.lastWake
  wakePending : t.ctl.power.wakePending = p.wakePending

theorem unitsUp_failed (fails : s.ctl.ident.failed = true) : unitsUp s =
    (s.setUnits 0).modPower (fun p => { p with phase := .run, ready := false, hostPortUp := !p.perst, selfRef := false }) :=
  if_pos fails

theorem unitsUp_inService (s : State) : InService s.ctl.power (unitsUp s) := by
  cases boots : s.ctl.ident.failed with
  | true =>
    rw [unitsUp_failed boots]
    exact ⟨rfl, congrArg (!·) boots.symm, fun _ => rfl, fun h => absurd (boots.symm.trans h) nofun, rfl, rfl, rfl⟩
  | false =>
    unfold unitsUp
    rw [if_neg (by simp [boots])]
    dsimp only
    split <;> exact ⟨rfl, congrArg (!·) boots.symm, fun h => absurd (boots.symm.trans h) nofun, fun _ => rfl, rfl, rfl, rfl⟩

/-- Boot and then the units: the cap and the wake record are those before the boot. -/
theorem unitsUp_boot_inService (s : State) : InService s.ctl.power (unitsUp (boot s)) :=
  (onlyIdent_boot s).power ▸ unitsUp_inService (boot s)

theorem calibrationDone_inService (common : Cal) (ex : List (Nat × Cal)) (cxl : List (Nat × Nat × Nat × Bool × Nat))
    (calibrating : s.ctl.power.phase = .calibrating) (warm : s.ctl.power.coldDies = false) :
    ∃ p, InService p (calibrationDone common ex cxl s) := by
  unfold calibrationDone
  rw [if_neg (by simp [State.power, calibrating, warm])]
  exact ⟨_, unitsUp_boot_inService _⟩

/-- The state in which the exit from sit-out boots (R511): the settings and the cap retained, the wake taken, the clock locked. -/
def woken (r : Retention) (s : State) : State :=
  emptyXings ((({ s with
    cfg := { s.cfg with targetMv := r.targetMv, tjLimitC := r.tjLimitC }
    ctl := { s.ctl with clk := { s.ctl.clk with locked := true, synced := false, frozen := false } } } : State).modPower (fun p => { p with
      capW := r.capW, nowMv := min 750 r.targetMv, gate := 16, stkCap := false, limited := false
      retention := none, wakePending := 0, lastWake := s.ctl.power.wakePending, bringup := .cold })).onW (fun w =>
        { w with cxl := w.cxl.map (fun e => (e.1, { e.2 with linkUp := e.2.present })) }))

theorem sitOutExit_woken {r : Retention} (asleep : s.ctl.power.phase = .sitOut) (wake : s.ctl.power.wakePending ≠ 0)
    (kept : s.ctl.power.retention = some r) :
    sitOutExit s = { flt 0x4502 0xFF 0xFF 0 (locCause s.ctl.power.wakePending 0xFF) ((unitsUp (boot (woken r s))).modPower
      (fun p => { p with wakeLow := true })) with cfg := { s.cfg with targetMv := r.targetMv, tjLimitC := r.tjLimitC } } := by
  unfold sitOutExit
  rw [if_neg (by simp [State.power, asleep, wake])]
  simp only [State.power, kept, Option.getD_some]
  rfl

theorem sitOutExit_cfg {r : Retention} (asleep : s.ctl.power.phase = .sitOut) (wake : s.ctl.power.wakePending ≠ 0)
    (kept : s.ctl.power.retention = some r) : (sitOutExit s).cfg = { s.cfg with targetMv := r.targetMv, tjLimitC := r.tjLimitC } := by
  rw [sitOutExit_woken asleep wake kept]

theorem sitOutExit_ctl {r : Retention} (asleep : s.ctl.power.phase = .sitOut) (wake : s.ctl.power.wakePending ≠ 0)
    (kept : s.ctl.power.retention = some r) :
    (sitOutExit s).ctl = ((unitsUp (boot (woken r s))).modPower (fun p => { p with wakeLow := true })).ctl := by
  rw [sitOutExit_woken asleep wake kept]
  exact (onlyLog_flt _ _ _ _ _ _).ctl

end bringUp

/-- Settles O13: both paths end in boot and `unitsUp`, of which `InService` tells; the log of the exit writes no control state. -/
theorem calibrationAndSitOutExitBringTheModuleUp : Obligations.CalibrationAndSitOutExitBringTheModuleUp := by
  refine ⟨fun common ex cxl s calibrating warm => ?_, fun r s asleep wake kept => ?_⟩
  · obtain ⟨p, up⟩ := calibrationDone_inService common ex cxl calibrating warm
    exact ⟨_, rfl, up.phase, rfl, up.ready, up.unitEn, up.alive⟩
  · have up := unitsUp_boot_inService (woken r s)
    have ctl := sitOutExit_ctl asleep wake kept
    refine ⟨_, rfl, ?_⟩
    dsimp only
    rw [ctl, sitOutExit_cfg asleep wake kept]
    exact ⟨up.phase, rfl, up.capW, up.lastWake, up.wakePending, rfl, up.ready, up.unitEn⟩

end Sys2Proof.Machine
end

section
/-! REFCLK or PLL lock is lost in service (R54, R507): the clock, the power state and the count of losses, past what the loss logs. -/

namespace Sys2Proof.Machine

open Sys2Proof

section loss

variable {s : State}

/-- `t` differs from `s` at most in the world and in the mark of fresh stale granules. -/
def OnlyStale (s t : State) : Prop :=
  t = { s with ctl := { s.ctl with health := { s.ctl.health with freshStale := t.ctl.health.freshStale } }, w := t.w }

theorem onlyStale_makeStale (l : List Gran) (s : State) : OnlyStale s (makeStale l s) := by
  unfold makeStale
  dsimp only
  split <;> rfl

/-- The state in which a loss in service stops the clock: the loss is counted and logged, dirty lines are stale, links are down (R54). -/
def lossNoted (s : State) : State :=
  let s2 := flt0 0x5101 0xFF 0xFF 0 (s.modClk (fun c => { c with lost := true, lossCount := satAdd 8 c.lossCount 1 }))
  let s3 := (makeStale (dirtyGrans s2 (fun _ => true)) s2).modHealth (fun h => { h with flushMiss := 2 })
  (forAll ((List.range 24).filter (fun l => let k := (s3.link l).state; k != 0 && k != 4)) (fun l s => linkDown l 2 s) s3).onW (fun w =>
    { w with cxl := (w.cxl.map (fun e => (e.1, { e.2 with linkUp := false }))).filter (fun e => e.2 != {}) })

/-- Of the control state, counting and logging a loss changes the clock's record of it and the marks of the next flush. -/
theorem lossNoted_ctl (s : State) : ∃ stale, (lossNoted s).ctl = { s.ctl with
    clk := { s.ctl.clk with lost := true, lossCount := satAdd 8 s.ctl.clk.lossCount 1 }
    health := { s.ctl.health with flushMiss := 2, freshStale := stale } } := by
  unfold lossNoted
  generalize counted : s.modClk _ = s1
  generalize logged : flt0 0x5101 0xFF 0xFF 0 s1 = s2
  have log : s2.ctl = s1.ctl := logged ▸ (onlyLog_flt _ _ _ _ _ _).ctl
  have flush := onlyStale_makeStale (dirtyGrans s2 (fun _ => true)) s2
  have down : ∀ (l : List Nat) (s : State), (forAll l (fun l s => linkDown l 2 s) s).ctl = s.ctl := fun l s =>
    (OnlyWorld.forAll l _ (fun k s => onlyWorld_linkDown k 2 s) s).ctl
  refine ⟨(makeStale (dirtyGrans s2 (fun _ => true)) s2).ctl.health.freshStale, ?_⟩
  simp only [State.onW_ctl, down]
  rw [flush]
  simp only [State.modHealth, log, ← counted, State.modClk]

theorem refclkLoss_run {lock : Bool} (run : s.ctl.power.phase = .run) (held : lock = true → s.ctl.clk.locked = true) :
    refclkLoss lock s = ((lossNoted s).modClk (fun c => { c with locked := false, running := false, synced := false, frozen := true })).modPower
      (fun x => { x with phase := .waitRefclk, hostPortUp := false, ready := false, selfRef := true, bringup := .refclkReturn }) := by
  have strikes : (lock && !s.ctl.clk.locked) = false := by cases lock <;> simp_all
  unfold refclkLoss
  simp only [State.power, run, strikes]
  rfl

end loss

/-- Settles O14: the loss is `lossNoted`, then the clock stops and the module waits; no event or link writes the control state. -/
theorem clockLossStopsTheModule : Obligations.ClockLossStopsTheModule := by
  intro lock s run held _
  obtain ⟨stale, noted⟩ := lossNoted_ctl s
  refine ⟨_, rfl, rfl, ?_⟩
  dsimp only
  rw [refclkLoss_run run held]
  simp [State.modPower, State.modClk, noted]

end Sys2Proof.Machine
end

section
/-! The end of a rate window (R41-R43): what the counts make of every cell's rate, and what the rules that follow leave of it. -/

namespace Sys2Proof.Machine

open Sys2Proof

section rates

variable {s t u : State}

/-! ### Reading a cell after a write

The default of a cell depends on its place, so a write may name another default than the read. -/

theorem tget_tput_of_other_key {α : Type} [DecidableEq α] (d d' : α) (t : Tab α) {k k' : Nat} (v : α) (h : k' ≠ k) :
    tget d' (tput d t k v) k' = tget d' t k' := by
  induction t with
  | nil => unfold tput; split <;> simp [tget, Ne.symm h]
  | cons e r ih =>
    obtain ⟨a, b⟩ := e
    unfold tput
    split
    · split <;> simp [tget, Ne.symm h]
    · split
      · rename_i same
        subst same
        split <;> simp [tget, Ne.symm h]
      · simp only [tget, ih]

theorem cell_modCell_ne {k k' : Nat} (f : Cell → Cell) (s : State) (h : k' ≠ k) : (s.modCell k f).cell k' = s.cell k' :=
  tget_tput_of_other_key _ _ _ _ h

theorem cell_modCell_self (k : Nat) (f : Cell → Cell) (h : Claims.rising s.w.cells) : (s.modCell k f).cell k = f (s.cell k) :=
  tget_tput_rising _ _ _ _ h

theorem rising_modCell (k : Nat) (f : Cell → Cell) (h : Claims.rising s.w.cells) : Claims.rising (s.modCell k f).w.cells :=
  rising_tput _ _ _ _ h

/-! ### The rates of a window -/

/-- The rate of each listed cell is written, and no other field. -/
def setRates (l : List Nat) (rate : Nat → Nat) (s : State) : State :=
  forAll l (fun k s => s.modCell k (fun x => { x with rateMhz := rate k })) s

theorem rising_setRates (l : List Nat) (rate : Nat → Nat) (h : Claims.rising s.w.cells) : Claims.rising (setRates l rate s).w.cells := by
  induction l generalizing s with
  | nil => exact h
  | cons a r ih => exact ih (rising_modCell a _ h)

theorem cell_setRates_of_not_mem (l : List Nat) (rate : Nat → Nat) {k : Nat} (hk : k ∉ l) : (setRates l rate s).cell k = s.cell k := by
  induction l generalizing s with
  | nil => rfl
  | cons a r ih =>
    obtain ⟨ne, out⟩ : k ≠ a ∧ k ∉ r := by simpa using hk
    exact (ih out).trans (cell_modCell_ne _ s ne)

theorem rate_setRates_of_mem (l : List Nat) (rate : Nat → Nat) {k : Nat} (hk : k ∈ l) (h : Claims.rising s.w.cells) :
    ((setRates l rate s).cell k).rateMhz = rate k := by
  induction l generalizing s with
  | nil => cases hk
  | cons a r ih =>
    have next := rising_modCell a (fun x => { x with rateMhz := rate a }) h
    by_cases again : k ∈ r
    · exact ih again next
    · obtain rfl := (List.mem_cons.mp hk).resolve_right again
      refine (congrArg Cell.rateMhz (cell_setRates_of_not_mem r rate again)).trans ?_
      rw [cell_modCell_self k _ h]

/-! ### What follows the counts leaves the rates -/

/-- From `s` to `t` every cell keeps its rate, and the cells of the dies other than `d` keep all. -/
structure KeepsRates (d : Nat) (s t : State) : Prop where
  rising : Claims.rising s.w.cells → Claims.rising t.w.cells
  rate : Claims.rising s.w.cells → ∀ k, (t.cell k).rateMhz = (s.cell k).rateMhz
  others : ∀ k, k / 144 ≠ d → t.cell k = s.cell k

namespace KeepsRates

variable {d : Nat}

theorem refl (s : State) : KeepsRates d s s := ⟨id, fun _ _ => rfl, fun _ _ => rfl⟩

theorem trans (h : KeepsRates d s t) (k : KeepsRates d t u) : KeepsRates d s u :=
  ⟨fun r => k.rising (h.rising r), fun r c => (k.rate (h.rising r) c).trans (h.rate r c), fun c o => (k.others c o).trans (h.others c o)⟩

/-- A change of a cell of die `d` that keeps the rate. -/
theorem modCell {k : Nat} (hk : k / 144 = d) {f : Cell → Cell} (hf : ∀ x, (f x).rateMhz = x.rateMhz) (s : State) :
    KeepsRates d s (s.modCell k f) where
  rising := rising_modCell k f
  rate h c := by
    by_cases e : c = k
    · rw [e, cell_modCell_self k f h, hf]
    · rw [cell_modCell_ne f s e]
  others c o := cell_modCell_ne f s (by rintro rfl; exact o hk)

theorem forAll {l : List Nat} {f : Nat → State → State} (hf : ∀ k ∈ l, ∀ s, KeepsRates d s (f k s)) (s : State) :
    KeepsRates d s (forAll l f s) := by
  unfold Machine.forAll
  induction l generalizing s with
  | nil => exact refl s
  | cons a r ih => exact (hf a List.mem_cons_self s).trans (ih (fun k hk => hf k (List.mem_cons_of_mem a hk)) _)

end KeepsRates

variable {d k : Nat}

theorem keepsRates_setBase (hk : k / 144 = d) (s : State) : KeepsRates d s (setBase k s) := by
  unfold setBase
  dsimp only
  split
  · exact .refl s
  · exact .modCell hk (by exact fun _ => rfl) s

/-- With the drift rule off a window only ends the cell's run (R42). -/
theorem keepsRates_driftRule {c : DieCfg} (off : c.driftEn = false) (hk : k / 144 = d) (m : Nat) (s : State) :
    KeepsRates d s (driftRule k m c s) := by
  unfold driftRule
  rw [if_pos (by simp [off])]
  exact .modCell hk (by exact fun _ => rfl) s

/-- With the floor rule off a window only ends the cell's run (R43). -/
theorem keepsRates_floorRule {c : DieCfg} (off : c.floorEn = false) (hk : k / 144 = d) (mv : Nat) (s : State) :
    KeepsRates d s (floorRule k mv c s) := by
  unfold floorRule
  rw [if_pos (by simp [off])]
  exact .modCell hk (by exact fun _ => rfl) s

/-! ### The window -/

/-- The cells of a die. -/
def dieCells (d : Nat) : List Nat := (List.range 144).map (fun i => 144 * d + i)

theorem mem_dieCells : k ∈ dieCells d ↔ k / 144 = d := by
  simp only [dieCells, List.mem_map, List.mem_range]
  constructor
  · rintro ⟨i, hi, rfl⟩
    omega
  · intro h
    exact ⟨k % 144, by omega, by omega⟩

/-- The rate that a window gives the cell at `k` (R41). -/
def windowRate (counts : List Nat) (windowUs k : Nat) : Nat := min (counts.getD (k % 144) 0 / max windowUs 1) 65535

/-- The die's sensors and the rates that the counts of the window give (R41). -/
def measured (d : Nat) (counts : List Nat) (s : State) : State :=
  setRates (dieCells d) (windowRate counts (tget {} s.cfg.die d).windowUs) (s.onW (fun w => { w with
    dieSense := tput {} w.dieSense d { coreMv := min s.power.nowMv 4095, tjTenths := min (s.power.dieTenths.getD d 0) 4095 } }))

theorem rising_measured (counts : List Nat) (h : Claims.rising s.w.cells) : Claims.rising (measured d counts s).w.cells :=
  rising_setRates _ _ h

theorem rate_measured (counts : List Nat) (h : Claims.rising s.w.cells) {i : Nat} (hi : i < 144) :
    ((measured d counts s).cell (144 * d + i)).rateMhz = min (counts.getD i 0 / max (tget {} s.cfg.die d).windowUs 1) 65535 := by
  have inDie : 144 * d + i ∈ dieCells d := mem_dieCells.mpr (by omega)
  unfold measured
  rw [rate_setRates_of_mem (dieCells d) _ inDie (by exact h), windowRate, Nat.mul_add_mod, Nat.mod_eq_of_lt hi]

theorem cell_measured_of_other_die (counts : List Nat) (hk : k / 144 ≠ d) : (measured d counts s).cell k = s.cell k :=
  cell_setRates_of_not_mem _ _ (fun h => hk (mem_dieCells.mp h))

theorem keepsRates_rateWindow (counts : List Nat) (hd : d < 4) (run : s.ctl.power.phase = .run) (measures : (tget {} s.cfg.die d).run = true)
    (noDrift : (tget {} s.cfg.die d).driftEn = false) (noFloor : (tget {} s.cfg.die d).floorEn = false) :
    KeepsRates d (measured d counts s) (rateWindow d counts s) := by
  have ofDie : ∀ {p : Nat → Bool} {k : Nat}, k ∈ (dieCells d).filter p → k / 144 = d := fun h => mem_dieCells.mp (List.mem_filter.mp h).1
  unfold rateWindow
  rw [if_neg (by simp [State.power, hd, run, measures])]
  exact ((KeepsRates.forAll (fun k hk s => keepsRates_setBase (ofDie hk) s) _).trans
    (.forAll (fun k hk s => keepsRates_driftRule noDrift (ofDie hk) _ s) _)).trans
    (.forAll (fun k hk s => keepsRates_floorRule noFloor (ofDie hk) _ s) _)

end rates

/-- Settles O19: the counts set the rates of the die's cells, and with both rules off what follows leaves every rate. -/
theorem rateWindowIsMeasured : Obligations.RateWindowIsMeasured := by
  intro d counts s hd run measures noDrift noFloor rising
  have keeps := keepsRates_rateWindow counts hd run measures noDrift noFloor
  refine ⟨_, rfl, rfl, rfl, fun i hi => ?_, fun k hk => ?_⟩
  · exact (keeps.rate (rising_measured counts rising) _).trans (rate_measured counts rising hi)
  · exact (keeps.others k hk).trans (cell_measured_of_other_die counts hk)

end Sys2Proof.Machine
end

section
/-! Reads and writes of device memory (R211, R214, R301, R446, R480, R495): they pass the caches, the decoders, the staging region and
the injector, and write the world alone. -/

namespace Sys2Proof.Machine

open Sys2Proof

variable {s t : State}

theorem OnlyWorld.pending (h : OnlyWorld s t) : t.pending = s.pending := by rw [h]

theorem OnlyReply.world (h : OnlyReply s t) : OnlyWorld s t := by
  unfold OnlyWorld
  unfold OnlyReply at h
  rw [h]

theorem onlyWorld_modStack (s : State) (i : Nat) (f : Stk → Stk) : OnlyWorld s (s.modStack i f) := rfl
theorem onlyWorld_modPc (s : State) (p : Nat) (f : Pc → Pc) : OnlyWorld s (s.modPc p f) := rfl

/-! ### What a read counts -/

theorem onlyWorld_countCe (n : Nat) (s : State) : OnlyWorld s (countCe n s) :=
  .ite ((OnlyWorld.onW s _).trans (onlyLog_ckptAdvice _ _).world) (.onW s _)

theorem onlyWorld_requestRetrain (p : Nat) (exempt : Bool) (lanes : List Nat) (s : State) :
    OnlyWorld s (requestRetrain p exempt lanes s) :=
  .ite (.refl s) (onlyWorld_modPc s p _)

theorem onlyWorld_startRetrains (st : Nat) (s : State) : OnlyWorld s (startRetrains st s) := by
  have started : OnlyWorld s (forAll (retrainOrder s st) (fun p s =>
      if mayRetrain s p then s.modPc p (fun x => { x with requested := false, exempt := false, deg := x.state = 2, state := 1 }) else s) s) :=
    .forAll _ _ (fun p s => .ite (onlyWorld_modPc s p _) (.refl s)) s
  exact .ite (.refl s) (.ite (started.trans (onlyWorld_modStack _ st _)) started)

theorem onlyWorld_countLanes (p : Nat) (lanes : List Nat) (s : State) : OnlyWorld s (countLanes p lanes s) := by
  refine .ite (onlyWorld_modPc s p _) (OnlyWorld.trans ?_ (onlyWorld_startRetrains _ _))
  exact (onlyWorld_modPc s p _).trans
    (.forAll _ _ (fun l s => (onlyWorld_requestRetrain p true [l] s).trans (onlyWorld_flt _ _ _ _ _ _)) _)

theorem onlyWorld_correctedWord (x : Home) (lanes : List Nat) (s : State) : OnlyWorld s (correctedWord x lanes s) := by
  refine .ite ?_ (.ite ?_ (.refl s))
  · exact ((onlyWorld_modStack s _ _).trans (onlyWorld_countLanes _ _ _)).trans (onlyWorld_countCe _ _)
  · exact OnlyWorld.trans (.ite ((OnlyWorld.onW s _).trans (onlyWorld_flt _ _ _ _ _ _)) (.onW s _)) (onlyWorld_countCe _ _)

theorem onlyWorld_badWord (x : Home) (j : Nat) (loc : Loc) (s : State) : OnlyWorld s (badWord x j loc s) :=
  .ite ((onlyWorld_modStack s _ _).trans (onlyWorld_flt _ _ _ _ _ _))
    (.ite ((OnlyWorld.onW s _).trans (onlyWorld_flt _ _ _ _ _ _)) ((OnlyWorld.onW s _).trans (onlyWorld_flt _ _ _ _ _ _)))

theorem onlyWorld_countRead (j h off n : Nat) (s : State) : OnlyWorld s (countRead j h off n s) := by
  unfold countRead
  split
  · exact .refl s
  · refine .forAll _ _ (fun e s => .ite (.refl s) (.ite (onlyWorld_correctedWord _ _ s) (.ite ?_ (.refl s)))) s
    exact (OnlyWorld.onW s _).trans (onlyWorld_badWord _ _ _ _)

/-! ### The caches -/

theorem onlyWorld_fired (s : State) : OnlyWorld s (fired s) := (OnlyWorld.onW s _).trans (onlyWorld_flt _ _ _ _ _ _)

theorem onlyWorld_flipLine (l : Line) (s : State) : OnlyWorld s (flipLine l s) := by
  unfold flipLine
  dsimp only
  generalize drawn : (if 2 < (lineFlips s.w.err).foldl max 0 then s.draw
    else (if (lineFlips s.w.err).foldl max 0 < 2 then 0 else 1, s)) = d
  have draw : OnlyWorld s d.2 := by
    rw [← drawn]
    split <;> rfl
  refine .ite draw (draw.trans (.ite ?_ ?_))
  · exact ((OnlyWorld.onW d.2 _).trans (.onW _ _)).trans (onlyWorld_flt _ _ _ _ _ _)
  · exact (OnlyWorld.onW d.2 _).trans (onlyWorld_flt _ _ _ _ _ _)

theorem onlyWorld_afterTouch (j h buf off n : Nat) (s : State) : OnlyWorld s (afterTouch j h buf off n s) := by
  refine .ite (.refl s) ?_
  split
  · exact .ite ((onlyWorld_fired s).trans (onlyWorld_flipLine _ _)) (.refl s)
  · exact .refl s

theorem onlyWorld_touch (cls : Nat) (write : Bool) (j h buf off n : Nat) (s : State) : OnlyWorld s (touch cls write j h buf off n s) := by
  unfold touch
  split
  · exact .refl s
  · refine .ite (.refl s) ?_
    dsimp only
    split
    · exact (OnlyWorld.forAll _ _ (fun p s => .ite (.refl s) (.onW s _)) s).trans (onlyWorld_afterTouch _ _ _ _ _ _)
    · exact OnlyWorld.forAll _ _ (fun p s => .ite (.refl s) (.onW s _)) s

theorem onlyWorld_readDev (cls j h off n : Nat) (s : State) : OnlyWorld s (readDev cls j h off n s) := by
  unfold readDev
  split
  · exact .refl s
  · exact (onlyWorld_countRead _ _ _ _ s).trans (onlyWorld_touch _ _ _ _ _ _ _ _)

/-! ### What a write stages, frees and injects -/

theorem onlyWorld_completeAll (p : Run → Bool) (status detail unit : Nat) (result : Run → Bytes) (s : State) :
    OnlyWorld s (completeAll p status detail unit result s) :=
  .forAll _ _ (fun _ _ => (onlyReply_complete _ _ _ _ _ _).world) s

theorem onlyWorld_abandonCkpt (status detail unit cls : Nat) (s : State) : OnlyWorld s (abandonCkpt status detail unit cls s) := by
  unfold abandonCkpt ckptReply disarm
  exact (((onlyWorld_flt _ _ _ _ _ s).trans (onlyWorld_completeAll _ _ _ _ _ _)).trans (.onW _ _)).trans (.onW _ _)

theorem onlyWorld_stageGranule (j h buf g : Nat) (s : State) : OnlyWorld s (stageGranule j h buf g s) :=
  .ite (.refl s) (.ite (onlyWorld_abandonCkpt _ _ _ _ s) (.onW s _))

theorem onlyWorld_freshen (j h buf off n : Nat) (s : State) : OnlyWorld s (freshen j h buf off n s) := by
  unfold freshen
  split
  · exact .refl s
  · exact .ite (.refl s) (.onW s _)

theorem onlyWorld_storeSyms (key tier : Nat) (syms : List (Nat × Nat)) (s : State) : OnlyWorld s (storeSyms key tier syms s) := by
  unfold storeSyms
  dsimp only
  split
  · rfl
  · exact .ite rfl (.ite rfl rfl)
  · rfl

theorem onlyWorld_afterWrite (key n : Nat) (s : State) : OnlyWorld s (afterWrite key n s) := by
  unfold afterWrite
  generalize cleared : (if s.w.inject.isEmpty then s else s.onW (fun w => { w with
    inject := w.inject.filter (fun x => !(decide (x.1 < key + n) && decide (key < x.1 + x.2.1)) || s.badAt x.1 x.2.1) })) = t
  have clear : OnlyWorld s t := cleared ▸ .ite (.refl s) (.onW s _)
  refine .ite (.ite ?_ clear) clear
  exact (clear.trans ((OnlyWorld.onW t _).trans (onlyWorld_flt _ _ _ _ _ _))).trans (onlyWorld_storeSyms _ _ _ _)

theorem onlyWorld_jobPut (j h buf off : Nat) (bs : Bytes) (s : State) : OnlyWorld s (jobPut j h buf off bs s) := by
  refine .ite (.refl s) (OnlyWorld.trans ?_ (onlyWorld_afterWrite _ _ _))
  have staged := OnlyWorld.forAll ((List.range ((off + bs.length - 1) / 65536 + 1 - off / 65536)).map (fun i => off / 65536 + i))
    (stageGranule j h buf) (onlyWorld_stageGranule j h buf) s
  exact ((staged.trans (.onW _ _)).trans (onlyWorld_freshen _ _ _ _ _ _)).trans (.onW _ _)

theorem onlyWorld_imageWrite (j h off : Nat) (bs : Bytes) (s : State) : OnlyWorld s (imageWrite j h off bs s) := by
  unfold imageWrite
  split
  · exact .refl s
  · exact (onlyWorld_jobPut _ _ _ _ _ s).trans (onlyWorld_touch _ _ _ _ _ _ _ _)

end Sys2Proof.Machine
end

section
/-! BAR4 apertures (R64, R302, R481): what an access meets, check by check. -/

namespace Sys2Proof.Machine

open Sys2Proof

section apertures

variable {s : State}

/-- Aperture `ap` is `x`, enabled, and names a live job. -/
structure ApNames (s : State) (ap : Nat) (x : Ap) : Prop where
  entry : x = tget {} s.w.mmu.ap ap
  below : ap < 16
  en : x.en = true
  live : s.live x.job = true

/-- `n` bytes at `o` of the declaration that `x` names can be accessed now: the block is there, no home is off or held, and no access
waits on the declaration. -/
structure ApReaches (s : State) (x : Ap) (d : Decl) (o n : Nat) : Prop where
  decl : s.decl x.job x.handle = some d
  inside : o + n ≤ d.imageBytes
  enabled : (homesOf s x.job x.handle o n).all (fun h => s.unitOn h.unit) = true
  present : missingAt s x.job x.handle o n = none
  free : rangeFree s x.job x.handle o n = true
  first : ∀ y ∈ s.w.apWait, y.job ≠ x.job ∨ y.handle ≠ x.handle

/-- What a refused access does: a read completes with Unsupported Request, a write does nothing. -/
def unsupported (write : Bool) (s : State) : State := if write then s else s.emit (.completion 2 [])

variable {write : Bool} {ap off len n : Nat} {data : Bytes} {x : Ap} {d : Decl}

theorem apAccess_served (names : ApNames s ap x) (hn : n = if write then data.length else len) (nonempty : n ≠ 0)
    (reaches : ApReaches s x d (x.offset + off) n) : apAccess write ap off len data s =
      serveAp { write := write, job := x.job, handle := x.handle, off := x.offset + off, len := n, data := data } s := by
  have on : (homesOf s x.job x.handle (x.offset + off) n).find? (fun h => !s.unitOn h.unit) = none := by
    simpa using reaches.enabled
  have alone : s.w.apWait.any (fun y => y.job == x.job && y.handle == x.handle) = false := by
    simpa [← not_and_or] using reaches.first
  unfold apAccess
  simp only [← names.entry, ← hn, nonempty, names.below, names.en, names.live, reaches.decl, Nat.not_lt.mpr reaches.inside, on, alone,
    apHeld, reaches.present, reaches.free]
  rfl

theorem apAccess_disabled {h : Home} (names : ApNames s ap x) (hn : n = if write then data.length else len) (nonempty : n ≠ 0)
    (decl : s.decl x.job x.handle = some d) (inside : x.offset + off + n ≤ d.imageBytes)
    (disabled : (homesOf s x.job x.handle (x.offset + off) n).find? (fun h => !s.unitOn h.unit) = some h) :
    apAccess write ap off len data s = disabledHit h.unit write s := by
  unfold apAccess
  simp only [← names.entry, ← hn, nonempty, names.below, names.en, names.live, decl, Nat.not_lt.mpr inside, disabled]
  rfl

theorem apAccess_beyond (names : ApNames s ap x) (hn : n = if write then data.length else len) (nonempty : n ≠ 0)
    (decl : s.decl x.job x.handle = some d) (beyond : d.imageBytes < x.offset + off + n) :
    apAccess write ap off len data s = unsupported write s := by
  unfold apAccess
  simp only [← names.entry, ← hn, nonempty, names.below, names.en, names.live, decl, beyond]
  rfl

theorem apAccess_unnamed (hn : n = if write then data.length else len) (nonempty : n ≠ 0)
    (unnamed : 16 ≤ ap ∨ (tget {} s.w.mmu.ap ap).en = false ∨ s.live (tget {} s.w.mmu.ap ap).job = false ∨
      s.decl (tget {} s.w.mmu.ap ap).job (tget {} s.w.mmu.ap ap).handle = none) :
    apAccess write ap off len data s = unsupported write s := by
  unfold apAccess
  dsimp only
  rw [← hn, if_neg nonempty]
  split
  · rfl
  · rename_i named
    simp only [Bool.not_eq_true, Bool.not_eq_false', Bool.and_eq_true, decide_eq_true_eq] at named
    obtain ⟨⟨lt, en⟩, live⟩ := named
    have decl : s.decl (tget {} s.w.mmu.ap ap).job (tget {} s.w.mmu.ap ap).handle = none := by
      rcases unnamed with h | h | h | h
      · omega
      · simp [en] at h
      · simp [live] at h
      · exact h
    rw [decl]
    rfl

/-- An access that is served changes the world alone. -/
theorem onlyWorld_serveAp (a : ApAcc) (s : State) : OnlyWorld s (serveAp a s) := by
  refine .ite (onlyWorld_imageWrite _ _ _ _ s) ((onlyWorld_readDev 0 a.job a.handle a.off a.len s).trans ?_)
  dsimp only
  split
  · exact (onlyWorld_flt _ _ _ _ _ _).trans (.onW _ _)
  · exact .onW _ _

theorem exec_apertureAccess_of_onlyWorld {t : State} (meaning : apAccess write ap off len data s = t) (world : OnlyWorld s t) :
    exec (.apertureAccess write ap off len data) s = .next t :=
  onCore_of_eq meaning world.pending world.cfg

theorem exec_apertureAccess_served (names : ApNames s ap x) (hn : n = if write then data.length else len) (nonempty : n ≠ 0)
    (reaches : ApReaches s x d (x.offset + off) n) : exec (.apertureAccess write ap off len data) s =
      .next (serveAp { write := write, job := x.job, handle := x.handle, off := x.offset + off, len := n, data := data } s) :=
  exec_apertureAccess_of_onlyWorld (apAccess_served names hn nonempty reaches) (onlyWorld_serveAp _ s)

theorem exec_apertureAccess_of_disabledHit {u : Nat} (meaning : apAccess write ap off len data s = disabledHit u write s) :
    exec (.apertureAccess write ap off len data) s = .next (disabledHit u write s) :=
  onCore_of_eq meaning (disabledAccess_pending _ _ s) (disabledAccess_cfg _ _ s)

end apertures

/-- Settles O29, check by check of the access: served, onto a disabled home, beyond the image, or through an aperture that names
nothing; a write of no bytes does nothing at all. -/
theorem aperturesReachDeclarations : Obligations.AperturesReachDeclarations := by
  refine ⟨fun ap off len data x d s entry below en live decl nonempty inside enabled present free first => ?_,
    fun ap off len data x d s s1 entry below en live decl nonempty inside enabled present free first read => ?_,
    fun ap off len data x d s entry below en live decl => ⟨fun h nonempty inside disabled => ?_, fun h nonempty inside disabled => ?_,
      fun nonempty beyond => ?_, fun beyond => ?_⟩,
    fun ap off len data s unnamed => ⟨fun nonempty => ?_, ?_⟩⟩
  · exact exec_apertureAccess_served (write := true) ⟨entry, below, en, live⟩ rfl (List.length_pos_iff.mpr nonempty).ne'
      ⟨decl, inside, enabled, present, free, first⟩
  · rw [exec_apertureAccess_served (write := false) (len := len) ⟨entry, below, en, live⟩ rfl nonempty.ne'
      ⟨decl, inside, enabled, present, free, first⟩, read]
    unfold serveAp
    cases bad : imageBad (readDev 0 x.job x.handle (x.offset + off) len s) x.job x.handle (x.offset + off) len <;> simp [bad]
  · exact exec_apertureAccess_of_disabledHit
      (apAccess_disabled ⟨entry, below, en, live⟩ rfl (List.length_pos_iff.mpr nonempty).ne' decl inside disabled)
  · exact exec_apertureAccess_of_disabledHit (apAccess_disabled ⟨entry, below, en, live⟩ rfl nonempty.ne' decl inside disabled)
  · exact exec_apertureAccess_of_onlyWorld (apAccess_beyond (write := false) ⟨entry, below, en, live⟩ rfl nonempty.ne' decl beyond) (.onW s _)
  · refine exec_apertureAccess_of_onlyWorld ?_ (.refl s)
    cases data with
    | nil => rfl
    | cons b bs => exact apAccess_beyond ⟨entry, below, en, live⟩ rfl (Nat.succ_ne_zero _) decl beyond
  · exact exec_apertureAccess_of_onlyWorld (apAccess_unnamed (write := false) rfl nonempty.ne' unnamed) (.onW s _)
  · refine exec_apertureAccess_of_onlyWorld ?_ (.refl s)
    cases data with
    | nil => rfl
    | cons b bs => exact apAccess_unnamed rfl (Nat.succ_ne_zero _) unnamed

end Sys2Proof.Machine
end

section
/-! Power application, clock bring-up and the reset inputs (R51-R55, R507, R548-R556): what each command's meaning makes of the phase
it finds. -/

namespace Sys2Proof.Machine

open Sys2Proof

section phases

variable {s : State}

/-- Off, with straps that name no reserved value: the phase, the settle time and the straps change, and no event is written. -/
theorem powerApplied_off {cs xs smb : Nat} (m : Bool) (off : s.ctl.power.phase = .off) (hcs : cs < 4) (hxs : xs < 3) (hsmb : smb < 8) :
    powerApplied cs xs smb m 15 s = { s with
      cfg := { s.cfg with settleUs := if cs = 0 then 1000 else if cs = 1 then 5000 else if cs = 2 then 20000 else 100000 }
      ctl := { s.ctl with power := { s.ctl.power with
        phase := .waitRefclk, bringup := .cold, pwrOk := true, nowMv := 750
        straps := { clkSettle := cs, cxlSplit := xs, smbAddr := smb, slMode := m, rsvd := 15 } } }
      w := { s.w with sl := { s.w.sl with mode := m } } } := by
  have split : ¬ xs = 3 := by omega
  unfold powerApplied
  simp only [Nat.mod_eq_of_lt hcs, Nat.mod_eq_of_lt (show xs < 4 by omega), Nat.mod_eq_of_lt hsmb, State.power, off, split]
  rfl

theorem settled_settling (settling : s.ctl.power.phase = .settling) (cold : s.ctl.power.bringup ≠ .sitOutReturn) :
    settled s = s.modPower (fun p => { p with phase := .locking }) := by
  simp [settled, State.power, settling, cold]

theorem pllLock_cold (locking : s.ctl.power.phase = .locking) (cold : s.ctl.power.bringup = .cold) :
    pllLock s = emptyXings ((s.modPower (fun p => { p with phase := .calibrating })).modClk (fun c =>
      { c with locked := true, ns := 0, running := true, synced := false, frozen := false })) := by
  simp [pllLock, State.power, locking, cold]

/-- After a loss, with the cells calibrated: the module is in service again and a warm reset of cause 6 is due. -/
theorem pllLock_refclkReturn (locking : s.ctl.power.phase = .locking) (back : s.ctl.power.bringup = .refclkReturn)
    (calibrated : s.ctl.power.uncal = false) :
    pllLock s = emptyXings (((s.modPower (fun p => { p with phase := .run, bringup := .cold })).modClk (fun c =>
      { c with locked := true, running := true, synced := false, frozen := false })).modHealth (fun h => { h with resetDue := 6 })) := by
  simp [pllLock, State.power, State.modPower, locking, back, calibrated]

theorem inputTrip_powered (cls : Nat) (on : s.ctl.power.phase ≠ .off) : inputTrip cls s = railsOff (flt cls 0xFF 0xFF 0 locNone s) := by
  unfold inputTrip State.power
  rw [if_neg on]
  rfl

theorem railsOff_flt_pending (cls unit job step : Nat) (loc : Loc) (s : State) :
    (railsOff (flt cls unit job step loc s)).pending = s.pending :=
  (onlyLog_flt cls unit job step loc s).pending

theorem perstAssert_inService (reached : s.ctl.power.reached = true) (run : s.ctl.power.phase = .run) :
    perstAssert s = (s.modPower (fun p => { p with perst := true, hostPortUp := false })).modHealth (fun h => { h with resetDue := 3 }) := by
  simp [perstAssert, State.power, reached, run]

end phases

/-- Settles O11: each clause is the meaning's equation in the phase the clause names, under the command's own mask. -/
theorem powerAndClockBringUp : Obligations.PowerAndClockBringUp := by
  refine ⟨fun cs xs smb m s off hcs hxs hsmb => ?_, fun s waiting => ?_, fun s settling cold => ?_, fun s locking cold => ?_,
    fun s locking back calibrated => ?_, fun s on => ⟨?_, ?_, ?_⟩, fun s reached run => ?_, fun s run => ?_, fun s => rfl⟩
  · exact onAll_of_eq (powerApplied_off m off hcs hxs hsmb) rfl
  · exact onCore_of_eq (if_pos waiting) rfl rfl
  · exact onCore_of_eq (settled_settling settling cold) rfl rfl
  · exact onCore_of_eq (pllLock_cold locking cold) rfl rfl
  · exact onCore_of_eq (pllLock_refclkReturn locking back calibrated) rfl rfl
  · exact onAll_of_eq (inputTrip_powered 0x4303 on) (railsOff_flt_pending _ _ _ _ _ s)
  · exact onAll_of_eq (inputTrip_powered 0x4303 on) (railsOff_flt_pending _ _ _ _ _ s)
  · exact onAll_of_eq (inputTrip_powered 0x4304 on) (railsOff_flt_pending _ _ _ _ _ s)
  · exact onCore_of_eq (perstAssert_inService reached run) rfl rfl
  · refine onCore_of_eq (f := fun s => s.modPower (fun p => { p with perst := false, hostPortUp := p.phase = .run || p.hostPortUp })) ?_ rfl rfl
    simp [State.modPower, run]

end Sys2Proof.Machine
end

section
/-! The state right after reset (R40, R230, R260, R269, R288, R303, R356, R357, R385, R416, R454, R464). -/

namespace Sys2Proof.Machine

open Sys2Proof

/-- Settles O58: each setting stands at its default, an unlisted entry of a table reads as the table's default, and both memories
list nothing. -/
theorem resetStateIsSound : Obligations.ResetStateIsSound := by
  obtain ⟨host, dev⟩ := reset_wf
  refine ⟨(Cfg.ranged_iff _).mpr Cfg.ranged_default, rfl, rfl, fun j => tget_nil _ j, rfl, rfl, rfl, rfl, rfl, rfl, rfl, rfl, rfl,
    rfl, rfl, fun i => tget_nil _ i, rfl, rfl, rfl, rfl, rfl, rfl, rfl, rfl, rfl, rfl, rfl, host, dev, rfl, rfl, fun j => ?_,
    fun _ => rfl⟩
  exact Bool.and_false _

end Sys2Proof.Machine
end

section
/-! What the parts of a running step leave alone (R64, R111, R395): device memory, the other jobs, and all of the running step's
tiles but the one that is read out. -/

namespace Sys2Proof.Machine

open Sys2Proof

variable {j : Nat} {g : List Tile → List Tile} {s t u : State}

theorem job_modJob_ne {k : Nat} (f : Job → Job) (s : State) (h : k ≠ j) : (s.modJob j f).job k = s.job k :=
  tget_tput_ne _ _ _ h

theorem job_modJob_self (f : Job → Job) (h : Claims.rising s.w.jobs) : (s.modJob j f).job j = f (s.job j) :=
  tget_tput_rising _ _ _ _ h

/-- From `s` to `t` the settings, the control state, device memory and the jobs other than `j` stand, and the tiles of the step
that `j` runs become `g` of what they were. -/
structure TilesBecome (j : Nat) (g : List Tile → List Tile) (s t : State) : Prop where
  world : OnlyWorld s t
  dev : t.w.dev = s.w.dev
  others : ∀ k, k ≠ j → t.job k = s.job k
  rising : Claims.rising s.w.jobs → Claims.rising t.w.jobs
  tiles : Claims.rising s.w.jobs → (t.job j).run.map StepRun.tiles = ((s.job j).run.map StepRun.tiles).map g

/-- The same, where the running step keeps its tiles. -/
abbrev KeepsTiles (j : Nat) (s t : State) : Prop := TilesBecome j id s t

namespace TilesBecome

theorem refl (s : State) : KeepsTiles j s s := ⟨.refl s, rfl, fun _ _ => rfl, id, fun _ => Option.map_id_apply.symm⟩

theorem trans {g' : List Tile → List Tile} (h : TilesBecome j g s t) (k : TilesBecome j g' t u) : TilesBecome j (g' ∘ g) s u where
  world := h.world.trans k.world
  dev := k.dev.trans h.dev
  others := fun i hi => (k.others i hi).trans (h.others i hi)
  rising := fun r => k.rising (h.rising r)
  tiles := fun r => by rw [k.tiles (h.rising r), h.tiles r, Option.map_map]

theorem kept (h : TilesBecome j g s t) (k : KeepsTiles j t u) : TilesBecome j g s u := h.trans k

theorem ite {p : Prop} [Decidable p] (h : TilesBecome j g s t) (k : TilesBecome j g s u) : TilesBecome j g s (if p then t else u) := by
  split
  · exact h
  · exact k

theorem of_onlyLog (h : OnlyLog s t) : KeepsTiles j s t := by
  have jobs : t.w.jobs = s.w.jobs := by rw [h]
  have same (k : Nat) : t.job k = s.job k := by simp only [State.job, jobs]
  exact ⟨h.world, by rw [h], fun k _ => same k, fun r => jobs ▸ r, fun _ => by rw [same, Option.map_id_apply]⟩

theorem onW {f : World → World} (jobs : (f s.w).jobs = s.w.jobs) (dev : (f s.w).dev = s.w.dev) : KeepsTiles j s (s.onW f) := by
  have same (k : Nat) : (s.onW f).job k = s.job k := by simp only [State.job, State.onW_w, jobs]
  exact ⟨.onW s f, dev, fun k _ => same k, fun r => by rwa [State.onW_w, jobs], fun _ => by rw [same, Option.map_id_apply]⟩

theorem modJob (f : Job → Job) (h : (f (s.job j)).run.map StepRun.tiles = ((s.job j).run.map StepRun.tiles).map g) :
    TilesBecome j g s (s.modJob j f) :=
  ⟨rfl, rfl, fun _ ne => job_modJob_ne f s ne, rising_tput _ _ _ _, fun r => by rw [job_modJob_self f r, h]⟩

theorem modJob_of_run {f : Job → Job} (h : (f (s.job j)).run = (s.job j).run) : KeepsTiles j s (s.modJob j f) :=
  .modJob f (by rw [h, Option.map_id_apply])

theorem modRun {f : StepRun → StepRun} (h : ∀ r, (f r).tiles = g r.tiles) : TilesBecome j g s (modRun j f s) :=
  .modJob _ (by cases (s.job j).run <;> simp [h])

theorem forAll {α : Type} {l : List α} {f : α → State → State} (hf : ∀ x s, KeepsTiles j s (f x s)) (s : State) :
    KeepsTiles j s (forAll l f s) := by
  unfold Machine.forAll
  induction l generalizing s with
  | nil => exact refl s
  | cons x r ih => exact (hf x s).trans (ih _)

/-- The running step after the change holds the tiles that the change made. -/
theorem run {r : StepRun} (h : TilesBecome j g s t) (rising : Claims.rising s.w.jobs) (running : (s.job j).run = some r) :
    ∃ r', (t.job j).run = some r' ∧ r'.tiles = g r.tiles := by
  simpa [running] using h.tiles rising

theorem jobOnly (h : TilesBecome j g s t) : Claims.jobOnly j s t := ⟨h.world.cfg, h.world.ctl, h.others⟩

end TilesBecome

/-! ### Failures, samples, ports, retained items -/

theorem keepsTiles_flt (cls unit job step : Nat) (loc : Loc) (s : State) : KeepsTiles j s (flt cls unit job step loc s) :=
  .of_onlyLog (onlyLog_flt _ _ _ _ _ _)

theorem keepsTiles_failStep (n : Nat) (f : Fail) (cells : List Nat) (s : State) : KeepsTiles j s (failStep j n f cells s) := by
  refine .modJob _ ?_
  rw [Option.map_id_apply]
  dsimp only [Job.modEntry]
  split
  · rename_i r running
    split_ifs <;> simp [running]
  · rfl

theorem keepsTiles_unitsFail (stage : Nat) (us : List Nat) (s : State) : KeepsTiles j s (unitsFail j stage us s) :=
  .forAll (fun _ s => (keepsTiles_flt _ _ _ _ _ s).trans (keepsTiles_failStep _ _ _ _)) s

theorem keepsTiles_takeSample (x : Samp) (s : State) : KeepsTiles j s (takeSample j x s) := by
  unfold takeSample
  split
  · exact (TilesBecome.modJob_of_run rfl).trans (.onW rfl rfl)
  · refine .ite (.refl s) ?_
    exact ((TilesBecome.onW rfl rfl).trans (keepsTiles_flt _ _ _ _ _ _)).trans (.of_onlyLog (onlyLog_benchAdvice _ _ _))

theorem keepsTiles_putRows (e port m : Nat) (codes : List Nat) (poison : Bool) (c : Ctx) (s : State) :
    KeepsTiles j s (putRows j e port m codes poison c s) := by
  unfold putRows
  split
  · exact .refl s
  · exact .modRun (fun _ => rfl)

theorem keepsTiles_freeRetained (e m : Nat) (s : State) : KeepsTiles j s (freeRetained j e m s) := by
  unfold freeRetained
  split
  · exact .refl s
  · exact .ite (.refl s) (.modRun (fun _ => rfl))

end Sys2Proof.Machine
end

section
/-! Tiles read out, re-formed and compared (R111, R389, R394-R398). -/

namespace Sys2Proof.Machine

open Sys2Proof

theorem onWorld_fabric_of_onlyWorld {c : Instr} {f : State → State} {s t : State} (running : s.ctl.clk.frozen = false)
    (meaning : f s = t) (world : OnlyWorld s t) : onWorld (fabric c f) s = .next t := by
  rw [onWorld_fabric running]
  exact onWorld_of_eq meaning world.pending world.cfg world.ctl

theorem onlyWorld_modJob (s : State) (j : Nat) (f : Job → Job) : OnlyWorld s (s.modJob j f) := rfl
theorem onlyWorld_failStep (j n : Nat) (f : Fail) (cells : List Nat) (s : State) : OnlyWorld s (failStep j n f cells s) := rfl
theorem onlyWorld_dropSamp (j : Nat) (x : Samp) (s : State) : OnlyWorld s (dropSamp j x s) := rfl

theorem onlyWorld_strike (k n : Nat) (s : State) : OnlyWorld s (strike k n s) :=
  OnlyWorld.trans (t := s.modCell k _) rfl (onlyWorld_flt _ _ _ _ _ _)

section tiles

variable {j e prod m tile cell : Nat} {err : List (Nat × Nat)} {c : Ctx} {s : State}

theorem run_of_ctxOf (ctx : ctxOf s j = some c) : (s.job j).run = some c.r := by
  unfold ctxOf at ctx
  split at ctx
  · cases ctx
    assumption
  · cases ctx

/-! ### The first readout of a product tile (R111) -/

/-- The tile that a cell has read out, where its product does not span micro-batches. -/
def readTile (e prod m tile cell : Nat) (o : TileOut) : Tile :=
  { st := e, prod := prod, mb := m, tile := tile, cell := cell, done := true, out := o.codes, poison := o.poison }

/-- What the cell that forms a tile gives, its faults included. -/
def formedOut (c : Ctx) (st : Stage) (f : Fig) (e prod m tile : Nat) (raw err : List (Nat × Nat)) (p : Bool) : TileOut :=
  c.productOut st f e prod m tile (unflatRaw (bit f.acc 0) (flipAll (flatRaw (bit f.acc 0) raw) err)) p

/-- A tile takes its place among the tiles of a run. -/
def placeTile (x : Tile) (l : List Tile) : List Tile :=
  l.filter (fun y => !(y.st == x.st && y.prod == x.prod && y.mb == x.mb && y.tile == x.tile)) ++ [x]

theorem mem_placeTile_self (x : Tile) (l : List Tile) : x ∈ placeTile x l := by simp [placeTile]

theorem mem_placeTile_of_fresh {r : StepRun} {x y : Tile} (fresh : Claims.tileOf r x.st x.prod x.mb x.tile = none) (hy : y ∈ r.tiles) :
    y ∈ placeTile x r.tiles :=
  List.mem_append_left _ (List.mem_filter.mpr ⟨hy, by rw [eq_false_of_ne_true (List.find?_eq_none.mp fresh y hy), Bool.not_false]⟩)

/-- The product tile may be read out now, and for the first time: its micro-batch runs, its product spans no other. -/
structure FirstReadout (c : Ctx) (st : Stage) (f : Fig) (e prod m tile : Nat) : Prop where
  stage : c.t.stage? (e % 0x8000) = some st
  fig : c.t.fig? st = some f
  product : isProduct st = true
  single : spans c.t st (decide (0x8000 ≤ e)) prod = false
  runs : c.r.phase = .run
  fresh : Claims.tileOf c.r e prod m tile = none
  inRange : tile < tilesOf c.t e prod
  formed : prod ∈ prodsOf c.t e
  batch : m < c.t.mb
  active : c.active e m = true

theorem tilesBecome_tileReadout {st : Stage} {f : Fig} {raw truth : List (Nat × Nat)} {p : Bool} (ctx : ctxOf s j = some c)
    (first : FirstReadout c st f e prod m tile) (sums : c.productRaw st f e prod m tile = some (raw, truth, p)) :
    TilesBecome j (placeTile (readTile e prod m tile cell (formedOut c st f e prod m tile raw err p))) s
      (tileReadout j e prod m tile cell err s) := by
  obtain ⟨stage, fig, product, single, runs, fresh, inRange, formed, batch, active⟩ := first
  unfold tileReadout
  simp -zeta only [ctx, stage, fig]
  extract_lets old done redo span prevIn comp got firstRedo cnt acc port sr mem
  have old_eq : old = none := fresh
  have done_eq : done = false := by simp only [done, old_eq]
  have redo_eq : redo = 0 := by simp only [redo, old_eq]
  have span_eq : span = false := by simp only [span, single, Bool.and_false]
  have turn : prevIn = true := by simp only [prevIn, span_eq, Bool.not_false, Bool.true_or]
  have got_eq : got = some (flatRaw comp truth, formedOut c st f e prod m tile raw err p) := by
    simp only [got, product, sums, if_true]
    rfl
  have cnt_eq : cnt = s := if_pos redo_eq
  rw [if_neg (by simp [runs, done_eq, inRange, formed, batch, active, turn]), got_eq]
  dsimp -zeta only
  generalize formedOut c st f e prod m tile raw err p = o
  extract_lets t1 written failed sampled
  have t1_eq : t1 = readTile e prod m tile cell o := by
    simp only [t1, redo_eq, span_eq, readTile, Bool.false_eq_true, if_false]
  have writes : TilesBecome j (placeTile t1) cnt written := by
    refine .modRun (fun r => ?_)
    rw [if_neg (by simp [span_eq])]
    split <;> rfl
  have fails : KeepsTiles j written failed := keepsTiles_unitsFail _ _ _
  have samples : KeepsTiles j failed sampled := .ite (keepsTiles_takeSample _ _) (.refl _)
  rw [cnt_eq] at writes
  rw [← t1_eq]
  refine ((writes.kept fails).kept samples).kept (.kept ?_ (keepsTiles_freeRetained _ _ _))
  clear_value sampled
  split
  · exact .refl _
  · rw [if_pos product, if_neg (by simp [span_eq])]
    split
    · exact keepsTiles_putRows _ _ _ _ _ _ _
    · exact .refl _

/-! ### A tile that is done, and a tile whose sums do not check (R389) -/

theorem tileReadout_done {x : Tile} (ctx : ctxOf s j = some c) (there : Claims.tileOf c.r e prod m tile = some x) (done : x.done = true) :
    tileReadout j e prod m tile cell err s = s := by
  unfold Claims.tileOf at there
  unfold tileReadout
  simp -zeta only [ctx]
  split
  · rfl
  · split
    · rfl
    · exact if_pos (by simp [there, done])

theorem residueMismatch_done {x : Tile} (ctx : ctxOf s j = some c) (there : Claims.tileOf c.r e prod m tile = some x)
    (done : x.done = true) :
    residueMismatch j e prod m tile s = s := by
  unfold Claims.tileOf at there
  unfold residueMismatch
  simp -zeta only [ctx]
  exact if_pos (by simp [there, done])

theorem residueMismatch_undone {t0 : Tile} (ctx : ctxOf s j = some c) (inRange : tile < tilesOf c.t e prod) (active : c.active e m = true)
    (held : t0 = (Claims.tileOf c.r e prod m tile).getD { st := e, prod := prod, mb := m, tile := tile }) (undone : t0.done = false) :
    residueMismatch j e prod m tile s =
      if t0.redo < 2 then
        (modRun j (fun r => { r with
          tiles := r.tiles.filter (fun x => !(x.st == e && x.prod == prod && x.mb == m && x.tile == tile)) ++
            [{ t0 with redo := t0.redo + 1 }]
          reports := tmod {} r.reports e (fun p => { p with redone := true }) }) s).onW (fun w => { w with
            ump := { w.ump with detect := satAdd 16 w.ump.detect 1 } })
      else failStep j c.r.step (checkFail 4 (e % 0x8000)) [c.tileCell e prod tile]
        (strike (c.tileCell e prod tile) c.r.step (flt 0x2507 0x05 j c.r.step (locCell (c.tileCell e prod tile)) s)) := by
  unfold Claims.tileOf at held
  unfold residueMismatch
  simp -zeta only [ctx]
  extract_lets old t1
  have same : t1 = t0 := held.symm
  rw [same]
  exact if_neg (by simp [undone, inRange, active])

end tiles

/-! ### Samples compared (R395, R397) -/

section samples

variable {j st prod m tile k : Nat} {err : List (Nat × Nat)} {x : Samp} {s : State}

theorem pickChecker_onW_ump {f : Ump → Ump} (h : (f s.w.ump).rrChecker = s.w.ump.rrChecker) (avoid : List Nat) (die : Nat) :
    pickChecker (s.onW (fun w => { w with ump := f w.ump })) avoid die = pickChecker s avoid die := by
  have bench : benchCells (s.onW (fun w => { w with ump := f w.ump })) = benchCells s := rfl
  simp only [pickChecker, bench, State.onW_w, h]

theorem sampleCompare_equal (waits : (s.job j).samps.find? (fun x => x.isTile st prod m tile && x.state = 0) = some x)
    (equal : flipAll x.truth err = x.res) : sampleCompare j st prod m tile err s = dropSamp j x s := by
  unfold sampleCompare
  rw [waits]
  exact if_pos equal

theorem sampleCompare_other (waits : (s.job j).samps.find? (fun x => x.isTile st prod m tile && x.state = 0) = some x)
    (other : flipAll x.truth err ≠ x.res) (third : pickChecker s [x.work, x.checker] (x.work / 144) = some k) :
    sampleCompare j st prod m tile err s =
      (s.onW (fun w => { w with ump := { w.ump with disagree := satAdd 16 w.ump.disagree 1 } })).modJob j (fun b =>
        { b with
          samps := updWhere (fun y => y == x) (fun y => { y with state := 1, got := flipAll x.truth err, third := k }) b.samps }) := by
  unfold sampleCompare
  rw [waits]
  refine (if_neg other).trans ?_
  extract_lets counted
  have picks : pickChecker counted [x.work, x.checker] (x.work / 144) = some k :=
    (pickChecker_onW_ump (f := fun u => { u with disagree := satAdd 16 u.disagree 1 }) rfl _ _).trans third
  rw [picks]

theorem thirdDone_agreesChecker (waits : (s.job j).samps.find? (fun x => x.isTile st prod m tile && x.state = 1) = some x)
    (agrees : flipAll x.truth err = x.got) :
    thirdDone j st prod m tile err s =
      (failStep j x.step (checkFail 5 (st % 0x8000)) [x.work]
        (strike x.work x.step (flt 0x2501 0x05 j x.step (locCell x.work) (dropSamp j x s)))).onW
        (fun w => { w with ump := { w.ump with capDue := w.ump.capDue ++ [(x.work, x)] } }) := by
  unfold thirdDone
  rw [waits]
  exact if_pos agrees

theorem thirdDone_agreesWorker (waits : (s.job j).samps.find? (fun x => x.isTile st prod m tile && x.state = 1) = some x)
    (other : flipAll x.truth err ≠ x.got) (agrees : flipAll x.truth err = x.res) :
    thirdDone j st prod m tile err s =
      (strike x.checker x.step (flt 0x2502 0x05 j x.step (locCell x.checker) (dropSamp j x s))).onW
        (fun w => { w with ump := { w.ump with capDue := w.ump.capDue ++ [(x.checker, x)] } }) := by
  unfold thirdDone
  rw [waits]
  exact (if_neg other).trans (if_pos agrees)

end samples

/-- Settles O44: a readout changes the running step's tiles by the one it places, and each of the other commands makes what its
branch names. -/
theorem tilesAreReadOutAndChecked : Obligations.TilesAreReadOutAndChecked := by
  refine ⟨fun j e prod m tile cell err c st f raw truth p s ctx running stage fig product single runs fresh inRange formed batch
      active sums rising => ?_,
    fun j e prod m tile cell err c x s ctx running there done => ⟨?_, ?_⟩,
    fun j e prod m tile c t0 s ctx running inRange active held undone few => ?_,
    fun j e prod m tile k c t0 s ctx running inRange active there undone often cellIs => ?_,
    fun j st prod m tile err x s running waits equal => ?_,
    fun j st prod m tile k err x s running waits other third => ?_,
    fun j st prod m tile err x s running waits agrees => ?_,
    fun j st prod m tile err x s running waits other agrees => ?_⟩
  · have change := tilesBecome_tileReadout (cell := cell) (err := err) ctx
      ⟨stage, fig, product, single, runs, fresh, inRange, formed, batch, active⟩ sums
    obtain ⟨r, goesOn, tiles⟩ := change.run rising (run_of_ctxOf ctx)
    refine ⟨_, r, readTile e prod m tile cell (formedOut c st f e prod m tile raw err p),
      onWorld_fabric_of_onlyWorld running rfl change.world, change.jobOnly, change.dev, goesOn, ?_,
      rfl, rfl, rfl, rfl, rfl, rfl, rfl, rfl, ?_⟩
    · exact tiles ▸ mem_placeTile_self _ _
    · exact fun y hy => tiles ▸ mem_placeTile_of_fresh fresh hy
  · exact onWorld_fabric_of_onlyWorld running (tileReadout_done ctx there done) (.refl s)
  · exact onWorld_fabric_of_onlyWorld running (residueMismatch_done ctx there done) (.refl s)
  · refine onWorld_fabric_of_onlyWorld running ((residueMismatch_undone ctx inRange active held undone).trans (if_pos few)) ?_
    exact (onlyWorld_modJob s j _).trans (.onW _ _)
  · subst cellIs
    refine onWorld_fabric_of_onlyWorld running
      ((residueMismatch_undone (t0 := t0) ctx inRange active (by rw [there, Option.getD_some]) undone).trans (if_neg (by omega))) ?_
    exact ((onlyWorld_flt _ _ _ _ _ s).trans (onlyWorld_strike _ _ _)).trans (onlyWorld_failStep _ _ _ _ _)
  · exact onWorld_fabric_of_onlyWorld running (sampleCompare_equal waits equal) (onlyWorld_dropSamp j x s)
  · refine onWorld_fabric_of_onlyWorld running (sampleCompare_other waits other third) ?_
    exact (OnlyWorld.onW s _).trans (onlyWorld_modJob _ _ _)
  · refine onWorld_fabric_of_onlyWorld running (thirdDone_agreesChecker waits agrees) (.trans ?_ (.onW _ _))
    exact (((onlyWorld_dropSamp j x s).trans (onlyWorld_flt _ _ _ _ _ _)).trans (onlyWorld_strike _ _ _)).trans
      (onlyWorld_failStep _ _ _ _ _)
  · refine onWorld_fabric_of_onlyWorld running (thirdDone_agreesWorker waits other agrees) (.trans ?_ (.onW _ _))
    exact ((onlyWorld_dropSamp j x s).trans (onlyWorld_flt _ _ _ _ _ _)).trans (onlyWorld_strike _ _ _)

end Sys2Proof.Machine
end

section
/-! What failing a step and reading device memory leave (R64, R211, R214, R410): the jobs but for the failure itself, the holder of the
array and device memory. -/

namespace Sys2Proof.Machine

open Sys2Proof

variable {j : Nat} {s t u : State}

/-- From `s` to `t` the world alone changes, and of it neither the jobs, the holder of the array nor device memory. -/
def KeepsJobs (s t : State) : Prop := t = { s with w := { t.w with jobs := s.w.jobs, holder := s.w.holder, dev := s.w.dev } }

namespace KeepsJobs

theorem refl (s : State) : KeepsJobs s s := rfl

theorem trans (h : KeepsJobs s t) (k : KeepsJobs t u) : KeepsJobs s u := by
  unfold KeepsJobs at *
  rw [k, h]

theorem ite {p : Prop} [Decidable p] (h : KeepsJobs s t) (k : KeepsJobs s u) : KeepsJobs s (if p then t else u) := by
  split
  · exact h
  · exact k

theorem forAll {α : Type} (l : List α) (f : α → State → State) (hf : ∀ x s, KeepsJobs s (f x s)) (s : State) :
    KeepsJobs s (forAll l f s) := by
  unfold Machine.forAll
  induction l generalizing s with
  | nil => exact refl s
  | cons x r ih => exact (hf x s).trans (ih _)

theorem of_onlyLog (h : OnlyLog s t) : KeepsJobs s t := by
  unfold KeepsJobs
  rw [h]

/-- A change of the world that leaves the three parts comes first. -/
theorem after_onW {f : World → World} (k : KeepsJobs (s.onW f) u) (h : KeepsJobs s (s.onW f) := by rfl) : KeepsJobs s u := h.trans k

theorem world (h : KeepsJobs s t) : OnlyWorld s t := by
  unfold OnlyWorld
  rw [h]

theorem jobs (h : KeepsJobs s t) : t.w.jobs = s.w.jobs := by rw [h]
theorem holder (h : KeepsJobs s t) : t.w.holder = s.w.holder := by rw [h]
theorem dev (h : KeepsJobs s t) : t.w.dev = s.w.dev := by rw [h]
theorem job (h : KeepsJobs s t) (k : Nat) : t.job k = s.job k := by simp only [State.job, h.jobs]

theorem modStack (s : State) (i : Nat) (f : Stk → Stk) : KeepsJobs s (s.modStack i f) := rfl
theorem modPc (s : State) (p : Nat) (f : Pc → Pc) : KeepsJobs s (s.modPc p f) := rfl
theorem modLink (s : State) (l : Nat) (f : Lk → Lk) : KeepsJobs s (s.modLink l f) := rfl

end KeepsJobs

theorem keepsJobs_flt (cls unit job step : Nat) (loc : Loc) (s : State) : KeepsJobs s (flt cls unit job step loc s) :=
  .of_onlyLog (onlyLog_flt _ _ _ _ _ _)

/-! ### Reads of device memory -/

theorem keepsJobs_countCe (n : Nat) (s : State) : KeepsJobs s (countCe n s) :=
  .ite (.after_onW (.of_onlyLog (onlyLog_ckptAdvice _ _))) rfl

theorem keepsJobs_startRetrains (st : Nat) (s : State) : KeepsJobs s (startRetrains st s) := by
  have started : KeepsJobs s (forAll (retrainOrder s st) (fun p s =>
      if mayRetrain s p then s.modPc p (fun x => { x with requested := false, exempt := false, deg := x.state = 2, state := 1 }) else s) s) :=
    .forAll _ _ (fun p s => .ite (.modPc s p _) (.refl s)) s
  exact .ite (.refl s) (.ite (started.trans (.modStack _ st _)) started)

theorem keepsJobs_countLanes (p : Nat) (lanes : List Nat) (s : State) : KeepsJobs s (countLanes p lanes s) := by
  refine .ite (.modPc s p _) (.trans (.trans (.modPc s p _) (.forAll _ _ (fun l s => ?_) _)) (keepsJobs_startRetrains _ _))
  exact .trans (t := requestRetrain p true [l] s) (.ite (.refl s) (.modPc s p _)) (keepsJobs_flt _ _ _ _ _ _)

theorem keepsJobs_correctedWord (x : Home) (lanes : List Nat) (s : State) : KeepsJobs s (correctedWord x lanes s) := by
  refine .ite ?_ (.ite ?_ (.refl s))
  · exact ((KeepsJobs.modStack s _ _).trans (keepsJobs_countLanes _ _ _)).trans (keepsJobs_countCe _ _)
  · exact .trans (.ite (.after_onW (keepsJobs_flt _ _ _ _ _ _)) (by exact rfl)) (keepsJobs_countCe _ _)

theorem keepsJobs_badWord (x : Home) (j : Nat) (loc : Loc) (s : State) : KeepsJobs s (badWord x j loc s) :=
  .ite (.trans (.modStack s _ _) (keepsJobs_flt _ _ _ _ _ _))
    (.ite (.after_onW (keepsJobs_flt _ _ _ _ _ _)) (.after_onW (keepsJobs_flt _ _ _ _ _ _)))

theorem keepsJobs_countRead (j h off n : Nat) (s : State) : KeepsJobs s (countRead j h off n s) := by
  unfold countRead
  split
  · exact .refl s
  · refine .forAll _ _ (fun e s => .ite (.refl s) (.ite (keepsJobs_correctedWord _ _ s) (.ite ?_ (.refl s)))) s
    exact .trans (t := s.draw.2) rfl (keepsJobs_badWord _ _ _ _)

theorem keepsJobs_flipLine (l : Line) (s : State) : KeepsJobs s (flipLine l s) := by
  unfold flipLine
  dsimp only
  generalize drawn : (if 2 < (lineFlips s.w.err).foldl max 0 then s.draw
    else (if (lineFlips s.w.err).foldl max 0 < 2 then 0 else 1, s)) = d
  have draw : KeepsJobs s d.2 := by
    rw [← drawn]
    split <;> rfl
  refine .ite draw (draw.trans (.ite ?_ ?_))
  · exact .after_onW (.after_onW (keepsJobs_flt _ _ _ _ _ _))
  · exact .after_onW (keepsJobs_flt _ _ _ _ _ _)

theorem keepsJobs_afterTouch (j h buf off n : Nat) (s : State) : KeepsJobs s (afterTouch j h buf off n s) := by
  refine .ite (.refl s) ?_
  split
  · refine .ite (.trans (t := fired s) ?_ (keepsJobs_flipLine _ _)) (.refl s)
    exact .after_onW (keepsJobs_flt _ _ _ _ _ _)
  · exact .refl s

theorem keepsJobs_touch (cls : Nat) (write : Bool) (j h buf off n : Nat) (s : State) : KeepsJobs s (touch cls write j h buf off n s) := by
  unfold touch
  split
  · exact .refl s
  · have passed : ∀ (f : Nat × Nat × Nat → State → World → World),
        (∀ p s, KeepsJobs s (s.onW (f p s))) → KeepsJobs s (forAll (granParts off n) (fun p s =>
          if (homeOf s j h (4096 * p.1)).tier != 1 then s else s.onW (f p s)) s) :=
      fun f hf => .forAll _ _ (fun p s => .ite (.refl s) (hf p s)) s
    refine .ite (.refl s) ?_
    dsimp only
    split
    · exact (passed _ (fun _ _ => by exact rfl)).trans (keepsJobs_afterTouch _ _ _ _ _ _)
    · exact passed _ (fun _ _ => by exact rfl)

theorem keepsJobs_readDev (cls j h off n : Nat) (s : State) : KeepsJobs s (readDev cls j h off n s) := by
  unfold readDev
  split
  · exact .refl s
  · exact (keepsJobs_countRead _ _ _ _ s).trans (keepsJobs_touch _ _ _ _ _ _ _ _)

/-! ### Failing a step -/

theorem KeepsJobs.keepsTiles (h : KeepsJobs s t) : KeepsTiles j s t :=
  ⟨h.world, h.dev, fun k _ => h.job k, fun r => h.jobs ▸ r, fun _ => by rw [h.job, Option.map_id_apply]⟩

/-- From `s` to `t` the job `j` changes at most in its journal and in the failure of the step it runs, and the tiles, device memory and
the other jobs stand. -/
structure OnlyFails (j : Nat) (s t : State) : Prop where
  kept : KeepsTiles j s t
  own : Claims.rising s.w.jobs → ∃ jrn fail, t.job j =
    { s.job j with jrn := jrn, run := (s.job j).run.map (fun r => { r with fail := fail }) }

namespace OnlyFails

theorem of_keepsJobs (h : KeepsJobs s t) : OnlyFails j s t where
  kept := h.keepsTiles
  own _ := by
    have same : ∀ o : Option StepRun, o.map (fun r => { r with fail := o.bind StepRun.fail }) = o := fun o => by cases o <;> rfl
    exact ⟨(s.job j).jrn, (s.job j).run.bind StepRun.fail, by rw [h.job, same]⟩

theorem refl (s : State) : OnlyFails j s s := of_keepsJobs (.refl s)

theorem trans (h : OnlyFails j s t) (k : OnlyFails j t u) : OnlyFails j s u where
  kept := h.kept.kept k.kept
  own r := by
    obtain ⟨jrn, fail, e⟩ := h.own r
    obtain ⟨jrn', fail', e'⟩ := k.own (h.kept.rising r)
    exact ⟨jrn', fail', by rw [e', e, Option.map_map]; rfl⟩

theorem ite {p : Prop} [Decidable p] (h : OnlyFails j s t) (k : OnlyFails j s u) : OnlyFails j s (if p then t else u) := by
  split
  · exact h
  · exact k

theorem forAll {α : Type} {l : List α} {f : α → State → State} (hf : ∀ x s, OnlyFails j s (f x s)) (s : State) :
    OnlyFails j s (forAll l f s) := by
  unfold Machine.forAll
  induction l generalizing s with
  | nil => exact refl s
  | cons x r ih => exact (hf x s).trans (ih _)

/-- The set in force stands. -/
theorem cur (h : OnlyFails j s t) (rising : Claims.rising s.w.jobs) : (t.job j).cur = (s.job j).cur := by
  obtain ⟨_, _, e⟩ := h.own rising
  rw [e]

end OnlyFails

theorem onlyFails_failStep (n : Nat) (f : Fail) (cells : List Nat) (s : State) : OnlyFails j s (failStep j n f cells s) where
  kept := keepsTiles_failStep n f cells s
  own rising := by
    unfold failStep
    rw [job_modJob_self _ rising]
    dsimp only [Job.modEntry]
    generalize updWhere _ _ (s.job j).jrn = jrn
    cases running : (s.job j).run with
    | none => exact ⟨jrn, none, rfl⟩
    | some r =>
      dsimp only
      split_ifs
      · exact ⟨jrn, r.fail, rfl⟩
      · exact ⟨jrn, some f, rfl⟩
      · exact ⟨jrn, some { f with detail := 7 * 256 }, rfl⟩
      · exact ⟨jrn, r.fail, rfl⟩

theorem onlyFails_unitsFail (stage : Nat) (us : List Nat) (s : State) : OnlyFails j s (unitsFail j stage us s) :=
  .forAll (fun _ s => (OnlyFails.of_keepsJobs (keepsJobs_flt _ _ _ _ _ s)).trans (onlyFails_failStep _ _ _ _)) s

end Sys2Proof.Machine
end

section
/-! Visits start (R167, R168, R171) and stream items cross (R127-R132, R480). -/

namespace Sys2Proof.Machine

open Sys2Proof

section visitsAndItems

variable {j : Nat} {s t u : State} {c : Ctx} {img : SetImg} {l : List Item}

/-! ### A job's running step -/

theorem ctxOf_eq (ctx : ctxOf s j = some c) : c = ⟨s, j, s.job j, c.t, c.r⟩ := by
  unfold ctxOf at ctx
  split at ctx
  · cases ctx
    rfl
  · cases ctx

theorem cur_of_ctxOf (ctx : ctxOf s j = some c) : (s.job j).cur = some c.t := by
  unfold ctxOf at ctx
  split at ctx
  · cases ctx
    assumption
  · cases ctx

theorem onlyWorld_modRun (j : Nat) (f : StepRun → StepRun) (s : State) : OnlyWorld s (modRun j f s) := rfl

theorem cur_modRun (f : StepRun → StepRun) (rising : Claims.rising s.w.jobs) : ((modRun j f s).job j).cur = (s.job j).cur := by
  unfold modRun
  rw [job_modJob_self _ rising]

/-! ### Visits -/

theorem visitStart_may {pos : Nat} {v : Visit} (ctx : ctxOf s j = some c) (runs : c.r.phase = .run) (inRange : pos < c.b.place.p)
    (stays : c.b.pstate ≠ 2) (next : (c.order pos)[tget 0 c.r.visits pos]? = some v) (may : Claims.visitMay c pos v) :
    visitStart j pos s = modRun j (fun r => { r with
      visits := tput 0 r.visits pos (tget 0 c.r.visits pos + 1), admitted := if v.fwd then max r.admitted (v.mb + 1) else r.admitted }) s := by
  obtain ⟨pred, drain⟩ := may
  unfold visitStart
  simp -zeta only [ctx]
  extract_lets n predDone
  rw [if_neg (by simp [runs, inRange, stays]), show (c.order pos)[n]? = some v from next]
  dsimp -zeta only
  extract_lets allowed
  have pd : predDone = true := by
    simp only [predDone]
    split
    · rename_i w before
      rcases pred with zero | done
      · simp [n, zero]
      · simp [done w before]
    · rfl
  have al : allowed = true := by
    simp only [allowed]
    cases fwd : v.fwd with
    | false => rfl
    | true => cases cut : c.r.cut with
      | none => rfl
      | some x => simpa using drain fwd x cut
  exact if_pos (by rw [pd, al]; rfl)

theorem visitStart_mayNot {pos : Nat} {v : Visit} (ctx : ctxOf s j = some c) (next : (c.order pos)[tget 0 c.r.visits pos]? = some v)
    (mayNot : ¬ Claims.visitMay c pos v) : visitStart j pos s = s := by
  unfold visitStart
  simp -zeta only [ctx]
  extract_lets n predDone
  split
  · rfl
  · rw [show (c.order pos)[n]? = some v from next]
    dsimp -zeta only
    extract_lets allowed
    refine if_neg (fun both => mayNot ?_)
    obtain ⟨pd, al⟩ := Bool.and_eq_true_iff.mp both
    refine ⟨?_, fun fwd x cut => ?_⟩
    · by_cases zero : n = 0
      · exact .inl zero
      · refine .inr (fun w before => ?_)
        simpa [predDone, n, before, zero] using pd
    · simpa [allowed, fwd, cut] using al

theorem visitStart_idle {pos : Nat} (ctx : ctxOf s j = none) : visitStart j pos s = s := by
  unfold visitStart
  rw [ctx]

/-! ### Items at their sinks -/

/-- Job `j` has the set `img` in force and runs a step that has accepted the items `l`. -/
structure Carries (j : Nat) (img : SetImg) (l : List Item) (s : State) : Prop where
  rising : Claims.rising s.w.jobs
  cur : (s.job j).cur = some img
  items : (s.job j).run.map StepRun.items = some l

theorem carries_of_ctxOf (ctx : ctxOf s j = some c) (rising : Claims.rising s.w.jobs) : Carries j c.t c.r.items s :=
  ⟨rising, cur_of_ctxOf ctx, by rw [run_of_ctxOf ctx]; rfl⟩

/-- From `s` to `t` the accepted items of the step that `j` runs become `g` of what they were; the set in force, the tiles, device memory
and the other jobs stand. -/
structure ItemsBecome (j : Nat) (g : List Item → List Item) (s t : State) : Prop where
  kept : KeepsTiles j s t
  carries : ∀ {img l}, Carries j img l s → Carries j img (g l) t

namespace ItemsBecome

variable {g g' : List Item → List Item}

theorem of_onlyFails (h : OnlyFails j s t) : ItemsBecome j id s t where
  kept := h.kept
  carries c := by
    refine ⟨h.kept.rising c.rising, (h.cur c.rising).trans c.cur, ?_⟩
    obtain ⟨_, _, e⟩ := h.own c.rising
    rw [e]
    exact (Option.map_map _ _ _).trans c.items

theorem of_keepsJobs (h : KeepsJobs s t) : ItemsBecome j id s t := of_onlyFails (.of_keepsJobs h)

theorem refl (s : State) : ItemsBecome j id s s := of_onlyFails (.refl s)

theorem trans (h : ItemsBecome j g s t) (k : ItemsBecome j g' t u) : ItemsBecome j (g' ∘ g) s u :=
  ⟨h.kept.kept k.kept, fun c => k.carries (h.carries c)⟩

theorem modRun {f : StepRun → StepRun} (items : ∀ r, (f r).items = g r.items) (tiles : ∀ r, (f r).tiles = r.tiles) (s : State) :
    ItemsBecome j g s (modRun j f s) where
  kept := .modRun tiles
  carries {img l} c := by
    have kept : KeepsTiles j s (Machine.modRun j f s) := .modRun tiles
    refine ⟨kept.rising c.rising, (cur_modRun f c.rising).trans c.cur, ?_⟩
    unfold Machine.modRun
    rw [job_modJob_self _ c.rising]
    obtain ⟨r, running, rfl⟩ := Option.map_eq_some_iff.mp c.items
    simp [running, items]

theorem ite {p : Prop} [Decidable p] (h : ItemsBecome j g s t) (k : ItemsBecome j g s u) : ItemsBecome j g s (if p then t else u) := by
  split
  · exact h
  · exact k

end ItemsBecome

theorem keepsJobs_touchRow (c : Ctx) (q : Strm) (m i : Nat) (write : Bool) (s : State) : KeepsJobs s (c.touchRow q m i write s) := by
  unfold Ctx.touchRow
  split
  · exact .ite (keepsJobs_touch _ _ _ _ _ _ _ s) (keepsJobs_readDev _ _ _ _ _ s)
  · exact .refl s

/-- An accepted item joins the items of the step; a complete row of a memory sink is written besides (R129, R131). -/
theorem itemsBecome_acceptItem (q : Strm) (x : Item) (s : State) : ItemsBecome j (fun l => l ++ [x]) s (acceptItem j q x s) := by
  have joins : ItemsBecome j (fun l => l ++ [x]) s (modRun j (fun r => { r with items := r.items ++ [x] }) s) :=
    .modRun (fun _ => by exact rfl) (fun _ => by exact rfl) s
  have laid : ∀ (f : StepRun → Tab Nat) (s : State), ItemsBecome j id s (modRun j (fun r => { r with laid := f r }) s) :=
    fun f s => .modRun (fun _ => by exact rfl) (fun _ => by exact rfl) s
  unfold acceptItem
  dsimp only
  refine .ite joins ?_
  split
  · exact joins
  · split
    · exact .ite ((joins.trans ((ItemsBecome.of_onlyFails (onlyFails_unitsFail _ _ _)).trans (.of_keepsJobs (keepsJobs_touchRow _ _ _ _ _ _)))).trans
        (laid _ _)) ((joins.trans ((ItemsBecome.of_onlyFails (onlyFails_unitsFail _ _ _)).trans (.of_keepsJobs (keepsJobs_touchRow _ _ _ _ _ _)))).trans
        (laid _ _))
    · exact joins

theorem acceptItem_toStage {q : Strm} {x : Item} (toStage : q.dst ≠ 0xFFFF) :
    acceptItem j q x s = modRun j (fun r => { r with items := r.items ++ [x] }) s := by
  unfold acceptItem
  exact if_pos (by simp [toStage])

/-! ### An item crosses -/

/-- Item `idx` of a stream and a micro-batch is `x`, may cross now, and has not done so. -/
structure ItemDue (c : Ctx) (strm m idx : Nat) (x : Feed) : Prop where
  runs : c.r.phase = .run
  batch : m < c.t.mb
  feed : c.feed strm m idx = some x
  fresh : ∀ y ∈ c.r.items ++ c.r.held, ¬ (y.strm = strm ∧ y.mb = m ∧ y.idx = idx)

variable {strm m idx flips side : Nat} {x : Feed}

/-- An item in its place: item `idx` of micro-batch `m` of a stream. -/
def isItem (strm m idx : Nat) (y : Item) : Bool := y.strm == strm && y.mb == m && y.idx == idx

theorem ItemDue.absent (due : ItemDue c strm m idx x) :
    c.hasItem strm m idx = false ∧ c.r.held.any (isItem strm m idx) = false := by
  have fresh := due.fresh
  simp only [List.mem_append] at fresh
  constructor
  · simpa [Ctx.hasItem, and_assoc] using fun y hy => fresh y (.inl hy)
  · simpa [isItem, and_assoc] using fun y hy => fresh y (.inr hy)

/-- The item as it arrives with no bit flipped. -/
def arrivedItem (c : Ctx) (strm m idx : Nat) (x : Feed) : Item :=
  { strm := strm, mb := m, idx := idx, tag := c.b.modeEpoch % 256, payload := flipBytes x.payload 0, scales := x.scales, poison := x.poison }

/-- What its controllers and the event of an item that was sent twice leave of the state before the item is accepted. -/
def beforeItem (j strm m idx : Nat) (c : Ctx) (x : Feed) (s : State) : State :=
  unitsFail j x.stage x.off (if c.r.resent.contains (strm, m, idx) then flt 0x2201 0xFF j c.r.step x.loc s else s)

/-- An item is accepted at the sink of its stream, a row of a memory source read through its cache; a part result has no stream. -/
def atSink (j strm m idx : Nat) (c : Ctx) (y : Item) (s : State) : State :=
  match c.t.streams[strm]? with
  | some q => acceptItem j q y (if q.src = 0xFFFF then c.touchRow q m (idx / max (rowItems q.fmt q.len) 1) false s else s)
  | none => modRun j (fun r => { r with items := r.items ++ [y] }) s

/-- A sideband field of which no bit flipped arrives as it was sent. -/
theorem xor_unflipped (n hi lo : Nat) : n.xor (bits 0 hi lo) = n := by
  rw [show bits 0 hi lo = 0 by simp [bits]]
  exact Nat.xor_zero n

/-- With no bit flipped the parity checks all pass, or all fail where the item was sent poisoned (R480). -/
theorem parityFails_clean (p : Bool) : parityFails 0 0 p = if p then 9 else 0 := by
  cases p <;> decide

/-- With one payload bit flipped one check fails, or all but one where the item was sent poisoned. -/
theorem parityFails_flipped (p : Bool) : parityFails 1 0 p = if p then 8 else 1 := by
  cases p <;> decide

theorem streamItem_clean (ctx : ctxOf s j = some c) (due : ItemDue c strm m idx x) :
    streamItem j strm m idx 0 0 s = atSink j strm m idx c (arrivedItem c strm m idx x) (beforeItem j strm m idx c x s) := by
  obtain ⟨absent, absentHeld⟩ := due.absent
  unfold isItem at absentHeld
  unfold streamItem
  simp -zeta only [ctx]
  rw [if_neg (by simp [absent, absentHeld, due.batch, due.runs]), due.feed]
  dsimp -zeta only
  extract_lets again fails path s1 tag y
  have fails_eq : fails = if x.poison then 9 else 0 := parityFails_clean x.poison
  have tag_eq : tag = c.b.modeEpoch % 256 := xor_unflipped _ _ _
  have y_eq : y = arrivedItem c strm m idx x := by
    have batch : m - m % 256 + m % 256 = m := Nat.sub_add_cancel (Nat.mod_le m 256)
    have scales : x.scales.zipIdx.map (fun p => p.1) = x.scales := List.zipIdx_map_fst 0 x.scales
    have poison : decide (fails = 9) = x.poison := by rw [fails_eq]; cases x.poison <;> rfl
    simp only [y, tag_eq, xor_unflipped, batch, scales, poison, arrivedItem]
  have passes : ¬ ((fails != 0 && fails != 9) = true) := by rw [fails_eq]; cases x.poison <;> simp
  rw [if_neg passes, if_pos tag_eq, y_eq]
  rfl

/-- The mesh path that an item between two cells takes (R132). -/
def Feed.path (x : Feed) : List (Nat × Nat) :=
  match x.src, x.dst with
  | some a, some b => [(a, b)]
  | _, _ => []

theorem Feed.path_between {a b : Nat} (src : x.src = some a) (dst : x.dst = some b) : x.path = [(a, b)] := by
  simp [Feed.path, src, dst]

theorem Feed.loc_between {a b : Nat} (src : x.src = some a) (dst : x.dst = some b) :
    x.loc = { locCell b with value := some (locCell a).body } := by
  simp [Feed.loc, src, dst]

theorem streamItem_flipped (ctx : ctxOf s j = some c) (due : ItemDue c strm m idx x) :
    streamItem j strm m idx 1 0 s =
      if c.r.resent.contains (strm, m, idx) then
        failStep j c.r.step (checkFail 6 x.stage) (x.src.toList ++ x.dst.toList)
          (flt 0x2202 0xFF j c.r.step x.loc (s.onW (fun w => { w with badPaths := (x.path ++ w.badPaths).eraseDups })))
      else modRun j (fun r => { r with resent := (strm, m, idx) :: r.resent }) s := by
  obtain ⟨absent, absentHeld⟩ := due.absent
  unfold isItem at absentHeld
  unfold streamItem
  simp -zeta only [ctx]
  rw [if_neg (by simp [absent, absentHeld, due.batch, due.runs]), due.feed]
  dsimp -zeta only
  extract_lets again fails
  have fails_eq : fails = if x.poison then 8 else 1 := parityFails_flipped x.poison
  rw [if_pos (by rw [fails_eq]; cases x.poison <;> rfl)]
  rfl

theorem streamItem_feedless (ctx : ctxOf s j = some c) (none : c.feed strm m idx = none) : streamItem j strm m idx flips side s = s := by
  unfold streamItem
  simp -zeta only [ctx, none]
  exact ite_self _

theorem streamItem_there (ctx : ctxOf s j = some c) (there : c.hasItem strm m idx = true ∨ c.t.mb ≤ m) :
    streamItem j strm m idx flips side s = s := by
  unfold streamItem
  simp -zeta only [ctx]
  refine if_pos ?_
  rcases there with h | h
  · simp [h]
  · simp [Nat.not_lt.mpr h]

/-- An item sent for the first time, from no memory, finds the state as it was. -/
theorem beforeItem_first (new : (strm, m, idx) ∉ c.r.resent) (noMemory : x.off = []) : beforeItem j strm m idx c x s = s := by
  unfold beforeItem
  rw [if_neg (by simpa using new), noMemory]
  rfl

theorem atSink_between {q : Strm} {y : Item} (stream : c.t.streams[strm]? = some q) (fromStage : q.src ≠ 0xFFFF) (toStage : q.dst ≠ 0xFFFF) :
    atSink j strm m idx c y s = modRun j (fun r => { r with items := r.items ++ [y] }) s := by
  unfold atSink
  rw [stream]
  dsimp only
  rw [if_neg fromStage, acceptItem_toStage toStage]

theorem itemsBecome_atSink (c : Ctx) (strm m idx : Nat) (y : Item) (s : State) :
    ItemsBecome j (fun l => l ++ [y]) s (atSink j strm m idx c y s) := by
  unfold atSink
  split
  · exact (ItemsBecome.ite (.of_keepsJobs (keepsJobs_touchRow _ _ _ _ _ s)) (.refl s)).trans (itemsBecome_acceptItem _ _ _)
  · exact .modRun (fun _ => by exact rfl) (fun _ => by exact rfl) s

/-- An item arrives: of the step it changes the accepted items by itself. -/
theorem itemsBecome_arrival (c : Ctx) (strm m idx : Nat) (x : Feed) (s : State) :
    ItemsBecome j (fun l => l ++ [arrivedItem c strm m idx x]) s
      (atSink j strm m idx c (arrivedItem c strm m idx x) (beforeItem j strm m idx c x s)) := by
  have before : OnlyFails j s (beforeItem j strm m idx c x s) :=
    .trans (.ite (.of_keepsJobs (keepsJobs_flt _ _ _ _ _ s)) (.refl s)) (onlyFails_unitsFail _ _ _)
  exact (ItemsBecome.of_onlyFails before).trans (itemsBecome_atSink _ _ _ _ _ _)

theorem hasItem_of_mem {y : Item} (there : y ∈ c.r.items) (place : y.strm = strm ∧ y.mb = m ∧ y.idx = idx) :
    c.hasItem strm m idx = true := by
  obtain ⟨rfl, rfl, rfl⟩ := place
  exact List.any_eq_true.mpr ⟨y, there, by simp⟩

/-! ### What an item of a stream between two stages carries -/

variable {q : Strm}

theorem feed_of_stream (low : strm < 4096) : c.feed strm m idx = c.feedSet strm m idx := if_pos low

theorem feedSet_beyond (stream : c.t.streams[strm]? = some q) (beyond : q.rows * rowItems q.fmt q.len ≤ idx) :
    c.feedSet strm m idx = none := by
  unfold Ctx.feedSet
  rw [stream]
  exact if_pos (by simp [Nat.not_lt.mpr beyond])

theorem feedSet_between {row : Row} (stream : c.t.streams[strm]? = some q) (fromStage : q.src ≠ 0xFFFF) (toStage : q.dst ≠ 0xFFFF)
    (ready : q.retain = true ∨ c.active q.dst m = true) (inRange : idx < q.rows * rowItems q.fmt q.len) (port : c.portAt q m idx = true)
    (credit : c.credit q m idx = true) (there : c.srcRow q m (idx / max (rowItems q.fmt q.len) 1) = some row) :
    c.feedSet strm m idx = some {
      payload := (packItem q.fmt row (idx % max (rowItems q.fmt q.len) 1)).1
      scales := (packItem q.fmt row (idx % max (rowItems q.fmt q.len) 1)).2
      poison := row.poison, src := c.srcCell q idx, dst := c.dstCell q idx, stage := q.dst % 0x8000 } := by
  unfold Ctx.feedSet
  rw [stream]
  dsimp only
  rw [if_neg (by rcases ready with h | h <;> simp [fromStage, toStage, inRange, port, credit, h]), there]
  simp [fromStage, toStage]

/-! ### EXCHANGE stages that a stream feeds -/

/-- In a set without EXCHANGE stages none starts with a micro-batch. -/
theorem startStreamed_of_no_exchange (cur : (s.job j).cur = some img) (no : ∀ st ∈ img.stages, isExchange st = false) :
    startStreamed j s = s := by
  unfold startStreamed
  split
  · rfl
  · rename_i c ctx
    obtain rfl : img = c.t := Option.some.inj (cur.symm.trans (cur_of_ctxOf ctx))
    rw [List.filter_eq_nil_iff.mpr (fun st hst => by simp [no st hst])]
    rfl

theorem exec_streamItem (running : s.ctl.clk.frozen = false) (meaning : streamItem j strm m idx flips side s = t) (world : OnlyWorld s t)
    (cur : (t.job j).cur = some img) (no : ∀ st ∈ img.stages, isExchange st = false) : exec (.streamItem j strm m idx flips side) s = .next t := by
  refine onWorld_fabric_of_onlyWorld running ?_ world
  rw [meaning]
  exact startStreamed_of_no_exchange cur no

theorem exec_streamItem_of_onlyFails (running : s.ctl.clk.frozen = false) (ctx : ctxOf s j = some c)
    (no : ∀ st ∈ c.t.stages, isExchange st = false) (rising : Claims.rising s.w.jobs)
    (meaning : streamItem j strm m idx flips side s = t) (fails : OnlyFails j s t) : exec (.streamItem j strm m idx flips side) s = .next t :=
  exec_streamItem running meaning fails.kept.world ((fails.cur rising).trans (cur_of_ctxOf ctx)) no

theorem exec_streamItem_none (running : s.ctl.clk.frozen = false) (ctx : ctxOf s j = some c) (no : ∀ st ∈ c.t.stages, isExchange st = false)
    (meaning : streamItem j strm m idx flips side s = s) : exec (.streamItem j strm m idx flips side) s = .next s :=
  exec_streamItem running meaning (.refl s) (cur_of_ctxOf ctx) no

end visitsAndItems

/-- Settles O43: a visit starts or the state stands; an item that crosses clean changes the step's items by itself (`ItemsBecome`), and
one that a parity check stops is marked, or fails the step. -/
theorem visitsAndItemsMoveTheStep : Obligations.VisitsAndItemsMoveTheStep := by
  refine ⟨fun j pos c v s ctx running runs inRange stays next may => ?_, fun j pos c v s ctx running next mayNot => ?_,
    fun j pos s running ctx => ?_,
    fun j strm m idx c q row s ctx running runs low stream no fromStage toStage ready batch inRange port credit fresh new row_eq rising => ?_,
    fun j strm m idx c x s ctx running runs batch no feed fresh rising => ?_,
    fun j strm m idx c x s ctx running runs batch no feed fresh new rising => ?_,
    fun j strm m idx a b c x s ctx running runs batch no feed fresh again src dst rising => ?_,
    fun j strm m idx flips side c q s ctx running low stream no out => ?_⟩
  · exact onWorld_fabric_of_onlyWorld running (visitStart_may ctx runs inRange stays next may) (onlyWorld_modRun _ _ s)
  · exact onWorld_fabric_of_onlyWorld running (visitStart_mayNot ctx next mayNot) (.refl s)
  · exact onWorld_fabric_of_onlyWorld running (visitStart_idle ctx) (.refl s)
  · have due := ItemDue.mk runs batch
      ((feed_of_stream low).trans (feedSet_between stream fromStage toStage ready inRange port credit row_eq)) fresh
    refine exec_streamItem running ((streamItem_clean ctx due).trans ?_) (onlyWorld_modRun _ _ s)
      ((cur_modRun _ rising).trans (cur_of_ctxOf ctx)) no
    rw [beforeItem_first (by exact new) rfl, atSink_between stream fromStage toStage]
    rfl
  · have due : ItemDue c strm m idx x := ⟨runs, batch, feed, fresh⟩
    have arrives := itemsBecome_arrival (j := j) c strm m idx x s
    have carries := arrives.carries (carries_of_ctxOf ctx rising)
    obtain ⟨r, goesOn, items⟩ := Option.map_eq_some_iff.mp carries.items
    exact ⟨_, r, arrivedItem c strm m idx x, exec_streamItem running (streamItem_clean ctx due) arrives.kept.world carries.cur no,
      arrives.kept.jobOnly, arrives.kept.dev, goesOn, items, rfl, rfl, rfl, rfl, rfl⟩
  · exact exec_streamItem running ((streamItem_flipped ctx ⟨runs, batch, feed, fresh⟩).trans (if_neg (by simpa using new)))
      (onlyWorld_modRun _ _ s) ((cur_modRun _ rising).trans (cur_of_ctxOf ctx)) no
  · have meaning := (streamItem_flipped ctx ⟨runs, batch, feed, fresh⟩).trans (if_pos (by simpa using again))
    rw [Feed.path_between src dst, Feed.loc_between src dst, src, dst] at meaning
    exact exec_streamItem_of_onlyFails running ctx no rising meaning
      (.trans (.of_keepsJobs (.after_onW (keepsJobs_flt _ _ _ _ _ _))) (onlyFails_failStep _ _ _ _))
  · rcases out with beyond | later | ⟨y, there, place⟩
    · exact exec_streamItem_none running ctx no (streamItem_feedless ctx ((feed_of_stream low).trans (feedSet_beyond stream beyond)))
    · exact exec_streamItem_none running ctx no (streamItem_there ctx (.inr later))
    · exact exec_streamItem_none running ctx no (streamItem_there ctx (.inl (hasItem_of_mem there place)))

end Sys2Proof.Machine
end

section
/-! A set is loaded (R117-R120, R184, R191, R317): the checks that an image passes, and what making it current leaves. -/

namespace Sys2Proof.Machine

open Sys2Proof

section setLoad

variable {j : Nat} {s t u : State}

/-! ### Plans and ports leave the jobs -/

theorem keepsJobs_refreshPorts (s : State) : KeepsJobs s (refreshPorts s) := by
  unfold refreshPorts
  refine (KeepsJobs.forAll _ _ (fun k s => ?_) s).trans (.forAll _ _ (fun l s => .modLink s l _) _)
  exact .ite (.after_onW (keepsJobs_flt _ _ _ _ _ _)) (.ite (.after_onW (keepsJobs_flt _ _ _ _ _ _)) rfl)

theorem keepsJobs_refreshDetours (s : State) : KeepsJobs s (refreshDetours s) := by
  unfold refreshDetours
  refine .forAll _ _ (fun k s => .ite (.refl s) (.ite ?_ (.ite ?_ (.refl s)))) s
  · split
    · exact .ite (.refl s) (.after_onW (keepsJobs_flt _ _ _ _ _ _))
    · exact .refl s
  · exact .after_onW (keepsJobs_flt _ _ _ _ _ _)

theorem keepsJobs_replan (s : State) : KeepsJobs s (replan s) := by
  have held : KeepsJobs s (forAll (List.range 24) (fun l s =>
      if (s.link l).state = 3 && (portOfLink s l).isNone then
        flt 0x3203 (0x30 + l) 0xFF 0 (locLink l 0xF (s.link l).peerNode 0)
          (s.modLink l (fun k => { k with state := 2, judged := true, verdict := 2, accepted := false }))
      else s) s) :=
    .forAll _ _ (fun l s => .ite ((KeepsJobs.modLink s l _).trans (keepsJobs_flt _ _ _ _ _ _)) (.refl s)) s
  have woken (s : State) : KeepsJobs s (wakeLinks s) := .forAll _ _ (fun l s => .ite (.modLink s l _) (.refl s)) s
  exact ((held.trans (woken _)).trans (keepsJobs_refreshPorts _)).trans (keepsJobs_refreshDetours _)

theorem keepsJobs_syncPlan (listed : Bool) (s : State) : KeepsJobs s (syncPlan listed s) :=
  .ite (.refl s) (.after_onW (keepsJobs_replan _))

theorem keepsJobs_retirePc (p : Nat) (s : State) : KeepsJobs s (retirePc p s) :=
  (KeepsJobs.modPc s p _).trans (keepsJobs_flt _ _ _ _ _ _)

/-! ### What follows a set that has become current -/

/-- From `s` to `t` the set of job `j`, its placement and its set epoch stand, and so do the other jobs and the holder of the array. -/
structure KeepsSet (j : Nat) (s t : State) : Prop where
  world : OnlyWorld s t
  holder : t.w.holder = s.w.holder
  others : ∀ k, k ≠ j → t.job k = s.job k
  rising : Claims.rising s.w.jobs → Claims.rising t.w.jobs
  cur : Claims.rising s.w.jobs → (t.job j).cur = (s.job j).cur
  place : Claims.rising s.w.jobs → (t.job j).place = (s.job j).place
  setEpoch : Claims.rising s.w.jobs → (t.job j).setEpoch = (s.job j).setEpoch

namespace KeepsSet

theorem of_keepsJobs (h : KeepsJobs s t) : KeepsSet j s t :=
  ⟨h.world, h.holder, fun k _ => h.job k, fun r => h.jobs ▸ r, fun _ => by rw [h.job], fun _ => by rw [h.job], fun _ => by rw [h.job]⟩

theorem refl (s : State) : KeepsSet j s s := of_keepsJobs (.refl s)

theorem trans (h : KeepsSet j s t) (k : KeepsSet j t u) : KeepsSet j s u where
  world := h.world.trans k.world
  holder := k.holder.trans h.holder
  others i hi := (k.others i hi).trans (h.others i hi)
  rising r := k.rising (h.rising r)
  cur r := (k.cur (h.rising r)).trans (h.cur r)
  place r := (k.place (h.rising r)).trans (h.place r)
  setEpoch r := (k.setEpoch (h.rising r)).trans (h.setEpoch r)

theorem modJob {f : Job → Job} (s : State)
    (h : (f (s.job j)).cur = (s.job j).cur ∧ (f (s.job j)).place = (s.job j).place ∧ (f (s.job j)).setEpoch = (s.job j).setEpoch) :
    KeepsSet j s (s.modJob j f) := by
  obtain ⟨cur, place, epoch⟩ := h
  exact ⟨rfl, rfl, fun _ ne => job_modJob_ne f s ne, rising_tput _ _ _ _, fun r => by rw [job_modJob_self f r, cur],
    fun r => by rw [job_modJob_self f r, place], fun r => by rw [job_modJob_self f r, epoch]⟩

theorem forAll {α : Type} {l : List α} {f : α → State → State} (hf : ∀ x s, KeepsSet j s (f x s)) (s : State) :
    KeepsSet j s (forAll l f s) := by
  unfold Machine.forAll
  induction l generalizing s with
  | nil => exact refl s
  | cons x r ih => exact (hf x s).trans (ih _)

end KeepsSet

theorem keepsSet_respread (mine : Nat → Bool) (s : State) : KeepsSet j s (respread j mine s) := by
  unfold respread
  refine .trans (.trans (t := s.onW _) (.of_keepsJobs (by exact rfl)) (.modJob _ ⟨rfl, rfl, rfl⟩)) (.forAll (fun p s => ?_) _)
  split
  · exact .of_keepsJobs (keepsJobs_retirePc p s)
  · exact .refl s

theorem keepsSet_formCopy (img : SetImg) (id buf : Nat) (s : State) : KeepsSet j s (formCopy j img id buf s) := by
  unfold formCopy
  split
  · split
    · exact .refl s
    · exact .modJob s ⟨rfl, rfl, rfl⟩
  · exact .refl s

theorem keepsSet_formCopies (frozen : Bool) (s : State) : KeepsSet j s (formCopies frozen j s) := by
  unfold formCopies
  split
  · exact .refl s
  · refine .forAll (fun x s => ?_) s
    split
    · split
      · exact .refl s
      · exact keepsSet_formCopy _ _ _ s
    · exact .refl s

/-- A set that has become current: its job has the set, its placement and the next set epoch, and holds the array where none did. -/
structure MadeCurrent (j : Nat) (img : SetImg) (p : Place) (s t : State) : Prop where
  world : OnlyWorld s t
  holder : s.w.holder = none ∨ s.w.holder = some j → t.w.holder = some j
  others : ∀ k, k ≠ j → t.job k = s.job k
  cur : (t.job j).cur = some img
  place : (t.job j).place = p
  setEpoch : (t.job j).setEpoch = wrapAdd 32 (s.job j).setEpoch 1

/-- The job holds the array where none did. -/
def takeArray (j : Nat) (s : State) : State := s.onW (fun w => { w with holder := if w.holder.isNone then some j else w.holder })

theorem madeCurrent_of_keepsSet {img : SetImg} {p : Place} {v : Job} (rising : Claims.rising s.w.jobs)
    (rest : KeepsSet j (takeArray j (s.setJob j v)) t) (cur : v.cur = some img) (place : v.place = p)
    (epoch : v.setEpoch = wrapAdd 32 (s.job j).setEpoch 1) : MadeCurrent j img p s t := by
  have rising2 : Claims.rising (takeArray j (s.setJob j v)).w.jobs := rising_tput _ _ _ _ rising
  have own : (takeArray j (s.setJob j v)).job j = v := tget_tput_rising _ _ _ _ rising
  refine ⟨.trans (t := takeArray j (s.setJob j v)) rfl rest.world, fun free => rest.holder.trans ?_,
    fun k ne => (rest.others k ne).trans (tget_tput_ne _ _ _ ne), (rest.cur rising2).trans (by rw [own, cur]),
    (rest.place rising2).trans (by rw [own, place]), (rest.setEpoch rising2).trans (by rw [own, epoch])⟩
  show (if s.w.holder.isNone then some j else s.w.holder) = some j
  rcases free with h | h <;> simp [h]

theorem madeCurrent_setCurrent (img : SetImg) (p : Place) (tiers : List (Nat × Nat × Nat)) (rising : Claims.rising s.w.jobs) :
    MadeCurrent j img p s (setCurrent j img p tiers s) := by
  unfold setCurrent Job.makeCurrent
  refine madeCurrent_of_keepsSet rising
    (((KeepsSet.of_keepsJobs (keepsJobs_syncPlan true _)).trans (keepsSet_respread _ _)).trans (keepsSet_formCopies _ _)) ?_ ?_ ?_ <;> dsimp only

/-! ### The checks of an image -/

variable {h : Hdr} {addr len : Nat} {img : Bytes}

theorem job_counted (h : Hdr) (s : State) (k : Nat) : (counted h s).job k = s.job k := rfl

theorem length_of_imageRead (image : Claims.imageRead h addr len img s) : fld img 8 4 = len := by
  obtain ⟨_, _, _, length⟩ := image
  exact length

theorem checkRec_passed {l : List (Nat × Bool)} {k : Cmd} (pass : firstBad l = none) : checkRec s l k = k := by
  unfold checkRec
  rw [pass]

theorem checkRec_failed {l : List (Nat × Bool)} {k : Cmd} {o : Nat} (fail : firstBad l = some o) : checkRec s l k = badRec s o := by
  unfold checkRec
  rw [fail]

/-- SET_LOAD of an image that can be read does what `loadSet` makes of its bytes (R119 check 1). -/
theorem exec_setLoad {st d unit : Nat} {res : Bytes} {s1 : State} (image : Claims.imageRead h addr len img s)
    (loads : loadSet h.job len img (counted h s) = .done s1 st d unit res) (world : OnlyWorld s s1) :
    exec (.setLoad h addr len) s = .next (finish 0x0301 h s st d unit res s1) := by
  obtain ⟨ready, short, read, _⟩ := image
  refine onWorld_done ready ?_ world.pending world.cfg world.ctl
  unfold setLoadOwn withRead
  rw [Nat.min_eq_left short, read]
  exact loads

/-- The check on the header decides first (R119 check 2). -/
theorem loadSet_badHeader {o : Nat} (length : fld img 8 4 = len)
    (bad : firstBad (headerChecks img (Claims.chkLen img) (Claims.planLen img)) = some o) : loadSet j len img s = badRec s o := by
  unfold loadSet
  extract_lets b cl pl
  have cl_eq : cl = Claims.chkLen img := by simp only [cl, Claims.chkLen, Bool.or_eq_true, decide_eq_true_eq]
  rw [if_neg (by simp [length]), cl_eq]
  exact checkRec_failed bad

/-- An image whose digest is that of the current set is noted (R119). -/
theorem loadSet_again {c : SetImg} (length : fld img 8 4 = len) (headed : Claims.headed img) (cur : (s.job j).cur = some c)
    (same : c.digest = (loadImage img).digest) : loadSet j len img s = noteC s 1 (setReply (s.job j).setEpoch 0) := by
  obtain ⟨header, digest⟩ := headed
  unfold loadSet
  extract_lets b cl pl t
  have cl_eq : cl = Claims.chkLen img := by simp only [cl, Claims.chkLen, Bool.or_eq_true, decide_eq_true_eq]
  have cur_eq : b.cur = some c := cur
  rw [if_neg (by simp [length]), cl_eq, checkRec_passed (by exact header), if_neg (by rcases digest with h | h <;> simp [h, t]),
    if_pos (by simp [cur_eq, same, t])]

/-- Of an image that passes the checks the placement decides (R119 checks 9 and 10, R317). -/
def placeSetOf (j : Nat) (t : SetImg) (x : Option (Place × List (Nat × Nat × Nat))) (s : State) : Cmd :=
  match x with
  | none => failC s 0x20
  | some (p, tiers) =>
    if (s.job j).cur.isNone && heldByOther s j then failC s 0x30
    else if (s.job j).cur.isSome then okC (s.setJob j { (s.job j) with staged := some t, stagedPlace := p }) (setReply (s.job j).setEpoch 1)
    else okC (setCurrent j t p tiers s) (setReply ((setCurrent j t p tiers s).job j).setEpoch 0)

theorem loadSet_loadable (length : fld img 8 4 = len) (passes : Claims.loadable h img s) :
    loadSet h.job len img (counted h s) = placeSetOf h.job (loadImage img)
      (placeJob (counted h s) h.job (loadImage img) (if (s.job h.job).cur.isSome then 6 else 0)) (counted h s) := by
  obtain ⟨⟨header, digest⟩, otherCur, otherStaged, records, wiring, formats, graph, declared, units, idle⟩ := passes
  have capability : capable (counted h s) 0x0011 = true := capable_of_mem _ (by decide)
  have enabled : (setUnits (loadImage img)).find? (fun u => !(counted h s).unitOn u) = none :=
    List.find?_eq_none.mpr (fun u hu => by simp [show (counted h s).unitOn u = true from units u hu])
  unfold loadSet
  extract_lets b cl pl t
  have cl_eq : cl = Claims.chkLen img := by simp only [cl, Claims.chkLen, Bool.or_eq_true, decide_eq_true_eq]
  have idle_eq : b.run.isSome = false := by rw [show b.run = none from idle]; rfl
  rw [if_neg (by simp [length]), cl_eq, checkRec_passed (by exact header), if_neg (by rcases digest with h | h <;> simp [h, t]),
    if_neg (by cases cur : b.cur with | none => simp | some c => simpa [t] using otherCur c cur),
    if_neg (by cases staged : b.staged with | none => simp | some c => simpa [t] using otherStaged c staged),
    checkRec_passed (by exact records), checkRec_passed (by exact wiring), if_neg (by simp [capability]), checkRec_passed (by exact formats),
    checkRec_passed (by exact graph), checkRec_passed (by exact declared), enabled, idle_eq]
  rfl

end setLoad

/-- Settles O36: the checks of R119 pass one after another, the placement decides between the first set, a staged one and BUSY_JOB, and
what follows a set made current leaves the set, its placement and its epoch. -/
theorem setsAreLoadedAndMadeCurrent : Obligations.SetsAreLoadedAndMadeCurrent := by
  refine ⟨fun h addr len img p tiers s image passes noSet free rising placed => ?_,
    fun h addr len img p tiers s image passes hasSet placed => ?_, fun h addr len img x s image passes noSet held placed => ?_,
    fun h addr len img s image => ⟨fun o bad => ?_, fun headed ⟨c, cur, same⟩ => ?_⟩⟩
  · have made : MadeCurrent h.job (loadImage img) p (counted h s) (setCurrent h.job (loadImage img) p tiers (counted h s)) :=
      madeCurrent_setCurrent _ _ _ rising
    have other : heldByOther (counted h s) h.job = false := by
      unfold heldByOther
      rcases free with f | f <;> simp [show (counted h s).w.holder = _ from f]
    have loads : loadSet h.job len img (counted h s) = okC (setCurrent h.job (loadImage img) p tiers (counted h s))
        (setReply (wrapAdd 32 (s.job h.job).setEpoch 1) 0) := by
      rw [loadSet_loadable (length_of_imageRead image) passes, noSet, if_neg (by simp), placed]
      simp [placeSetOf, other, job_counted, noSet, made.setEpoch]
    exact ⟨_, exec_setLoad image loads (.trans (t := counted h s) rfl made.world), made.world.cfg, made.world.ctl, made.cur, made.place,
      made.setEpoch, made.holder free, made.others⟩
  · have loads : loadSet h.job len img (counted h s) = okC ((counted h s).setJob h.job { (s.job h.job) with
        staged := some (loadImage img), stagedPlace := p }) (setReply (s.job h.job).setEpoch 1) := by
      rw [loadSet_loadable (length_of_imageRead image) passes, if_pos (Option.isSome_iff_ne_none.mpr hasSet), placed]
      simp [placeSetOf, job_counted, Option.isSome_iff_ne_none, hasSet]
    exact exec_setLoad image loads rfl
  · have loads : loadSet h.job len img (counted h s) = failC (counted h s) 0x30 := by
      rw [loadSet_loadable (length_of_imageRead image) passes, noSet, if_neg (by simp), placed]
      simp [placeSetOf, job_counted, noSet, show heldByOther (counted h s) h.job = true from held]
    exact exec_setLoad image loads rfl
  · exact exec_setLoad image (loadSet_badHeader (length_of_imageRead image) bad) rfl
  · exact exec_setLoad image (loadSet_again (length_of_imageRead image) headed cur same) rfl

end Sys2Proof.Machine
end

section
/-! What the work of a step boundary changes (R172): every part of it writes the world alone. -/

namespace Sys2Proof.Machine

open Sys2Proof

variable {j : Nat} {s t : State}

theorem OnlyWorld.foldl {α : Type} (l : List α) (f : State → α → State) (hf : ∀ s x, OnlyWorld s (f s x)) (s : State) :
    OnlyWorld s (l.foldl f s) :=
  OnlyWorld.forAll l (fun x s => f s x) (fun x s => hf s x) s

theorem OnlyWorld.modJob (s : State) (j : Nat) (f : Job → Job) : OnlyWorld s (s.modJob j f) := rfl
theorem OnlyWorld.modCell (s : State) (k : Nat) (f : Cell → Cell) : OnlyWorld s (s.modCell k f) := rfl

/-! ### Messages to the partner (R326-R332, R421) -/

theorem onlyWorld_sendFrame (l : Nat) (f : Frm) (s : State) : OnlyWorld s (sendFrame l f s) := by
  unfold sendFrame
  split
  · rfl
  · exact .ite rfl (.ite rfl (.ite rfl (.ite rfl rfl)))

theorem onlyWorld_drainTx (n l : Nat) (s : State) : OnlyWorld s (drainTx n l s) := by
  induction n generalizing s with
  | zero => exact .refl s
  | succ n ih =>
    unfold drainTx
    dsimp only
    split
    · exact .refl s
    · split
      · exact .refl s
      · exact ((OnlyWorld.modLink s l _).trans (onlyWorld_sendFrame _ _ _)).trans (ih _)

theorem onlyWorld_launch (m : Msg) (vc : Nat) (s : State) : OnlyWorld s (launch m vc s) := by
  unfold launch
  dsimp only
  split
  · split
    · exact .trans (t := s.emit _) rfl ((OnlyWorld.modLink _ _ _).trans (onlyWorld_drainTx _ _ _))
    · rfl
  · rfl

theorem onlyWorld_sendMsg (dst job cls step : Nat) (spec data : Bytes) (s : State) : OnlyWorld s (sendMsg dst job cls step spec data s) :=
  .ite (.refl s) ((OnlyWorld.onW s _).trans (onlyWorld_launch _ _ _))

theorem onlyWorld_mirrorSend (j kind flags tensor items off step cut : Nat) (data : Bytes) (s : State) :
    OnlyWorld s (mirrorSend j kind flags tensor items off step cut data s) :=
  .ite (onlyWorld_sendMsg _ _ _ _ _ _ s) (.refl s)

/-! ### Beat 2: UPDATE stages -/

theorem onlyWorld_unitsFail (j stage : Nat) (us : List Nat) (s : State) : OnlyWorld s (unitsFail j stage us s) :=
  (onlyFails_unitsFail stage us s).kept.world

theorem onlyWorld_takeSample (j : Nat) (x : Samp) (s : State) : OnlyWorld s (takeSample j x s) := (keepsTiles_takeSample (j := j) x s).world

theorem onlyWorld_updateRow (j : Nat) (c : Ctx) (st : Stage) (len : Nat) (envs : List (List (Nat × List Nat × Bool × Bool))) (i : Nat)
    (s : State) : OnlyWorld s (updateRow j c st len envs i s) := by
  refine .forAll _ _ (fun o s => ?_) s
  dsimp only
  split
  · exact .refl s
  · refine .ite ((onlyWorld_modRun _ _ s).trans (.forAll _ _ (fun p s => ?_) _))
      (((onlyWorld_modRun _ _ s).trans (onlyWorld_modRun _ _ _)).trans (.foldl _ _ (fun s p => onlyWorld_touch _ _ _ _ _ _ _ s) _))
    exact ((onlyWorld_jobPut _ _ _ _ _ s).trans (onlyWorld_touch _ _ _ _ _ _ _ _)).trans (onlyWorld_mirrorSend _ _ _ _ _ _ _ _ _ _)

theorem onlyWorld_updSamples (j : Nat) (c : Ctx) (st : Stage) (len : Nat) (envs : List (List (Nat × List Nat × Bool × Bool))) (s : State) :
    OnlyWorld s (updSamples j c st len envs s) :=
  .forAll _ _ (fun _ s => .ite (onlyWorld_takeSample _ _ s) (.refl s)) s

theorem onlyWorld_copyAfter (j id : Nat) (d : Decl) (s : State) : OnlyWorld s (copyAfter j id d s) := by
  unfold copyAfter
  split
  · exact .ite (keepsSet_formCopy _ _ _ s).world (.refl s)
  · exact .refl s

/-! ### Beat 3 -/

theorem onlyWorld_notePark (ch j kind a : Nat) (s : State) : OnlyWorld s (notePark ch j kind a s) := (onlyReply_notePark _ _ _ _ s).world

theorem onlyWorld_writeReports (j : Nat) (c : Ctx) (s : State) : OnlyWorld s (writeReports j c s) := by
  have drawn : ∀ (l : List Nat) (acc : Bytes × State), OnlyWorld acc.2 (l.foldl (fun (acc : Bytes × State) e =>
      let a := acc.2.draw
      let b := a.2.draw
      (acc.1 ++ reportRec c e a.1 b.1, b.2)) acc).2 := by
    intro l
    induction l with
    | nil => exact fun acc => .refl acc.2
    | cons e r ih => exact fun acc => .trans (t := acc.2.draw.2.draw.2) rfl (ih _)
  unfold writeReports
  dsimp only
  refine .ite (drawn _ ([], s)) ?_
  split
  · rename_i s1 written
    have log := (congrArg Prod.snd written) ▸ (onlyLog_jobWrite _ _ _ _).world
    exact (drawn _ ([], s)).trans log
  · rename_i s1 missed
    have log := (congrArg Prod.snd missed) ▸ (onlyLog_jobWrite _ _ _ _).world
    exact (drawn _ ([], s)).trans (log.trans ((onlyWorld_notePark _ _ _ _ _).trans ((onlyWorld_flt _ _ _ _ _ _).trans rfl)))

theorem onlyWorld_plausAll (j : Nat) (c : Ctx) (s : State) : OnlyWorld s (plausAll j c s) := by
  unfold plausAll
  refine (OnlyWorld.forAll _ _ (fun e s => ?_) s).trans (OnlyWorld.modJob (forAll _ _ s) j _)
  refine .ite (.refl s) ((onlyWorld_flt _ _ _ _ _ s).trans (.ite (.refl _) ?_))
  exact (onlyWorld_failStep _ _ _ _ _).trans (OnlyWorld.modJob (failStep _ _ _ _ _) j _)

theorem onlyWorld_mirrorState (j : Nat) (c : Ctx) (s : State) : OnlyWorld s (mirrorState j c s) := by
  refine .forAll _ _ (fun r s => ?_) s
  dsimp only
  split
  · exact .refl s
  · exact .forAll _ _ (fun g s => onlyWorld_mirrorSend _ _ _ _ _ _ _ _ _ s) s

theorem onlyWorld_flushOver (j : Nat) (c : Ctx) (s : State) : OnlyWorld s (flushOver j c s) :=
  (((OnlyWorld.modJob s j _).trans (.forAll _ _ (fun _ s => onlyWorld_jobPut _ _ _ _ _ s) _)).trans (onlyWorld_mirrorState _ _ _)).trans
    (onlyWorld_modRun _ _ _)

theorem onlyWorld_beat3 (j : Nat) (c : Ctx) (s : State) : OnlyWorld s (beat3 j c s) :=
  (((OnlyWorld.forAll _ _ (fun k s => .modCell s k _) s).trans (onlyWorld_writeReports _ _ _)).trans (onlyWorld_plausAll _ _ _)).trans
    (onlyWorld_flushOver _ _ _)

/-! ### Beat 4: cells -/

theorem onlyWorld_moveSamples (k : Nat) (s : State) : OnlyWorld s (moveSamples k s) :=
  .forAll _ _ (fun j s => .forAll _ _ (fun _ s => (OnlyWorld.modJob s j _).trans (onlyWorld_takeSample _ _ _)) s) s

theorem onlyWorld_takeOut (k st : Nat) (s : State) : OnlyWorld s (takeOut k st s) := by
  refine .ite ?_ ((OnlyWorld.modCell s k _).trans (onlyWorld_moveSamples _ _))
  split
  · exact (((OnlyWorld.modCell s _ _).trans (.modCell _ _ _)).trans (onlyWorld_moveSamples _ _)).trans rfl
  · exact .modCell s k _

theorem onlyWorld_retireCell (k : Nat) (s : State) : OnlyWorld s (retireCell k s) := (onlyWorld_takeOut k 3 s).trans (.modCell _ _ _)

theorem onlyWorld_dueCells (s : State) : OnlyWorld s (dueCells s) :=
  (OnlyWorld.forAll _ _ (fun k s => onlyWorld_takeOut k 2 s) s).trans
    (.forAll _ _ (fun k s => (OnlyWorld.ite (onlyWorld_flt _ _ _ _ _ s) (.refl s)).trans (onlyWorld_retireCell k _)) _)

theorem onlyWorld_marginCheck (k : Nat) (x : Cal) (s : State) : OnlyWorld s (marginCheck k x s) := by
  have noted : ∀ f, OnlyWorld s ((flt 0x2104 (0x50 + k / 144) 0xFF 0 (locCell k) s).modCell k f) :=
    fun f => (onlyWorld_flt _ _ _ _ _ s).trans (.modCell _ k f)
  exact .ite (.modCell s k _) (.ite ((noted _).trans ((onlyWorld_flt _ _ _ _ _ _).trans (onlyWorld_retireCell k _)))
    ((noted _).trans (.modCell _ k _)))

theorem onlyWorld_slotResults (failed : List Nat) (cals : List (Nat × Cal)) (s : State) : OnlyWorld s (slotResults failed cals s) :=
  (OnlyWorld.forAll _ _ (fun _ s => .ite (onlyWorld_marginCheck _ _ s) (.refl s)) s).trans
    (.forAll _ _ (fun k s => .ite ((onlyWorld_flt _ _ _ _ _ s).trans (onlyWorld_retireCell k _)) (.refl s)) _)

theorem onlyWorld_rotateDie (d : Nat) (s : State) : OnlyWorld s (rotateDie d s) := by
  unfold rotateDie
  extract_lets out s1 start
  have back : OnlyWorld s s1 := .forAll _ _ (fun k s => .modCell s k _) s
  split
  · exact (back.trans (onlyWorld_takeOut _ _ _)).trans (.onW _ _)
  · exact back.trans (.onW _ _)

theorem onlyWorld_rotate (failed : List Nat) (cals : List (Nat × Cal)) (s : State) : OnlyWorld s (rotate failed cals s) :=
  .ite (((onlyWorld_slotResults _ _ s).trans (.onW _ _)).trans (.forAll _ _ onlyWorld_rotateDie _)) ((onlyWorld_slotResults _ _ s).trans (.onW _ _))

theorem onlyWorld_sendCapture (slot : Nat) (record : Bytes) (s : State) : OnlyWorld s (sendCapture slot record s) :=
  ((OnlyWorld.forAll _ _ (fun p s => (onlyLog_slSend _ _ _ p s).world) s).trans (.onW _ _)).trans (onlyLog_dropNote _ _).world

theorem onlyWorld_runCaptures (digest : Nat) (s : State) : OnlyWorld s (runCaptures digest s) := by
  refine (OnlyWorld.onW s _).trans (.forAll _ _ (fun e s => ?_) _)
  exact (((OnlyWorld.ite (onlyWorld_takeOut _ _ s) (.refl s)).trans (.onW _ _)).trans (onlyWorld_flt _ _ _ _ _ _)).trans
    (onlyWorld_sendCapture _ _ _)

theorem onlyWorld_rewriteFigures (s : State) : OnlyWorld s (rewriteFigures s) :=
  .forAll _ _ (fun k s => .ite (.modCell s k _) (.refl s)) s

/-! ### Beat 4: memory -/

theorem onlyWorld_relocate (p : Nat) (l : List (Nat × Nat × Nat)) (s : State) : OnlyWorld s (relocate p l s) := by
  have moved : ∀ (order : List Nat) (l : List (Nat × Nat × Nat)) (acc : Nat × State), OnlyWorld acc.2 (l.foldl (relocateOne order) acc).2 := by
    intro order l
    induction l with
    | nil => exact fun acc => .refl acc.2
    | cons x r ih =>
      refine fun acc => .trans ?_ (ih _)
      unfold relocateOne
      dsimp only
      split
      · exact .refl acc.2
      · exact rfl
  exact moved _ l (0, s)

theorem onlyWorld_halfNote (s0 s : State) : OnlyWorld s (halfNote s0 s) := .ite (onlyWorld_flt _ _ _ _ _ s) (.refl s)

theorem onlyWorld_blockJobs (js : List Nat) (s : State) : OnlyWorld s (blockJobs js s) := .forAll _ _ (fun j s => .modJob s j _) s

theorem onlyWorld_evacuate (p : Nat) (s : State) : OnlyWorld s (evacuate p s) := by
  unfold evacuate
  extract_lets s1
  have moved : OnlyWorld s s1 := (onlyWorld_relocate _ _ s).trans (onlyWorld_halfNote _ _)
  split
  · exact moved.trans (keepsJobs_retirePc _ _).world
  · exact (moved.trans (onlyWorld_flt _ _ _ _ _ _)).trans (onlyWorld_blockJobs _ _)

theorem onlyWorld_evacuateAll (s : State) : OnlyWorld s (evacuateAll s) := .forAll _ _ onlyWorld_evacuate s

theorem onlyWorld_retireOne (e : Nat × Nat × Nat × Nat) (s : State) : OnlyWorld s (retireOne e s) := by
  unfold retireOne
  extract_lets slots s1 s2 room loc
  have moved : OnlyWorld s s2 := (OnlyWorld.onW s _).trans (.ite ((onlyWorld_relocate _ _ _).trans (onlyWorld_halfNote _ _)) (.refl _))
  exact .ite ((moved.trans (.onW _ _)).trans (onlyWorld_flt _ _ _ _ _ _))
    ((moved.trans (onlyWorld_flt _ _ _ _ _ _)).trans (onlyWorld_blockJobs _ _))

theorem onlyWorld_runRetirements (s : State) : OnlyWorld s (runRetirements s) := .forAll _ _ onlyWorld_retireOne s

/-! ### Beat 4: the Caller -/

theorem onlyWorld_replace (j : Nat) (img : SetImg) (forced : Bool) (spent : Nat) (s : State) : OnlyWorld s (replace j img forced spent s).1 := by
  have lost (cls : Nat) : OnlyWorld s (flt0 cls 0x04 j (s.stepOf j) (s.modJob j (fun b => { b with noRoom := true }))) :=
    (OnlyWorld.modJob s j _).trans (onlyWorld_flt _ _ _ _ _ _)
  unfold replace
  extract_lets b pl rows
  dsimp only
  split
  · split
    · exact lost _
    · split
      · exact lost _
      · split
        · exact lost _
        · exact .ite ((OnlyWorld.modJob s j _).trans (onlyWorld_flt _ _ _ _ _ _)) (.modJob s j _)
  · split
    · exact .refl s
    · split
      · exact .refl s
      · split
        · exact rfl
        · exact .refl s

theorem onlyWorld_migrate (j : Nat) (img : SetImg) (spent : Nat) (s : State) : OnlyWorld s (migrate j img spent s) := by
  refine .ite (.modJob s j _) ?_
  dsimp only
  split
  · exact .refl s
  · rfl

theorem onlyWorld_beat4 (j : Nat) (failed : List Nat) (cals : List (Nat × Cal)) (c : Ctx) (s : State) :
    OnlyWorld s (beat4 j failed cals c s) := by
  unfold beat4
  extract_lets s1 s2 spent recs s3 s4 pinned spent' r s5 s6 s6'
  have cells : OnlyWorld s s1 :=
    (((onlyWorld_dueCells s).trans (onlyWorld_rotate _ _ _)).trans (onlyWorld_runCaptures _ _)).trans (onlyWorld_rewriteFigures _)
  have memory : OnlyWorld s1 s3 := ((onlyWorld_evacuateAll s1).trans (onlyWorld_runRetirements _)).trans (.modJob _ _ _)
  have placed : OnlyWorld s3 r.1 := (OnlyWorld.ite (.refl s3) (.modJob s3 j _)).trans ((OnlyWorld.onW _ _).trans (onlyWorld_replace _ _ _ _ _))
  have migrated : OnlyWorld r.1 s6 := (onlyWorld_migrate _ _ _ _).trans (.ite (.refl _) (.modJob _ j _))
  exact (((cells.trans memory).trans placed).trans migrated).trans ((OnlyWorld.onW s6 _).trans (onlyWorld_mirrorSend _ _ _ _ _ _ _ _ _ _))

end Sys2Proof.Machine
end

section
/-! UPDATE stages of beat 2 (R123, R152) and the beats 3 and 4 that follow them (R172). -/

namespace Sys2Proof.Machine

open Sys2Proof

section updateStages

variable {j st h : Nat} {c : Ctx} {g : Stage} {f : Fig} {d : Decl} {s t : State}

theorem all_filter_contains_iff {p : Stage → Bool} {l : List Stage} {done : List Nat} :
    (l.filter p).all (fun x => done.contains x.idx) = true ↔ ∀ x ∈ l, p x = true → x.idx ∈ done := by
  simp only [List.all_eq_true, List.mem_filter, List.contains_iff_mem, and_imp]

/-- An UPDATE stage of the step is due: beat 2, not done yet, and what feeds it is there. -/
def stageDue (c : Ctx) (g : Stage) (st : Nat) : Bool :=
  c.r.phase == .beats 2 && isUpdate g && !c.r.updated.contains st && (prevGood c.b c.r.step || c.r.fail.isSome) &&
    (c.t.stages.filter isExchange).all (fun x => c.r.exchanged.contains x.idx)

theorem stageDue_of (beat : c.r.phase = .beats 2) (update : isUpdate g = true) (new : st ∉ c.r.updated)
    (fed : ∀ x ∈ c.t.stages, isExchange x = true → x.idx ∈ c.r.exchanged) (goes : prevGood c.b c.r.step = true ∨ c.r.fail ≠ none) :
    stageDue c g st = true := by
  have goes' : (prevGood c.b c.r.step || c.r.fail.isSome) = true := by
    rcases goes with good | failed
    · simp [good]
    · simp [Option.isSome_iff_ne_none.mpr failed]
  rw [stageDue, all_filter_contains_iff.mpr fed]
  simp [beat, update, new, goes']

theorem stageDue_eq_false (no : c.r.phase ≠ .beats 2 ∨ isUpdate g = false ∨ st ∈ c.r.updated ∨ (c.r.fail = none ∧ prevGood c.b c.r.step = false)) :
    stageDue c g st = false := by
  rcases no with beat | update | done | ⟨clean, bad⟩
  · simp [stageDue, beat]
  · simp [stageDue, update]
  · simp [stageDue, done]
  · simp [stageDue, clean, bad]

/-- The UPDATE stage `st` is marked as done. -/
def markUpdated (j st : Nat) (s : State) : State := modRun j (fun r => { r with updated := r.updated ++ [st] }) s

/-- Elements that the stage takes at a time: the length of a row of its parameter tensor. -/
def updateLen (d : Decl) : Nat := max d.rowLen 1

/-- The operands of the rows that an UPDATE stage writes. -/
def updateEnvs (c : Ctx) (g : Stage) (f : Fig) (d : Decl) : List (List (Nat × List Nat × Bool × Bool)) :=
  (List.range ((g.upCount + updateLen d - 1) / updateLen d)).map (c.updEnv g f (updateLen d))

/-- The tensors that an UPDATE stage reads. -/
def updateReads (g : Stage) : List Nat := g.upParam :: g.upGrad :: g.upStates.filter (fun x => x != 0)

/-- The tensors of an UPDATE stage have been read (R64, R214). -/
def updateRead (j st : Nat) (c : Ctx) (g : Stage) (s : State) : State :=
  unitsFail j st ((updateReads g).flatMap c.tensOff).eraseDups
    (forAll (updateReads g) (fun id s => match c.decl id with | some (h, d) => readDev 0 j h 0 d.imageBytes s | none => s) s)

/-- The rows of an UPDATE stage are written, its return copy formed and its tiles sampled. -/
def updateWritten (j st : Nat) (c : Ctx) (g : Stage) (f : Fig) (d : Decl) (s : State) : State :=
  updSamples j c g (updateLen d) (updateEnvs c g f d) (copyAfter j g.upParam d
    (forAll (List.range ((g.upCount + updateLen d - 1) / updateLen d)) (updateRow j c g (updateLen d) (updateEnvs c g f d)) (updateRead j st c g s)))

/-- The double-buffered tensor is noted for the switch at the step's end. -/
def noteFlip (j h step : Nat) (s : State) : State :=
  s.modJob j (fun b => b.modEntry step (fun e => { e with flip := (e.flip ++ [h]).eraseDups }))

section looked

variable (ctx : ctxOf s j = some c) (stage : c.t.stage? st = some g) (fig : c.t.fig? g = some f) (decl : c.decl g.upParam = some (h, d))
include ctx stage fig decl

theorem updateStage_notDue (no : stageDue c g st = false) : updateStage j st s = s := by
  unfold updateStage
  simp -zeta only [ctx, stage, fig, decl]
  extract_lets feeds ready
  have idle : ready = false := no
  simp [idle]

theorem updateStage_failed (due : stageDue c g st = true) (failed : c.r.fail ≠ none) : updateStage j st s = markUpdated j st s := by
  unfold updateStage
  simp -zeta only [ctx, stage, fig, decl]
  extract_lets feeds ready
  have goes : ready = true := due
  have fails : c.r.fail.isSome = true := Option.isSome_iff_ne_none.mpr failed
  rw [if_neg (by simp [failed]), if_pos (by simp [fails]), if_pos goes]
  rfl

theorem updateStage_writes (due : stageDue c g st = true) (clean : c.r.fail = none) (good : c.updBad g f = false) (double : d.dbl = true) :
    updateStage j st s = noteFlip j h c.r.step (markUpdated j st (updateWritten j st c g f d s)) := by
  unfold updateStage
  simp -zeta only [ctx, stage, fig, decl]
  extract_lets feeds ready o len envs reads sr s0 s1 s2
  have goes : ready = true := due
  have rows : envs.length = (g.upCount + updateLen d - 1) / updateLen d := by simp only [envs, List.length_map, List.length_range]; rfl
  rw [if_neg (by simp [good]), if_neg (by simp [goes, clean]), if_pos double]
  simp only [s2, s1, rows]
  rfl

end looked

theorem onlyWorld_updateRead (j st : Nat) (c : Ctx) (g : Stage) (s : State) : OnlyWorld s (updateRead j st c g s) := by
  refine (OnlyWorld.forAll _ _ (fun id s => ?_) s).trans (onlyWorld_unitsFail _ _ _ _)
  split
  · exact onlyWorld_readDev _ _ _ _ _ s
  · exact .refl s

theorem onlyWorld_updateWritten (j st : Nat) (c : Ctx) (g : Stage) (f : Fig) (d : Decl) (s : State) :
    OnlyWorld s (updateWritten j st c g f d s) :=
  (((onlyWorld_updateRead j st c g s).trans (.forAll _ _ (onlyWorld_updateRow _ _ _ _ _) _)).trans (onlyWorld_copyAfter _ _ _ _)).trans
    (onlyWorld_updSamples _ _ _ _ _ _)

theorem exec_updateStageStart (running : s.ctl.clk.frozen = false) (meaning : updateStage j st s = t) (world : OnlyWorld s t) :
    exec (.updateStageStart j st) s = .next t := onWorld_fabric_of_onlyWorld running meaning world

end updateStages

/-! ### Beats 3 and 4 -/

section placement

variable {j : Nat} {failed : List Nat} {cals : List (Nat × Cal)} {c : Ctx} {s t : State}

/-- The updates of beat 2 are done. -/
def updatesDone (c : Ctx) : Bool :=
  (c.t.stages.filter isUpdate).all (fun x => c.r.updated.contains x.idx) && (c.r.rowsDone || !(c.t.stages.any isScatter)) &&
    (c.t.stages.filter isExchange).all (fun x => c.r.exchanged.contains x.idx)

theorem updatesDone_iff : updatesDone c = true ↔ (∀ x ∈ c.t.stages, isUpdate x = true → x.idx ∈ c.r.updated) ∧
    (c.r.rowsDone = true ∨ ∀ x ∈ c.t.stages, isScatter x = false) ∧ ∀ x ∈ c.t.stages, isExchange x = true → x.idx ∈ c.r.exchanged := by
  simp only [updatesDone, Bool.and_eq_true, all_filter_contains_iff, Bool.or_eq_true, Bool.not_eq_true', List.any_eq_false,
    Bool.not_eq_true, and_assoc]

theorem reportMiss_of_no_report (unreported : c.r.report = 0) : reportMiss j c s = none := if_pos unreported

theorem boundaryPlacement_waits (ctx : ctxOf s j = some c) (unreported : c.r.report = 0)
    (no : (c.r.phase == .beats 2 && updatesDone c) = false) : boundaryPlacement j failed cals s = s := by
  unfold boundaryPlacement
  simp -zeta only [ctx, reportMiss_of_no_report unreported]
  extract_lets ups rows exch miss s1
  have idle : (c.r.phase == .beats 2 && ups && rows && exch) = false := by
    rw [← no]
    simp only [updatesDone, ups, rows, exch, Bool.and_assoc]
  rw [if_neg (by simp [miss]), if_neg (by simp [idle])]

theorem boundaryPlacement_goes {c1 : Ctx} (ctx : ctxOf s j = some c) (unreported : c.r.report = 0) (beat : c.r.phase = .beats 2)
    (done : updatesDone c = true) (ctx1 : ctxOf (beat3 j c s) j = some c1) :
    boundaryPlacement j failed cals s = modRun j (fun r => { r with phase := .beats 5 }) (beat4 j failed cals c1 (beat3 j c s)) := by
  unfold boundaryPlacement
  simp -zeta only [ctx, reportMiss_of_no_report unreported]
  extract_lets ups rows exch miss s1
  have goes : (c.r.phase == .beats 2 && ups && rows && exch) = true := by
    simpa only [updatesDone, ups, rows, exch, Bool.and_assoc, beat, beq_self_eq_true, Bool.true_and] using done
  rw [if_neg (by simp [miss]), if_pos goes, show ctxOf s1 j = some c1 from ctx1]

theorem exec_boundaryPlacement (running : s.ctl.clk.frozen = false) (meaning : boundaryPlacement j failed cals s = t) (world : OnlyWorld s t) :
    exec (.boundaryPlacement j failed cals) s = .next t := onWorld_fabric_of_onlyWorld running meaning world

end placement

end Sys2Proof.Machine
end

section
/-! The row optimizers (R252-R256): a row is read, computed and written, and the image it replaces is kept for the step. -/

namespace Sys2Proof.Machine

open Sys2Proof

variable {j : Nat} {s t u : State}

/-! ### What reads as poison stands -/

/-- From `s` to `t` device memory stands with its marks, its errors, its homes and what a write of it would set off. -/
def KeepsMemory (s t : State) : Prop := t = { s with w := { t.w with
  dev := s.w.dev, poison := s.w.poison, stale := s.w.stale, inject := s.w.inject, cxl := s.w.cxl, reloc := s.w.reloc
  ck := s.w.ck, mr := s.w.mr, err := s.w.err } }

namespace KeepsMemory

theorem refl (s : State) : KeepsMemory s s := rfl

theorem trans (h : KeepsMemory s t) (k : KeepsMemory t u) : KeepsMemory s u := by
  unfold KeepsMemory at *
  rw [k, h]

theorem of_onlyLog (h : OnlyLog s t) : KeepsMemory s t := by
  unfold KeepsMemory
  rw [h]

theorem forAll {α : Type} {l : List α} {f : α → State → State} (hf : ∀ x s, KeepsMemory s (f x s)) (s : State) :
    KeepsMemory s (forAll l f s) := by
  unfold Machine.forAll
  induction l generalizing s with
  | nil => exact refl s
  | cons x r ih => exact (hf x s).trans (ih _)

theorem modJob (s : State) (j : Nat) (f : Job → Job) : KeepsMemory s (s.modJob j f) := rfl

theorem dev (h : KeepsMemory s t) : t.w.dev = s.w.dev := by rw [h]
theorem poison (h : KeepsMemory s t) : t.w.poison = s.w.poison := by rw [h]
theorem stale (h : KeepsMemory s t) : t.w.stale = s.w.stale := by rw [h]
theorem inject (h : KeepsMemory s t) : t.w.inject = s.w.inject := by rw [h]
theorem cxl (h : KeepsMemory s t) : t.w.cxl = s.w.cxl := by rw [h]
theorem reloc (h : KeepsMemory s t) : t.w.reloc = s.w.reloc := by rw [h]
theorem ck (h : KeepsMemory s t) : t.w.ck = s.w.ck := by rw [h]
theorem mr (h : KeepsMemory s t) : t.w.mr = s.w.mr := by rw [h]
theorem err (h : KeepsMemory s t) : t.w.err = s.w.err := by rw [h]

end KeepsMemory

theorem keepsMemory_unitsFail (j stage : Nat) (us : List Nat) (s : State) : KeepsMemory s (unitsFail j stage us s) :=
  .forAll (fun _ s => (KeepsMemory.of_onlyLog (onlyLog_flt _ _ _ _ _ s)).trans (.modJob _ j _)) s

theorem keepsMemory_touchRead (cls j h buf off n : Nat) (s : State) : KeepsMemory s (touch cls false j h buf off n s) := by
  unfold touch
  split
  · exact .refl s
  · split
    · exact .refl s
    · refine KeepsMemory.forAll (fun p s => ?_) s
      dsimp only
      split
      · exact .refl s
      · rfl

theorem countRead_of_no_errors {h off n : Nat} (errorless : s.w.inject = []) : countRead j h off n s = s := by
  unfold countRead
  split
  · rfl
  · rw [errorless]
    rfl

theorem keepsMemory_readDev {cls h off n : Nat} (errorless : s.w.inject = []) : KeepsMemory s (readDev cls j h off n s) := by
  unfold readDev
  split
  · exact .refl s
  · rw [countRead_of_no_errors errorless]
    exact keepsMemory_touchRead _ _ _ _ _ _ s

/-- A home follows from the declarations, the set and the placement of its job, from what has moved and from the devices of tier 3. -/
theorem homeOf_congr {h off : Nat} (mem : KeepsMemory s t) (decls : (t.job j).decls = (s.job j).decls) (cur : (t.job j).cur = (s.job j).cur)
    (place : (t.job j).place = (s.job j).place) (tiers : (t.job j).tiers = (s.job j).tiers) : homeOf t j h off = homeOf s j h off := by
  have code (d : Decl) : codeAt t j h off d = codeAt s j h off d := by
    unfold codeAt t3Devices codeOf
    dsimp only
    rw [cur, place, tiers, mem.cxl]
  have key : spreadKey t j h = spreadKey s j h := by
    unfold spreadKey
    rw [cur]
  have channel (d : Decl) : pcOf t j h (off / 4096) d = pcOf s j h (off / 4096) d := by
    unfold pcOf
    rw [mem.reloc, key]
  simp only [homeOf, State.decl, decls, code, key, channel]

theorem readsBad_of_onlyFails {h buf off n : Nat} (mem : KeepsMemory s t) (fails : OnlyFails j s t) (rising : Claims.rising s.w.jobs) :
    readsBad t j h buf off n = readsBad s j h buf off n := by
  obtain ⟨jrn, fail, own⟩ := fails.own rising
  have homes : ∀ off, homeOf t j h off = homeOf s j h off :=
    fun off => homeOf_congr mem (by rw [own]) (by rw [own]) (by rw [own]) (by rw [own])
  have down : deviceDown t = deviceDown s := by
    funext x
    simp only [deviceDown, mem.cxl]
  simp only [readsBad, State.isPoisoned, State.badAt, homesOf, homes, mem.poison, mem.stale, mem.cxl, down]

/-! ### A write that sets nothing off -/

theorem stageGranule_disarmed {h buf g : Nat} (disarmed : s.w.ck.armed = false) : stageGranule j h buf g s = s := by
  simp [stageGranule, disarmed]

theorem afterWrite_quiet {key n : Nat} (errorless : s.w.inject = []) (quiet : s.w.err.state ≠ 1) : afterWrite key n s = s := by
  simp [afterWrite, errorless, quiet]

/-- From `s` to `t` only marks of device memory change: poisoned units and stale granules. -/
def OnlyMarks (s t : State) : Prop := t = { s with w := { s.w with poison := t.w.poison, stale := t.w.stale } }

theorem OnlyMarks.keepsJobs (h : OnlyMarks s t) : KeepsJobs s t := by
  unfold KeepsJobs
  rw [h]

theorem onlyMarks_freshen (j h buf off n : Nat) (s : State) : OnlyMarks s (freshen j h buf off n s) := by
  unfold freshen
  split
  · rfl
  · split <;> rfl

theorem onlyMarks_clearBad (key n : Nat) (h : OnlyMarks s t) : OnlyMarks s (t.clearBad key n) := by
  unfold OnlyMarks State.clearBad
  rw [h]
  rfl

/-- A write with no checkpoint armed, no error in memory and no injection pending only clears marks beside the bytes it writes. -/
theorem onlyMarks_jobPut {h buf off : Nat} {bs : Bytes} (nonempty : 0 < bs.length) (disarmed : s.w.ck.armed = false)
    (errorless : s.w.inject = []) (quiet : s.w.err.state ≠ 1) : OnlyMarks (devWrite j h buf off bs s) (jobPut j h buf off bs s) := by
  have fresh := onlyMarks_freshen j h buf off bs.length (devWrite j h buf off bs s)
  have stays : jobPut j h buf off bs s =
      (freshen j h buf off bs.length (devWrite j h buf off bs s)).clearBad (devKey j h buf off) bs.length := by
    unfold jobPut
    rw [if_neg (by simpa using List.length_pos_iff.mp nonempty)]
    dsimp only
    rw [forAll_eq_self (fun g _ => stageGranule_disarmed disarmed)]
    refine afterWrite_quiet ?_ ?_ <;> rw [fresh]
    · exact errorless
    · exact quiet
  rw [stays]
  exact onlyMarks_clearBad _ _ fresh

/-! ### The accumulators cleared -/

theorem keepsJobs_modEngine (s : State) (i : Nat) (f : Se → Se) : KeepsJobs s (s.modEngine i f) := rfl

theorem keepsJobs_settleEngines (j : Nat) (whole : Bool) (s : State) : KeepsJobs s (settleEngines j whole s) :=
  (KeepsJobs.forAll _ _ (fun i s => keepsJobs_modEngine s i _) s).trans (.forAll _ _ (fun i s => keepsJobs_modEngine s i _) _)

theorem keepsJobs_clearAccs (j : Nat) (rows : List Nat) (s : State) :
    KeepsJobs (s.modJob j (fun b => { b with accs := [] })) (clearAccs j rows s) :=
  (keepsJobs_settleEngines j true _).trans (.forAll _ _ (fun i s => keepsJobs_modEngine s i _) _)

theorem onlyWorld_clearAccs (j : Nat) (rows : List Nat) (s : State) : OnlyWorld s (clearAccs j rows s) :=
  (OnlyWorld.modJob s j _).trans (keepsJobs_clearAccs j rows s).world

end Sys2Proof.Machine
end

section
/-! The row optimizers of a step run over its accumulators (R252, R254-R256). -/

namespace Sys2Proof.Machine

open Sys2Proof

section rows

variable {j : Nat} {c : Ctx} {s t : State}

/-! ### When they run -/

theorem exec_rowOptimizerUpdate (running : s.ctl.clk.frozen = false) (meaning : rowUpdates j s = t) (world : OnlyWorld s t) :
    exec (.rowOptimizerUpdate j) s = .next t := onWorld_fabric_of_onlyWorld running meaning world

theorem rowUpdates_waits (ctx : ctxOf s j = some c)
    (no : c.r.phase ≠ .beats 2 ∨ c.r.rowsDone = true ∨ ∀ x ∈ c.t.stages, isScatter x = false) : rowUpdates j s = s := by
  unfold rowUpdates
  simp -zeta only [ctx]
  extract_lets scs combined held
  refine if_pos ?_
  rcases no with beat | done | unscattered
  · simp [beat]
  · simp [done]
  · simp [show scs = [] from List.filter_eq_nil_iff.mpr (fun x hx => by simp [unscattered x hx])]

/-- The step `c` has SCATTER stages, each combined over its partners where it is to be, and its rows wait in beat 2. -/
structure RowsDue (c : Ctx) : Prop where
  beat : c.r.phase = .beats 2
  new : c.r.rowsDone = false
  scatters : ∃ x ∈ c.t.stages, isScatter x = true
  combined : ∀ x ∈ c.t.stages, isScatter x = true → fld (c.t.img.drop x.desc) 28 4 = 0 ∨ x.idx ∈ c.r.exchanged
  clean : c.r.fail = none

/-- Undo space that the updates of accumulators take (R256). -/
def undoNeed (c : Ctx) (accs : List (Nat × Acc)) : Nat :=
  sumNat (accs.map (fun p => match c.decl p.2.table with | some (_, d) => if p.2.flagged then 0 else 16 + rowBytes d | none => 0))

/-- An accumulator's row lies at a home that is held (R227). -/
def accsHeld (s : State) (j : Nat) (c : Ctx) : Bool :=
  (s.job j).accs.any (fun a => match c.decl a.table with | some (h, d) => !rowsFree s j h d [a.row] | none => false)

/-- Every accumulator's row is updated. -/
def rowsWritten (j : Nat) (c : Ctx) (s : State) : State := forAll (liveAccs s j c) (fun p s => updateOne j c p.2 s) s

/-- Each engine notes that the undo space in use has passed its threshold (R256). -/
def noteUndo (j : Nat) (c : Ctx) (room used : Nat) (s : State) : State :=
  (List.range 12).foldl (fun s i => if max room 1 * tget 75 s.cfg.seWarn i < used * 100 && undoUsed c.b * 100 ≤ max room 1 * tget 75 s.cfg.seWarn i
    then flt0 0x1702 (0x60 + i) j c.r.step s else s) s

/-- The row updates are marked as done. -/
def markRows (j : Nat) (s : State) : State := modRun j (fun r => { r with rowsDone := true }) s

/-- Rows that each engine writes. -/
def rowCounts (accs : List (Nat × Acc)) : List Nat :=
  (List.range 12).map (fun i => (accs.filter (fun p => p.1 = i && !p.2.flagged)).length)

theorem releaseUndo_fits {need room : Nat} (n : Nat) (fits : undoUsed (s.job j) + need ≤ room) : releaseUndo need room n j s = s := by
  cases n with
  | zero => rfl
  | succ n =>
    unfold releaseUndo
    exact if_pos (by simp [fits])

/-- Where the rows are due, free and have undo space, each is updated and the buffers are cleared. -/
theorem rowUpdates_goes (ctx : ctxOf s j = some c) (due : RowsDue c) (free : accsHeld s j c = false)
    (fits : undoUsed (s.job j) + undoNeed c (liveAccs s j c) ≤ undoRoom s c.t) :
    rowUpdates j s = clearAccs j (rowCounts (liveAccs s j c))
      (markRows j (noteUndo j c (undoRoom s c.t) (undoUsed ((rowsWritten j c s).job j)) (rowsWritten j c s))) := by
  obtain ⟨beat, new, ⟨x, member, scatter⟩, combined, clean⟩ := due
  have nonempty : (c.t.stages.filter isScatter).isEmpty = false := by
    rw [List.isEmpty_eq_false_iff_exists_mem]
    exact ⟨x, List.mem_filter.mpr ⟨member, scatter⟩⟩
  have all : (c.t.stages.filter isScatter).all (fun x => fld (c.t.img.drop x.desc) 28 4 = 0 || c.r.exchanged.contains x.idx) = true :=
    List.all_eq_true.mpr (fun x hx => by
      obtain ⟨member, scatter⟩ := List.mem_filter.mp hx
      simpa using combined x member scatter)
  unfold rowUpdates
  simp -zeta only [ctx]
  extract_lets scs comb held accs need room s1 done s2 rows used s3
  have same : s1 = s := releaseUndo_fits 16 fits
  have unheld : held = false := by
    simp only [held, Bool.and_eq_false_iff]
    exact .inr free
  rw [if_neg (by simp [beat, new, show scs.isEmpty = false from nonempty, show comb = true from all, unheld]), if_neg (by simp [clean]),
    if_neg (by rw [same]; exact Nat.not_lt.mpr fits)]
  simp only [s3, used, s2, same]
  rfl

theorem keepsJobs_noteUndo (room used : Nat) (s : State) : KeepsJobs s (noteUndo j c room used s) :=
  .forAll _ _ (fun _ s => .ite (keepsJobs_flt _ _ _ _ _ s) (.refl s)) s

/-- Nothing is noted where no more undo space is in use than at the start. -/
theorem noteUndo_of_le {room used : Nat} (low : used ≤ undoUsed c.b) : noteUndo j c room used s = s := by
  refine forAll_eq_self (fun i _ => if_neg ?_)
  simp only [Bool.and_eq_true, decide_eq_true_eq, not_and_or, Nat.not_lt, Nat.not_le]
  omega

/-! ### No accumulator -/

theorem rowUpdates_none (ctx : ctxOf s j = some c) (due : RowsDue c) (noAccs : (s.job j).accs = []) (fits : undoUsed (s.job j) ≤ undoRoom s c.t) :
    rowUpdates j s = clearAccs j (List.replicate 12 0) (markRows j s) := by
  have live : liveAccs s j c = [] := by simp [liveAccs, noAccs]
  have written : rowsWritten j c s = s := by
    rw [rowsWritten, live]
    rfl
  have base : c.b = s.job j := by rw [ctxOf_eq ctx]
  rw [rowUpdates_goes ctx due (by simp [accsHeld, noAccs]) (by rw [live]; exact fits), live, written, noteUndo_of_le (by rw [base])]
  rfl

/-! ### One accumulator -/

variable {a : Acc} {st : Stage} {h : Nat} {d : Decl}

/-- The row of an accumulator has been read for its update: units that are off fail the step (R64, R214). -/
def rowRead (j : Nat) (c : Ctx) (a : Acc) (h : Nat) (d : Decl) (s : State) : State :=
  readDev 1 j h (a.row * rowBytes d) (rowBytes d) (unitsFail j a.stage (tableOff s j h d [c.accEngine s a] [a.row]) s)

/-- The undo entry that keeps the row image which an update replaces (R256). -/
def undoEntry (s : State) (j : Nat) (c : Ctx) (a : Acc) (h : Nat) (d : Decl) : Undo :=
  { step := c.r.step, table := a.table, handle := h, row := a.row, image := tableRow s j h d a.row }

/-- The image that a row update writes (R254). -/
def rowImage (s : State) (j : Nat) (c : Ctx) (a : Acc) (st : Stage) (h : Nat) (d : Decl) : Bytes :=
  newRow (parseRowOpt (c.t.img.drop st.desc)) (c.r.sc.getD (parseRowOpt (c.t.img.drop st.desc)).lr 0) c.r.seed c.r.step a.table d a
    (tableRow s j h d a.row)

/-- A row optimizer can write the row of `a`: the row reads well and nothing is mirrored, staged or injected by the write. -/
structure RowWrites (s : State) (j : Nat) (c : Ctx) (a : Acc) (st : Stage) (h : Nat) (d : Decl) : Prop where
  ctx : ctxOf s j = some c
  rising : Claims.rising s.w.jobs
  unflagged : a.flagged = false
  stage : c.t.stage? a.stage = some st
  decl : c.decl a.table = some (h, d)
  good : readsBad s j h 0 (a.row * rowBytes d) (rowBytes d) = false
  errors : s.w.inject = []
  const : c.constBad = false
  mirror : s.w.mr.cutKnown = false
  disarmed : s.w.ck.armed = false
  quiet : s.w.err.state ≠ 1
  length : (rowImage s j c a st h d).length = rowBytes d
  nonempty : 0 < rowBytes d

theorem onlyFails_rowRead (j : Nat) (c : Ctx) (a : Acc) (h : Nat) (d : Decl) (s : State) : OnlyFails j s (rowRead j c a h d s) :=
  (onlyFails_unitsFail _ _ s).trans (.of_keepsJobs (keepsJobs_readDev _ _ _ _ _ _))

theorem keepsMemory_rowRead (errors : s.w.inject = []) : KeepsMemory s (rowRead j c a h d s) := by
  have failed := keepsMemory_unitsFail j a.stage (tableOff s j h d [c.accEngine s a] [a.row]) s
  exact failed.trans (keepsMemory_readDev (by rw [failed]; exact errors))

/-- Job `j` keeps an undo entry more. -/
def keepUndo (j : Nat) (u : Undo) (s : State) : State := s.modJob j (fun b => { b with undo := b.undo ++ [u] })

/-- The row's new image stands in memory, and the one it replaces in the undo list. -/
def rowPut (j : Nat) (c : Ctx) (a : Acc) (st : Stage) (h : Nat) (d : Decl) (s : State) : State :=
  jobPut j h 0 (a.row * rowBytes d) (rowImage s j c a st h d) (keepUndo j (undoEntry s j c a h d) s)

theorem mirrorRow_off {table row step : Nat} (off : s.w.mr.cutKnown = false) : mirrorRow j table h row step d s = s := by
  simp [mirrorRow, off]

namespace RowWrites

variable (w : RowWrites s j c a st h d)
include w

theorem mem : KeepsMemory s (rowRead j c a h d s) := keepsMemory_rowRead w.errors

/-- What the read of the row leaves is read as before. -/
theorem tableRow_rowRead (r : Nat) : tableRow (rowRead j c a h d s) j h d r = tableRow s j h d r := by
  simp only [tableRow, devRead, w.mem.dev]

theorem rowImage_rowRead : rowImage (rowRead j c a h d s) j c a st h d = rowImage s j c a st h d := by
  simp only [rowImage, w.tableRow_rowRead]

theorem undoEntry_rowRead : undoEntry (rowRead j c a h d s) j c a h d = undoEntry s j c a h d := by
  simp only [undoEntry, w.tableRow_rowRead]

theorem onlyMarks_rowPut :
    OnlyMarks (devWrite j h 0 (a.row * rowBytes d) (rowImage s j c a st h d) (keepUndo j (undoEntry s j c a h d) (rowRead j c a h d s)))
      (rowPut j c a st h d (rowRead j c a h d s)) := by
  unfold rowPut
  rw [w.rowImage_rowRead, w.undoEntry_rowRead]
  have mem : KeepsMemory s (keepUndo j (undoEntry s j c a h d) (rowRead j c a h d s)) := w.mem.trans (.modJob _ j _)
  exact onlyMarks_jobPut (by rw [w.length]; exact w.nonempty) (by rw [mem.ck, w.disarmed]) (by rw [mem.inject, w.errors])
    (by rw [mem.err]; exact w.quiet)

theorem updateOne : updateOne j c a s = rowPut j c a st h d (rowRead j c a h d s) := by
  have good : readsBad (rowRead j c a h d s) j h 0 (a.row * rowBytes d) (rowBytes d) = false :=
    (readsBad_of_onlyFails w.mem (onlyFails_rowRead j c a h d s) w.rising).trans w.good
  unfold Machine.updateOne
  simp -zeta only [w.stage, w.decl]
  extract_lets s1 o off old new s2
  rw [if_neg (by simp [w.unflagged]), if_neg (by simp [show readsBad s1 j h 0 off (rowBytes d) = false from good, w.const])]
  refine mirrorRow_off (d := d) ?_
  rw [show jobPut j h 0 off new s2 = _ from w.onlyMarks_rowPut]
  exact (congrArg Mr.cutKnown w.mem.mr).trans w.mirror

end RowWrites

/-! ### What the updates leave -/

/-- From `s`, with the other jobs as they were, memory holds `m` and job `j` keeps the undo entries `us`. -/
structure Holds (j : Nat) (m : Memory) (us : List Undo) (s t : State) : Prop where
  world : OnlyWorld s t
  others : ∀ k, k ≠ j → t.job k = s.job k
  rising : Claims.rising t.w.jobs
  dev : t.w.dev = m
  undo : (t.job j).undo = us

namespace Holds

variable {m : Memory} {us : List Undo} {u : State}

theorem of_onlyFails (fails : OnlyFails j s t) (rising : Claims.rising s.w.jobs) : Holds j s.w.dev (s.job j).undo s t where
  world := fails.kept.world
  others := fails.kept.others
  rising := fails.kept.rising rising
  dev := fails.kept.dev
  undo := by
    obtain ⟨_, _, own⟩ := fails.own rising
    rw [own]

theorem keepsJobs (g : Holds j m us s t) (k : KeepsJobs t u) : Holds j m us s u where
  world := g.world.trans k.world
  others i ne := (k.job i).trans (g.others i ne)
  rising := k.jobs ▸ g.rising
  dev := k.dev.trans g.dev
  undo := by rw [k.job, g.undo]

theorem modJob {f : Job → Job} {us' : List Undo} (g : Holds j m us s t) (undo : (f (t.job j)).undo = us') :
    Holds j m us' s (t.modJob j f) where
  world := g.world.trans (.modJob t j f)
  others i ne := (job_modJob_ne f t ne).trans (g.others i ne)
  rising := rising_tput _ _ _ _ g.rising
  dev := g.dev
  undo := by rw [job_modJob_self f g.rising, undo]

theorem keepUndo {x : Undo} (g : Holds j m us s t) : Holds j m (us ++ [x]) s (keepUndo j x t) := g.modJob (by rw [g.undo])

theorem devWrite {h buf off : Nat} {bs : Bytes} (g : Holds j m us s t) :
    Holds j (mwrite m (devKey j h buf off) bs) us s (devWrite j h buf off bs t) where
  world := g.world.trans (.onW t _)
  others := g.others
  rising := g.rising
  dev := by
    rw [← g.dev]
    rfl
  undo := g.undo

theorem markRows (g : Holds j m us s t) : Holds j m us s (markRows j t) := by
  unfold Machine.markRows modRun
  exact g.modJob g.undo

theorem clearAccs {rows : List Nat} (g : Holds j m us s t) : Holds j m us s (clearAccs j rows t) :=
  (g.modJob (us' := us) g.undo).keepsJobs (keepsJobs_clearAccs j rows t)

end Holds

theorem accs_clearAccs {rows : List Nat} (rising : Claims.rising s.w.jobs) : ((clearAccs j rows s).job j).accs = [] := by
  rw [(keepsJobs_clearAccs j rows s).job, job_modJob_self _ rising]

theorem RowWrites.holds (w : RowWrites s j c a st h d) :
    Holds j (mwrite s.w.dev (devKey j h 0 (a.row * rowBytes d)) (rowImage s j c a st h d)) ((s.job j).undo ++ [undoEntry s j c a h d]) s
      (rowPut j c a st h d (rowRead j c a h d s)) :=
  (Holds.of_onlyFails (onlyFails_rowRead j c a h d s) w.rising).keepUndo.devWrite.keepsJobs w.onlyMarks_rowPut.keepsJobs

/-- The step's one accumulator is written, and what it replaced is kept. -/
theorem rowUpdates_one (w : RowWrites s j c a st h d) (due : RowsDue c) (one : (s.job j).accs = [a]) (free : rowsFree s j h d [a.row] = true)
    (fits : undoUsed (s.job j) + 16 + rowBytes d ≤ undoRoom s c.t) :
    ((rowUpdates j s).job j).accs = [] ∧ Holds j (mwrite s.w.dev (devKey j h 0 (a.row * rowBytes d)) (rowImage s j c a st h d))
      ((s.job j).undo ++ [undoEntry s j c a h d]) s (rowUpdates j s) := by
  have live : liveAccs s j c = [(c.accEngine s a, a)] := by rw [liveAccs, one]; rfl
  have need : undoNeed c (liveAccs s j c) = 16 + rowBytes d := by simp [live, undoNeed, w.decl, w.unflagged, sumNat]
  have written : rowsWritten j c s = rowPut j c a st h d (rowRead j c a h d s) := by
    rw [rowsWritten, live]
    exact w.updateOne
  rw [rowUpdates_goes w.ctx due (by simp [accsHeld, one, w.decl, free]) (by rw [need]; omega), written]
  have marked := (w.holds.keepsJobs (keepsJobs_noteUndo (j := j) (c := c) (undoRoom s c.t)
    (undoUsed ((rowPut j c a st h d (rowRead j c a h d s)).job j)) _)).markRows
  exact ⟨accs_clearAccs marked.rising, marked.clearAccs⟩

end rows

/-- Settles O46: a stage or row update that is due unfolds to its parts, each of which changes the world alone; of one accumulator the
row's new bytes and the undo entry are followed through the read, the write and the clearing of the buffers; beats 3 and 4 lead to beat 5. -/
theorem boundaryWorkIsDoneInBeats : Obligations.BoundaryWorkIsDoneInBeats := by
  refine ⟨fun j st h len c g f d s sr ctx running stage fig decl beat update new fed clean prev good double length read => ?_,
    fun j st h c g f d s ctx running stage fig decl beat update new fed failed => ?_,
    fun j st h c g f d s ctx running stage fig decl no => ?_,
    fun j c s ctx running beat new scatters combined clean rising noAccs fits => ?_,
    fun j h c a st d new s ctx running beat due scatters combined clean rising one unflagged stage decl free good errors const fits mirror
      disarmed quiet wf image length nonempty => ?_,
    fun j c s ctx running no => exec_rowOptimizerUpdate running (rowUpdates_waits ctx no) (.refl s),
    fun j failed cals c c1 s ctx running unreported beat ups rows exch ctx1 => ?_,
    fun j failed cals c s ctx running unreported no => exec_boundaryPlacement running (boundaryPlacement_waits ctx unreported ?_) (.refl s)⟩
  · subst length read
    exact exec_updateStageStart running
      (updateStage_writes ctx stage fig decl (stageDue_of beat update new fed (.inl prev)) clean good double)
      ((onlyWorld_updateWritten j st c g f d s).trans ((onlyWorld_modRun _ _ _).trans (.modJob _ j _)))
  · exact exec_updateStageStart running (updateStage_failed ctx stage fig decl (stageDue_of beat update new fed (.inr failed)) failed)
      (onlyWorld_modRun _ _ s)
  · exact exec_updateStageStart running (updateStage_notDue ctx stage fig decl (stageDue_eq_false no)) (.refl s)
  · exact exec_rowOptimizerUpdate running (rowUpdates_none ctx ⟨beat, new, scatters, combined, clean⟩ noAccs fits)
      ((onlyWorld_modRun _ _ s).trans (onlyWorld_clearAccs _ _ _))
  · subst image
    have w : RowWrites s j c a st h d := ⟨ctx, rising, unflagged, stage, decl, good, errors, const, mirror, disarmed, quiet, length, nonempty⟩
    obtain ⟨cleared, held⟩ := rowUpdates_one w ⟨beat, due, scatters, combined, clean⟩ one free fits
    refine ⟨_, exec_rowOptimizerUpdate running rfl held.world, ⟨held.world.cfg, held.world.ctl, held.others⟩, cleared, ?_, held.undo, fun k out => ?_⟩
    · rw [tableRow, devRead, held.dev, ← w.length]
      exact mread_mwrite _ _ _ wf
    · rw [held.dev]
      exact mget_mwrite_out _ _ _ (by rw [w.length]; exact out)
  · exact exec_boundaryPlacement running (boundaryPlacement_goes ctx unreported beat (updatesDone_iff.mpr ⟨ups, rows, exch⟩) ctx1)
      ((onlyWorld_beat3 _ _ _).trans ((onlyWorld_beat4 _ _ _ _ _).trans (onlyWorld_modRun _ _ _)))
  · rw [Bool.and_eq_false_iff, beq_eq_false_iff_ne, ← Bool.not_eq_true, updatesDone_iff]
    rcases no with other | ⟨x, member, update, missing⟩ | ⟨x, member, exchange, missing⟩ | ⟨waits, x, member, scatter⟩
    · exact .inl other
    · exact .inr (fun ⟨ups, _, _⟩ => missing (ups x member update))
    · exact .inr (fun ⟨_, _, exch⟩ => missing (exch x member exchange))
    · refine .inr (fun ⟨_, rows, _⟩ => ?_)
      rcases rows with done | unscattered
      · exact Bool.false_ne_true (waits.symm.trans done)
      · exact Bool.false_ne_true ((unscattered x member).symm.trans scatter)

end Sys2Proof.Machine
end

section
/-! Steps start (R131, R160, R281, R413): what starting the oldest waiting step changes, whatever it finds. -/

namespace Sys2Proof.Machine

open Sys2Proof

variable {α : Type} {v : Job → α} {j : Nat} {s t u : State}

/-! ### One job changes -/

/-- From `s` to `t` the world alone changes: the commands in flight, the mirror and every job but `j` stand, and so does what the view
`v` shows of job `j`. -/
structure KeepsView (j : Nat) (v : Job → α) (s t : State) : Prop where
  world : OnlyWorld s t
  inflight : t.w.inflight = s.w.inflight
  mirror : t.w.mr = s.w.mr
  others : ∀ k, k ≠ j → t.job k = s.job k
  rising : Claims.rising s.w.jobs → Claims.rising t.w.jobs
  own : Claims.rising s.w.jobs → v (t.job j) = v (s.job j)

/-- The same, where anything of job `j` may change. -/
abbrev OnlyJob (j : Nat) (s t : State) : Prop := KeepsView j (fun _ => ()) s t

namespace KeepsView

theorem refl (s : State) : KeepsView j v s s := ⟨.refl s, rfl, rfl, fun _ _ => rfl, id, fun _ => rfl⟩

theorem trans (h : KeepsView j v s t) (k : KeepsView j v t u) : KeepsView j v s u where
  world := h.world.trans k.world
  inflight := k.inflight.trans h.inflight
  mirror := k.mirror.trans h.mirror
  others i ne := (k.others i ne).trans (h.others i ne)
  rising r := k.rising (h.rising r)
  own r := (k.own (h.rising r)).trans (h.own r)

theorem only (h : KeepsView j v s t) : OnlyJob j s t := ⟨h.world, h.inflight, h.mirror, h.others, h.rising, fun _ => rfl⟩

theorem modJob {f : Job → Job} (s : State) (same : v (f (s.job j)) = v (s.job j)) : KeepsView j v s (s.modJob j f) :=
  ⟨rfl, rfl, rfl, fun _ ne => job_modJob_ne f s ne, rising_tput _ _ _ _, fun r => by rw [job_modJob_self f r, same]⟩

/-- A change of the world outside the jobs, the commands in flight and the mirror. -/
theorem onW {f : World → World} (s : State)
    (same : (f s.w).jobs = s.w.jobs ∧ (f s.w).inflight = s.w.inflight ∧ (f s.w).mr = s.w.mr) : KeepsView j v s (s.onW f) := by
  obtain ⟨jobs, inflight, mirror⟩ := same
  have job (k : Nat) : (s.onW f).job k = s.job k := by simp only [State.job, State.onW_w, jobs]
  exact ⟨.onW s f, inflight, mirror, fun k _ => job k, fun r => by rwa [State.onW_w, jobs], fun _ => by rw [job]⟩

theorem of_onlyLog (h : OnlyLog s t) : KeepsView j v s t := by
  have jobs : t.w.jobs = s.w.jobs := by rw [h]
  have job (k : Nat) : t.job k = s.job k := by simp only [State.job, jobs]
  exact ⟨h.world, by rw [h], by rw [h], fun k _ => job k, fun r => jobs ▸ r, fun _ => by rw [job]⟩

theorem forAll {β : Type} {l : List β} {f : β → State → State} (hf : ∀ x s, KeepsView j v s (f x s)) (s : State) :
    KeepsView j v s (forAll l f s) := by
  unfold Machine.forAll
  induction l generalizing s with
  | nil => exact refl s
  | cons x r ih => exact (hf x s).trans (ih _)

end KeepsView

/-! ### The parts of starting a step -/

/-- What the job's queue of steps and its running step are. -/
def Job.steps (b : Job) : Option Nat × List (Instr × List (Nat × Nat × Nat)) × Option StepRun × Option Nat :=
  (b.nextStep, b.waiting, b.run, b.lastStarted)

theorem Job.steps_eq_iff {b c : Job} :
    b.steps = c.steps ↔ b.nextStep = c.nextStep ∧ b.waiting = c.waiting ∧ b.run = c.run ∧ b.lastStarted = c.lastStarted := by
  simp only [Job.steps, Prod.mk.injEq]

theorem keepsSteps_freeInputs (s : State) : KeepsView j Job.steps s (freeInputs j s) := by
  refine .forAll (fun c s => ?_) s
  split
  · rename_i mine
    unfold userUnpark
    rw [mine]
    split
    · exact .trans (.modJob s rfl) (.onW _ ⟨rfl, rfl, rfl⟩)
    · exact .refl s
  · exact .refl s

theorem keepsSteps_formCopy (img : SetImg) (id buf : Nat) (s : State) : KeepsView j Job.steps s (formCopy j img id buf s) := by
  unfold formCopy
  split
  · split
    · exact .refl s
    · exact .modJob s rfl
  · exact .refl s

theorem keepsSteps_formCopies (frozen : Bool) (s : State) : KeepsView j Job.steps s (formCopies frozen j s) := by
  unfold formCopies
  split
  · exact .refl s
  · refine .forAll (fun x s => ?_) s
    split
    · split
      · exact .refl s
      · exact keepsSteps_formCopy _ _ _ s
    · exact .refl s

theorem keepsView_undoCounts (i : Nat) (s : State) : KeepsView j v s (undoCounts i s) :=
  .forAll (fun _ s => .onW s ⟨rfl, rfl, rfl⟩) s

/-- The called-good entry of step `n` leaves the journal, with its undo entries (R407). -/
def dropEntry (j n : Nat) (s : State) : State :=
  event 0x0007 0x05 j n 0 (undoCounts j (s.modJob j (fun b => { b with
    jrn := b.jrn.filter (fun x => x.step != n), undo := b.undo.filter (fun u => u.step != n) })))

theorem keepsSteps_dropEntry (n : Nat) (s : State) : KeepsView j Job.steps s (dropEntry j n s) :=
  ((KeepsView.modJob s rfl).trans (keepsView_undoCounts j _)).trans (.of_onlyLog (onlyLog_event _ _ _ _ _ _))

theorem jrn_dropEntry (n : Nat) (rising : Claims.rising s.w.jobs) :
    ((dropEntry j n s).job j).jrn = (s.job j).jrn.filter (fun x => x.step != n) := by
  have kept : KeepsView j Job.jrn (s.modJob j (fun b => { b with
      jrn := b.jrn.filter (fun x => x.step != n), undo := b.undo.filter (fun u => u.step != n) })) (dropEntry j n s) :=
    (keepsView_undoCounts j _).trans (.of_onlyLog (onlyLog_event _ _ _ _ _ _))
  rw [kept.own (rising_tput _ _ _ _ rising), job_modJob_self _ rising]

theorem mem_insertBy {β : Type} {m : β → Nat} {x y : β} {l : List β} (h : y ∈ insertBy m x l) : y = x ∨ y ∈ l := by
  induction l with
  | nil => exact .inl (List.mem_singleton.mp h)
  | cons z r ih =>
    unfold insertBy at h
    split at h
    · exact List.mem_cons.mp h
    · rcases List.mem_cons.mp h with head | tail
      · exact .inr (head ▸ List.mem_cons_self)
      · exact (ih tail).imp_right (List.mem_cons_of_mem z)

theorem mem_of_mem_sortBy {β : Type} {m : β → Nat} {y : β} {l : List β} (h : y ∈ sortBy m l) : y ∈ l := by
  have inserted : ∀ (l acc : List β), y ∈ l.foldl (fun acc x => insertBy m x acc) acc → y ∈ acc ∨ y ∈ l := by
    intro l
    induction l with
    | nil => exact fun _ h => .inl h
    | cons x r ih =>
      intro acc h
      rcases ih _ h with earlier | later
      · exact (mem_insertBy earlier).symm.imp_right (fun (same : y = x) => same ▸ List.mem_cons_self)
      · exact .inr (List.mem_cons_of_mem x later)
  exact (inserted l [] h).resolve_left (List.not_mem_nil)

/-- The journal is trimmed by called-good entries alone. -/
theorem trimJournal_succ (n j : Nat) (s : State) : trimJournal (n + 1) j s = s ∨
    ∃ e ∈ (s.job j).jrn, e.good = true ∧ trimJournal (n + 1) j s = trimJournal n j (dropEntry j e.step s) := by
  rw [trimJournal]
  split_ifs
  · exact .inl rfl
  · split
    · exact .inl rfl
    · rename_i e found
      exact .inr ⟨e, mem_of_mem_sortBy (List.mem_of_find?_eq_some found), List.find?_some found, rfl⟩

theorem keepsSteps_trimJournal (n : Nat) (s : State) : KeepsView j Job.steps s (trimJournal n j s) := by
  induction n generalizing s with
  | zero => exact .refl s
  | succ n ih =>
    rcases trimJournal_succ n j s with stands | ⟨e, _, _, drops⟩
    · rw [stands]
      exact .refl s
    · rw [drops]
      exact (keepsSteps_dropEntry _ s).trans (ih _)

/-- An entry of a step that is not called good stays in the journal. -/
theorem mem_jrn_trimJournal {e : Jrn} (n : Nat) (rising : Claims.rising s.w.jobs) (member : e ∈ (s.job j).jrn)
    (uncalled : ∀ x ∈ (s.job j).jrn, x.step = e.step → x.good = false) : e ∈ ((trimJournal n j s).job j).jrn := by
  induction n generalizing s with
  | zero => exact member
  | succ n ih =>
    rcases trimJournal_succ n j s with stands | ⟨old, inJournal, good, drops⟩
    · rwa [stands]
    · have other : e.step ≠ old.step := fun same => by simp [uncalled old inJournal same.symm] at good
      rw [drops]
      refine ih ((keepsSteps_dropEntry _ s).rising rising) ?_ ?_ <;> rw [jrn_dropEntry _ rising]
      · exact List.mem_filter.mpr ⟨member, by simpa using other⟩
      · exact fun x inRest => uncalled x (List.mem_of_mem_filter inRest)

/-! ### A step is opened -/

theorem mirrorSend_unbound {kind flags tensor items off step cut : Nat} {data : Bytes} (unbound : s.w.mr.out = 0) :
    mirrorSend j kind flags tensor items off step cut data s = s := by
  simp [mirrorSend, unbound]

/-- A step whose run and journal entry stand as a STEP_RUN or LET_REPLAY has opened them (R160, R406). -/
structure Opened (j n seed report : Nat) (replay cons : Bool) (rest : List (Instr × List (Nat × Nat × Nat))) (s t : State) : Prop where
  only : OnlyJob j s t
  nextStep : (t.job j).nextStep = (s.job j).nextStep
  waiting : (t.job j).waiting = rest
  lastStarted : (t.job j).lastStarted = some n
  run : ∃ r, (t.job j).run = some r ∧ r.step = n ∧ r.seed = seed ∧ r.report = report ∧ r.replay = replay ∧ r.phase = .run ∧
    r.startNs = s.now ∧ (cons = true ∨ replay = true → r.conservative = true)
  entry : ∃ e ∈ (t.job j).jrn, e.step = n ∧ e.seed = seed ∧ e.good = false

/-- The counts that the module keeps for its newest step start from nothing. -/
def clearStepCounts (s : State) : State :=
  s.onW (fun w => { w with ump := { w.ump with samples := 0 }, ck := { w.ck with stallMax := 0 }, reel := { w.reel with blocks := 0 } })

theorem keepsView_clearStepCounts (s : State) : KeepsView j v s (clearStepCounts s) := .onW s ⟨rfl, rfl, rfl⟩

theorem openStep_opens {n seed list nIn report : Nat} {replay cons : Bool} {entries : List (Nat × Nat × Nat)}
    (rising : Claims.rising s.w.jobs) (unbound : s.w.mr.out = 0) :
    Opened j n seed report replay cons (s.job j).waiting s (openStep j n seed list nIn report replay cons entries s) := by
  have formed : KeepsView j Job.steps s (formCopies false j s) := keepsSteps_formCopies false s
  obtain ⟨next, waiting, _, _⟩ := Job.steps_eq_iff.mp (formed.own rising)
  unfold openStep
  extract_lets f b selftest c old e r s1
  have own : s1.job j = _ := job_modJob_self _ (formed.rising rising)
  have opens : OnlyJob j s (clearStepCounts s1) := (formed.only.trans (.modJob f rfl)).trans (keepsView_clearStepCounts s1)
  have risingO := opens.rising rising
  have unboundO : (clearStepCounts s1).w.mr.out = 0 := (congrArg Mr.out opens.mirror).trans unbound
  have trimmed : KeepsView j Job.steps (clearStepCounts s1) (trimJournal 16 j (clearStepCounts s1)) := keepsSteps_trimJournal 16 _
  obtain ⟨nextT, waitingT, runT, lastT⟩ := Job.steps_eq_iff.mp (trimmed.own risingO)
  have jrn : ((clearStepCounts s1).job j).jrn = b.jrn.filter (fun x => x.step != n) ++ [e] := congrArg Job.jrn own
  have started : f.now = s.now := congrArg (fun c : Ctl => c.clk.ns) formed.world.ctl
  have entry : e ∈ ((trimJournal 16 j (clearStepCounts s1)).job j).jrn := by
    refine mem_jrn_trimJournal 16 risingO ?_ ?_ <;> rw [jrn]
    · exact List.mem_append_right _ (List.mem_singleton_self e)
    · intro x inJournal same
      rcases List.mem_append.mp inJournal with older | new
      · exact absurd same (by simpa using (List.mem_filter.mp older).2)
      · rw [List.mem_singleton.mp new]
  rw [show s1.onW _ = clearStepCounts s1 from rfl, mirrorSend_unbound unboundO]
  refine ⟨opens.trans trimmed.only, nextT.trans ((congrArg Job.nextStep own).trans next), waitingT.trans ((congrArg Job.waiting own).trans waiting),
    lastT.trans (congrArg Job.lastStarted own), ⟨r, runT.trans (congrArg Job.run own), rfl, rfl, rfl, rfl, rfl, started, fun why => ?_⟩,
    ⟨e, entry, rfl, rfl, rfl⟩⟩
  show c = true
  rcases why with flagged | replayed
  · simp [c, flagged]
  · simp [c, replayed]

namespace Opened

variable {n seed report : Nat} {replay cons : Bool} {rest : List (Instr × List (Nat × Nat × Nat))}

/-- What comes before the opening may change the job but for its next step. -/
theorem after (opened : Opened j n seed report replay cons rest t u) (only : OnlyJob j s t)
    (next : (t.job j).nextStep = (s.job j).nextStep) : Opened j n seed report replay cons rest s u where
  only := only.trans opened.only
  nextStep := opened.nextStep.trans next
  waiting := opened.waiting
  lastStarted := opened.lastStarted
  run := by
    obtain ⟨r, running, step, seed, report, replay, phase, started, why⟩ := opened.run
    exact ⟨r, running, step, seed, report, replay, phase, started.trans (congrArg (fun c : Ctl => c.clk.ns) only.world.ctl), why⟩
  entry := opened.entry

/-- A port that is partly up is noted on the run (R343). -/
theorem partly (opened : Opened j n seed report replay cons rest s t) (rising : Claims.rising s.w.jobs) (partly : Bool) :
    Opened j n seed report replay cons rest s (modRunPartly j partly t) := by
  have own : (modRunPartly j partly t).job j = _ := job_modJob_self _ (opened.only.rising rising)
  refine ⟨opened.only.trans (.modJob t rfl), ?_, ?_, ?_, ?_, ?_⟩ <;> rw [own]
  · exact opened.nextStep
  · exact opened.waiting
  · exact opened.lastStarted
  · obtain ⟨r, running, asked⟩ := opened.run
    exact ⟨{ r with partly := partly }, by simp only [running, Option.map_some], asked⟩
  · exact opened.entry

end Opened

/-! ### The oldest waiting step starts -/

/-- The oldest waiting step leaves the queue and its inputs are in place. -/
def readied (j : Nat) (rest : List (Instr × List (Nat × Nat × Nat))) (s : State) : State :=
  (freeInputs j s).modJob j (fun b => { b with waiting := rest, topoDue := false })

theorem onlyJob_readied (rest : List (Instr × List (Nat × Nat × Nat))) (s : State) : OnlyJob j s (readied j rest s) :=
  (keepsSteps_freeInputs s).only.trans (.modJob _ rfl)

theorem steps_readied (rest : List (Instr × List (Nat × Nat × Nat))) (rising : Claims.rising s.w.jobs) :
    ((readied j rest s).job j).nextStep = (s.job j).nextStep ∧ ((readied j rest s).job j).waiting = rest := by
  have freed := keepsSteps_freeInputs (j := j) s
  obtain ⟨next, _⟩ := Job.steps_eq_iff.mp (freed.own rising)
  unfold readied
  rw [job_modJob_self _ (freed.rising rising)]
  dsimp only
  exact ⟨next, rfl⟩

theorem topoRefuses_settled (settled : (s.job j).topoDue = false) : topoRefuses s j = none := by
  simp [topoRefuses, settled]

section starts

variable {rest : List (Instr × List (Nat × Nat × Nat))} {h : Hdr} {n seed list nIn flags report : Nat}

theorem opened_of_readied {replay cons partly : Bool} {entries : List (Nat × Nat × Nat)} (rising : Claims.rising s.w.jobs)
    (unbound : s.w.mr.out = 0) : Opened j n seed report replay cons rest s
      (modRunPartly j partly (openStep j n seed list nIn report replay cons entries (readied j rest s))) := by
  have only : OnlyJob j s (readied j rest s) := onlyJob_readied rest s
  obtain ⟨next, waiting⟩ := steps_readied rest rising
  have opened : Opened j n seed report replay cons ((readied j rest s).job j).waiting (readied j rest s)
      (openStep j n seed list nIn report replay cons entries (readied j rest s)) :=
    openStep_opens (only.rising rising) ((congrArg Mr.out only.mirror).trans unbound)
  rw [waiting] at opened
  exact (opened.after only next).partly rising partly

/-- A waiting STEP_RUN with no inputs starts when nothing holds it (R160, R281). -/
theorem startWaiting_stepRun (waiting : (s.job j).waiting = (.stepRun h n seed list nIn flags report, []) :: rest)
    (free : Claims.freeToStart s j) (rising : Claims.rising s.w.jobs) :
    Opened j n seed report false (bit flags 0) rest s (startWaiting j s) := by
  obtain ⟨may, settled, room, unbound⟩ := free
  have starts : startWaiting j s = modRunPartly j (topoPartly s j)
      (openStep j n seed list nIn report false (bit flags 0) [] (readied j rest s)) := by
    unfold startWaiting
    rw [waiting]
    dsimp only
    rw [if_neg (by simp [may]), if_neg (by simp [room]), topoRefuses_settled settled]
    rfl
  rw [starts]
  exact opened_of_readied rising unbound

/-- A waiting LET_REPLAY of a step with no inputs runs it again when nothing holds it (R413). -/
theorem startWaiting_letReplay {e : Jrn} (waiting : (s.job j).waiting = (.letReplay h n, []) :: rest) (entry : (s.job j).entry? n = some e)
    (free : Claims.freeToStart s j) (rising : Claims.rising s.w.jobs) :
    Opened j n e.seed e.report true true rest s (startWaiting j s) := by
  obtain ⟨may, settled, room, unbound⟩ := free
  have starts : startWaiting j s = modRunPartly j (topoPartly s j)
      (openStep j n e.seed e.inputAddr e.nInputs e.report true true [] (readied j rest s)) := by
    unfold startWaiting
    rw [waiting]
    dsimp only
    rw [if_neg (by simp [may]), if_neg (by simp [room]), topoRefuses_settled settled]
    simp only [copyInputs, List.foldl_nil, entry]
    rfl
  rw [starts]
  exact opened_of_readied rising unbound

/-- No step starts while one runs. -/
theorem startWaiting_running (running : (s.job j).run ≠ none) : startWaiting j s = s := by
  have held : mayStart s j = false := by simp [mayStart, Option.isNone_eq_false_iff.mpr (Option.isSome_iff_ne_none.mpr running)]
  unfold startWaiting
  split
  · rfl
  · rw [if_pos (by simp [held])]

end starts

/-! ### Whatever holds a step, starting it changes the world alone -/

theorem onlyWorld_failWaiting (j status detail unit stage : Nat) (s : State) : OnlyWorld s (failWaiting j status detail unit stage s) := by
  unfold failWaiting
  dsimp only
  split
  · exact .refl s
  · exact (OnlyWorld.modJob s j _).trans (.forAll _ _ (fun _ s => onlyWorld_completeAll _ _ _ _ _ s) _)

theorem onlyWorld_pageRequest (j page : Nat) (s : State) : OnlyWorld s (pageRequest j page s) := (onlyReply_pageRequest j page s).world

theorem onlyWorld_userPark (c user j addr page : Nat) (s : State) : OnlyWorld s (userPark c user j addr page s) := by
  have parked (f : Job → Job) : OnlyWorld s ((s.setChan c { state := 2, user := user, job := j, parkAt := addr, kind := 2 }).modJob j f) := rfl
  exact .ite (onlyWorld_pageRequest j page s) (((parked _).trans (onlyWorld_flt _ _ _ _ _ _)).trans (onlyWorld_pageRequest _ _ _))

theorem onlyWorld_foldl_snd {β γ : Type} {f : β × State → γ → β × State} (hf : ∀ acc x, OnlyWorld acc.2 (f acc x).2) (l : List γ)
    (acc : β × State) : OnlyWorld acc.2 (l.foldl f acc).2 := by
  induction l generalizing acc with
  | nil => exact .refl acc.2
  | cons x r ih => exact (hf acc x).trans (ih _)

theorem onlyWorld_copyInputs (j : Nat) (entries : List (Nat × Nat × Nat)) (s : State) : OnlyWorld s (copyInputs j entries s).2 := by
  refine onlyWorld_foldl_snd (fun acc e => ?_) entries (none, s)
  obtain ⟨none | met, s⟩ := acc
  · dsimp only
    split
    · exact .refl s
    · split
      · exact .refl s
      · split
        · exact (onlyWorld_jobPut _ _ _ _ _ s).trans (onlyWorld_touch _ _ _ _ _ _ _ _)
        · exact .refl s
        · exact .refl s
  · exact .refl s

theorem onlyWorld_openStep (j n seed list nIn report : Nat) (replay cons : Bool) (entries : List (Nat × Nat × Nat)) (s : State) :
    OnlyWorld s (openStep j n seed list nIn report replay cons entries s) := by
  unfold openStep
  extract_lets f b selftest c old e r s1
  have opens : OnlyWorld s (clearStepCounts s1) := (keepsSteps_formCopies (j := j) false s).world.trans (.trans (.modJob f j _) (.onW s1 _))
  exact (opens.trans (onlyWorld_mirrorSend _ _ _ _ _ _ _ _ _ _)).trans (keepsSteps_trimJournal (j := j) 16 _).world

theorem onlyWorld_modRunPartly (j : Nat) (partly : Bool) (s : State) : OnlyWorld s (modRunPartly j partly s) := rfl

theorem onlyWorld_startWaiting (j : Nat) (s : State) : OnlyWorld s (startWaiting j s) := by
  unfold startWaiting
  split
  · exact .refl s
  · rename_i c entries rest _
    refine .ite (.refl s) ?_
    dsimp only
    refine .ite (onlyWorld_failWaiting _ _ _ _ _ s) ?_
    have freed {t : State} (h : (copyInputs j entries s).2 = t) : OnlyWorld s (freeInputs j t) :=
      (h ▸ onlyWorld_copyInputs j entries s).trans (keepsSteps_freeInputs (j := j) t).world
    split
    · exact onlyWorld_failWaiting _ _ _ _ _ s
    · rename_i t _ copied
      have ready := (freed (congrArg Prod.snd copied)).trans (.modJob _ j (fun b => { b with waiting := rest, topoDue := false }))
      refine .trans ?_ (onlyWorld_modRunPartly j _ _)
      split
      · exact ready.trans (onlyWorld_openStep _ _ _ _ _ _ _ _ _ _)
      · split
        · exact ready.trans (onlyWorld_openStep _ _ _ _ _ _ _ _ _ _)
        · exact onlyWorld_failWaiting _ _ _ _ _ s
      · exact ready
    · rename_i t _ copied
      exact ((freed (congrArg Prod.snd copied)).trans (onlyWorld_flt _ _ _ _ _ _)).trans (onlyWorld_failWaiting _ _ _ _ _ _)
    · rename_i t _ copied
      exact .ite (.refl s) ((congrArg Prod.snd copied ▸ onlyWorld_copyInputs j entries s).trans (onlyWorld_userPark _ _ _ _ _ _))
    · rename_i t _ _ _ copied
      exact (((freed (congrArg Prod.snd copied)).trans (onlyWorld_notePark _ _ _ _ _)).trans (onlyWorld_flt _ _ _ _ _ _)).trans
        (onlyWorld_failWaiting _ _ _ _ _ _)

end Sys2Proof.Machine
end

section
/-! STEP_RUN and LET_REPLAY are checked and accepted (R281, R413). -/

namespace Sys2Proof.Machine

open Sys2Proof

section acceptance

variable {cmd : Instr} {h : Hdr} {s t s1 : State} {j step seed list entries flags report n op : Nat}

/-! ### What a step packet answers -/

theorem onWorld_startWaiting {f : State → State} (meaning : f s = startWaiting j t) (world : OnlyWorld s t) :
    onWorld f s = .next (startWaiting j t) := by
  have whole := world.trans (onlyWorld_startWaiting j t)
  exact onWorld_of_eq meaning whole.pending whole.cfg whole.ctl

theorem onlyWorld_counted (h : Hdr) (s : State) : OnlyWorld s (counted h s) := rfl

/-- STEP_RUN whose own part refuses it is replied to, and what waits may start. -/
theorem exec_stepRun_refused {st d : Nat} (ready : Ready 0x0302 h s)
    (refuses : stepRunOwn (.stepRun h step seed list entries flags report) h step list entries flags (counted h s) = failC (counted h s) st d) :
    exec (.stepRun h step seed list entries flags report) s = .next (startWaiting h.job (finish 0x0302 h s st d 0xFF [] (counted h s))) :=
  onWorld_startWaiting (congrArg (startWaiting h.job) (startCmd_done ready refuses))
    ((onlyWorld_counted h s).trans (onlyReply_finish _ _ _ _ _ _ _ _).world)

/-- STEP_RUN whose own part accepts it stands in flight, and what waits may start. -/
theorem exec_stepRun_accepted {f : Job → Job} (ready : Ready 0x0302 h s)
    (accepted : stepRunOwn (.stepRun h step seed list entries flags report) h step list entries flags (counted h s) =
      .later ((counted h s).modJob h.job f) step 0) :
    exec (.stepRun h step seed list entries flags report) s = .next (startWaiting h.job (runsOn 0x0302 h s step 0 ((counted h s).modJob h.job f))) :=
  onWorld_startWaiting (congrArg (startWaiting h.job) (startCmd_later ready accepted)) rfl

theorem exec_letReplay_refused {st d : Nat} (ready : Ready 0x0602 h s)
    (refuses : letReplayOwn (.letReplay h step) h step (counted h s) = failC (counted h s) st d) :
    exec (.letReplay h step) s = .next (startWaiting h.job (finish 0x0602 h s st d 0xFF [] (counted h s))) :=
  onWorld_startWaiting (congrArg (startWaiting h.job) (startCmd_done ready refuses))
    ((onlyWorld_counted h s).trans (onlyReply_finish _ _ _ _ _ _ _ _).world)

theorem exec_letReplay_accepted {f : Job → Job} (ready : Ready 0x0602 h s)
    (accepted : letReplayOwn (.letReplay h step) h step (counted h s) = .later ((counted h s).modJob h.job f) step 1) :
    exec (.letReplay h step) s = .next (startWaiting h.job (runsOn 0x0602 h s step 1 ((counted h s).modJob h.job f))) :=
  onWorld_startWaiting (congrArg (startWaiting h.job) (startCmd_later ready accepted)) rfl

/-! ### The own checks of STEP_RUN (R281) -/

theorem stepRunOwn_otherStep (fixed : (s.job h.job).nextStep = some n) (other : n ≠ step) :
    stepRunOwn cmd h step list entries flags s = badC s 16 := by
  simp [stepRunOwn, fixed, other]

/-- A STEP_RUN of `step` is in the order of the job's steps. -/
def inOrder (s : State) (j step : Nat) : Prop := (s.job j).nextStep = none ∨ (s.job j).nextStep = some step

/-- A job with the staged flags of a STEP_RUN, which waits with its inputs; the next step number rises. -/
def queueStep (cmd : Instr) (step flags : Nat) (inputs : List (Nat × Nat × Nat)) (b : Job) : Job :=
  { stageForced flags b with nextStep := some (step + 1), waiting := b.waiting ++ [(cmd, inputs)] }

theorem stepRunOwn_inOrder (order : inOrder s h.job step) : stepRunOwn cmd h step list entries flags s =
    if 2 ≤ outstanding s 0x0302 h.job then failC s 0x21
    else if 1024 < entries then badC s 40
    else if bits flags 2 1 = 3 then badC s 42
    else if heldByOther s h.job && (s.job h.job).pstate = 0 then failC s 0x30
    else if (s.job h.job).cur.isNone then badC s 8
    else withRead s h.job list (32 * entries) 32 (fun bs =>
      .later (s.modJob h.job (queueStep cmd step flags (inputList bs entries))) step 0) := by
  unfold stepRunOwn
  extract_lets b
  rw [if_neg (by rcases order with free | next <;> simp [b, *])]
  rfl

variable (order : inOrder s h.job step)
include order

theorem stepRunOwn_full (full : 2 ≤ outstanding s 0x0302 h.job) : stepRunOwn cmd h step list entries flags s = failC s 0x21 := by
  rw [stepRunOwn_inOrder order, if_pos full]

variable (room : outstanding s 0x0302 h.job < 2)
include room

theorem stepRunOwn_long (long : 1024 < entries) : stepRunOwn cmd h step list entries flags s = badC s 40 := by
  rw [stepRunOwn_inOrder order, if_neg (by omega), if_pos long]

variable (short : entries ≤ 1024)
include short

theorem stepRunOwn_bothForced (both : bits flags 2 1 = 3) : stepRunOwn cmd h step list entries flags s = badC s 42 := by
  rw [stepRunOwn_inOrder order, if_neg (by omega), if_neg (by omega), if_pos both]

variable (one : bits flags 2 1 ≠ 3)
include one

theorem stepRunOwn_held (held : heldByOther s h.job = true) (present : (s.job h.job).pstate = 0) :
    stepRunOwn cmd h step list entries flags s = failC s 0x30 := by
  rw [stepRunOwn_inOrder order, if_neg (by omega), if_neg (by omega), if_neg one, if_pos (by simp [held, present])]

theorem stepRunOwn_accepts {bs : Bytes} (free : heldByOther s h.job = false) (set : (s.job h.job).cur ≠ none)
    (read : pktRead s h.job list (32 * entries) = .ok bs) : stepRunOwn cmd h step list entries flags s =
      .later (s.modJob h.job (queueStep cmd step flags (inputList bs entries))) step 0 := by
  rw [stepRunOwn_inOrder order, if_neg (by omega), if_neg (by omega), if_neg one, if_neg (by simp [free]), if_neg (by simp [set]),
    withRead, read]

end acceptance

section replay

variable {cmd : Instr} {h : Hdr} {s : State} {step : Nat}

/-! ### The own checks of LET_REPLAY (R413) -/

theorem letReplayOwn_noEntry (missing : (s.job h.job).entry? step = none) : letReplayOwn cmd h step s = badC s 16 := by
  simp [letReplayOwn, missing]

/-- A job in which a LET_REPLAY waits with the inputs of the step's entry; the next step number rises. -/
def queueReplay (cmd : Instr) (step : Nat) (inputs : List (Nat × Nat × Nat)) (b : Job) : Job :=
  { b with nextStep := some (step + 1), waiting := [(cmd, inputs)] }

theorem letReplayOwn_accepts {e : Jrn} (entry : (s.job h.job).entry? step = some e) (failed : e.failed = true) (noInputs : e.nInputs = 0)
    (next : (s.job h.job).nextStep = some step) (idle : (s.job h.job).run = none) (alone : (s.job h.job).waiting = []) :
    letReplayOwn cmd h step s = .later (s.modJob h.job (queueReplay cmd step e.inputs)) step 1 := by
  unfold letReplayOwn
  extract_lets b go
  rw [show b.entry? step = some e from entry]
  dsimp only
  rw [if_neg (by simp [b, next, failed]), if_neg (by simp [b, idle, alone]), if_neg (by simp [noInputs])]
  rfl

end replay

/-! ### What a job must show to start stands when its command is accepted -/

section free

variable {h : Hdr} {s : State} {j op a b : Nat} {f : Job → Job}

/-- A job that its accepted command has changed. -/
theorem job_accepted (rising : Claims.rising s.w.jobs) : (runsOn op h s a b ((counted h s).modJob j f)).job j = f (s.job j) :=
  job_modJob_self (s := counted h s) f rising

theorem rising_accepted (rising : Claims.rising s.w.jobs) : Claims.rising (runsOn op h s a b ((counted h s).modJob j f)).w.jobs :=
  rising_tput _ _ _ _ rising

/-- What a step that starts leaves of the state its command found: the settings, the control state, the command among those in flight and
the other jobs. -/
theorem frame_accepted {t : State} (only : OnlyJob j (runsOn op h s a b ((counted h s).modJob j f)) t) :
    t.cfg = s.cfg ∧ t.ctl = s.ctl ∧ accepts op h s a b ∈ t.w.inflight ∧ ∀ k, k ≠ j → t.job k = s.job k := by
  refine ⟨only.world.cfg, only.world.ctl, ?_, fun k other => (only.others k other).trans (job_modJob_ne f (counted h s) other)⟩
  rw [only.inflight]
  exact List.mem_append_right _ (List.mem_singleton_self _)

/-- What of a job decides whether its step may start. -/
def Job.startView (b : Job) : Option StepRun × Nat × Bool × Bool := (b.run, b.pstate, b.topoDue, b.noRoom)

theorem freeToStart_accepted (rising : Claims.rising s.w.jobs) (step : op ≠ 0x0103) (same : (f (s.job j)).startView = (s.job j).startView)
    (free : Claims.freeToStart s j) : Claims.freeToStart (runsOn op h s a b ((counted h s).modJob j f)) j := by
  obtain ⟨may, settled, room, unbound⟩ := free
  simp only [Job.startView, Prod.mk.injEq] at same
  obtain ⟨run, pstate, topoDue, noRoom⟩ := same
  have own := job_accepted (j := j) (op := op) (h := h) (a := a) (b := b) (f := f) rising
  refine ⟨?_, ?_, ?_, unbound⟩
  · have huddle : huddling (runsOn op h s a b ((counted h s).modJob j f)) j = huddling s j := rfl
    have bar : barOf (runsOn op h s a b ((counted h s).modJob j f)) j = barOf s j := rfl
    have inflight : (runsOn op h s a b ((counted h s).modJob j f)).w.inflight = s.w.inflight ++ [accepts op h s a b] := rfl
    unfold mayStart at may ⊢
    rw [own, huddle, bar, inflight, List.any_append]
    dsimp only at may ⊢
    rw [run, pstate]
    simpa [accepts, step] using may
  · rw [own, topoDue, settled]
  · rw [own, noRoom, room]

theorem startView_queueStep (cmd : Instr) (step flags : Nat) (inputs : List (Nat × Nat × Nat)) (b : Job) :
    (queueStep cmd step flags inputs b).startView = b.startView := by
  simp only [queueStep, Job.startView, stageForced]
  split_ifs <;> rfl

theorem run_queueStep (cmd : Instr) (step flags : Nat) (inputs : List (Nat × Nat × Nat)) (b : Job) :
    (queueStep cmd step flags inputs b).run = b.run := congrArg Prod.fst (startView_queueStep cmd step flags inputs b)

theorem run_of_mayStart (may : mayStart s j = true) : (s.job j).run = none := by
  unfold mayStart at may
  simp_all

/-- A read of no bytes meets no page. -/
theorem pktRead_nothing (s : State) (j addr : Nat) : pktRead s j addr 0 = .ok [] := by
  unfold pktRead
  split <;> rfl

end free

/-! ### A command that nothing holds starts its step at once -/

section atOnce

variable {h : Hdr} {s : State} {step seed list entries flags report : Nat} (start : Claims.freeToStart s h.job)
  (rising : Claims.rising s.w.jobs)
include start rising

theorem opened_stepRun (alone : (s.job h.job).waiting = []) :
    let queued := (counted h s).modJob h.job (queueStep (.stepRun h step seed list entries flags report) step flags [])
    Opened h.job step seed report false (bit flags 0) [] (runsOn 0x0302 h s step 0 queued)
      (startWaiting h.job (runsOn 0x0302 h s step 0 queued)) := by
  refine startWaiting_stepRun (h := h) (list := list) (nIn := entries) ?_
    (freeToStart_accepted rising (by decide) (startView_queueStep _ _ _ _ _) start) (rising_accepted rising)
  rw [job_accepted rising, queueStep, alone]
  rfl

theorem opened_letReplay {e : Jrn} (entry : (s.job h.job).entry? step = some e) :
    let queued := (counted h s).modJob h.job (queueReplay (.letReplay h step) step [])
    Opened h.job step e.seed e.report true true [] (runsOn 0x0602 h s step 1 queued)
      (startWaiting h.job (runsOn 0x0602 h s step 1 queued)) := by
  refine startWaiting_letReplay (h := h) ?_ ?_ (freeToStart_accepted rising (by decide) (by rfl) start) (rising_accepted rising) <;>
    rw [job_accepted rising]
  · rfl
  · exact entry

end atOnce

/-- Settles O39: each check of STEP_RUN and LET_REPLAY answers in its order; an accepted packet waits, behind a running step nothing starts,
and where nothing holds the job its step is opened, whose run, journal entry and frame the copying of inputs, the return copies and the trimming
of the journal leave. -/
theorem stepsAreAcceptedAndStart : Obligations.StepsAreAcceptedAndStart := by
  refine ⟨fun h step seed list entries flags report s ready => ⟨fun ⟨n, fixed, other⟩ => ?_, fun order =>
      ⟨fun full => ?_, fun room long => ?_, fun room short both => ?_, fun room short one held present => ?_,
        fun room short one free set => ⟨fun bs rising running read => ?_, fun empty alone start rising => ?_⟩⟩⟩,
    fun h step s ready => ⟨fun missing => ?_, fun e entry failed noInputs inputs next alone start rising => ?_⟩⟩
  · exact exec_stepRun_refused ready (stepRunOwn_otherStep fixed other)
  · exact exec_stepRun_refused ready (stepRunOwn_full order full)
  · exact exec_stepRun_refused ready (stepRunOwn_long order room long)
  · exact exec_stepRun_refused ready (stepRunOwn_bothForced order room short both)
  · exact exec_stepRun_refused ready (stepRunOwn_held order room short one held present)
  · have runs : ((runsOn 0x0302 h s step 0 ((counted h s).modJob h.job
        (queueStep (.stepRun h step seed list entries flags report) step flags (inputList bs entries)))).job h.job).run ≠ none := by
      rwa [job_accepted rising, run_queueStep]
    exact (exec_stepRun_accepted ready (stepRunOwn_accepts (s := counted h s) order room short one free set read)).trans
      (congrArg Host.Outcome.next (startWaiting_running runs))
  · subst empty
    have read : pktRead (counted h s) h.job list (32 * 0) = .ok [] := pktRead_nothing _ _ _
    have accepted := exec_stepRun_accepted (seed := seed) (report := report) ready
      (stepRunOwn_accepts (s := counted h s) order room short one free set read)
    have opened := opened_stepRun (step := step) (seed := seed) (list := list) (entries := 0) (flags := flags) (report := report) start rising alone
    obtain ⟨cfg, ctl, inflight, others⟩ := frame_accepted opened.only
    obtain ⟨r, running, ofStep, ofSeed, reports, replay, phase, started, why⟩ := opened.run
    obtain ⟨e, member, entryStep, entrySeed, good⟩ := opened.entry
    exact ⟨_, r, e, accepted, cfg, ctl, running, ofStep, ofSeed, reports, replay, phase, started, fun flag => why (.inl flag), member,
      entryStep, entrySeed, good, opened.lastStarted, opened.nextStep.trans (by rw [job_accepted rising]; rfl), opened.waiting, inflight, others⟩
  · exact exec_letReplay_refused ready (letReplayOwn_noEntry missing)
  · have ⟨may, _⟩ := start
    have accepted := exec_letReplay_accepted ready
      (letReplayOwn_accepts (s := counted h s) entry failed noInputs next (run_of_mayStart may) alone)
    rw [inputs] at accepted
    have opened := opened_letReplay start rising entry
    obtain ⟨cfg, ctl, inflight, others⟩ := frame_accepted opened.only
    obtain ⟨r, running, ofStep, ofSeed, _, replay, phase, _, why⟩ := opened.run
    exact ⟨_, r, accepted, cfg, ctl, running, ofStep, ofSeed, replay, why (.inl rfl), phase, inflight, others⟩

end Sys2Proof.Machine
end

section
/-! What replying leaves of the commands in flight and of the jobs (R275, R276, R300, R313): no command joins those in flight, the ones
replied to leave them, and of a job at most its count of faults changes. -/

namespace Sys2Proof.Machine

open Sys2Proof

variable {s t u : State}

/-- From `s` to `t` what replying may change: no command joins those in flight, and of each job the count of faults alone differs. -/
structure Answers (s t : State) : Prop where
  reply : OnlyReply s t
  inflight : t.w.inflight ⊆ s.w.inflight
  rising : Claims.rising s.w.jobs → Claims.rising t.w.jobs
  job : Claims.rising s.w.jobs → ∀ k, ∃ n a, t.job k = { s.job k with faults := n, lastFault := a }

namespace Answers

theorem of_jobs (reply : OnlyReply s t) (inflight : t.w.inflight ⊆ s.w.inflight) (jobs : t.w.jobs = s.w.jobs) : Answers s t :=
  ⟨reply, inflight, fun r => jobs ▸ r, fun _ k => ⟨(s.job k).faults, (s.job k).lastFault, by simp only [State.job, jobs]⟩⟩

theorem refl (s : State) : Answers s s := of_jobs (.refl s) (List.Subset.refl _) rfl

theorem trans (h : Answers s t) (k : Answers t u) : Answers s u where
  reply := h.reply.trans k.reply
  inflight := List.Subset.trans k.inflight h.inflight
  rising r := k.rising (h.rising r)
  job r i := by
    obtain ⟨_, _, first⟩ := h.job r i
    obtain ⟨n, a, second⟩ := k.job (h.rising r) i
    exact ⟨n, a, by rw [second, first]⟩

theorem ite {p : Prop} [Decidable p] (h : Answers s t) (k : Answers s u) : Answers s (if p then t else u) := by
  split
  · exact h
  · exact k

theorem of_onlyLog (h : OnlyLog s t) : Answers s t :=
  of_jobs h.reply (by rw [h]; exact List.Subset.refl _) (by rw [h])

theorem setQueue (s : State) (q : Nat) (c : Queue) : Answers s (s.setQueue q c) := of_jobs rfl (List.Subset.refl _) rfl
theorem modQueue (s : State) (q : Nat) (f : Queue → Queue) : Answers s (s.modQueue q f) := of_jobs rfl (List.Subset.refl _) rfl

theorem forAll {α : Type} {l : List α} {f : α → State → State} (hf : ∀ x s, Answers s (f x s)) (s : State) : Answers s (forAll l f s) := by
  unfold Machine.forAll
  induction l generalizing s with
  | nil => exact refl s
  | cons x r ih => exact (hf x s).trans (ih _)

end Answers

theorem answers_flt (cls unit job step : Nat) (loc : Loc) (s : State) : Answers s (flt cls unit job step loc s) :=
  .of_onlyLog (onlyLog_flt _ _ _ _ _ _)

theorem answers_countFault (j a : Nat) (s : State) :
    Answers s (s.modJob j (fun b => { b with faults := satAdd 32 b.faults 1, lastFault := a })) where
  reply := rfl
  inflight := List.Subset.refl _
  rising := rising_tput _ _ _ _
  job r k := by
    rcases eq_or_ne k j with rfl | other
    · exact ⟨_, _, job_modJob_self _ r⟩
    · exact ⟨(s.job k).faults, (s.job k).lastFault, job_modJob_ne _ s other⟩

theorem answers_notePark (ch j kind a : Nat) (s : State) : Answers s (notePark ch j kind a s) :=
  .trans (.ite (answers_countFault j a s) (.refl s)) (answers_flt _ _ _ _ _ _)

theorem answers_pageRequest (j page : Nat) (s : State) : Answers s (pageRequest j page s) :=
  .ite (.refl s) (.of_jobs rfl (List.Subset.refl _) rfl)

theorem answers_drainDone (q : Nat) (s : State) : Answers s (drainDone q s) := .ite (.setQueue s q _) (.refl s)

theorem answers_haltQueue (q err : Nat) (s : State) : Answers s (haltQueue q err s) :=
  ((Answers.modQueue s q _).trans (answers_flt _ _ _ _ _ _)).trans (.of_onlyLog (onlyLog_event _ _ _ _ _ _))

theorem answers_countReply (h : Hdr) (s : State) : Answers s (countReply h s) := by
  refine .trans (.trans (.modQueue s h.q _) (.ite ?_ (.refl _))) (answers_drainDone _ _)
  exact (Answers.modQueue _ _ _).trans (.of_onlyLog (onlyLog_fireVector _ _))

theorem answers_putReply (h : Hdr) (bs : Bytes) (s : State) : Answers s (putReply h bs s) := by
  refine .ite (.ite (.modQueue s h.q _) ?_) ((Answers.modQueue s h.q _).trans (answers_drainDone _ _))
  split
  · rename_i s1 wrote
    have log : OnlyLog s s1 := (congrArg (fun w => OnlyLog s w.2) wrote).mp (onlyLog_ringWrite _ _ _ _)
    exact (Answers.of_onlyLog log).trans (answers_countReply h s1)
  · exact .ite (((answers_notePark _ _ _ _ s).trans (.modQueue _ _ _)).trans (answers_pageRequest _ _ _))
      (((answers_notePark _ _ _ _ s).trans (.modQueue _ _ _)).trans (answers_haltQueue _ _ _))

/-- The commands in flight but those of one place in the order of acceptance. -/
def dropOrd (n : Nat) (s : State) : State := s.onW (fun w => { w with inflight := w.inflight.filter (fun x => x.ord != n) })

theorem answers_dropOrd (n : Nat) (s : State) : Answers s (dropOrd n s) := .of_jobs rfl (List.filter_subset_self _) rfl

theorem answers_settleFences (n : Nat) (s : State) : Answers s (settleFences n s) := by
  induction n generalizing s with
  | zero => exact .refl s
  | succ n ih =>
    unfold settleFences
    split
    · exact .refl s
    · exact ((answers_dropOrd _ s).trans (answers_putReply _ _ _)).trans (ih _)

section completing

variable {r : Run} {p : Run → Bool} {status detail unit : Nat} {bs : Bytes} {result : Run → Bytes}

/-- Completing a command is replying without it. -/
theorem answers_complete_dropOrd (r : Run) (s : State) : Answers (dropOrd r.ord s) (complete r status detail unit bs s) :=
  (answers_putReply _ _ _).trans (answers_settleFences _ _)

theorem answers_complete (r : Run) (s : State) : Answers s (complete r status detail unit bs s) :=
  (answers_dropOrd r.ord s).trans (answers_complete_dropOrd r s)

theorem ord_ne_of_mem_complete {x : Run} (left : x ∈ (complete r status detail unit bs s).w.inflight) : x.ord ≠ r.ord := by
  simpa using (List.mem_filter.mp ((answers_complete_dropOrd r s).inflight left)).2

theorem answers_completeAll (p : Run → Bool) (s : State) : Answers s (completeAll p status detail unit result s) :=
  .forAll (fun r s => answers_complete r s) s

theorem ord_ne_of_mem_completeEach {x r : Run} {l : List Run} (each : r ∈ l)
    (left : x ∈ (forAll l (fun r s => complete r status detail unit (result r) s) s).w.inflight) : x.ord ≠ r.ord := by
  induction l generalizing s with
  | nil => exact absurd each List.not_mem_nil
  | cons y l ih =>
    rcases List.mem_cons.mp each with rfl | later
    · exact ord_ne_of_mem_complete ((Answers.forAll (fun r s => answers_complete r s) _).inflight left)
    · exact ih later left

/-- No command that the test selects is left in flight. -/
theorem not_selected_of_mem_completeAll {x : Run} (left : x ∈ (completeAll p status detail unit result s).w.inflight) : p x = false := by
  by_contra selected
  have before : x ∈ s.w.inflight := (answers_completeAll p s).inflight left
  exact ord_ne_of_mem_completeEach (List.mem_filter.mpr ⟨before, by simpa using selected⟩) left rfl

theorem completeAll_none (unselected : ∀ x ∈ s.w.inflight, p x = false) : completeAll p status detail unit result s = s := by
  unfold completeAll
  rw [List.filter_eq_nil_iff.mpr (fun x hx => by simp [unselected x hx])]
  rfl

end completing

end Sys2Proof.Machine
end

section
/-! STEP_ABORT (R171, R282) and the micro-batch boundary that ends the visits of a step (R172). -/

namespace Sys2Proof.Machine

open Sys2Proof

section abort

variable {h : Hdr} {s t s1 : State} {r : StepRun} {j k op a b : Nat}

/-! ### STEP_ABORT -/

theorem not_accepted_finish {st d u : Nat} {res : Bytes} : accepted s (finish op h s st d u res s1) = false := by
  have gone : (finish op h s st d u res s1).w.inflight.any (fun r => r.ord == s.w.ordNext) = false :=
    List.any_eq_false.mpr (fun x left => by simpa [accepts] using ord_ne_of_mem_complete left)
  rw [accepted, gone, Bool.false_and]

theorem accepted_runsOn (waits : s1.w.waits = s.w.waits) : accepted s (runsOn op h s a b s1) = true := by
  simp [accepted, runsOn, accepts, waits]

theorem runStepAbort_idle (ready : Ready 0x0303 h s) (idle : (s.job h.job).run = none) :
    runStepAbort h s = finish 0x0303 h s 0x01 1 0xFF (leBytes 8 0) (counted h s) := by
  have own : stepAbortOwn h (counted h s) = noteC (counted h s) 1 (leBytes 8 0) := by
    rw [stepAbortOwn, job_counted, idle]
  rw [runStepAbort, startCmd_done ready own, if_neg (by simp [not_accepted_finish])]

theorem runStepAbort_running (ready : Ready 0x0303 h s) (running : (s.job h.job).run = some r) :
    runStepAbort h s = abortRun h.job (runsOn 0x0303 h s r.step 0 (counted h s)) := by
  have own : stepAbortOwn h (counted h s) = .later (counted h s) r.step 0 := by
    rw [stepAbortOwn, job_counted, running]
  rw [runStepAbort, startCmd_later ready own, if_pos (accepted_runsOn (s := s) (s1 := counted h s) rfl)]

theorem abortRun_beats (running : (s.job j).run = some r) (beat : r.phase = .beats k) :
    abortRun j s = modRun j (fun r => { r with abort := true, aborted := true }) s := by
  simp only [abortRun, running, beat]

/-- A running step cut at the micro-batches admitted so far (R171, R282). -/
def StepRun.cutHere (r : StepRun) : StepRun :=
  { r with abort := true, cut := some r.admitted, parts_ := r.parts_.filter (fun x => decide (x < r.admitted)) ++ [r.admitted] }

theorem abortRun_visits (running : (s.job j).run = some r) (visits : r.phase = .run) :
    abortRun j s = abortHuddle j (modRun j StepRun.cutHere s) := by
  simp only [abortRun, running, visits]
  rfl

theorem abortHuddle_undrained (undrained : stepDrained s j = false) : abortHuddle j s = s := by
  unfold abortHuddle
  split
  · rw [if_neg (by simp [undrained])]
  · rfl

theorem exec_stepAbort (meaning : runStepAbort h s = t) (world : OnlyWorld s t) : exec (.stepAbort h) s = .next t :=
  onWorld_of_eq meaning world.pending world.cfg world.ctl

end abort

section boundary

variable {j : Nat} {c : Ctx} {s : State}

/-! ### What nothing has struck -/

theorem poisonedStages_clean (tiles : ∀ x ∈ c.r.tiles, x.poison = false) (rows : ∀ x ∈ c.r.rows, x.2.2.2.2.poison = false) :
    poisonedStages j c s = s := by
  have noTile : c.r.tiles.find? (fun x => x.poison) = none := by simpa using tiles
  have noRow : c.r.rows.find? (fun x => x.2.2.2.2.poison) = none := List.find?_eq_none.mpr (fun x hx => by simp [rows x hx])
  rw [poisonedStages, noTile, noRow]

theorem fireCell_unarmed (unarmed : s.w.err.state ≠ 1) : fireCell c s = s := if_neg (by simp [unarmed])

theorem storePoison_clean (clean : badCells c s = []) : storePoison j c s = s := by
  rw [storePoison, clean]
  rfl

theorem tget_of_forall {α : Type} {p : α → Prop} {d : α} {l : Tab α} (k : Nat) (fallback : p d) (each : ∀ e ∈ l, p e.2) :
    p (tget d l k) := by
  induction l with
  | nil => exact fallback
  | cons e l ih =>
    unfold tget
    split
    · exact each e List.mem_cons_self
    · exact ih (fun x hx => each x (List.mem_cons_of_mem e hx))

theorem figureFaults_clean (clean : ∀ e ∈ s.w.cells, e.2.figBad = false) : figureFaults j c s = s := by
  have sound (k : Nat) : (s.cell k).figBad = false := tget_of_forall (p := fun x : Cell => x.figBad = false) k rfl clean
  rw [figureFaults, List.find?_eq_none.mpr (fun k _ => by simp [sound k])]

/-! ### The visits end -/

theorem stepBoundary_waits (ctx : ctxOf s j = some c) (goes : c.r.abort = false) (undone : c.finished = false) : stepBoundary j s = s := by
  unfold stepBoundary
  rw [ctx]
  simp [goes, undone]

theorem stepBoundary_ends (ctx : ctxOf s j = some c) (visits : c.r.phase = .run) (goes : c.r.abort = false) (done : c.finished = true)
    (noRows : c.t.stages.any isScatter = false) : stepBoundary j s =
      startExchanges j (settleEngines j true (leaveVisits j c (figureFaults j c (storePoison j c (fireCell c (poisonedStages j c s)))))) := by
  unfold stepBoundary
  rw [ctx]
  simp [visits, goes, done, noRows]

theorem startExchanges_none (img : (s.job j).cur = some c.t) (no : ∀ st ∈ c.t.stages, isExchange st = false ∧ isScatter st = false) :
    startExchanges j s = s := by
  unfold startExchanges
  split
  · rfl
  · rename_i c1 ctx1
    have same : c1.t = c.t := Option.some.inj ((cur_of_ctxOf ctx1).symm.trans img)
    rw [same, List.filter_eq_nil_iff.mpr (fun st hst => by simp [(no st hst).1]), List.filter_eq_nil_iff.mpr (fun st hst => by simp [(no st hst).2])]
    rfl

/-! ### What the end of the visits leaves of the job -/

theorem onlyWorld_settleEngines (whole : Bool) (s : State) : OnlyWorld s (settleEngines j whole s) :=
  (OnlyWorld.forAll _ _ (fun _ s => .onW s _) s).trans (.forAll _ _ (fun _ s => .onW s _) _)

theorem keepsView_settleEngines {α : Type} {v : Job → α} (whole : Bool) (s : State) : KeepsView j v s (settleEngines j whole s) :=
  (KeepsView.forAll (fun _ s => .onW s ⟨rfl, rfl, rfl⟩) s).trans (keepsView_undoCounts j _)

/-- A step past its visits: beat 2 begins, and its items, rows and parts are dropped (R172). -/
def StepRun.pastVisits (r : StepRun) : StepRun := { r with phase := .beats 2, items := [], rows := [], parts := [], pushed := [] }

theorem job_leaveVisits (rising : Claims.rising s.w.jobs) :
    ((leaveVisits j c s).job j).run = (s.job j).run.map StepRun.pastVisits ∧ ((leaveVisits j c s).job j).cur = (s.job j).cur := by
  have rising1 : Claims.rising (modRun j StepRun.pastVisits s).w.jobs := rising_tput _ _ _ _ rising
  have own : (modRun j StepRun.pastVisits s).job j = { s.job j with run := (s.job j).run.map StepRun.pastVisits } := job_modJob_self _ rising
  have kept : KeepsView j (fun b => (b.run, b.cur)) (modRun j StepRun.pastVisits s) (leaveVisits j c s) := .modJob _ (by split_ifs <;> rfl)
  obtain ⟨run, cur⟩ := Prod.mk.inj (kept.own rising1)
  exact ⟨run.trans (by rw [own]), cur.trans (by rw [own])⟩

theorem stepBoundary_clean (ctx : ctxOf s j = some c) (visits : c.r.phase = .run) (goes : c.r.abort = false) (done : c.finished = true)
    (tiles : ∀ x ∈ c.r.tiles, x.poison = false) (rows : ∀ x ∈ c.r.rows, x.2.2.2.2.poison = false)
    (no : ∀ st ∈ c.t.stages, isExchange st = false ∧ isScatter st = false) (unarmed : s.w.err.state ≠ 1) (sound : badCells c s = [])
    (figures : ∀ e ∈ s.w.cells, e.2.figBad = false) (rising : Claims.rising s.w.jobs) :
    stepBoundary j s = settleEngines j true (leaveVisits j c s) ∧
      ((settleEngines j true (leaveVisits j c s)).job j).run = some c.r.pastVisits := by
  have noRows : c.t.stages.any isScatter = false := List.any_eq_false.mpr (fun st hst => by simp [(no st hst).2])
  have idle : KeepsView j (fun b => (b.run, b.cur)) (leaveVisits j c s) (settleEngines j true (leaveVisits j c s)) := keepsView_settleEngines true _
  obtain ⟨run, cur⟩ := job_leaveVisits (c := c) rising
  obtain ⟨sameRun, sameCur⟩ := Prod.mk.inj (idle.own (rising_tput _ _ _ _ (rising_tput _ _ _ _ rising)))
  constructor
  · rw [stepBoundary_ends ctx visits goes done noRows, poisonedStages_clean tiles rows, fireCell_unarmed unarmed, storePoison_clean sound,
      figureFaults_clean figures, startExchanges_none ((sameCur.trans cur).trans (cur_of_ctxOf ctx)) no]
  · have running : (s.job j).run = some c.r := run_of_ctxOf ctx
    rw [sameRun, run, running]
    rfl

theorem exec_stepBoundary {t : State} (running : s.ctl.clk.frozen = false) (meaning : stepBoundary j s = t) (world : OnlyWorld s t) :
    exec (.stepBoundary j) s = .next t := onWorld_fabric_of_onlyWorld running meaning world

end boundary

/-- Settles O40: STEP_ABORT is noted where no step runs and else marks or cuts the step; a boundary that nothing strikes drops what the
visits held and settles the engines. -/
theorem stepsAreAborted : Obligations.StepsAreAborted := by
  refine ⟨fun h s ready => ⟨fun idle => ?_, fun r k running beat => ?_, fun r running visits _ undrained => ?_⟩,
    fun j c s clocked ctx visits goes rising => ⟨fun undone => ?_, fun done tiles rows no unarmed sound figures => ?_⟩⟩
  · exact exec_stepAbort (runStepAbort_idle ready idle) ((onlyWorld_counted h s).trans (onlyReply_finish _ _ _ _ _ _ _ _).world)
  · exact exec_stepAbort ((runStepAbort_running ready running).trans (abortRun_beats running beat)) rfl
  · exact exec_stepAbort (((runStepAbort_running ready running).trans (abortRun_visits running visits)).trans (abortHuddle_undrained undrained)) rfl
  · exact exec_stepBoundary clocked (stepBoundary_waits ctx goes undone) (.refl s)
  · obtain ⟨meaning, run⟩ := stepBoundary_clean ctx visits goes done tiles rows no unarmed sound figures rising
    have left : OnlyWorld s (leaveVisits j c s) := rfl
    exact ⟨exec_stepBoundary clocked meaning (left.trans (onlyWorld_settleEngines true _)), run⟩

end Sys2Proof.Machine
end

section
/-! Modes are prepared, committed and applied (R176-R178, R180). -/

namespace Sys2Proof.Machine

open Sys2Proof

section prepare

variable {h : Hdr} {e : Nat} {s s1 : State} {b : Job}

/-! ### MODE_PREPARE -/

theorem exec_modePrepare {st d : Nat} {res : Bytes} (ready : Ready 0x0304 h s)
    (answers : modePrepareOwn h e (counted h s) = .done s1 st d 0xFF res) (world : OnlyWorld s s1) :
    exec (.modePrepare h e) s = .next (finish 0x0304 h s st d 0xFF res s1) :=
  onWorld_done ready answers world.pending world.cfg world.ctl

/-- The epochs that a job may prepare: the 127 after the one in force, above the last one prepared (R177, check 1). -/
def Job.mayPrepare (b : Job) (e : Nat) : Prop := b.modeEpoch < e ∧ e ≤ b.modeEpoch + 127 ∧ b.lastPrepared < e

theorem Job.mayPrepare_iff :
    (decide (b.modeEpoch < e) && decide (e ≤ b.modeEpoch + 127) && decide (b.lastPrepared < e)) = true ↔ b.mayPrepare e := by
  simp only [Job.mayPrepare, Bool.and_eq_true, decide_eq_true_eq, and_assoc]

/-- An epoch that may be prepared is not the one in force. -/
theorem preparedBefore_of_mayPrepare (may : b.mayPrepare e) : preparedBefore b e = false := by
  have later : e ≠ b.modeEpoch := Nat.ne_of_gt may.1
  simp [preparedBefore, later]

theorem modePrepareOwn_before (unstaged : (s.job h.job).stagedMode = none) (before : preparedBefore (s.job h.job) e = true) :
    modePrepareOwn h e s = okC s (leBytes 4 e) := by
  simp [modePrepareOwn, unstaged, before]

theorem modePrepareOwn_outside (unstaged : (s.job h.job).stagedMode = none) (new : preparedBefore (s.job h.job) e = false)
    (outside : ¬ (s.job h.job).mayPrepare e) : modePrepareOwn h e s = badC s 16 := by
  rw [← Job.mayPrepare_iff, Bool.not_eq_true] at outside
  simp -zeta only [modePrepareOwn]
  extract_lets b same
  rw [if_neg (by simp [same, b, unstaged, new]), if_pos (by rw [show _ = false from outside]; rfl)]

/-- A job whose staged settings are the mode of epoch `e`, placed anew where the check found a placement (R177). -/
def Job.prepared (b : Job) (pl : Option Place) (e : Nat) : Job :=
  let b1 := { b with stagedPlace := pl.getD b.stagedPlace }
  { b1 with stagedMode := some (stagedAs b1 e), lastPrepared := e, commit := none }

/-- What decides on an epoch that may be prepared (R177, checks 2 to 4). -/
def prepareChecks (h : Hdr) (e : Nat) (s : State) : Cmd :=
  if !firstGood (s.job h.job) then failC s 0x30
  else if (modeUnits (stagedAs (s.job h.job) e)).any (fun u => !s.unitOn u) || (absentLink s (stagedAs (s.job h.job) e)).isSome then failC s 0x20
  else match stagedFits s h.job with
    | none => failC s 0x20
    | some pl => okC ((abortMode h.job s).setJob h.job ((s.job h.job).prepared pl e)) (leBytes 4 e)

theorem modePrepareOwn_may (unstaged : (s.job h.job).stagedMode = none) (may : (s.job h.job).mayPrepare e) :
    modePrepareOwn h e s = prepareChecks h e s := by
  have new := preparedBefore_of_mayPrepare may
  rw [← Job.mayPrepare_iff] at may
  simp -zeta only [modePrepareOwn]
  extract_lets b same
  rw [if_neg (by simp [same, b, unstaged, new]), if_neg (by rw [show _ = true from may]; decide), uncapable_false, if_neg Bool.false_ne_true]
  unfold prepareChecks
  rcases stagedFits s h.job with _ | _ | p <;> rfl

theorem prepareChecks_early (early : firstGood (s.job h.job) = false) : prepareChecks h e s = failC s 0x30 :=
  if_pos (by simp [early])

theorem prepareChecks_disabled {u : Nat} (good : firstGood (s.job h.job) = true) (holds : u ∈ modeUnits (stagedAs (s.job h.job) e))
    (off : s.unitOn u = false) : prepareChecks h e s = failC s 0x20 := by
  have anyOff : (modeUnits (stagedAs (s.job h.job) e)).any (fun u => !s.unitOn u) = true := List.any_eq_true.mpr ⟨u, holds, by simp [off]⟩
  rw [prepareChecks, if_neg (by simp [good]), if_pos (by simp [anyOff])]

theorem abortMode_uncommitted {j : Nat} (uncommitted : ∀ r ∈ s.w.inflight, r.op ≠ 0x0305) :
    abortMode j s = s.modJob j (fun b => { b with stagedMode := none, commit := none }) :=
  completeAll_none (fun r hr => by simp [uncommitted r hr])

theorem prepareChecks_stages {pl : Option Place} (good : firstGood (s.job h.job) = true)
    (on : ∀ u ∈ modeUnits (stagedAs (s.job h.job) e), s.unitOn u = true) (linked : absentLink s (stagedAs (s.job h.job) e) = none)
    (fits : stagedFits s h.job = some pl) (uncommitted : ∀ r ∈ s.w.inflight, r.op ≠ 0x0305) : prepareChecks h e s =
      okC ((s.modJob h.job (fun b => { b with stagedMode := none, commit := none })).setJob h.job ((s.job h.job).prepared pl e)) (leBytes 4 e) := by
  have noneOff : (modeUnits (stagedAs (s.job h.job) e)).any (fun u => !s.unitOn u) = false := List.any_eq_false.mpr (fun u hu => by simp [on u hu])
  rw [prepareChecks, if_neg (by simp [good]), if_neg (by simp [noneOff, linked]), fits, abortMode_uncommitted uncommitted]

end prepare

section commit

variable {h : Hdr} {e step : Nat} {m : Mode} {s : State}

/-! ### MODE_COMMIT -/

theorem modeCommitOwn_otherEpoch (staged : (s.job h.job).stagedMode = some m) (other : m.epoch ≠ e) (first : (s.job h.job).lastCommit = none) :
    modeCommitOwn h e step s = badC s 16 := by
  simp [modeCommitOwn, staged, other, first]

/-- The step that a MODE_COMMIT names has started (R178). -/
def stepStarted (b : Job) (step : Nat) : Bool := match b.lastStarted with | some n => decide (step ≤ n) | none => false

/-- While its mode is staged, a MODE_COMMIT repeats none that has ended. -/
theorem modeCommitOwn_staged (staged : (s.job h.job).stagedMode = some m) (epoch : m.epoch = e) : modeCommitOwn h e step s =
    if stepStarted (s.job h.job) step then badC s 24
    else .later (s.setJob h.job { s.job h.job with commit := some (match (s.job h.job).commit with
      | some n => min n step
      | none => step) }) e step := by
  simp -zeta only [modeCommitOwn]
  extract_lets b named ended
  have named_eq : named = true := by simp [named, b, staged, epoch]
  have ended_eq : ended = none := by
    simp only [ended, named_eq]
    split
    · simp
    · rfl
  rw [ended_eq, if_neg (by simp), show b.stagedMode = some m from staged]
  dsimp only
  rw [if_neg (by simp [epoch])]
  rfl

end commit

section apply

variable {j unit u : Nat} {r : StepRun} {m : Mode} {s t : State}

/-! ### MODE_APPLY -/

/-- A unit cannot apply the staged mode: event 0x2302, and the apply outcome of the step is false (R178). -/
def cannotApply (j u : Nat) (r : StepRun) (s : State) : State :=
  flt 0x2302 u j r.step (locCause 0 u) (modRun j (fun r => { r with applyOk := some false, failUnit := u }) s)

/-- The unit that cannot apply the staged mode (R178): the one that says so, else the first one that is disabled. -/
def refusingUnit (unit : Nat) (m : Mode) (s : State) : Option Nat :=
  if unit != 0xFF then some unit else (modeUnits m).find? (fun u => !s.unitOn u)

theorem onlyWorld_cannotApply : OnlyWorld s (cannotApply j u r s) := (onlyWorld_modRun j _ s).trans (onlyWorld_flt _ _ _ _ _ _)

/-- A job whose mode has become `m`, which names no set and no compression, for the step after `r` (R177, R178). -/
def Job.settingsApplied (b : Job) (m : Mode) (n : Nat) : Job :=
  let b0 := b.applyMode m n
  let b1 := match m.place with
    | some p => { b0 with place := { b0.place with homes := p.homes } }
    | none => b0
  { b1 with tiers := b.tiers, run := b1.run.map (fun r => { r with applyOk := some true }), prevOld := b.prev }

theorem modeApply_idle (running : (s.job j).run = some r) (idle : r.phase ≠ .beats 5 ∨ (s.job j).commit = none) : modeApply j unit s = s := by
  simp -zeta only [modeApply]
  extract_lets b
  split
  · rename_i r1 m1 n1 run staged commit
    obtain rfl : r1 = r := Option.some.inj (run.symm.trans running)
    refine if_pos ?_
    rcases idle with other | uncommitted
    · simp [other]
    · exact absurd (commit.symm.trans uncommitted) (by simp)
  · rfl

variable (running : (s.job j).run = some r) (beat : r.phase = .beats 5) (unapplied : r.applyOk = none)
  (staged : (s.job j).stagedMode = some m) (commit : (s.job j).commit = some (r.step + 1))
include running beat unapplied staged commit

theorem modeApply_refused (refuses : refusingUnit unit m s = some u) : modeApply j unit s = cannotApply j u r s := by
  simp -zeta only [modeApply]
  extract_lets b
  rw [show b.run = some r from running, show b.stagedMode = some m from staged, show b.commit = some (r.step + 1) from commit]
  dsimp -zeta only
  extract_lets no
  rw [if_neg (by simp [beat, unapplied])]
  unfold refusingUnit at refuses
  split at refuses
  · rename_i told
    rw [if_pos told, Option.some.inj refuses]
    rfl
  · rename_i untold
    rw [if_neg untold, refuses]
    rfl

theorem modeApply_settings (on : ∀ u ∈ modeUnits m, s.unitOn u = true) (noSet : m.set = none) (noCompress : m.compress = []) :
    modeApply j 0xFF s = syncPlan false (s.setJob j ((s.job j).settingsApplied m (r.step + 1))) := by
  have noneOff : (modeUnits m).find? (fun u => !s.unitOn u) = none := List.find?_eq_none.mpr (fun u hu => by simp [on u hu])
  have linked : absentLink s m = none := by rw [absentLink, noSet]
  have placed : placeMode s j m = .ok (m, none) := by rw [placeMode, noSet, noCompress]; rfl
  simp -zeta only [modeApply]
  extract_lets b
  rw [show b.run = some r from running, show b.stagedMode = some m from staged, show b.commit = some (r.step + 1) from commit]
  dsimp -zeta only
  extract_lets no
  rw [if_neg (by simp [beat, unapplied]), if_neg (by decide), noneOff, linked, placed]
  unfold Job.settingsApplied
  simp only [noSet]
  cases m.place <;> rfl

end apply

/-- What a mode without a set and without compression makes of the job (R177, R178). -/
theorem Job.settingsApplied_fields {m : Mode} (b : Job) (n : Nat) (noSet : m.set = none) :
    (b.settingsApplied m n).modeEpoch = m.epoch ∧ (b.settingsApplied m n).k = m.k.getD b.k ∧ (b.settingsApplied m n).chk = m.chk.getD b.chk ∧
      (b.settingsApplied m n).forced = m.forced.getD b.forced ∧ (b.settingsApplied m n).prev = some b.modeRec ∧
      (b.settingsApplied m n).cur = b.cur ∧ (b.settingsApplied m n).stagedMode = none ∧ (b.settingsApplied m n).commit = none ∧
      (b.settingsApplied m n).run = b.run.map (fun r => { r with applyOk := some true }) := by
  unfold Job.settingsApplied Job.applyMode
  rw [noSet]
  cases m.place <;> exact ⟨rfl, rfl, rfl, rfl, rfl, rfl, rfl, rfl, rfl⟩

theorem exec_modeApply {j unit : Nat} {s t : State} (clocked : s.ctl.clk.frozen = false) (meaning : modeApply j unit s = t)
    (world : OnlyWorld s t) : exec (.modeApply j unit) s = .next t := onWorld_fabric_of_onlyWorld clocked meaning world

/-- Settles O41: the checks of MODE_PREPARE and MODE_COMMIT answer in their order, and at beat 5 a unit refuses the staged mode or the job
takes it, which bringing the plan into line leaves alone. -/
theorem modesAreStagedCommittedAndApplied : Obligations.ModesAreStagedCommittedAndApplied := by
  refine ⟨fun h e pl b b1 s ready own unstaged later near above good on linked fits uncommitted rising own1 => ?_,
    fun h e b s ready own unstaged before => ?_, fun h e b s ready own unstaged new outside => ?_,
    fun h e b s ready own unstaged later near above early => ?_, fun h e b s ready own unstaged later near above good ⟨u, holds, off⟩ => ?_,
    fun h e step m s ready staged epoch ahead uncommitted => ?_,
    fun h e step m s ready staged => ⟨fun other first => ?_, fun epoch ⟨n, last, started⟩ => ?_⟩,
    fun j r m s clocked running beat unapplied staged commit on noSet noCompress _ _ rising => ?_,
    fun j unit r m s clocked running beat unapplied staged commit refused => ?_,
    fun j u r m s clocked running beat unapplied staged commit off => ?_,
    fun j unit r s clocked running idle => ?_⟩
  · subst own own1
    refine ⟨_, exec_modePrepare ready ((modePrepareOwn_may (s := counted h s) unstaged ⟨later, near, above⟩).trans
      (prepareChecks_stages good on linked fits uncommitted)) rfl, ?_, fun k other => ?_, rfl⟩
    · exact tget_tput_rising _ _ _ _ (rising_tput _ _ _ _ rising)
    · exact (tget_tput_ne _ _ _ other).trans (tget_tput_ne _ _ _ other)
  · subst own
    exact exec_modePrepare ready (modePrepareOwn_before (s := counted h s) unstaged before) rfl
  · subst own
    refine exec_modePrepare ready (modePrepareOwn_outside (s := counted h s) unstaged new (fun ⟨later, near, above⟩ => ?_)) rfl
    rcases outside with o | o | o
    · exact Nat.not_lt_of_le o later
    · exact Nat.not_lt_of_le near o
    · exact Nat.not_lt_of_le o above
  · subst own
    exact exec_modePrepare ready ((modePrepareOwn_may (s := counted h s) unstaged ⟨later, near, above⟩).trans (prepareChecks_early early)) rfl
  · subst own
    exact exec_modePrepare ready ((modePrepareOwn_may (s := counted h s) unstaged ⟨later, near, above⟩).trans
      (prepareChecks_disabled good holds off)) rfl
  · have fresh : stepStarted (s.job h.job) step = false := by
      unfold stepStarted
      split
      · rename_i n last
        simpa using ahead n last
      · rfl
    refine onWorld_later ready ((modeCommitOwn_staged (s := counted h s) staged epoch).trans ?_) rfl rfl rfl
    rw [job_counted, fresh, uncommitted]
    rfl
  · exact onWorld_done ready (modeCommitOwn_otherEpoch (s := counted h s) staged other first) rfl rfl rfl
  · have begun : stepStarted (s.job h.job) step = true := by simp [stepStarted, last, started]
    refine onWorld_done ready ((modeCommitOwn_staged (s := counted h s) staged epoch).trans ?_) rfl rfl rfl
    rw [job_counted, begun]
    rfl
  · have synced : KeepsJobs (s.setJob j ((s.job j).settingsApplied m (r.step + 1))) (modeApply j 0xFF s) := by
      rw [modeApply_settings running beat unapplied staged commit on noSet noCompress]
      exact keepsJobs_syncPlan false _
    have world : OnlyWorld s (modeApply j 0xFF s) := .trans (t := s.setJob j _) rfl synced.world
    have own : (modeApply j 0xFF s).job j = (s.job j).settingsApplied m (r.step + 1) := (synced.job j).trans (tget_tput_rising _ _ _ _ rising)
    obtain ⟨epoch, k, chk, forced, prev, cur, stagedMode, commit1, run⟩ := (s.job j).settingsApplied_fields (r.step + 1) noSet
    rw [← own] at epoch k chk forced prev cur stagedMode commit1 run
    exact ⟨_, exec_modeApply clocked rfl world, world.cfg, world.ctl, epoch, k, chk, forced, prev, cur, stagedMode, commit1,
      run.trans (by rw [running]; rfl), fun k other => (synced.job k).trans (tget_tput_ne _ _ _ other)⟩
  · exact exec_modeApply clocked (modeApply_refused running beat unapplied staged commit (if_pos (by simp [refused]))) onlyWorld_cannotApply
  · exact exec_modeApply clocked (modeApply_refused running beat unapplied staged commit off) onlyWorld_cannotApply
  · exact exec_modeApply clocked (modeApply_idle running idle) (.refl s)

end Sys2Proof.Machine
end

section
/-! What the exit of the step barrier and a huddle may change (R377, R378, R412): the world alone. -/

namespace Sys2Proof.Machine

open Sys2Proof

variable {s t : State}

/-! ### Messages of the barriers (R179, R332, R379) -/

theorem onlyWorld_control (dst job step kind flags node epoch a b count : Nat) (s : State) :
    OnlyWorld s (control dst job step kind flags node epoch a b count s) := onlyWorld_sendMsg _ _ _ _ _ _ s

theorem onlyWorld_acceptMsg (m : Msg) (s : State) : OnlyWorld s (acceptMsg m s) := by
  refine .trans (t := s.onW _) rfl (.ite ?_ (.refl _))
  exact .ite (.refl _) ((OnlyWorld.onW _ _).trans (onlyWorld_sendMsg _ _ _ _ _ _ _))

theorem onlyWorld_releaseMsgs (j : Nat) (s : State) : OnlyWorld s (releaseMsgs j s) :=
  (OnlyWorld.onW s _).trans (.forAll _ _ onlyWorld_acceptMsg _)

/-! ### The step barrier -/

theorem onlyWorld_modBar (j : Nat) (f : Bar → Bar) (s : State) : OnlyWorld s (modBar j f s) := by
  unfold modBar
  split <;> rfl

theorem onlyWorld_barAdvance (j : Nat) (s : State) : OnlyWorld s (barAdvance j s) := by
  unfold barAdvance
  split
  · refine .ite (.refl s) ?_
    split
    · exact .ite (.refl s) ((onlyWorld_modBar _ _ s).trans (onlyWorld_control _ _ _ _ _ _ _ _ _ _ _))
    · exact .ite ((onlyWorld_modBar _ _ s).trans (.forAll _ _ (fun _ _ => onlyWorld_control _ _ _ _ _ _ _ _ _ _ _) _)) (.refl s)
  · exact .refl s

/-! ### The mode at the exit (R178) -/

theorem onlyWorld_dropHeld (j : Nat) (s : State) : OnlyWorld s (dropHeld j s) :=
  .trans (t := (s.onW _).modJob j _) rfl (.forAll _ _ (fun _ s => onlyWorld_flt _ _ _ _ _ s) _)

theorem onlyWorld_syncPlan (listed : Bool) (s : State) : OnlyWorld s (syncPlan listed s) := (keepsJobs_syncPlan listed s).world

theorem onlyWorld_setJob (s : State) (j : Nat) (v : Job) : OnlyWorld s (s.setJob j v) := rfl

theorem onlyWorld_settleMode (j : Nat) (all : Bool) (r : StepRun) (s : State) : OnlyWorld s (settleMode j all r s) := by
  unfold settleMode
  extract_lets b commits gone
  have committed (st u : Nat) (s : State) : OnlyWorld s (commits st u s) := onlyWorld_completeAll _ _ _ _ _ s
  split
  · split
    · exact .ite (((onlyWorld_setJob s _ _).trans (committed _ _ _)).trans (onlyWorld_dropHeld _ _)) (.ite (.refl s) (onlyWorld_dropHeld j s))
    · exact .ite (.refl s) (onlyWorld_dropHeld j s)
  · refine .ite (((onlyWorld_modJob s j _).trans (onlyWorld_releaseMsgs j _)).trans (committed _ _ _)) ?_
    exact (((onlyWorld_setJob s _ _).trans (committed _ _ _)).trans (onlyWorld_syncPlan _ _)).trans (onlyWorld_dropHeld _ _)

theorem onlyWorld_abortMode (j : Nat) (s : State) : OnlyWorld s (abortMode j s) :=
  (onlyWorld_modJob s j _).trans (onlyWorld_completeAll _ _ _ _ _ _)

/-! ### Rolling back (R258, R412) -/

theorem onlyWorld_restoreSaved (e : Jrn) (s : State) : OnlyWorld s (restoreSaved e s) :=
  .forAll _ _ (fun _ s => onlyWorld_jobPut _ _ _ _ _ s) s

theorem onlyWorld_undoRow (j : Nat) (u : Undo) (s : State) : OnlyWorld s (undoRow j u s) := by
  unfold undoRow
  split
  · exact onlyWorld_jobPut _ _ _ _ _ s
  · exact .refl s

theorem onlyWorld_rollbackFrom (j n : Nat) (s : State) : OnlyWorld s (rollbackFrom j n s) := by
  unfold rollbackFrom
  extract_lets b newer undo s0 s00 s1 flips reNext s2 s3 s3' s4 told
  have restored : OnlyWorld s s00 := (onlyWorld_dropHeld j s).trans (.forAll _ _ onlyWorld_restoreSaved _)
  have undone : OnlyWorld s s2 := (restored.trans (.forAll _ _ (onlyWorld_undoRow j) _)).trans (onlyWorld_modJob _ j _)
  have moded : OnlyWorld s s3 := by
    refine undone.trans ?_
    simp only [s3]
    split
    · exact .ite (onlyWorld_modJob s2 j _) (.refl s2)
    · exact .refl s2
  have copied : OnlyWorld s s3' := moded.trans (.ite (.refl s3) (onlyWorld_modJob s3 j _))
  have settled : OnlyWorld s s4 := ((copied.trans (onlyWorld_syncPlan _ _)).trans (onlyWorld_settleEngines _ _)).trans (.onW _ _)
  exact .ite (settled.trans (.trans (.ite (.refl s4) (.onW s4 _)) (onlyWorld_abandonCkpt _ _ _ _ _))) settled

theorem onlyWorld_replyAborts (j : Nat) (s : State) : OnlyWorld s (replyAborts j s) := onlyWorld_completeAll _ _ _ _ _ s

theorem onlyWorld_replyStep (j : Nat) (r : StepRun) (st d u stage : Nat) (s : State) : OnlyWorld s (replyStep j r st d u stage s) :=
  onlyWorld_completeAll _ _ _ _ _ s

theorem onlyWorld_exitFailed (j : Nat) (r : StepRun) (s : State) : OnlyWorld s (exitFailed j r s) := by
  unfold exitFailed
  extract_lets b f s1 next s2
  have rolled : OnlyWorld s s1 := onlyWorld_rollbackFrom j _ s
  have replied : OnlyWorld s s2 := (rolled.trans (onlyWorld_replyStep _ _ _ _ _ _ s1)).trans (onlyWorld_replyAborts _ _)
  exact (replied.trans (onlyWorld_failWaiting _ _ _ _ _ s2)).trans (onlyWorld_modJob _ j _)

/-! ### Huddles (R378, R431) -/

theorem onlyWorld_modHud (j : Nat) (f : Hud → Hud) (s : State) : OnlyWorld s (modHud j f s) := by
  unfold modHud
  split <;> rfl

theorem onlyWorld_mirrorGood (j g : Nat) (s : State) : OnlyWorld s (mirrorGood j g s) := .ite (.refl s) (.onW s _)

theorem onlyWorld_completeStep (j n status detail unit stage : Nat) (s : State) : OnlyWorld s (completeStep j n status detail unit stage s) :=
  onlyWorld_completeAll _ _ _ _ _ s

theorem onlyWorld_stopAtCut (j : Nat) (h : Hud) (s : State) : OnlyWorld s (stopAtCut j h s) := by
  unfold stopAtCut
  extract_lets b n s1
  refine .ite (.refl s) ?_
  have replied : OnlyWorld s s1 := by
    simp only [s1]
    split
    · exact (onlyWorld_completeStep _ _ _ _ _ _ s).trans (onlyWorld_failWaiting _ _ _ _ _ _)
    · exact .refl s
  have aborted : OnlyWorld s1 (abortMode j s1) := onlyWorld_abortMode j s1
  exact (replied.trans (.ite (.ite aborted (aborted.trans (onlyWorld_mirrorGood _ _ _))) (.refl s1))).trans (onlyWorld_rollbackFrom _ _ _)

theorem onlyWorld_armCut (j cut : Nat) (s : State) : OnlyWorld s (armCut j cut s) :=
  .ite ((OnlyWorld.onW s _).trans (onlyWorld_flt _ _ _ _ _ _)) (.refl s)

theorem onlyWorld_hudExit (j : Nat) (s : State) : OnlyWorld s (hudExit j s) := by
  unfold hudExit
  split
  · exact .refl s
  · split
    · exact .refl s
    · extract_lets s1 s2 s3 s4
      have told : OnlyWorld s s1 := .forAll _ _ (fun _ s => onlyWorld_control _ _ _ _ _ _ _ _ _ _ s) s
      have answered : OnlyWorld s s4 :=
        ((told.trans (.onW s1 _)).trans (onlyWorld_completeAll _ _ _ _ _ s2)).trans (onlyWorld_completeAll _ _ _ _ _ s3)
      exact (answered.trans (.ite (onlyWorld_armCut _ _ s4) (.refl s4))).trans (onlyWorld_startWaiting j _)

theorem onlyWorld_hudAdvance (j : Nat) (s : State) : OnlyWorld s (hudAdvance j s) := by
  unfold hudAdvance
  split
  · exact .refl s
  · extract_lets all s1
    have cut : OnlyWorld s s1 := .ite (onlyWorld_modHud _ _ s) (.refl s)
    refine cut.trans ?_
    split
    · exact .refl s1
    · split
      · exact .refl s1
      · extract_lets s2
        have entered : OnlyWorld s1 s2 := .ite ((onlyWorld_stopAtCut _ _ s1).trans (onlyWorld_modHud _ _ _)) (.refl s1)
        refine entered.trans ?_
        split
        · exact .refl s2
        · refine .ite (.refl s2) ?_
          split
          · exact .refl s2
          · split
            · exact (onlyWorld_modHud _ _ s2).trans (onlyWorld_control _ _ _ _ _ _ _ _ _ _ _)
            · exact .ite ((onlyWorld_modHud _ _ s2).trans (onlyWorld_hudExit _ _)) (onlyWorld_modHud _ _ s2)

end Sys2Proof.Machine
end

section
/-! The step barrier is entered, combined and left (R172, R281, R377, R379, R412). -/

namespace Sys2Proof.Machine

open Sys2Proof

section bars

variable {j step : Nat} {f g : Bar → Bar} {r : StepRun} {x : Bar} {o e : Ent} {s t : State}

/-! ### The barrier of a job -/

theorem find?_updWhere {α : Type} {p : α → Bool} {f : α → α} (l : List α) (same : ∀ x, p (f x) = p x) :
    (updWhere p f l).find? p = (l.find? p).map f := by
  induction l with
  | nil => rfl
  | cons x l ih =>
    have head : p (if p x then f x else x) = p x := by split <;> simp [same]
    unfold updWhere at ih ⊢
    rw [List.map_cons]
    cases px : p x with
    | false => rw [List.find?_cons_of_neg (by simp [px]), List.find?_cons_of_neg (by simp [px]), ih]
    | true => rw [List.find?_cons_of_pos (by simp [px, same]), List.find?_cons_of_pos px]; simp

/-- The barrier of a job after a change: of the one that is there, or of a new one. -/
theorem barOf_modBar (same : ∀ x, (f x).job = x.job := by exact fun _ => rfl) :
    barOf (modBar j f s) j = some (f ((barOf s j).getD { job := j })) := by
  unfold modBar
  cases bar : barOf s j with
  | some x =>
    show (updWhere (fun x => x.job == j) f s.w.reel.bars).find? (fun x => x.job == j) = _
    rw [find?_updWhere _ (fun x => by rw [same]), show s.w.reel.bars.find? _ = _ from bar]
    rfl
  | none =>
    show (s.w.reel.bars ++ [f { job := j }]).find? (fun x => x.job == j) = _
    rw [List.find?_append, show s.w.reel.bars.find? _ = none from bar]
    simp [same]

theorem modBar_congr (fresh : f { job := j } = g { job := j }) (each : ∀ x ∈ s.w.reel.bars, x.job = j → f x = g x) :
    modBar j f s = modBar j g s := by
  unfold modBar
  split
  · have bars : updWhere (fun x => x.job == j) f s.w.reel.bars = updWhere (fun x => x.job == j) g s.w.reel.bars :=
      List.map_congr_left (fun x hx => by
        split
        · rename_i mine
          exact each x hx (by simpa using mine)
        · rfl)
    rw [State.onW, State.onW, bars]
  · rw [fresh]

theorem mem_of_barOf (bar : barOf s j = some x) : x ∈ s.w.reel.bars ∧ x.job = j :=
  ⟨List.mem_of_find?_eq_some bar, by simpa using List.find?_some bar⟩

theorem job_modBar (k : Nat) : (modBar j f s).job k = s.job k := by
  unfold modBar
  split <;> rfl

/-- A barrier that the module has not entered does not go on. -/
theorem barAdvance_unentered (bar : barOf s j = some x) (unentered : x.own = none) : barAdvance j s = s := by
  simp [barAdvance, barCombined, bar, unentered]

/-! ### Messages from members -/

theorem barrierUp_first (alone : ∀ x ∈ s.w.reel.bars, x.job = j → x.own = none ∧ x.kids = []) : barrierUp j e s =
    modBar j (fun x => { x with kids := [e] }) (s.modJob j (fun b => { b with kidGood := putAssoc e.src e.good b.kidGood })) := by
  unfold barrierUp
  extract_lets s1
  rw [modBar_congr (f := fun x => { x with kids := _, sentUp := _ }) (g := fun x => { x with kids := [e] }) (s := s1) (j := j) (by rfl)
    (fun x inBars mine => by simp [(alone x inBars mine).2])]
  refine barAdvance_unentered barOf_modBar ?_
  cases bar : barOf s1 j with
  | none => rfl
  | some x =>
    obtain ⟨inBars, mine⟩ := mem_of_barOf bar
    exact (alone x inBars mine).1

theorem barrierDown_entered (bar : barOf s j = some x) (own : x.own = some o) (ofStep : o.step = e.step) (unexited : x.exit = none) :
    barrierDown j e s =
      forAll (downNodes s j) (fun d s => control d j e.step 2 (entFlags e) e.node (s.job j).modeEpoch e.good 0 e.count s)
        (modBar j (fun x => { x with exit := some e }) s) := by
  simp [barrierDown, bar, own, ofStep, unexited]

theorem barrierDown_other (bar : barOf s j = some x) (own : x.own = some o) (other : o.step ≠ e.step ∨ x.exit ≠ none) :
    barrierDown j e s = s := by
  have no : ¬ (o.step = e.step && x.exit.isNone) = true := by
    rcases other with h | h <;> simp [h]
  simp [barrierDown, bar, own, no]

theorem onlyWorld_barrierDown_entered :
    OnlyWorld s (forAll (downNodes s j) (fun d s => control d j e.step 2 (entFlags e) e.node (s.job j).modeEpoch e.good 0 e.count s)
      (modBar j (fun x => { x with exit := some e }) s)) :=
  (onlyWorld_modBar _ _ s).trans (.forAll _ _ (fun _ s => onlyWorld_control _ _ _ _ _ _ _ _ _ _ s) _)

/-! ### The module enters -/

/-- The module stands at the barrier with its own entry (R377). -/
def entered (j : Nat) (r : StepRun) (s : State) : State :=
  modBar j (fun x => { x with own := some (ownEntry s j r), entryNs := s.now, sentUp := false }) (modRun j (fun r => { r with phase := .barrier }) s)

theorem barrierEntry_enters (running : (s.job j).run = some r) (beat : r.phase = .beats 5) (uncommitted : (s.job j).commit = none)
    (unbound : s.w.mr.out = 0) : barrierEntry j s = barAdvance j (entered j r s) := by
  unfold barrierEntry
  extract_lets b
  rw [show b.run = some r from running]
  dsimp -zeta only
  extract_lets due rec_ s1 s2
  have noMode : due = false := by simp [due, b, uncommitted]
  have sent : s1 = s := by simp only [s1, mirrorSend_unbound unbound]
  rw [if_neg (by simp [beat, noMode])]
  simp only [s2, sent]
  rfl

theorem barrierEntry_waits (running : (s.job j).run = some r)
    (waits : r.phase ≠ .beats 5 ∨ ((s.job j).commit = some (r.step + 1) ∧ (s.job j).stagedMode ≠ none ∧ r.applyOk = none)) :
    barrierEntry j s = s := by
  unfold barrierEntry
  extract_lets b
  rw [show b.run = some r from running]
  dsimp -zeta only
  extract_lets due rec_ s1 s2
  refine if_pos ?_
  rcases waits with early | ⟨commit, staged, unapplied⟩
  · simp [early]
  · simp [due, b, commit, unapplied, Option.isSome_iff_ne_none, staged]

end bars

section alone

variable {j : Nat} {r : StepRun} {x : Bar} {o : Ent} {s : State}

/-! ### A module alone -/

theorem members_alone (alone : Claims.alone s) : members s j = [s.w.topo.node] := by
  obtain ⟨noPlan, _⟩ := alone
  unfold members
  rw [noPlan]
  split
  · contradiction
  · rfl

theorem liveMembers_alone (alone : Claims.alone s) : liveMembers s j = [s.w.topo.node] := by
  rw [liveMembers, members_alone alone]
  simp [alone.2]

theorem jobPlanOf_alone (alone : Claims.alone s) : jobPlanOf s j = none := by
  simp [jobPlanOf, members_alone alone]

theorem upNode_alone (alone : Claims.alone s) : upNode s j = none := by
  rw [upNode, jobPlanOf_alone alone]

theorem downNodes_alone (alone : Claims.alone s) : downNodes s j = [] := by
  rw [downNodes, jobPlanOf_alone alone]

/-- A module alone leaves the barrier as soon as its own entry lets it. -/
theorem barAdvance_alone (alone : Claims.alone s) (bar : barOf s j = some x) (own : x.own = some o) (first : x.kids = []) (unexited : x.exit = none)
    (one : o.count = 1) : barAdvance j s =
      if o.step ≤ goodKey o.good then modBar j (fun x => { x with exit := some o }) s else s := by
  have combined : barCombined s j = some o := by simp [barCombined, bar, own, first, downNodes_alone alone]
  have may : barMayExit s j o = decide (o.step ≤ goodKey o.good) := by simp [barMayExit, liveMembers_alone alone, one]
  simp [barAdvance, combined, bar, unexited, upNode_alone alone, downNodes_alone alone, may, forAll]

end alone

end Sys2Proof.Machine
end

section
/-! The step barrier exits (R172 beat 7, R178, R281, R377, R412). -/

namespace Sys2Proof.Machine

open Sys2Proof

section exits

variable {j n : Nat} {r : StepRun} {x : Bar} {o e : Ent} {s t : State}

theorem exec_stepBarrierExit (clocked : s.ctl.clk.frozen = false) (meaning : barrierExit j s = t) (world : OnlyWorld s t) :
    exec (.stepBarrierExit j) s = .next t := onWorld_fabric_of_onlyWorld clocked meaning world

/-- The module has left the barrier entry of the step; what it has waited and who came last is kept (R385). -/
def leftBar (j : Nat) (r : StepRun) (x : Bar) (e : Ent) (s : State) : State :=
  (closeBar j r.step s).onW (fun w => { w with reel := { w.reel with waitUs := (s.now - x.entryNs) / 1000, last := e.node } })

theorem onlyWorld_leftBar : OnlyWorld s (leftBar j r x e s) := rfl

theorem barrierExit_exits (running : (s.job j).run = some r) (bar : barOf s j = some x) (own : x.own = some o) (exit : x.exit = some e)
    (stands : r.phase = .barrier) (ofStep : e.step = r.step) : barrierExit j s = startWaiting j (hudAdvance j
      (if e.failed || o.failed then exitFailed j r (settleMode j e.applied r (leftBar j r x e s))
        else exitClean j r e (settleMode j e.applied r (leftBar j r x e s)))) := by
  simp -zeta only [barrierExit, running, bar, own, exit]
  rw [if_neg (by simp [stands, ofStep])]
  rfl

theorem barrierExit_open (bar : barOf s j = some x) (unexited : x.exit = none) : barrierExit j s = s := by
  unfold barrierExit
  rw [bar]
  split
  · rename_i same
    obtain rfl := Option.some.inj same
    rw [unexited]
  · rfl

theorem barrierExit_outside (outside : barOf s j = none) : barrierExit j s = s := by
  unfold barrierExit
  rw [outside]
  split
  · contradiction
  · rfl

/-! ### No mode to settle -/

/-- What a job has held of another epoch is gone (R179). -/
def heldDropped (j : Nat) (s : State) : State :=
  modRun j (fun r => { r with held := [] }) (s.onW (fun w => { w with msgs := { w.msgs with held := w.msgs.held.filter (fun e => e.2.job != j) } }))

theorem OnlyLog.forAll {α : Type} {l : List α} {f : α → State → State} (hf : ∀ x s, OnlyLog s (f x s)) (s : State) :
    OnlyLog s (forAll l f s) := by
  unfold Machine.forAll
  induction l generalizing s with
  | nil => exact OnlyLog.refl s
  | cons x r ih => exact (hf x s).trans (ih _)

theorem onlyLog_dropHeld : OnlyLog (heldDropped j s) (dropHeld j s) := .forAll (fun _ s => onlyLog_flt _ _ _ _ _ s) _

/-- A job but for what it runs. -/
def Job.idle (b : Job) : Job := { b with run := none }

/-- From `s` to `t` what the exit of a step with no mode change leaves: all of the job but its run, the barriers, the huddles and the
checkpoint. -/
structure KeepsIdle (j : Nat) (s t : State) : Prop where
  view : KeepsView j Job.idle s t
  reel : t.w.reel = s.w.reel
  ck : t.w.ck = s.w.ck

theorem KeepsIdle.refl (s : State) : KeepsIdle j s s := ⟨.refl s, rfl, rfl⟩

theorem keepsIdle_dropHeld (s : State) : KeepsIdle j s (dropHeld j s) where
  view := .trans (.trans (.onW s ⟨rfl, rfl, rfl⟩) (.modJob _ rfl)) (.of_onlyLog (onlyLog_dropHeld (j := j)))
  reel := by rw [onlyLog_dropHeld]; rfl
  ck := by rw [onlyLog_dropHeld]; rfl

theorem keepsIdle_settleMode (all : Bool) (unapplied : r.applyOk = none) (unstaged : (s.job j).stagedMode = none) :
    KeepsIdle j s (settleMode j all r s) := by
  unfold settleMode
  extract_lets b commits gone
  rw [unapplied, show b.stagedMode = none from unstaged]
  dsimp only
  split
  · exact .refl s
  · exact keepsIdle_dropHeld s

/-! ### The entry of the barrier is gone -/

theorem barOf_leftBar (older : ∀ k ∈ x.kids, k.step ≤ r.step) (only : ∀ y ∈ s.w.reel.bars, y.job = j → y = x) :
    barOf (leftBar j r x e s) j = none := by
  refine List.find?_eq_none.mpr (fun y left mine => ?_)
  obtain ⟨closed, kept⟩ := List.mem_filter.mp left
  obtain ⟨z, before, rfl⟩ := List.mem_map.mp closed
  split at kept
  · rename_i zj
    have noneLeft : x.kids.filter (fun k => decide (r.step < k.step)) = [] :=
      List.filter_eq_nil_iff.mpr (fun k hk => by simpa using older k hk)
    rw [only z before zj, noneLeft] at kept
    simp at kept
  · rename_i other
    rw [if_neg other] at mine
    exact other (by simpa using mine)

/-! ### A step has ended -/

/-- The buffers that a step has written switch (R281). -/
def switched (flips : List Nat) (decls : List (Nat × Decl)) : List (Nat × Decl) :=
  decls.map (fun d => if flips.contains d.1 then (d.1, { d.2 with buf := 1 - d.2.buf }) else d)

/-- A job whose step `n` has ended cleanly after `dur` ns (R172 beat 7, R281). -/
def Job.ended (b : Job) (n dur : Nat) : Job :=
  { b.modEntry n (fun x => { x with ended := true }) with
    run := none, lastDur := dur, decls := switched (match b.entry? n with | some x => x.flip | none => []) b.decls }

theorem Job.entry?_modEntry {f : Jrn → Jrn} (b : Job) (same : ∀ y, (f y).step = y.step := by exact fun _ => rfl) :
    (b.modEntry n f).entry? n = (b.entry? n).map f :=
  find?_updWhere b.jrn (fun y => by rw [same])

/-- STEP_RUN or LET_REPLAY of a step, and STEP_ABORT, are answered (R281, R282). -/
def answerStep (j : Nat) (r : StepRun) (s : State) : State := replyAborts j (replyStep j r (b2n r.partly) (2 * b2n r.partly) 0xFF 0xFFFF s)

theorem answers_answerStep (s : State) : Answers s (answerStep j r s) := (answers_completeAll _ s).trans (answers_completeAll _ _)

theorem answered_answerStep {c : Run} (left : c ∈ (answerStep j r s).w.inflight) (step : c.op = 0x0302 ∨ c.op = 0x0602) (mine : c.hdr.job = j) :
    c.a ≠ r.step := by
  have unselected := not_selected_of_mem_completeAll ((answers_completeAll _ _).inflight left)
  intro same
  simp only [mine, same, decide_true, Bool.and_true, Bool.or_eq_false_iff, decide_eq_false_iff_not] at unselected
  obtain ⟨noRun, noReplay⟩ := unselected
  exact step.elim noRun noReplay

theorem exitClean_quiet (quiet : (s.job j).lastGood = none ∨ e.good ≤ (s.job j).jobGood) (noCkpt : s.w.ck.state ≠ 1)
    (rising : Claims.rising s.w.jobs) : exitClean j r e s = answerStep j r (s.modJob j (fun b => b.ended r.step (s.now - r.startNs))) := by
  unfold exitClean
  extract_lets b flips s1 s2 s3 ck
  have own : s1.job j = _ := job_modJob_self _ rising
  have stands : s2 = s1 := by
    refine if_neg ?_
    rw [own]
    rcases quiet with ungraded | known
    · simp [Job.modEntry, ungraded]
    · simp [Job.modEntry, Nat.not_lt_of_le known]
  have kept : ck = s.w.ck := by
    have answers : OnlyReply s2 s3 := (answers_answerStep s2).reply
    simp only [ck]
    rw [answers, stands]
    rfl
  rw [if_neg (by simp [kept, noCkpt])]
  simp only [s3, stands]
  rfl

theorem hudAdvance_none (noHuddle : hudOf s j = none) : hudAdvance j s = s := by
  rw [hudAdvance, noHuddle]

theorem startWaiting_alone (alone : (s.job j).waiting = []) : startWaiting j s = s := by
  rw [startWaiting, alone]

/-- A clean exit with no mode change (R172 beat 7): the step has ended, the barrier is left, and the step's commands are answered. -/
theorem barrierExit_clean (running : (s.job j).run = some r) (bar : barOf s j = some x) (own : x.own = some o) (exit : x.exit = some e)
    (stands : r.phase = .barrier) (ofStep : e.step = r.step) (unapplied : r.applyOk = none) (unstaged : (s.job j).stagedMode = none)
    (good : e.failed = false) (ownGood : o.failed = false) (alone : (s.job j).waiting = []) (noHuddle : hudOf s j = none)
    (noCkpt : s.w.ck.state ≠ 1) (quiet : (s.job j).lastGood = none ∨ e.good ≤ (s.job j).jobGood) (rising : Claims.rising s.w.jobs)
    (older : ∀ k ∈ x.kids, k.step ≤ r.step) (only : ∀ y ∈ s.w.reel.bars, y.job = j → y = x) :
    OnlyWorld s (barrierExit j s) ∧ (∃ dur n a, (barrierExit j s).job j = { (s.job j).ended r.step dur with faults := n, lastFault := a }) ∧
      barOf (barrierExit j s) j = none ∧
      ∀ c ∈ (barrierExit j s).w.inflight, c.op = 0x0302 ∨ c.op = 0x0602 → c.hdr.job = j → c.a ≠ r.step := by
  have gone : barOf (leftBar j r x e s) j = none := barOf_leftBar older only
  have settles : KeepsIdle j (leftBar j r x e s) (settleMode j e.applied r (leftBar j r x e s)) := keepsIdle_settleMode _ unapplied unstaged
  have exits := barrierExit_exits running bar own exit stands ofStep
  rw [good, ownGood, if_neg (by simp)] at exits
  generalize settleMode j e.applied r (leftBar j r x e s) = u at settles exits
  have risingU : Claims.rising u.w.jobs := settles.view.rising rising
  have idle : (u.job j).idle = (s.job j).idle := settles.view.own rising
  have quietU : (u.job j).lastGood = none ∨ e.good ≤ (u.job j).jobGood := by
    rwa [show (u.job j).lastGood = (s.job j).lastGood from (congrArg Job.lastGood idle :),
      show (u.job j).jobGood = (s.job j).jobGood from (congrArg Job.jobGood idle :)]
  have noCkptU : u.w.ck.state ≠ 1 := by rwa [settles.ck]
  rw [exitClean_quiet quietU noCkptU risingU] at exits
  generalize u.now - r.startNs = dur at exits
  have answers : Answers (u.modJob j (fun b => b.ended r.step dur)) (answerStep j r (u.modJob j (fun b => b.ended r.step dur))) :=
    answers_answerStep _
  have left := fun c => answered_answerStep (j := j) (r := r) (s := u.modJob j (fun b => b.ended r.step dur)) (c := c)
  generalize answerStep j r (u.modJob j (fun b => b.ended r.step dur)) = t at answers left exits
  have ended : (u.modJob j (fun b => b.ended r.step dur)).job j = (s.job j).ended r.step dur :=
    (job_modJob_self _ risingU).trans (congrArg (fun b : Job => b.ended r.step dur) idle :)
  obtain ⟨n, a, job⟩ := answers.job (rising_tput _ _ _ _ risingU) j
  rw [ended] at job
  have reel : t.w.reel = (leftBar j r x e s).w.reel := by
    rw [answers.reply]
    exact settles.reel
  have noHuddleT : hudOf t j = none := by rwa [hudOf, reel]
  have aloneT : (t.job j).waiting = [] := by rwa [job]
  rw [hudAdvance_none noHuddleT, startWaiting_alone aloneT] at exits
  rw [exits]
  exact ⟨(onlyWorld_leftBar.trans settles.view.world).trans ((onlyWorld_modJob _ _ _).trans answers.reply.world), ⟨dur, n, a, job⟩,
    by rwa [barOf, reel], left⟩

theorem barrierSlow_outside (outside : barOf s j = none) : barrierSlow j s = s := by
  rw [barrierSlow, outside]

theorem barrierSlow_first (bar : barOf s j = some x) (own : x.own = some o) (unexited : x.exit = none) (first : x.kids = []) :
    barrierSlow j s = flt 0x3602 0x06 j o.step (locLink 0xFF 0xF o.node 0) s := by
  simp [barrierSlow, bar, own, unexited, first]

theorem exec_stepBarrierEntry (clocked : s.ctl.clk.frozen = false) (meaning : barrierEntry j s = t) (world : OnlyWorld s t) :
    exec (.stepBarrierEntry j) s = .next t := onWorld_fabric_of_onlyWorld clocked meaning world

theorem exec_stepBarrierSlow (meaning : barrierSlow j s = t) (world : OnlyWorld s t) : exec (.stepBarrierSlow j) s = .next t :=
  onWorld_of_eq meaning world.pending world.cfg world.ctl

theorem onlyWorld_entered : OnlyWorld s (entered j r s) := (onlyWorld_modRun j _ s).trans (onlyWorld_modBar _ _ _)

/-- The module alone stands at the barrier, and has left it where its called-good steps let it (R377). -/
theorem entered_alone (running : (s.job j).run = some r) (alone : Claims.alone s) (first : barOf s j = none) (rising : Claims.rising s.w.jobs) :
    ∃ x, OnlyWorld s (barAdvance j (entered j r s)) ∧ (∀ k, k ≠ j → (barAdvance j (entered j r s)).job k = s.job k) ∧
      ((barAdvance j (entered j r s)).job j).run = some { r with phase := .barrier } ∧ barOf (barAdvance j (entered j r s)) j = some x ∧
      x.own = some (ownEntry s j r) ∧ x.entryNs = s.now ∧ (r.step ≤ goodKey (ownEntry s j r).good → x.exit = some (ownEntry s j r)) := by
  have bar : barOf (entered j r s) j = some { job := j, own := some (ownEntry s j r), entryNs := s.now } := by
    rw [entered, barOf_modBar, show barOf (modRun j _ s) j = none from first]
    rfl
  have aloneE : Claims.alone (entered j r s) := by
    unfold entered modBar
    split <;> exact alone
  have goes := barAdvance_alone aloneE bar rfl rfl rfl rfl
  have own : ((entered j r s).job j).run = some { r with phase := .barrier } := by
    rw [entered, job_modBar, modRun, job_modJob_self _ rising]
    simp [running]
  have others : ∀ k, k ≠ j → (entered j r s).job k = s.job k := fun k other => (job_modBar k).trans (job_modJob_ne _ s other)
  rw [goes]
  split
  · exact ⟨_, onlyWorld_entered.trans (onlyWorld_modBar _ _ _), fun k other => (job_modBar k).trans (others k other),
      by rw [job_modBar, own], by rw [barOf_modBar, bar], rfl, rfl, fun _ => rfl⟩
  · rename_i early
    exact ⟨_, onlyWorld_entered, others, own, bar, rfl, rfl, fun late => absurd late early⟩

end exits

/-- Settles O47: the entry, its combination with the members' entries and the exit go through the job's barrier; at a clean exit what is
settled and answered leaves the ended step as it is. -/
theorem stepBarrierEntersAndExits : Obligations.StepBarrierEntersAndExits := by
  refine ⟨fun j r s running clocked beat uncommitted unbound => ?_, fun j r s running clocked beat uncommitted unbound alone first rising => ?_,
    fun j r s running clocked waits => ?_, fun j src step applied failed good count node s first => ?_,
    fun j step applied failed good count node x o s bar own ofStep unexited => ?_,
    fun j step applied failed good count node x o s bar own other => ?_,
    fun j r x o e s running bar own clocked exit stands ofStep unapplied unstaged good ownGood alone noHuddle noCkpt quiet rising older only => ?_,
    fun j r x o e s running bar own clocked exit stands ofStep failed => ?_,
    fun j x s bar clocked unexited => ?_, fun j x o s bar own unexited first => ?_, fun j s clocked outside => ⟨?_, ?_⟩⟩
  · exact exec_stepBarrierEntry clocked (barrierEntry_enters running beat uncommitted unbound) (onlyWorld_entered.trans (onlyWorld_barAdvance _ _))
  · obtain ⟨x, world, others, run, bar, own, since, exit⟩ := entered_alone running alone first rising
    exact ⟨_, x, exec_stepBarrierEntry clocked (barrierEntry_enters running beat uncommitted unbound) world, ⟨world.cfg, world.ctl, others⟩,
      run, bar, own, since, exit⟩
  · exact exec_stepBarrierEntry clocked (barrierEntry_waits running waits) (.refl s)
  · have world := (onlyWorld_modJob s j (fun b => { b with kidGood := putAssoc src good b.kidGood })).trans (onlyWorld_modBar j (fun x =>
      { x with kids := [⟨src, step, applied, failed, good, count, node⟩] }) _)
    exact onWorld_of_eq (barrierUp_first first) world.pending world.cfg world.ctl
  · have world := onlyWorld_barrierDown_entered (j := j) (e := ⟨node, step, applied, failed, good, count, node⟩) (s := s)
    exact onWorld_of_eq (barrierDown_entered bar own ofStep unexited) world.pending world.cfg world.ctl
  · exact onWorld_of_eq (barrierDown_other bar own other) rfl rfl rfl
  · obtain ⟨world, ⟨dur, n, a, job⟩, gone, answered⟩ :=
      barrierExit_clean running bar own exit stands ofStep unapplied unstaged good ownGood alone noHuddle noCkpt quiet rising older only
    refine ⟨_, exec_stepBarrierExit clocked rfl world, world.cfg, world.ctl, by rw [job]; rfl, gone, fun y entry => ⟨?_, ?_⟩, answered⟩
    · rw [job]
      exact (s.job j).entry?_modEntry.trans (by rw [entry]; rfl)
    · rw [job]
      simp [Job.ended, switched, entry]
  · have fails : (e.failed || o.failed) = true := by simpa using failed
    have exits := barrierExit_exits running bar own exit stands ofStep
    rw [if_pos fails] at exits
    exact exec_stepBarrierExit clocked exits ((((onlyWorld_leftBar.trans (onlyWorld_settleMode _ _ _ _)).trans (onlyWorld_exitFailed _ _ _)).trans
      (onlyWorld_hudAdvance _ _)).trans (onlyWorld_startWaiting _ _))
  · exact exec_stepBarrierExit clocked (barrierExit_open bar unexited) (.refl s)
  · exact exec_stepBarrierSlow (barrierSlow_first bar own unexited first) (onlyWorld_flt _ _ _ _ _ s)
  · exact exec_stepBarrierExit clocked (barrierExit_outside outside) (.refl s)
  · exact exec_stepBarrierSlow (barrierSlow_outside outside) (.refl s)

end Sys2Proof.Machine
end

section
/-! TENSOR_DECLARE, PLACE_SET and PLACEMENT_REPORT of the Caller (R181, R183, R201, R204). -/

namespace Sys2Proof.Machine

open Sys2Proof

variable {h : Hdr} {s s1 : State} {j a n off addr : Nat} {r b bs : Bytes}

/-! ### Records and buffers that can be reached -/

theorem withRead_ok {k : Bytes → Cmd} (read : pktRead s j a n = .ok b) : withRead s j a n off k = k b := by
  unfold withRead
  rw [read]

theorem withWrite_ok {k : State → Cmd} (written : pktWrite s j a bs = (none, s1)) : withWrite s j a bs off k = k s1 := by
  unfold withWrite
  rw [written]

theorem onlyWorld_pktWrite (s : State) (j a : Nat) (bs : Bytes) : OnlyWorld s (pktWrite s j a bs).2 := by
  unfold pktWrite
  split
  · split
    · exact (onlyLog_hostPut _ _ _).world
    · exact .refl s
  · exact (onlyLog_jobWrite s j a bs).world

theorem onlyWorld_of_pktWrite {fault : Option (Nat × Nat × Nat)} (written : pktWrite s j a bs = (fault, s1)) : OnlyWorld s s1 := by
  simpa [written] using onlyWorld_pktWrite s j a bs

/-! ### TENSOR_DECLARE -/

section declare

variable {d : Decl}

/-- The installed capacity and the pin of a declaration have room for it (R183). -/
def declRoom (s : State) (j : Nat) (d : Decl) : Prop := s.declared + d.total + s.reserved ≤ s.installed ∧ pinFits s j d = true

theorem declare_fits (room : declRoom s j d) : declare j d s =
    okC (s.setJob j { (s.job j) with decls := tput {} (s.job j).decls (s.job j).nextHandle (provisional s j d), nextHandle := (s.job j).nextHandle + 1 })
      (leBytes 4 (s.job j).nextHandle) := by
  obtain ⟨capacity, pin⟩ := room
  rw [declare, if_neg (by simp [capacity, pin])]
  rfl

theorem declare_noRoom (full : ¬ declRoom s j d) : declare j d s = failC s 0x20 := by
  have tooMuch : s.installed < s.declared + d.total + s.reserved ∨ pinFits s j d = false := by
    rw [declRoom, not_and_or, Nat.not_le, Bool.not_eq_true] at full
    exact full
  exact if_pos (by simpa using tooMuch)

/-- TENSOR_DECLARE of a record that can be read does what its checks and `declare` answer. -/
theorem exec_tensorDeclare {st d : Nat} {res : Bytes} (ready : Ready 0x0204 h s) (read : pktRead (counted h s) h.job addr 64 = .ok b)
    (answers : checkRec (counted h s) (declChecks b) (declare h.job (parseDecl b) (counted h s)) = .done s1 st d 0xFF res)
    (world : OnlyWorld s s1) : exec (.tensorDeclare h addr) s = .next (finish 0x0204 h s st d 0xFF res s1) :=
  onWorld_done ready ((withRead_ok read).trans answers) world.pending world.cfg world.ctl

end declare

/-! ### PLACE_SET -/

section placeSet

variable {p : Place} {new : Job}

/-- PLACE_SET of a record that passes its checks does what `placeSet` makes of it (R201). -/
theorem exec_placeSet {st d : Nat} (ready : Ready 0x0205 h s) (read : pktRead (counted h s) h.job addr 32 = .ok r)
    (passes : firstBad (psetChecks (counted h s) h.job r) = none)
    (sets : placeSet h.job r (counted h s) = .done s1 st d 0xFF []) (world : OnlyWorld s s1) :
    exec (.placeSet h addr) s = .next (finish 0x0205 h s st d 0xFF [] s1) :=
  onWorld_done ready ((withRead_ok read).trans ((checkRec_passed passes).trans sets)) world.pending world.cfg world.ctl

/-- Re-placement of a running step is refused before any trial. -/
theorem placeSet_replaceRunning (running : (s.job j).run ≠ none) (afresh : bit (fld r 13 1) 0 = true) : placeSet j r s = failC s 0x30 :=
  if_pos (by simp [afresh, Option.isSome_iff_ne_none, running])

variable (nonePending : (s.job j).psPending = []) (applied : new = applyPSet r (s.job j))
include nonePending applied

/-- With no record pending, a record that is not refused is tried on the job as it stands. -/
theorem placeSet_tried (may : (s.job j).run = none ∨ bit (fld r 13 1) 0 = false) (found : trialPlace s j new = some p) : placeSet j r s =
    if new == s.job j && !bit (fld r 13 1) 0 then noteC s 1
    else if (s.job j).run.isSome then okC (s.setJob j { (s.job j) with psPending := [r] })
    else
      let placed := s.setJob j { pinTables s new with psPending := [], place := p }
      okC (if bit (fld r 13 1) 0 then respread j (fun _ => true) placed else placed) := by
  subst applied
  have notRefused : ¬ (bit (fld r 13 1) 0 && (s.job j).run.isSome) = true := by
    rcases may with idle | stands
    · simp [idle]
    · simp [stands]
  unfold placeSet
  dsimp only
  rw [nonePending, List.foldl_nil, if_neg notRefused, found]
  rfl

theorem placeSet_unchanged (stands : bit (fld r 13 1) 0 = false) (found : trialPlace s j new = some p) (same : new = s.job j) :
    placeSet j r s = noteC s 1 := by
  rw [placeSet_tried nonePending applied (.inr stands) found, if_pos (by simp [same, stands])]

theorem placeSet_atBoundary (running : (s.job j).run ≠ none) (stands : bit (fld r 13 1) 0 = false) (found : trialPlace s j new = some p)
    (changes : new ≠ s.job j) : placeSet j r s = okC (s.setJob j { (s.job j) with psPending := [r] }) := by
  rw [placeSet_tried nonePending applied (.inr stands) found, if_neg (by simp [changes]),
    if_pos (Option.isSome_iff_ne_none.mpr running)]

theorem placeSet_atOnce (idle : (s.job j).run = none) (stands : bit (fld r 13 1) 0 = false) (found : trialPlace s j new = some p)
    (changes : new ≠ s.job j) : placeSet j r s = okC (s.setJob j { pinTables s new with psPending := [], place := p }) := by
  rw [placeSet_tried nonePending applied (.inr stands) found, if_neg (by simp [changes]), if_neg (by simp [idle])]
  simp [stands]

theorem placeSet_replaceAtOnce (idle : (s.job j).run = none) (afresh : bit (fld r 13 1) 0 = true) (found : trialPlace s j new = some p) :
    placeSet j r s = okC (respread j (fun _ => true) (s.setJob j { pinTables s new with psPending := [], place := p })) := by
  rw [placeSet_tried nonePending applied (.inl idle) found, if_neg (by simp [afresh]), if_neg (by simp [idle])]
  simp [afresh]

end placeSet

/-! ### PLACEMENT_REPORT -/

section placementReport

variable {buf len : Nat} {t : SetImg}

theorem wholeWrite_fits (fits : bs.length ≤ len) (written : pktWrite s j buf bs = (none, s1)) :
    wholeWrite s j buf len bs = okC s1 (leBytes 4 bs.length) := by
  rw [wholeWrite, if_neg (by omega), withWrite_ok written]

theorem wholeWrite_short (short : len < bs.length) : wholeWrite s j buf len bs = failC s 0x20 0 0xFF (leBytes 4 bs.length) :=
  if_pos short

/-- PLACEMENT_REPORT of the current set writes its report as `wholeWrite` does (R204, R285). -/
theorem exec_placementReport_current {st d : Nat} {res : Bytes} (ready : Ready 0x0206 h s) (current : (s.job h.job).cur = some t)
    (writes : wholeWrite (counted h s) h.job buf len (report (counted h s) h.job t (s.job h.job).place (s.job h.job).place.cause) =
      .done s1 st d 0xFF res) (world : OnlyWorld s s1) :
    exec (.placementReport h buf len 0) s = .next (finish 0x0206 h s st d 0xFF res s1) := by
  refine onWorld_done ready ?_ world.pending world.cfg world.ctl
  rw [placementReportOwn, if_pos rfl, job_counted, current]
  exact writes

end placementReport

/-- Settles O35: TENSOR_DECLARE answers by its checks and then by the room there is; PLACE_SET with none pending turns on whether a step
runs, whether re-placement is asked for and whether the settings change; the report is written whole or not at all. -/
theorem tensorsAreDeclaredPlacedAndReported : Obligations.TensorsAreDeclaredPlacedAndReported := by
  unfold Obligations.TensorsAreDeclaredPlacedAndReported
  refine ⟨?_, ?_, ?_, ?_, ?_, ?_, ?_, ?_, ?_, ?_⟩
  · rintro h addr b _ s ready read rfl pass capacity pin
    exact exec_tensorDeclare ready read ((checkRec_passed pass).trans (declare_fits ⟨capacity, pin⟩)) rfl
  · intro h addr o b s ready read bad
    exact exec_tensorDeclare ready read (checkRec_failed bad) rfl
  · rintro h addr b _ s ready read rfl pass full
    refine exec_tensorDeclare ready read ((checkRec_passed pass).trans (declare_noRoom ?_)) rfl
    rwa [declRoom, not_and_or, Nat.not_le, Bool.not_eq_true]
  · intro h addr r new p s ready read pass nonePending applied idle stands found changes
    exact exec_placeSet ready read pass (placeSet_atOnce nonePending applied idle stands found changes) rfl
  · intro h addr r new p s ready read pass nonePending applied idle afresh found
    refine exec_placeSet ready read pass (placeSet_replaceAtOnce nonePending applied idle afresh found) ?_
    exact .trans (t := (counted h s).setJob h.job _) rfl (keepsSet_respread _ _).world
  · intro h addr r new p s ready read pass nonePending applied _ stands found same
    exact exec_placeSet ready read pass (placeSet_unchanged nonePending applied stands found same) rfl
  · intro h addr r new s ready read pass nonePending applied running stands changes found
    obtain ⟨p, found⟩ := Option.ne_none_iff_exists'.mp found
    exact exec_placeSet ready read pass (placeSet_atBoundary nonePending applied running stands found changes) rfl
  · intro h addr r new s ready read pass _ _ running afresh
    exact exec_placeSet ready read pass (placeSet_replaceRunning running afresh) rfl
  · rintro h buf len _ t s s1 ready current rfl fits written
    exact exec_placementReport_current ready current (wholeWrite_fits fits written)
      ((onlyWorld_counted h s).trans (onlyWorld_of_pktWrite written))
  · rintro h buf len _ t s ready current rfl short
    exact exec_placementReport_current ready current (wholeWrite_short short) rfl

end Sys2Proof.Machine
end

section
/-! The stacks and their pseudo-channels (R221-R230): what a change of one leaves of the others, and which pseudo-channels a start of
retrainings takes up. -/

namespace Sys2Proof.Machine

open Sys2Proof

variable {s t : State}

/-- A part of the state that each change of a run leaves alone is left alone by the run. -/
theorem forAll_keeps {α β : Type} {part : State → β} {l : List α} {f : α → State → State} (keeps : ∀ x s, part (f x s) = part s) (s : State) :
    part (forAll l f s) = part s := by
  unfold forAll
  induction l generalizing s with
  | nil => rfl
  | cons x r ih => exact (ih _).trans (keeps x s)

/-! ### What a report leaves -/

theorem OnlyLog.stack (h : OnlyLog s t) (k : Nat) : t.stack k = s.stack k := by rw [h]; rfl
theorem OnlyLog.pc (h : OnlyLog s t) (p : Nat) : t.pc p = s.pc p := by rw [h]; rfl
theorem OnlyLog.job (h : OnlyLog s t) (j : Nat) : t.job j = s.job j := (KeepsJobs.of_onlyLog h).job j
theorem OnlyLog.jobs (h : OnlyLog s t) : t.w.jobs = s.w.jobs := by rw [h]
theorem OnlyLog.holder (h : OnlyLog s t) : t.w.holder = s.w.holder := by rw [h]
theorem OnlyLog.lanes (h : OnlyLog s t) : t.w.lanes = s.w.lanes := by rw [h]
theorem OnlyLog.apWait (h : OnlyLog s t) : t.w.apWait = s.w.apWait := by rw [h]
theorem OnlyLog.pcs (h : OnlyLog s t) : t.w.pcs = s.w.pcs := by rw [h]

/-! ### Reading a stack or a pseudo-channel after a write -/

theorem stack_modStack_ne {i k : Nat} (f : Stk → Stk) (s : State) (h : k ≠ i) : (s.modStack i f).stack k = s.stack k :=
  tget_tput_ne _ _ _ h

theorem stack_modStack_self (i : Nat) (f : Stk → Stk) (rising : Claims.rising s.w.stk) : (s.modStack i f).stack i = f (s.stack i) :=
  tget_tput_rising _ _ _ _ rising

theorem pc_modPc_ne {p k : Nat} (f : Pc → Pc) (s : State) (h : k ≠ p) : (s.modPc p f).pc k = s.pc k :=
  tget_tput_ne _ _ _ h

theorem pc_modPc_self (p : Nat) (f : Pc → Pc) (rising : Claims.rising s.w.pcs) : (s.modPc p f).pc p = f (s.pc p) :=
  tget_tput_rising _ _ _ _ rising

theorem rising_modPc (p : Nat) (f : Pc → Pc) (rising : Claims.rising s.w.pcs) : Claims.rising (s.modPc p f).w.pcs :=
  rising_tput _ _ _ _ rising

theorem tget_tput_read {α : Type} [DecidableEq α] {d : α} {l : Tab α} (k c : Nat) (rising : Claims.rising l) :
    tget d (tput d l k (tget d l k)) c = tget d l c := by
  by_cases same : c = k
  · rw [same, tget_tput_rising _ _ _ _ rising]
  · rw [tget_tput_ne _ _ _ same]

/-! ### One pseudo-channel is taken up -/

section takeUp

variable {k p st : Nat} {l : List Nat}

/-- A pseudo-channel that may be retrained is held from now on (R226, R227). -/
def takeUp (p : Nat) (s : State) : State :=
  if mayRetrain s p then s.modPc p (fun x => { x with requested := false, exempt := false, deg := x.state = 2, state := 1 }) else s

theorem requested_of_mayRetrain (may : mayRetrain s p = true) : (s.pc p).requested = true := by
  simp only [mayRetrain, Bool.and_eq_true, and_assoc] at may
  exact may.1

theorem takeUp_of_unrequested (unasked : (s.pc p).requested = false) : takeUp p s = s := by
  refine if_neg fun may => ?_
  rw [requested_of_mayRetrain may] at unasked
  contradiction

theorem takeUp_of_mayRetrain (may : mayRetrain s p = true) :
    takeUp p s = s.modPc p (fun x => { x with requested := false, exempt := false, deg := x.state = 2, state := 1 }) := if_pos may

theorem pc_takeUp_ne (h : k ≠ p) : (takeUp p s).pc k = s.pc k := by
  unfold takeUp
  split
  · exact pc_modPc_ne _ s h
  · rfl

theorem rising_takeUp (p : Nat) (rising : Claims.rising s.w.pcs) : Claims.rising (takeUp p s).w.pcs := by
  unfold takeUp
  split
  · exact rising_modPc _ _ rising
  · exact rising

theorem stk_takeUp (p : Nat) (s : State) : (takeUp p s).w.stk = s.w.stk := by
  unfold takeUp
  split <;> rfl

theorem lanes_takeUp (p : Nat) (s : State) : (takeUp p s).w.lanes = s.w.lanes := by
  unfold takeUp
  split <;> rfl

theorem apWait_takeUp (p : Nat) (s : State) : (takeUp p s).w.apWait = s.w.apWait := by
  unfold takeUp
  split <;> rfl

/-- A pseudo-channel nobody asks to retrain stands, whatever is taken up. -/
theorem pc_takeUp_unrequested (unasked : (s.pc k).requested = false) : (takeUp p s).pc k = s.pc k := by
  by_cases same : k = p
  · rw [← same, takeUp_of_unrequested unasked]
  · exact pc_takeUp_ne same

theorem pc_forAll_takeUp_unrequested (l : List Nat) (unasked : (s.pc k).requested = false) : (forAll l takeUp s).pc k = s.pc k := by
  induction l generalizing s with
  | nil => rfl
  | cons p l ih =>
    have head : (takeUp p s).pc k = s.pc k := pc_takeUp_unrequested unasked
    exact (ih (by rw [head]; exact unasked)).trans head

/-- A pseudo-channel whose retraining has been asked for, or is under way. -/
def Pc.due (x : Pc) : Prop := x.requested = true ∨ x.state = 1

theorem due_takeUp (rising : Claims.rising s.w.pcs) (due : (s.pc k).due) : ((takeUp p s).pc k).due := by
  by_cases same : k = p
  · rw [same] at due ⊢
    by_cases may : mayRetrain s p = true
    · rw [takeUp_of_mayRetrain may, pc_modPc_self _ _ rising]
      exact .inr rfl
    · rwa [takeUp, if_neg may]
  · rwa [pc_takeUp_ne same]

theorem due_forAll_takeUp (l : List Nat) (rising : Claims.rising s.w.pcs) (due : (s.pc k).due) : ((forAll l takeUp s).pc k).due := by
  induction l generalizing s with
  | nil => exact due
  | cons p l ih => exact ih (rising_takeUp p rising) (due_takeUp rising due)

/-- Where one pseudo-channel alone is asked for and may be retrained, it alone is taken up. -/
theorem forAll_takeUp_only (rising : Claims.rising s.w.pcs) (listed : p ∈ l) (may : mayRetrain s p = true)
    (others : ∀ q ∈ l, q ≠ p → (s.pc q).requested = false) : forAll l takeUp s = takeUp p s := by
  induction l with
  | nil => cases listed
  | cons q l ih =>
    by_cases same : q = p
    · rw [same]
      refine forAll_eq_self (s := takeUp p s) fun x hx => takeUp_of_unrequested ?_
      by_cases again : x = p
      · rw [again, takeUp_of_mayRetrain may, pc_modPc_self _ _ rising]
      · rw [pc_takeUp_ne again]
        exact others x (List.mem_cons_of_mem _ hx) again
    · have head : takeUp q s = s := takeUp_of_unrequested (others q List.mem_cons_self same)
      have tail : forAll l takeUp s = takeUp p s :=
        ih (List.mem_of_ne_of_mem (Ne.symm same) listed) (fun x hx => others x (List.mem_cons_of_mem _ hx))
      rw [← tail]
      exact congrArg (forAll l takeUp) head

/-! ### The retrainings of a stack start -/

/-- The requests of a stack are taken up in their order. -/
def takeUpAll (st : Nat) (s : State) : State := forAll (retrainOrder s st) takeUp s

/-- What a start of retrainings can do: nothing, or take the requests up, and then note that the waves of a trip exit have ended. -/
theorem startRetrains_cases (st : Nat) (s : State) : startRetrains st s = s ∨ startRetrains st s = takeUpAll st s ∨
    startRetrains st s = (takeUpAll st s).modStack st (fun x => { x with waves := false }) := by
  unfold startRetrains
  dsimp only
  split
  · exact .inl rfl
  · split
    · exact .inr (.inr rfl)
    · exact .inr (.inl rfl)

theorem stk_takeUpAll (st : Nat) (s : State) : (takeUpAll st s).w.stk = s.w.stk := forAll_keeps (part := fun s => s.w.stk) stk_takeUp s

theorem stack_takeUpAll (st k : Nat) (s : State) : (takeUpAll st s).stack k = s.stack k := by simp only [State.stack, stk_takeUpAll]

theorem startRetrains_of_no_waves (still : (s.stack st).waves = false) : startRetrains st s = takeUpAll st s := by
  have after : ((takeUpAll st s).stack st).waves = false := by rw [stack_takeUpAll, still]
  unfold takeUpAll takeUp at after
  unfold startRetrains
  dsimp only
  rw [if_neg (by simp [still]), if_neg (by simp [after])]
  rfl

/-- A part of the state that neither taking up a pseudo-channel nor a stack's mark of waves belongs to. -/
theorem startRetrains_keeps {β : Type} {part : State → β} (st : Nat) (s : State) (pcs : ∀ p s, part (takeUp p s) = part s)
    (marks : ∀ f s, part (s.modStack st f) = part s) : part (startRetrains st s) = part s := by
  have taken : part (takeUpAll st s) = part s := forAll_keeps pcs s
  rcases startRetrains_cases st s with same | all | ended
  · rw [same]
  · rw [all, taken]
  · rw [ended, marks, taken]

theorem lanes_startRetrains (st : Nat) (s : State) : (startRetrains st s).w.lanes = s.w.lanes :=
  startRetrains_keeps (part := fun s => s.w.lanes) st s lanes_takeUp (fun _ _ => rfl)

theorem apWait_startRetrains (st : Nat) (s : State) : (startRetrains st s).w.apWait = s.w.apWait :=
  startRetrains_keeps (part := fun s => s.w.apWait) st s apWait_takeUp (fun _ _ => rfl)

theorem stack_startRetrains_ne (h : k ≠ st) : (startRetrains st s).stack k = s.stack k :=
  startRetrains_keeps (part := fun s => s.stack k) st s (fun p s => by simp only [State.stack, stk_takeUp]) (fun f s => stack_modStack_ne f s h)

/-- Of the stack itself the mark of waves alone may change. -/
theorem stack_startRetrains_self (rising : Claims.rising s.w.stk) : ∃ w, (startRetrains st s).stack st = { s.stack st with waves := w } := by
  rcases startRetrains_cases st s with same | all | ended
  · exact ⟨_, by rw [same]⟩
  · exact ⟨_, by rw [all, stack_takeUpAll]⟩
  · refine ⟨false, ?_⟩
    rw [ended, stack_modStack_self _ _ (by rwa [stk_takeUpAll]), stack_takeUpAll]

theorem pc_startRetrains_cases (st k : Nat) (s : State) : (startRetrains st s).pc k = s.pc k ∨ (startRetrains st s).pc k = (takeUpAll st s).pc k := by
  rcases startRetrains_cases st s with same | all | ended
  · exact .inl (by rw [same])
  · exact .inr (by rw [all])
  · exact .inr (by rw [ended]; rfl)

theorem pc_startRetrains_unrequested (unasked : (s.pc k).requested = false) : (startRetrains st s).pc k = s.pc k := by
  rcases pc_startRetrains_cases st k s with same | taken
  · exact same
  · exact taken.trans (pc_forAll_takeUp_unrequested _ unasked)

theorem due_startRetrains (rising : Claims.rising s.w.pcs) (due : (s.pc k).due) : ((startRetrains st s).pc k).due := by
  rcases pc_startRetrains_cases st k s with same | taken
  · rwa [same]
  · rw [taken]
    exact due_forAll_takeUp _ rising due

theorem requestRetrain_of_live {exempt : Bool} {lanes : List Nat} (live : (s.pc p).state ≠ 3) : requestRetrain p exempt lanes s =
    s.modPc p (fun x => { x with requested := x.state != 1, exempt := x.exempt || exempt, failLanes := (x.failLanes ++ lanes).eraseDups }) :=
  if_neg live

theorem stk_requestRetrain (p : Nat) (exempt : Bool) (lanes : List Nat) (s : State) : (requestRetrain p exempt lanes s).w.stk = s.w.stk := by
  unfold requestRetrain
  split <;> rfl

/-- Asking for retrainings leaves the stacks. -/
theorem stk_askRetrains (st : Nat) (l : List Nat) (s : State) : (forAll l (fun q s => requestRetrain (64 * st + q) false [] s) s).w.stk = s.w.stk :=
  forAll_keeps (part := fun s => s.w.stk) (fun _ s => stk_requestRetrain _ _ _ s) s

end takeUp

end Sys2Proof.Machine
end

section
/-! A huddle that the module itself asks for where no plan of the job is in force (R378, R431): the huddle waits, the jobs stand. -/

namespace Sys2Proof.Machine

open Sys2Proof

section ownHuddle

variable {j u : Nat} {h : Hud} {f : Hud → Hud} {r : StepRun} {s t v : State}

theorem OnlyLog.reel (h : OnlyLog s t) : t.w.reel = s.w.reel := by rw [h]
theorem OnlyLog.topo (h : OnlyLog s t) : t.w.topo = s.w.topo := by rw [h]

/-- From `s` to `t` the huddles alone change. -/
def OnlyHuds (s t : State) : Prop := t = s.onW (fun w => { w with reel := { w.reel with huds := t.w.reel.huds } })

theorem OnlyHuds.trans (h : OnlyHuds s t) (k : OnlyHuds t v) : OnlyHuds s v := by
  unfold OnlyHuds at *
  rw [k, h]
  rfl

theorem OnlyHuds.job (h : OnlyHuds s t) (k : Nat) : t.job k = s.job k := by rw [h]; rfl
theorem OnlyHuds.topo (h : OnlyHuds s t) : t.w.topo = s.w.topo := by rw [h]; rfl
theorem OnlyHuds.stack (h : OnlyHuds s t) (k : Nat) : t.stack k = s.stack k := by rw [h]; rfl

/-- From `s` to `t` the step barriers alone change. -/
def OnlyBars (s t : State) : Prop := t = s.onW (fun w => { w with reel := { w.reel with bars := t.w.reel.bars } })

theorem OnlyBars.refl (s : State) : OnlyBars s s := rfl

theorem OnlyBars.trans (h : OnlyBars s t) (k : OnlyBars t v) : OnlyBars s v := by
  unfold OnlyBars at *
  rw [k, h]
  rfl

theorem OnlyBars.job (h : OnlyBars s t) (k : Nat) : t.job k = s.job k := by rw [h]; rfl
theorem OnlyBars.topo (h : OnlyBars s t) : t.w.topo = s.w.topo := by rw [h]; rfl
theorem OnlyBars.stack (h : OnlyBars s t) (k : Nat) : t.stack k = s.stack k := by rw [h]; rfl
theorem OnlyBars.hudOf (h : OnlyBars s t) (j : Nat) : hudOf t j = hudOf s j := by rw [h]; rfl

theorem onlyHuds_modHud (j : Nat) (f : Hud → Hud) (s : State) : OnlyHuds s (modHud j f s) := by
  unfold modHud
  split <;> rfl

theorem onlyBars_modBar (j : Nat) (f : Bar → Bar) (s : State) : OnlyBars s (modBar j f s) := by
  unfold modBar
  split <;> rfl

/-- The huddle of a job after a change: of the one that is there, or of a new one. -/
theorem hudOf_modHud (same : ∀ x, (f x).job = x.job := by exact fun _ => rfl) :
    hudOf (modHud j f s) j = some (f ((hudOf s j).getD { job := j })) := by
  unfold modHud
  cases hud : hudOf s j with
  | some x =>
    show (updWhere (fun x => x.job == j) f s.w.reel.huds).find? (fun x => x.job == j) = _
    rw [find?_updWhere _ (fun x => by rw [same]), show s.w.reel.huds.find? _ = _ from hud]
    rfl
  | none =>
    show (s.w.reel.huds ++ [f { job := j }]).find? (fun x => x.job == j) = _
    rw [List.find?_append, show s.w.reel.huds.find? _ = none from hud]
    simp [same]

theorem mem_of_hudOf (hud : hudOf s j = some h) : h ∈ s.w.reel.huds ∧ h.job = j :=
  ⟨List.mem_of_find?_eq_some hud, by simpa using List.find?_some hud⟩

/-! ### No plan is in force: the module is the only member of its jobs, lost or not -/

theorem members_of_no_plan (noPlan : s.w.topo.jobPlan = none) : members s j = [s.w.topo.node] := by
  unfold members
  rw [noPlan]
  split
  · contradiction
  · rfl

theorem liveMembers_of_lost (noPlan : s.w.topo.jobPlan = none) (lost : s.w.topo.node ∈ s.w.topo.lost) : liveMembers s j = [] := by
  simp [liveMembers, members_of_no_plan noPlan, lost]

theorem liveMembers_of_not_lost (noPlan : s.w.topo.jobPlan = none) (here : s.w.topo.node ∉ s.w.topo.lost) :
    liveMembers s j = [s.w.topo.node] := liveMembers_alone ⟨noPlan, here⟩

theorem upNode_of_no_plan (noPlan : s.w.topo.jobPlan = none) : upNode s j = none := by
  simp [upNode, jobPlanOf, members_of_no_plan noPlan]

theorem downNodes_of_no_plan (noPlan : s.w.topo.jobPlan = none) : downNodes s j = [] := by
  simp [downNodes, jobPlanOf, members_of_no_plan noPlan]

theorem controlAll_of_no_plan {step kind flags node epoch a b count : Nat} (noPlan : s.w.topo.jobPlan = none) :
    controlAll j step kind flags node epoch a b count s = s := by
  have nobody : (liveMembers s j).filter (fun n => n != s.w.topo.node) = [] := by
    by_cases lost : s.w.topo.node ∈ s.w.topo.lost
    · simp [liveMembers_of_lost noPlan lost]
    · simp [liveMembers_of_not_lost noPlan lost]
  rw [controlAll, nobody]
  rfl

theorem onlyBars_barAdvance (noPlan : s.w.topo.jobPlan = none) : OnlyBars s (barAdvance j s) := by
  unfold barAdvance
  rw [upNode_of_no_plan noPlan, downNodes_of_no_plan noPlan]
  split
  · dsimp only
    split
    · exact .refl s
    · split
      · exact onlyBars_modBar _ _ s
      · exact .refl s
  · exact .refl s

theorem onlyBars_barUpdate (noPlan : s.w.topo.jobPlan = none) (f : Ent → Ent) : OnlyBars s (barUpdate j f s) := by
  unfold barUpdate
  split
  · split
    · split
      · exact .refl s
      · have own := onlyBars_modBar j (fun x => { x with own := x.own.map f, sentUp := false }) s
        exact own.trans (onlyBars_barAdvance (by rw [own.topo, noPlan]))
    · exact .refl s
  · exact .refl s

/-! ### The huddle moves on -/

/-- The cut of a huddle: the latest boundary its live members have named (R378). -/
def cutOf (s : State) (j : Nat) (h : Hud) : Nat :=
  ((h.reqs.filter (fun q => (liveMembers s j).contains q.1)).map (fun q => q.2.1)).foldl max 0

/-- The cut is fixed. -/
def fixCut (j : Nat) (s : State) : State := modHud j (fun h => { h with cut := some (cutOf s j h) }) s

/-- The huddle of the module's own first request, before it moves on. -/
structure Asked (s : State) (j : Nat) (h : Hud) (bd : Nat) : Prop where
  hud : hudOf s j = some h
  uncut : h.cut = none
  unentered : h.entered = false
  unsent : h.sentUp = false
  reqs : ∃ good, h.reqs = [(s.w.topo.node, bd, good)]

theorem hudOf_fixCut (hud : hudOf s j = some h) : hudOf (fixCut j s) j = some { h with cut := some (cutOf s j h) } := by
  rw [fixCut, hudOf_modHud, hud]
  rfl

variable {bd : Nat}

theorem Asked.all (asked : Asked s j h bd) (noPlan : s.w.topo.jobPlan = none) :
    (liveMembers s j).all (fun n => h.reqs.any (fun q => q.1 == n)) = true := by
  obtain ⟨good, reqs⟩ := asked.reqs
  by_cases lost : s.w.topo.node ∈ s.w.topo.lost
  · simp [liveMembers_of_lost noPlan lost]
  · simp [liveMembers_of_not_lost noPlan lost, reqs]

/-- The one live member there is has asked, so the cut is fixed. -/
theorem Asked.fixes (asked : Asked s j h bd) (noPlan : s.w.topo.jobPlan = none) :
    (if (h.cut.isNone && (liveMembers s j).all (fun n => h.reqs.any (fun q => q.1 == n))) = true then
      modHud j (fun h => { h with cut := some (((h.reqs.filter (fun q => (liveMembers s j).contains q.1)).map (fun q => q.2.1)).foldl max 0) }) s
      else s) = fixCut j s := if_pos (by simp [asked.uncut, asked.all noPlan])

/-- A huddle whose cut the module has not reached waits for it. -/
theorem hudAdvance_waits (asked : Asked s j h bd) (noPlan : s.w.topo.jobPlan = none)
    (before : atCut (fixCut j s) j (cutOf s j h) h.reason = false) : hudAdvance j s = fixCut j s := by
  have fixed := hudOf_fixCut asked.hud
  rw [hudAdvance, asked.hud]
  dsimp only
  rw [asked.fixes noPlan, fixed]
  dsimp only
  rw [before, Bool.and_false, if_neg Bool.false_ne_true, fixed]
  simp [asked.unentered]


theorem stopAtCut_of_going_on (goesOn : stopsStep h.reason = false) : stopAtCut j h s = s := by
  rw [stopAtCut, goesOn]
  rfl

/-- The module has entered the huddle. -/
def enterHud (j : Nat) (s : State) : State := modHud j (fun h => { h with entered := true }) s

/-- A huddle of a lost module that has reached its cut is entered and stands: it exits for none of its members (R347, R378). -/
theorem hudAdvance_lost (asked : Asked s j h bd) (noPlan : s.w.topo.jobPlan = none) (lost : s.w.topo.node ∈ s.w.topo.lost)
    (goesOn : stopsStep h.reason = false) (reached : atCut (fixCut j s) j (cutOf s j h) h.reason = true) :
    hudAdvance j s = modHud j (fun h => { h with sentUp := true, exited := false }) (enterHud j (fixCut j s)) := by
  have fixed := hudOf_fixCut asked.hud
  have topo : (enterHud j (fixCut j s)).w.topo = s.w.topo := ((onlyHuds_modHud j _ _).trans (onlyHuds_modHud j _ _)).topo
  have entered : hudOf (enterHud j (fixCut j s)) j = some { h with cut := some (cutOf s j h), entered := true } := by
    rw [enterHud, hudOf_modHud, fixed]
    rfl
  have enters : (if (!h.entered && atCut (fixCut j s) j (cutOf s j h) h.reason) = true then
      modHud j (fun h => { h with entered := true }) (stopAtCut j { h with cut := some (cutOf s j h) } (fixCut j s)) else fixCut j s) =
      enterHud j (fixCut j s) := by
    rw [if_pos (by rw [asked.unentered, reached]; rfl), stopAtCut_of_going_on (h := { h with cut := some (cutOf s j h) }) goesOn]
    rfl
  rw [hudAdvance, asked.hud]
  dsimp only
  rw [asked.fixes noPlan, fixed]
  dsimp only
  rw [enters, entered]
  have combined (x : Hud) : hudCombined (enterHud j (fixCut j s)) j x = some 1 := by
    simp [hudCombined, downNodes_of_no_plan (j := j) (topo ▸ noPlan), sumNat]
  have nobody : liveMembers (enterHud j (fixCut j s)) j = [] := liveMembers_of_lost (topo ▸ noPlan) (by rwa [topo])
  dsimp only
  rw [asked.unsent, combined, upNode_of_no_plan (topo ▸ noPlan), nobody]
  rfl

/-- A huddle that stops no step in flight waits for the running step, whether the module counts as lost or not. -/
theorem hudAdvance_own (asked : Asked s j h bd) (noPlan : s.w.topo.jobPlan = none) (goesOn : stopsStep h.reason = false)
    (running : (s.job j).run = some r) (late : r.step ≤ bd) :
    OnlyHuds s (hudAdvance j s) ∧ ∃ h', hudOf (hudAdvance j s) j = some h' ∧ h'.reason = h.reason := by
  have fixed := hudOf_fixCut asked.hud
  have onlyFix : OnlyHuds s (fixCut j s) := onlyHuds_modHud j _ s
  cases cut : atCut (fixCut j s) j (cutOf s j h) h.reason with
  | false =>
    rw [hudAdvance_waits asked noPlan cut]
    exact ⟨onlyFix, _, fixed, rfl⟩
  | true =>
    have lost : s.w.topo.node ∈ s.w.topo.lost := by
      by_contra here
      obtain ⟨good, reqs⟩ := asked.reqs
      have own : cutOf s j h = bd := by simp [cutOf, reqs, liveMembers_of_not_lost noPlan here]
      simp [atCut, onlyFix.job, running, own, goesOn] at cut
      omega
    rw [hudAdvance_lost asked noPlan lost goesOn cut]
    refine ⟨(onlyFix.trans (onlyHuds_modHud j _ _)).trans (onlyHuds_modHud j _ _), _, hudOf_modHud, ?_⟩
    rw [enterHud, hudOf_modHud, fixed]
    rfl

/-- The module's own request, the first for its job, starts a huddle of its reason and leaves the jobs and the stacks (R290, R378). -/
theorem ownHuddle_first {reason boundary : Nat} (noHuddle : hudOf s j = none) (noPlan : s.w.topo.jobPlan = none)
    (goesOn : stopsStep reason = false) (running : (s.job j).run = some r) :
    (∀ k, (ownHuddle j reason boundary s).job k = s.job k) ∧ (∀ k, (ownHuddle j reason boundary s).stack k = s.stack k) ∧
      ∃ h ∈ (ownHuddle j reason boundary s).w.reel.huds, h.job = j ∧ h.reason = reason := by
  set bd := max boundary (reachable (s.job j)) with bdIs
  set e := event 0x0004 0x06 j bd bd s with eIs
  have log : OnlyLog s e := onlyLog_event _ _ _ _ _ _
  have noHud : hudOf e j = none := by rw [hudOf, log.reel]; exact noHuddle
  set a := modHud j (fun h => { h with
      reason := if h.reqs.isEmpty then reason else h.reason
      reqs := h.reqs ++ [(e.w.topo.node, max bd (reachable (e.job j)), goodStep (e.job j))] }) e with aIs
  have only : OnlyHuds e a := onlyHuds_modHud j _ e
  have noPlanA : a.w.topo.jobPlan = none := by rw [only.topo, log.topo, noPlan]
  have asks : ownHuddle j reason boundary s = hudAdvance j a := by
    show askHuddle j reason bd e = _
    rw [askHuddle, noHud]
    dsimp only
    rw [if_neg Bool.false_ne_true, controlAll_of_no_plan noPlanA]
  have hud : hudOf a j = some { job := j, reason := reason, reqs := [(e.w.topo.node, max bd (reachable (e.job j)), goodStep (e.job j))] } := by
    rw [aIs, hudOf_modHud, noHud]
    rfl
  have asked : Asked a j _ (max bd (reachable (e.job j))) := ⟨hud, rfl, rfl, rfl, _, by rw [only.topo]⟩
  have runs : (a.job j).run = some r := by rw [only.job, log.job, running]
  have late : r.step ≤ max bd (reachable (e.job j)) := by
    have reach : reachable (e.job j) = r.step := by rw [log.job, reachable, running]
    omega
  obtain ⟨moved, h', hud', reason'⟩ := hudAdvance_own asked noPlanA goesOn runs late
  obtain ⟨member, job⟩ := mem_of_hudOf hud'
  rw [asks]
  refine ⟨fun k => ?_, fun k => ?_, h', member, job, reason'⟩
  · rw [moved.job, only.job, log.job]
  · rw [moved.stack, only.stack, log.stack]

end ownHuddle
end Sys2Proof.Machine
end

section
/-! The temperature of the stacks (R221-R224, R375): samples, trips, hot tiers, phases. -/

namespace Sys2Proof.Machine

open Sys2Proof

section stackThermal

variable {j u st t : Nat} {c : StkCfg} {r : StepRun} {s : State}

/-! ### Levels (R221) -/

/-- From level 0 a sample sets the highest level whose threshold it reaches. -/
theorem levelOf_zero (c : StkCfg) (t : Nat) : levelOf c 0 t =
    if 1050 ≤ t then 4 else if 10 * c.critC ≤ t then 3 else if 10 * c.hotC ≤ t then 2 else if 10 * c.warmC ≤ t then 1 else 0 :=
  Nat.max_zero _

/-- A level is kept while the temperature lies less than 3 °C below its threshold. -/
theorem le_levelOf {k : Nat} (above : 1 ≤ k) (near : levelTenths c k < t + 30) : k ≤ levelOf c k t := by
  obtain ⟨n, rfl⟩ := Nat.exists_eq_add_of_le' above
  have kept : levelFall c t (n + 1) = n + 1 := if_neg (by omega)
  rw [levelOf, kept]
  exact Nat.le_max_right _ _

/-! ### A sample -/

/-- A stack that was `old` after a sample of `t` tenths, not tripped. -/
def Stk.sampled (c : StkCfg) (t : Nat) (old x : Stk) : Stk :=
  { x with
    tempTenths := t, level := levelOf c old.level t, hotRun := if 10 * c.hotC ≤ t then old.hotRun + 1 else 0
    hotMs := min ((if 10 * c.hotC ≤ t then old.hotRun + 1 else 0) / 10) 4095, deferred := levelOf c old.level t = 3 && x.phase
    refTenths := some (x.refTenths.getD t) }

/-- A sample writes the stack; what follows it reports and asks for retrainings. -/
theorem stackSample_writes (low : st < 12) (inField : t < 4096) (on : s.unitOn (0x10 + st) = true) (untripped : (s.stack st).tripped = false) :
    ∃ l s1, OnlyLog (s.modStack st (Stk.sampled (tget {} s.cfg.stk st) t (s.stack st))) s1 ∧
      stackSample st t s = startRetrains st (forAll l (fun q s => requestRetrain (64 * st + q) false [] s) s1) := by
  have field : min t 4095 = t := by omega
  unfold stackSample
  rw [if_neg (by simp [low, on])]
  simp only [field, untripped, Bool.false_and, Bool.false_eq_true, if_false]
  have advised (a : State) : OnlyLog a (if 10 * (tget {} s.cfg.stk st).hotC ≤ t then ckptAdvice 3 a else a) := by
    split
    · exact onlyLog_ckptAdvice _ _
    · exact .refl a
  exact ⟨_, _, .trans (.forAll (fun _ s => onlyLog_flt _ _ _ _ _ s) _) (advised _), rfl⟩

theorem stack_stackSample_self (low : st < 12) (inField : t < 4096) (on : s.unitOn (0x10 + st) = true)
    (untripped : (s.stack st).tripped = false) (rising : Claims.rising s.w.stk) :
    ∃ w, (stackSample st t s).stack st = { Stk.sampled (tget {} s.cfg.stk st) t (s.stack st) (s.stack st) with waves := w } := by
  obtain ⟨l, s1, log, samples⟩ := stackSample_writes low inField on untripped
  have stk : s1.w.stk = (s.modStack st (Stk.sampled (tget {} s.cfg.stk st) t (s.stack st))).w.stk := by rw [log]
  obtain ⟨w, after⟩ := stack_startRetrains_self (st := st) (s := forAll l (fun q s => requestRetrain (64 * st + q) false [] s) s1)
    (by rw [stk_askRetrains, stk]; exact rising_tput _ _ _ _ rising)
  refine ⟨w, ?_⟩
  rw [samples, after, State.stack, stk_askRetrains, stk]
  exact congrArg (fun x : Stk => { x with waves := w }) (stack_modStack_self _ _ rising)

theorem stack_stackSample_ne {k : Nat} (low : st < 12) (inField : t < 4096) (on : s.unitOn (0x10 + st) = true)
    (untripped : (s.stack st).tripped = false) (other : k ≠ st) : (stackSample st t s).stack k = s.stack k := by
  obtain ⟨l, s1, log, samples⟩ := stackSample_writes low inField on untripped
  rw [samples, stack_startRetrains_ne other, State.stack, stk_askRetrains]
  exact (log.stack k).trans (stack_modStack_ne _ s other)

/-! ### A trip (R223) -/

theorem thermalStop_free (free : s.w.holder = none) : thermalStop u s = s := by
  rw [thermalStop, free]

/-- A failure found for the running step, the first of it, is the step's failure (R410). -/
theorem run_failStep_first {f : Fail} {cells : List Nat} (running : (s.job j).run = some r) (first : r.fail = none)
    (rising : Claims.rising s.w.jobs) : ((failStep j r.step f cells s).job j).run = some { r with fail := some f } := by
  rw [failStep, job_modJob_self _ rising]
  simp [Job.modEntry, running, first]

/-- The running step of the job that holds the array fails with THERMAL_LIMIT, a huddle of reason 5 is asked for, and the stacks stand. -/
theorem thermalStop_running (holder : s.w.holder = some j) (running : (s.job j).run = some r) (first : r.fail = none)
    (noHuddle : hudOf s j = none) (noPlan : s.w.topo.jobPlan = none) (rising : Claims.rising s.w.jobs) :
    ((thermalStop u s).job j).run = some { r with fail := some { status := 0x80, unit := u } } ∧
      (∀ k, (thermalStop u s).stack k = s.stack k) ∧ ∃ h ∈ (thermalStop u s).w.reel.huds, h.job = j ∧ h.reason = 5 := by
  set a := failStep j r.step { status := 0x80, unit := u } [] s with aIs
  set b := barUpdate j (fun e => { e with failed := true }) a with bIs
  have fails : (a.job j).run = some { r with fail := some { status := 0x80, unit := u } } := run_failStep_first running first rising
  have bars : OnlyBars a b := onlyBars_barUpdate (show a.w.topo.jobPlan = none from noPlan) _
  have stops : thermalStop u s = ownHuddle j 5 r.step b := by
    rw [thermalStop, holder]
    dsimp only
    rw [running]
  obtain ⟨jobs, tiers, huddle⟩ := ownHuddle_first (s := b) (j := j) (reason := 5) (boundary := r.step)
    (r := { r with fail := some { status := 0x80, unit := u } }) ((bars.hudOf j).trans noHuddle)
    (by rw [bars.topo]; exact noPlan) (by decide) (by rw [bars.job, fails])
  rw [stops]
  refine ⟨?_, fun k => ?_, huddle⟩
  · rw [jobs, bars.job, fails]
  · rw [tiers, bars.stack]
    rfl

/-- A stack that has tripped. -/
def Stk.trip (x : Stk) : Stk := { x with tripped := true, level := 4, deferred := false, waves := false }

/-- The trip of a stack as the log has it, before the step of the job that holds the array stops. -/
def tripNoted (st : Nat) (s : State) : State :=
  flt 0x1304 (0x10 + st) 0xFF 0 (locStack st (s.stack st).tempTenths) (s.modStack st Stk.trip)

theorem stackTrip_fires (low : st < 12) (on : s.unitOn (0x10 + st) = true) (untripped : (s.stack st).tripped = false) :
    stackTrip st s = benchAdvice 1 (0x10 + st) (thermalStop (0x10 + st) (tripNoted st s)) :=
  if_neg (by simp [low, on, untripped])

theorem onlyLog_tripNoted (st : Nat) (s : State) : OnlyLog (s.modStack st Stk.trip) (tripNoted st s) := onlyLog_flt _ _ _ _ _ _

/-! ### A stack that stays hot (R224) -/

theorem stackHot_free (low : st < 12) (on : s.unitOn (0x10 + st) = true) (hot : 10 * (tget {} s.cfg.stk st).hotC ≤ (s.stack st).tempTenths)
    (free : s.w.holder = none) :
    stackHot st s = benchAdvice 1 (0x10 + st) (flt 0x1305 (0x10 + st) 0xFF 0 (locStack st (s.stack st).tempTenths) s) := by
  have goes : ¬((!(decide (st < 12) && s.unitOn (0x10 + st)) || decide ((s.stack st).tempTenths < 10 * (tget {} s.cfg.stk st).hotC)) = true) := by
    simp [low, on, hot]
  unfold stackHot
  dsimp only
  rw [if_neg goes, free]

/-! ### Phases in flight (R222, R375) -/

/-- A change of each listed stack: the stack reads as changed, once. -/
theorem stack_forAll_modStack {l : List Nat} {f : Stk → Stk} {k : Nat} (each : l.Nodup) (listed : k ∈ l) (rising : Claims.rising s.w.stk) :
    (forAll l (fun i s => s.modStack i f) s).stack k = f (s.stack k) := by
  have rest : ∀ {l : List Nat} {s : State}, k ∉ l → (forAll l (fun i s => s.modStack i f) s).stack k = s.stack k := by
    intro l s unlisted
    induction l generalizing s with
    | nil => rfl
    | cons i l ih =>
      rw [List.mem_cons, not_or] at unlisted
      exact (ih unlisted.2).trans (stack_modStack_ne f s unlisted.1)
  induction l generalizing s with
  | nil => cases listed
  | cons i l ih =>
    rw [List.nodup_cons] at each
    by_cases same : k = i
    · rw [← same] at each
      rw [← same]
      exact (rest each.1).trans (stack_modStack_self k f rising)
    · exact (ih (s := s.modStack i f) each.2 (List.mem_of_ne_of_mem same listed) (rising_tput _ _ _ _ rising)).trans
        (congrArg f (stack_modStack_ne f s same))

/-- A stack with the phases of the Reel engine signalled. -/
def Stk.phased (n : Nat) (x : Stk) : Stk := { x with phase := decide (0 < n), deferred := x.level = 3 && decide (0 < n) }

theorem stack_phaseSignal {n k : Nat} (low : k < 12) (rising : Claims.rising s.w.stk) : (phaseSignal n s).stack k = (s.stack k).phased n :=
  stack_forAll_modStack (f := Stk.phased n) (s := s.onW (fun w => { w with reel := { w.reel with phases := n } }))
    List.nodup_range (List.mem_range.mpr low) rising

theorem phases_phaseSignal (n : Nat) (s : State) : (phaseSignal n s).w.reel.phases = n :=
  forAll_keeps (part := fun s => s.w.reel.phases) (l := List.range 12) (f := fun st s => s.modStack st (Stk.phased n)) (fun _ _ => rfl)
    (s.onW (fun w => { w with reel := { w.reel with phases := n } }))

theorem onlyWorld_phaseSignal (n : Nat) (s : State) : OnlyWorld s (phaseSignal n s) :=
  .trans (.onW s _) (.forAll _ _ (fun st s => onlyWorld_modStack s st _) _)

end stackThermal

/-- Settles O30: a sample writes its stack before it reports and asks for retrainings; a trip and a hot stack report after the stack is
written, and stop the step of the job that holds the array; a signal writes each stack once. -/
theorem stackThermalLadder : Obligations.StackThermalLadder := by
  unfold Obligations.StackThermalLadder
  refine ⟨?_, ?_, ?_, ?_, ?_⟩
  · rintro st t _ s low inField on untripped rising rfl
    obtain ⟨w, self⟩ := stack_stackSample_self low inField on untripped rising
    refine ⟨{ s with w := (stackSample st t s).w }, rfl, rfl, rfl, ?_⟩
    have level : ((stackSample st t s).stack st).level = levelOf (tget {} s.cfg.stk st) (s.stack st).level t := congrArg Stk.level self
    refine ⟨congrArg Stk.tempTenths self, level, fun zero => ?_, fun k above _ old near => ?_, fun k other => ?_⟩
    · exact level.trans (by rw [zero, levelOf_zero])
    · refine le_of_le_of_eq ?_ level.symm
      rw [old]
      exact le_levelOf above near
    · exact stack_stackSample_ne low inField on untripped other
  · intro st s low on untripped free
    have stops : thermalStop (0x10 + st) (tripNoted st s) = tripNoted st s :=
      thermalStop_free ((onlyLog_tripNoted st s).holder.trans free)
    have world : OnlyWorld s (benchAdvice 1 (0x10 + st) (tripNoted st s)) :=
      ((onlyWorld_modStack s st Stk.trip).trans (onlyLog_tripNoted st s).world).trans (onlyLog_benchAdvice _ _ _).world
    exact onWorld_of_eq ((stackTrip_fires low on untripped).trans (by rw [stops]; rfl)) world.pending world.cfg world.ctl
  · intro st j r s low on untripped holder running first noHuddle noPlan rising risingJobs
    have log := onlyLog_tripNoted st s
    have noHud : hudOf (tripNoted st s) j = none := by rw [hudOf, log.reel]; exact noHuddle
    obtain ⟨fails, tiers, huddle⟩ := thermalStop_running (u := 0x10 + st) (s := tripNoted st s) (log.holder.trans holder)
      (by rw [log.job]; exact running) first noHud (by rw [log.topo]; exact noPlan) (by rw [log.jobs]; exact risingJobs)
    have advice : OnlyLog (thermalStop (0x10 + st) (tripNoted st s)) (stackTrip st s) := by
      rw [stackTrip_fires low on untripped]
      exact onlyLog_benchAdvice _ _ _
    have tripped : (stackTrip st s).stack st = (s.stack st).trip := by
      rw [advice.stack, tiers, log.stack, stack_modStack_self _ _ rising]
    refine ⟨{ s with w := (stackTrip st s).w }, rfl, rfl, rfl, congrArg Stk.tripped tripped, congrArg Stk.level tripped, ?_, ?_⟩
    · exact (congrArg Job.run (advice.job j)).trans fails
    · exact advice.reel ▸ huddle
  · intro st s low on hot free
    have world : OnlyWorld s (benchAdvice 1 (0x10 + st) (flt 0x1305 (0x10 + st) 0xFF 0 (locStack st (s.stack st).tempTenths) s)) :=
      (onlyWorld_flt _ _ _ _ _ s).trans (onlyLog_benchAdvice _ _ _).world
    exact onWorld_of_eq (stackHot_free low on hot free) world.pending world.cfg world.ctl
  · intro n s rising
    have world := onlyWorld_phaseSignal n s
    exact ⟨phaseSignal n s, onWorld_of_eq rfl world.pending world.cfg world.ctl, world.cfg, world.ctl, phases_phaseSignal n s,
      fun st low => stack_phaseSignal low rising⟩

end Sys2Proof.Machine
end

section
/-! Retraining of pseudo-channels and the spare lanes of their channels (R213, R226-R228). -/

namespace Sys2Proof.Machine

open Sys2Proof

section retraining

variable {st q p : Nat} {ok : Bool} {c : Lane} {s t : State}

theorem bit_eight_of_lt {q : Nat} (low : q < 64) : bit q 8 = false ∧ bit (256 + q) 8 = true := by
  simp only [bit, Nat.shiftRight_eq_div_pow, beq_eq_false_iff_ne, beq_iff_eq]
  omega

/-! ### STK_RETRAIN (R226) -/

theorem onlyWorld_retrainWrite (st v : Nat) (s : State) : OnlyWorld s (retrainWrite st v s) :=
  .ite ((onlyWorld_requestRetrain _ _ _ s).trans (onlyWorld_startRetrains _ _)) (.refl s)

theorem exec_stkRetrain {v : Nat} (low : st < 12) (on : s.unitOn (0x10 + st) = true) (meaning : retrainWrite st v s = t) :
    exec (.stkRetrain st v) s = .next t := by
  have world : OnlyWorld s t := meaning ▸ onlyWorld_retrainWrite st v s
  refine (show exec (.stkRetrain st v) s = execStkRetrain st v s from rfl).trans (onCore_of_eq ?_ world.pending world.cfg)
  rw [if_neg (by omega), hostWrite, if_pos on, meaning]

/-- A pseudo-channel whose retraining is asked for. -/
def Pc.asked (x : Pc) : Pc := { x with requested := x.state != 1, exempt := x.exempt || false, failLanes := (x.failLanes ++ []).eraseDups }

/-- A stack on which no pseudo-channel is held or asked for, and pseudo-channel `q` of it live and trained long enough ago (R226). -/
structure RetrainFree (s : State) (st q : Nat) : Prop where
  inStack : q < 64
  idle : ∀ k < 64, (s.pc (64 * st + k)).state ≠ 1 ∧ (s.pc (64 * st + k)).requested = false
  live : (s.pc (64 * st + q)).state = 0
  untripped : (s.stack st).tripped = false
  still : (s.stack st).waves = false
  settled : (s.pc (64 * st + q)).trained = false ∨ (s.pc (64 * st + q)).trainNs + 100000000 ≤ s.ctl.clk.ns
  rising : Claims.rising s.w.pcs

theorem RetrainFree.requests (free : RetrainFree s st q) :
    requestRetrain (64 * st + q) false [] s = s.modPc (64 * st + q) Pc.asked := requestRetrain_of_live (by rw [free.live]; decide)

theorem RetrainFree.asked (free : RetrainFree s st q) : (s.modPc (64 * st + q) Pc.asked).pc (64 * st + q) = (s.pc (64 * st + q)).asked :=
  pc_modPc_self _ _ free.rising

theorem RetrainFree.unheld (free : RetrainFree s st q) :
    (List.range 64).filter (fun k => ((s.modPc (64 * st + q) Pc.asked).pc (64 * st + k)).state = 1) = [] := by
  refine List.filter_eq_nil_iff.mpr fun k hk => ?_
  have state : ((s.modPc (64 * st + q) Pc.asked).pc (64 * st + k)).state = (s.pc (64 * st + k)).state := by
    by_cases same : k = q
    · rw [same, free.asked]
      rfl
    · rw [pc_modPc_ne _ _ (by omega)]
  simpa [state] using (free.idle k (List.mem_range.mp hk)).1

theorem RetrainFree.may (free : RetrainFree s st q) : mayRetrain (s.modPc (64 * st + q) Pc.asked) (64 * st + q) = true := by
  have stack : (64 * st + q) / 64 = st := by have := free.inStack; omega
  have settled : (!(s.pc (64 * st + q)).trained || decide ((s.pc (64 * st + q)).trainNs + 100000000 ≤ s.ctl.clk.ns)) = true := by
    rcases free.settled with new | old
    · simp [new]
    · simp [old]
  have untripped : ((s.modPc (64 * st + q) Pc.asked).stack st).tripped = false := free.untripped
  unfold mayRetrain
  dsimp only
  rw [stack, free.unheld, free.asked, untripped]
  simp only [Pc.asked, free.live, State.now, State.modPc_ctl]
  rw [Bool.or_assoc, settled]
  simp

/-- STK_RETRAIN with go of a free stack holds the one pseudo-channel (R226, R227). -/
theorem RetrainFree.retrainWrite_go (free : RetrainFree s st q) (low : st < 12) :
    retrainWrite st (256 + q) s = takeUp (64 * st + q) (s.modPc (64 * st + q) Pc.asked) := by
  have inStack := free.inStack
  have place : (256 + q) % 64 = q := by omega
  have still : ((s.modPc (64 * st + q) Pc.asked).stack st).waves = false := free.still
  have order : retrainOrder (s.modPc (64 * st + q) Pc.asked) st = (List.range 64).map (fun k => 64 * st + k) := by
    rw [retrainOrder, still]
    rfl
  rw [retrainWrite, if_pos (by simp [low, bit_eight_of_lt inStack]), place, free.requests, startRetrains_of_no_waves still, takeUpAll, order]
  refine forAll_takeUp_only (rising_modPc _ _ free.rising) (List.mem_map.mpr ⟨q, List.mem_range.mpr inStack, rfl⟩) free.may ?_
  intro p listed other
  obtain ⟨k, hk, rfl⟩ := List.mem_map.mp listed
  rw [pc_modPc_ne _ _ other]
  exact (free.idle k (List.mem_range.mp hk)).2

theorem retrainWrite_noGo (inStack : q < 64) : retrainWrite st q s = s := if_neg (by simp [bit_eight_of_lt inStack])

/-! ### The end of a retraining (R213, R228) -/

/-- A pseudo-channel whose retraining has ended at a temperature and a time, before it is judged. -/
def Pc.retrained (tenths ns : Nat) (x : Pc) : Pc :=
  { x with
    state := if x.deg then 2 else 0, deg := false, retrains := satAdd 8 x.retrains 1, hold := 0, failLanes := []
    trained := true, trainTenths := tenths, trainNs := ns }

/-- The hold of a pseudo-channel ends, its channel's spares stand as `c`, and the stack's side of the crossing is restored (R60). -/
def endHold (st q : Nat) (c : Lane) (s : State) : State :=
  ((s.modXing (xStack st) Xing.localReset).onW (fun w => { w with lanes := tput {} w.lanes (32 * st + q / 2) c })).modPc (64 * st + q)
    (Pc.retrained (s.stack st).tempTenths s.now)

/-- The trims of a pseudo-channel have converged or it is degraded (R228). -/
def judgeTrims (ok : Bool) (st p : Nat) (s : State) : State := if !ok then degrade p s else flt 0x1202 (0x10 + st) 0xFF 0 (locPc p 0xFFFFFFFF 0xFF) s

/-- The other pseudo-channel of a channel. -/
def sibling (st q : Nat) : Nat := 64 * st + q / 2 * 2 + (1 - q % 2)

theorem sibling_ne (st q : Nat) : sibling st q ≠ 64 * st + q := by
  unfold sibling
  omega

/-- A pseudo-channel of a stack that is held for retraining, with no lane that failed before. -/
structure Held (s : State) (st q : Nat) : Prop where
  low : st < 12
  inStack : q < 64
  state : (s.pc (64 * st + q)).state = 1
  unasked : (s.pc (64 * st + q)).requested = false
  noLanes : (s.pc (64 * st + q)).failLanes = []
  untripped : (s.stack st).tripped = false
  rising : Claims.rising s.w.pcs

theorem Held.goes (held : Held s st q) :
    ¬ ((!(decide (st < 12) && decide (q < 64)) || (s.pc (64 * st + q)).state != 1 || (s.stack st).tripped) = true) := by
  simp [held.low, held.inStack, held.state, held.untripped]

theorem retrainDone_no_lanes (held : Held s st q) : retrainDone st q ok [] s =
    startRetrains st (judgeTrims ok st (64 * st + q) (endHold st q (tget {} s.w.lanes (32 * st + q / 2)) s)) := by
  unfold retrainDone
  dsimp only
  rw [if_neg held.goes, held.noLanes]
  rfl

theorem pc_endHold_self (held : Held s st q) : (endHold st q c s).pc (64 * st + q) = (s.pc (64 * st + q)).retrained (s.stack st).tempTenths s.now :=
  pc_modPc_self _ _ held.rising

theorem pc_endHold_ne (other : p ≠ 64 * st + q) : (endHold st q c s).pc p = s.pc p := pc_modPc_ne _ _ other

theorem rising_endHold (rising : Claims.rising s.w.pcs) : Claims.rising (endHold st q c s).w.pcs := rising_tput _ _ _ _ rising

theorem lanes_endHold : (endHold st q c s).w.lanes = tput {} s.w.lanes (32 * st + q / 2) c := rfl

/-! ### What judging it and asking for the sibling leave -/

theorem degrade_of_live (live : (s.pc p).state ≠ 3) :
    OnlyLog (s.modPc p (fun x => { x with state := 2 })) (degrade p s) := by
  rw [degrade, if_neg live]
  exact onlyLog_flt _ _ _ _ _ _

theorem judgeTrims_true (st p : Nat) (s : State) : judgeTrims true st p s = flt 0x1202 (0x10 + st) 0xFF 0 (locPc p 0xFFFFFFFF 0xFF) s :=
  if_neg (by decide)

theorem judgeTrims_false (st p : Nat) (s : State) : judgeTrims false st p s = degrade p s := if_pos rfl

/-- Judging the trims reports, and writes the state of the pseudo-channel alone. -/
theorem judgeTrims_of_live (ok : Bool) (st : Nat) (live : (s.pc p).state ≠ 3) :
    OnlyLog (if ok then s else s.modPc p (fun x => { x with state := 2 })) (judgeTrims ok st p s) := by
  cases ok with
  | true =>
    rw [judgeTrims_true]
    exact onlyLog_flt _ _ _ _ _ s
  | false =>
    rw [judgeTrims_false]
    exact degrade_of_live live

theorem pc_judgeTrims_self (rising : Claims.rising s.w.pcs) (live : (s.pc p).state ≠ 3) :
    (judgeTrims ok st p s).pc p = { s.pc p with state := if ok then (s.pc p).state else 2 } := by
  rw [(judgeTrims_of_live ok st live).pc]
  cases ok with
  | true => rfl
  | false => exact pc_modPc_self _ _ rising

theorem pc_judgeTrims_ne {k : Nat} (live : (s.pc p).state ≠ 3) (other : k ≠ p) : (judgeTrims ok st p s).pc k = s.pc k := by
  rw [(judgeTrims_of_live ok st live).pc]
  cases ok with
  | true => rfl
  | false => exact pc_modPc_ne _ _ other

theorem rising_judgeTrims (rising : Claims.rising s.w.pcs) (live : (s.pc p).state ≠ 3) : Claims.rising (judgeTrims ok st p s).w.pcs := by
  rw [(judgeTrims_of_live ok st live).pcs]
  cases ok with
  | true => exact rising
  | false => exact rising_modPc _ _ rising

theorem lanes_judgeTrims (live : (s.pc p).state ≠ 3) : (judgeTrims ok st p s).w.lanes = s.w.lanes := by
  rw [(judgeTrims_of_live ok st live).lanes]
  cases ok <;> rfl

theorem apWait_judgeTrims (live : (s.pc p).state ≠ 3) : (judgeTrims ok st p s).w.apWait = s.w.apWait := by
  rw [(judgeTrims_of_live ok st live).apWait]
  cases ok <;> rfl

theorem lanes_requestRetrain (p : Nat) (exempt : Bool) (lanes : List Nat) (s : State) : (requestRetrain p exempt lanes s).w.lanes = s.w.lanes := by
  unfold requestRetrain
  split <;> rfl

theorem apWait_requestRetrain (p : Nat) (exempt : Bool) (lanes : List Nat) (s : State) : (requestRetrain p exempt lanes s).w.apWait = s.w.apWait := by
  unfold requestRetrain
  split <;> rfl

theorem serveWaiting_of_none (nobody : s.w.apWait = []) : serveWaiting s = s := by
  rw [serveWaiting, nobody]
  rfl

theorem exec_pcRetrainDone {bad : List Nat} (serves : serveWaiting (retrainDone st q ok bad s) = retrainDone st q ok bad s) :
    exec (.pcRetrainDone st q ok bad) s = .next { s with w := (retrainDone st q ok bad s).w } := by
  show onWorld (fun s => serveWaiting (retrainDone st q ok bad s)) s = _
  rw [onWorld_eq, serves]

/-! ### A held pseudo-channel with no failed lane -/

theorem Held.live_endHold (held : Held s st q) : ((endHold st q c s).pc (64 * st + q)).state ≠ 3 := by
  rw [pc_endHold_self held, Pc.retrained]
  dsimp only
  split <;> decide

theorem Held.pc_done (held : Held s st q) : (retrainDone st q ok [] s).pc (64 * st + q) =
    { (s.pc (64 * st + q)).retrained (s.stack st).tempTenths s.now with state := if ok = true ∧ (s.pc (64 * st + q)).deg = false then 0 else 2 } := by
  have judged := pc_judgeTrims_self (ok := ok) (st := st) (rising_endHold held.rising) (held.live_endHold (c := tget {} s.w.lanes (32 * st + q / 2)))
  rw [pc_endHold_self held] at judged
  rw [retrainDone_no_lanes held, pc_startRetrains_unrequested (by rw [judged]; exact held.unasked), judged]
  have state : (if ok = true then ((s.pc (64 * st + q)).retrained (s.stack st).tempTenths s.now).state else 2) =
      if ok = true ∧ (s.pc (64 * st + q)).deg = false then 0 else 2 := by
    cases ok <;> cases deg : (s.pc (64 * st + q)).deg <;> simp [Pc.retrained, deg]
  rw [state]

theorem Held.lanes_done (held : Held s st q) : (retrainDone st q ok [] s).w.lanes =
    tput {} s.w.lanes (32 * st + q / 2) (tget {} s.w.lanes (32 * st + q / 2)) := by
  rw [retrainDone_no_lanes held, lanes_startRetrains, lanes_judgeTrims held.live_endHold, lanes_endHold]

theorem Held.apWait_done (held : Held s st q) : (retrainDone st q ok [] s).w.apWait = s.w.apWait := by
  rw [retrainDone_no_lanes held, apWait_startRetrains, apWait_judgeTrims held.live_endHold]
  rfl

/-! ### A lane takes the first spare -/

section firstLane

variable {l : Nat}

/-- The hold has ended, the spare is taken and the log has it. -/
def spareTaken (st q l : Nat) (s : State) : State :=
  flt 0x1201 (0x10 + st) 0xFF 0 (locPc (64 * st + q) 0xFFFFFFFF l) (endHold st q { spare0 := l, failed := 1 } s)

/-- A lane that fails on a channel whose spares are unused takes the first one, and the sibling retrains next. -/
theorem retrainDone_first_lane (held : Held s st q) (inWidth : l < 72) (unused : tget {} s.w.lanes (32 * st + q / 2) = {}) :
    retrainDone st q ok [l] s = startRetrains st (judgeTrims ok st (64 * st + q) (requestRetrain (sibling st q) true [l] (spareTaken st q l s))) := by
  have lanes : (([] ++ [l] : List Nat).eraseDups).filter (fun l => decide (l < 72)) = [l] := by
    rw [show ([] ++ [l] : List Nat).eraseDups = [l] from rfl]
    simp [inWidth]
  have steered : steerLane {} l = ({ spare0 := l, failed := 1 }, 1) := by
    rw [steerLane, if_neg (by simp; omega), if_pos rfl]
    rfl
  unfold retrainDone
  dsimp only
  rw [if_neg held.goes, held.noLanes, lanes, unused]
  simp only [List.foldl_cons, List.foldl_nil, steered]
  rfl

theorem onlyLog_spareTaken (st q l : Nat) (s : State) : OnlyLog (endHold st q { spare0 := l, failed := 1 } s) (spareTaken st q l s) :=
  onlyLog_flt _ _ _ _ _ _

theorem pc_spareTaken_sibling (l : Nat) : (spareTaken st q l s).pc (sibling st q) = s.pc (sibling st q) :=
  ((onlyLog_spareTaken st q l s).pc _).trans (pc_endHold_ne (sibling_ne st q))

theorem Held.live_asking (held : Held s st q) : ((requestRetrain (sibling st q) true [l] (spareTaken st q l s)).pc (64 * st + q)).state ≠ 3 := by
  have own : ((spareTaken st q l s).pc (64 * st + q)).state ≠ 3 := by
    rw [(onlyLog_spareTaken st q l s).pc]
    exact held.live_endHold
  unfold requestRetrain
  split
  · exact own
  · rwa [pc_modPc_ne _ _ (sibling_ne st q).symm]

theorem Held.lanes_first (held : Held s st q) (inWidth : l < 72) (unused : tget {} s.w.lanes (32 * st + q / 2) = {}) :
    (retrainDone st q ok [l] s).w.lanes = tput {} s.w.lanes (32 * st + q / 2) { spare0 := l, failed := 1 } := by
  rw [retrainDone_first_lane held inWidth unused, lanes_startRetrains, lanes_judgeTrims held.live_asking, lanes_requestRetrain]
  exact (onlyLog_spareTaken st q l s).lanes

theorem Held.apWait_first (held : Held s st q) (inWidth : l < 72) (unused : tget {} s.w.lanes (32 * st + q / 2) = {}) :
    (retrainDone st q ok [l] s).w.apWait = s.w.apWait := by
  rw [retrainDone_first_lane held inWidth unused, apWait_startRetrains, apWait_judgeTrims held.live_asking, apWait_requestRetrain]
  exact (onlyLog_spareTaken st q l s).apWait

/-- The sibling is asked for, and stays asked for until it is held. -/
theorem Held.due_sibling (held : Held s st q) (inWidth : l < 72) (unused : tget {} s.w.lanes (32 * st + q / 2) = {})
    (live : (s.pc (sibling st q)).state = 0) : ((retrainDone st q ok [l] s).pc (sibling st q)).due := by
  have rising : Claims.rising (spareTaken st q l s).w.pcs := (onlyLog_spareTaken st q l s).pcs ▸ rising_endHold held.rising
  have requests := requestRetrain_of_live (s := spareTaken st q l s) (p := sibling st q) (exempt := true) (lanes := [l])
    (by rw [pc_spareTaken_sibling, live]; decide)
  have risingAsked : Claims.rising (requestRetrain (sibling st q) true [l] (spareTaken st q l s)).w.pcs := requests ▸ rising_modPc _ _ rising
  rw [retrainDone_first_lane held inWidth unused]
  refine due_startRetrains (rising_judgeTrims risingAsked held.live_asking) (.inl ?_)
  rw [pc_judgeTrims_ne held.live_asking (sibling_ne st q), requests, pc_modPc_self _ _ rising, pc_spareTaken_sibling, live]
  rfl

end firstLane

end retraining

/-- Settles O31: a free stack takes up the one request; the end of a hold writes the pseudo-channel, its judgement and the spare lane, and the
requests taken up after it touch neither. -/
theorem retrainingHoldsAndSteers : Obligations.RetrainingHoldsAndSteers := by
  unfold Obligations.RetrainingHoldsAndSteers
  refine ⟨?_, ?_⟩
  · intro st q s low inStack on idle live untripped still settled rising
    have free : RetrainFree s st q := ⟨inStack, idle, live, untripped, still, settled, rising⟩
    refine ⟨⟨_, exec_stkRetrain low on rfl, (onlyWorld_retrainWrite _ _ s).cfg, (onlyWorld_retrainWrite _ _ s).ctl, ?_⟩,
      exec_stkRetrain low on (retrainWrite_noGo inStack)⟩
    have self := pc_modPc_self (64 * st + q) (fun x => { x with requested := false, exempt := false, deg := x.state = 2, state := 1 })
      (rising_modPc (64 * st + q) Pc.asked rising)
    rw [free.retrainWrite_go low]
    refine ⟨?_, ?_, fun p other => ?_⟩
    · rw [takeUp_of_mayRetrain free.may, self]
    · rw [takeUp_of_mayRetrain free.may, self]
    · rw [pc_takeUp_ne other, pc_modPc_ne _ _ other]
  · intro st q ok s low inStack state unasked noLanes untripped nobody rising risingLanes
    have held : Held s st q := ⟨low, inStack, state, unasked, noLanes, untripped, rising⟩
    refine ⟨?_, fun l inWidth unused live => ?_⟩
    · have serves : serveWaiting (retrainDone st q ok [] s) = retrainDone st q ok [] s := serveWaiting_of_none (held.apWait_done.trans nobody)
      refine ⟨{ s with w := (retrainDone st q ok [] s).w }, exec_pcRetrainDone serves, rfl, rfl, ?_⟩
      have done := held.pc_done (ok := ok)
      refine ⟨congrArg Pc.state done, congrArg Pc.hold done, congrArg Pc.retrains done, congrArg Pc.trained done, congrArg Pc.trainNs done,
        congrArg Pc.trainTenths done, fun c => ?_⟩
      exact (congrArg (fun l => tget {} l c) held.lanes_done).trans (tget_tput_read _ c risingLanes)
    · have serves : serveWaiting (retrainDone st q ok [l] s) = retrainDone st q ok [l] s :=
        serveWaiting_of_none ((held.apWait_first inWidth unused).trans nobody)
      refine ⟨{ s with w := (retrainDone st q ok [l] s).w }, exec_pcRetrainDone serves, ?_⟩
      have lane : tget {} (retrainDone st q ok [l] s).w.lanes (32 * st + q / 2) = { spare0 := l, failed := 1 } := by
        rw [held.lanes_first inWidth unused, tget_tput_rising _ _ _ _ risingLanes]
      exact ⟨congrArg Lane.spare0 lane, congrArg Lane.failed lane, held.due_sibling inWidth unused live⟩

end Sys2Proof.Machine
end

section
/-! The LPDDR5X packages and the devices of tier 3 (R233, R236, R237, R505): reports, trips and their end, links lost, requests unanswered. -/

namespace Sys2Proof.Machine

open Sys2Proof

section tierTwoAndThree

variable {pkg dev : Nat} {g : Gran} {r : StepRun} {s t : State}

theorem OnlyLog.lp (h : OnlyLog s t) : t.w.lp = s.w.lp := by rw [h]
theorem OnlyLog.cxl (h : OnlyLog s t) : t.w.cxl = s.w.cxl := by rw [h]

/-! ### LPDDR5X packages (R233, R505) -/

/-- A package goes into self-refresh. -/
def selfRefresh (pkg : Nat) (s : State) : State := modLp (pkg / 6) (fun l => { l with held := setBit l.held (pkg % 6) true }) s

/-- The trip of a package as the log has it. -/
def lpTripNoted (pkg : Nat) (s : State) : State := flt 0x4204 (0x20 + pkg / 6) 0xFF 0 (locTier2 pkg 0xFF 0xFFFFFFFF) (selfRefresh pkg s)

theorem onlyLog_lpTripNoted (pkg : Nat) (s : State) : OnlyLog (selfRefresh pkg s) (lpTripNoted pkg s) := onlyLog_flt _ _ _ _ _ _

theorem lpTrip_free (inModule : pkg < 24) (on : s.unitOn (0x20 + pkg / 6) = true) (awake : bit (tget {} s.w.lp (pkg / 6)).held (pkg % 6) = false)
    (free : s.w.holder = none) : lpTrip pkg s =
      benchAdvice ((lpTripNoted pkg s).draw.1 % 256) (0x20 + pkg / 6) (lpTripNoted pkg s).draw.2 := by
  have stops : thermalStop (0x20 + pkg / 6) (lpTripNoted pkg s) = lpTripNoted pkg s :=
    thermalStop_free ((onlyLog_lpTripNoted pkg s).holder.trans free)
  unfold lpTrip
  dsimp only
  rw [if_neg (by simp [inModule, on, awake])]
  show benchAdvice ((thermalStop _ (lpTripNoted pkg s)).draw.1 % 256) _ (thermalStop _ (lpTripNoted pkg s)).draw.2 = _
  rw [stops]

theorem lpTrip_held (held : bit (tget {} s.w.lp (pkg / 6)).held (pkg % 6) = true) : lpTrip pkg s = s := if_pos (by simp [held])

theorem keepsJobs_selfRefresh (pkg : Nat) (s : State) : KeepsJobs s (selfRefresh pkg s) := rfl

/-- A trip with the array free reaches the package's controller and no job. -/
theorem keepsJobs_lpTrip_free (inModule : pkg < 24) (on : s.unitOn (0x20 + pkg / 6) = true)
    (awake : bit (tget {} s.w.lp (pkg / 6)).held (pkg % 6) = false) (free : s.w.holder = none) : KeepsJobs s (lpTrip pkg s) := by
  rw [lpTrip_free inModule on awake free]
  have noted := (keepsJobs_selfRefresh pkg s).trans (.of_onlyLog (onlyLog_lpTripNoted pkg s))
  exact noted.trans (.trans (t := (lpTripNoted pkg s).draw.2) rfl (.of_onlyLog (onlyLog_benchAdvice _ _ _)))

theorem lp_lpTrip_free (inModule : pkg < 24) (on : s.unitOn (0x20 + pkg / 6) = true)
    (awake : bit (tget {} s.w.lp (pkg / 6)).held (pkg % 6) = false) (free : s.w.holder = none) : (lpTrip pkg s).w.lp =
      tput {} s.w.lp (pkg / 6) { (tget {} s.w.lp (pkg / 6)) with held := (tget {} s.w.lp (pkg / 6)).held + 2 ^ (pkg % 6) } := by
  have set : setBit (tget {} s.w.lp (pkg / 6)).held (pkg % 6) true = (tget {} s.w.lp (pkg / 6)).held + 2 ^ (pkg % 6) := by
    rw [setBit, awake]
    rfl
  rw [lpTrip_free inModule on awake free, (onlyLog_benchAdvice _ _ _).lp]
  refine (onlyLog_lpTripNoted pkg s).lp.trans ?_
  rw [← set]
  rfl

/-! ### Tier 3 (R236, R237) -/

/-- The link of a device goes down. -/
def linkLost (dev : Nat) (s : State) : State :=
  s.onW (fun w => { w with cxl := tput {} w.cxl dev { (tget {} s.w.cxl dev) with linkUp := false } })

theorem cxlDown_free (inModule : dev < 4) (up : (tget {} s.w.cxl dev).linkUp = true) (free : s.w.holder = none) :
    cxlDown dev s = benchAdvice 2 0x28 (flt 0x1601 0x28 0xFF 0 (locCxl dev 0) (linkLost dev s)) := by
  have goes : ¬ ((!(decide (dev < 4) && (tget {} s.w.cxl dev).linkUp)) = true) := by simp [inModule, up]
  unfold cxlDown
  dsimp only
  rw [if_neg goes, free]
  rfl

/-- A response of a device is poison: counted at the device, logged there and where the poison is taken in. -/
def poisonAnswered (dev : Nat) (g : Gran) (s : State) : State :=
  let loc : Loc := { locCxl dev (s.draw.1 % 2 ^ 64) with handle := g.handle, off := 4096 * g.g }
  flt 0x1907 0x28 (if g.job < 64 then g.job else 0xFF) 0 { handle := g.handle, off := 4096 * g.g }
    (flt 0x1603 0x28 (if g.job < 64 then g.job else 0xFF) 0 loc
      (s.draw.2.onW (fun w => { w with cxl := tmod {} w.cxl dev (fun x => { x with poison := satAdd 32 x.poison 1 }) })))

theorem onlyLog_poisonAnswered (dev : Nat) (g : Gran) (s : State) :
    OnlyLog (s.draw.2.onW (fun w => { w with cxl := tmod {} w.cxl dev (fun x => { x with poison := satAdd 32 x.poison 1 }) })) (poisonAnswered dev g s) :=
  (onlyLog_flt _ _ _ _ _ _).trans (onlyLog_flt _ _ _ _ _ _)

/-- Where no stream reads the granule, the running step of its job takes the poison in. -/
theorem cxlTimeout_step (inModule : dev < 4) (present : (tget {} s.w.cxl dev).present = true) (noStream : ∀ c < 80, (s.chan c).state ≠ 1)
    (running : (s.job g.job).run = some r) : cxlTimeout dev g s =
      failStep g.job r.step { status := 0x50, detail := 3 * 256, unit := 0x28 } [] (poisonAnswered dev g s) := by
  have nobody : (List.range 80).find? (fun c => let x := s.chan c; x.state = 1 && x.job = g.job && x.src.handle = g.handle &&
      decide (x.src.pos < 4096 * (g.g + 1)) && decide (4096 * g.g < x.src.pos + x.len)) = none := by
    refine List.find?_eq_none.mpr fun c hc => ?_
    simp [noStream c (List.mem_range.mp hc)]
  unfold cxlTimeout
  dsimp only at nobody ⊢
  rw [if_neg (by simp [inModule, present]), nobody]
  dsimp only
  rw [running]
  rfl

end tierTwoAndThree

/-- Settles O32: a report and a trip write the package's controller, a lost link and an unanswered request the device; only the last one
reaches a job, by the failure of its running step. -/
theorem tierTwoAndThreeEvents : Obligations.TierTwoAndThreeEvents := by
  unfold Obligations.TierTwoAndThreeEvents
  refine ⟨?_, ?_, ?_, ?_, ?_, ?_⟩
  · intro pkg c s inModule
    exact onWorld_of_eq (by rw [if_pos inModule]; rfl) rfl rfl rfl
  · intro pkg s inModule on awake free
    have kept := keepsJobs_lpTrip_free inModule on awake free
    have world := kept.world
    exact ⟨lpTrip pkg s, (lpTripNoted pkg s).draw.1 % 256, onWorld_of_eq rfl world.pending world.cfg world.ctl, world.cfg, world.ctl, kept.jobs,
      Nat.mod_lt _ (by decide), lp_lpTrip_free inModule on awake free, _, lpTrip_free inModule on awake free⟩
  · intro pkg s _ held
    exact onWorld_of_eq (lpTrip_held held) rfl rfl rfl
  · intro pkg s inModule nobody
    refine onWorld_of_eq ?_ rfl rfl rfl
    rw [if_pos inModule]
    exact serveWaiting_of_none nobody
  · intro dev s inModule up free
    have world : OnlyWorld s (benchAdvice 2 0x28 (flt 0x1601 0x28 0xFF 0 (locCxl dev 0) (linkLost dev s))) :=
      (OnlyWorld.onW s _).trans ((onlyWorld_flt _ _ _ _ _ _).trans (onlyLog_benchAdvice _ _ _).world)
    exact onWorld_of_eq (cxlDown_free inModule up free) world.pending world.cfg world.ctl
  · intro dev g r s inModule present noStream running first rising risingCxl
    have log := onlyLog_poisonAnswered dev g s
    have meaning := cxlTimeout_step inModule present noStream running
    refine ⟨{ s with w := (cxlTimeout dev g s).w }, rfl, rfl, rfl, ?_, ?_⟩
    · show (tget {} (cxlTimeout dev g s).w.cxl dev).poison = _
      rw [meaning]
      show (tget {} (poisonAnswered dev g s).w.cxl dev).poison = _
      rw [log.cxl]
      exact congrArg Cxl.poison (tget_tput_rising _ _ _ _ risingCxl)
    · show ((cxlTimeout dev g s).job g.job).run = _
      rw [meaning]
      exact run_failStep_first (by rw [log.job]; exact running) first (by rw [log.jobs]; exact rising)

end Sys2Proof.Machine
end

section
/-! The stack engines in a step (R241-R252): a bag is gathered into one row of the stage's port, and a gradient row is scattered over the
accumulators of its bag. -/

namespace Sys2Proof.Machine

open Sys2Proof

/-! ### What a bag and a gradient row write of their job -/

section gathered

variable {j : Nat} {s t u : State}

/-- The rows that the running step of a job has put on ports, the mark of a bag in error, and the accumulators. -/
def Job.gathered (b : Job) : Option (List (Nat × Nat × Nat × Nat × Row)) × Bool × List Acc := (b.run.map StepRun.rows, b.bagErr, b.accs)

/-- From `s` to `t` the settings, the control state, device memory and the other jobs stand, and so do the tiles, the rows, the mark and the
accumulators of job `j`. -/
structure KeepsGathered (j : Nat) (s t : State) : Prop where
  kept : KeepsTiles j s t
  own : Claims.rising s.w.jobs → (t.job j).gathered = (s.job j).gathered

namespace KeepsGathered

theorem refl (s : State) : KeepsGathered j s s := ⟨.refl s, fun _ => rfl⟩

theorem trans (h : KeepsGathered j s t) (k : KeepsGathered j t u) : KeepsGathered j s u :=
  ⟨h.kept.kept k.kept, fun r => (k.own (h.kept.rising r)).trans (h.own r)⟩

theorem ite {p : Prop} [Decidable p] (h : KeepsGathered j s t) (k : KeepsGathered j s u) : KeepsGathered j s (if p then t else u) := by
  split
  · exact h
  · exact k

theorem of_keepsJobs (h : KeepsJobs s t) : KeepsGathered j s t := ⟨h.keepsTiles, fun _ => by rw [h.job]⟩

theorem of_onlyFails (h : OnlyFails j s t) : KeepsGathered j s t where
  kept := h.kept
  own rising := by
    obtain ⟨jrn, fail, own⟩ := h.own rising
    rw [own, Job.gathered, Job.gathered, Option.map_map]
    rfl

theorem modJob {f : Job → Job} (s : State) (run : (f (s.job j)).run = (s.job j).run) (same : (f (s.job j)).gathered = (s.job j).gathered) :
    KeepsGathered j s (s.modJob j f) :=
  ⟨.modJob_of_run run, fun rising => by rw [job_modJob_self f rising, same]⟩

theorem modRun {f : StepRun → StepRun} (s : State) (tiles : ∀ r, (f r).tiles = r.tiles) (rows : ∀ r, (f r).rows = r.rows) :
    KeepsGathered j s (modRun j f s) := by
  refine ⟨.modRun tiles, fun rising => ?_⟩
  rw [Machine.modRun, job_modJob_self _ rising, Job.gathered, Job.gathered, Option.map_map]
  have same : StepRun.rows ∘ f = StepRun.rows := funext rows
  rw [same]

/-- The running step after the change, with its tiles and its rows. -/
theorem run {r : StepRun} (h : KeepsGathered j s t) (rising : Claims.rising s.w.jobs) (running : (s.job j).run = some r) :
    ∃ r', (t.job j).run = some r' ∧ r'.tiles = r.tiles ∧ r'.rows = r.rows := by
  obtain ⟨r', runs, tiles⟩ := h.kept.run rising running
  have rows := congrArg Prod.fst (h.own rising)
  simp only [Job.gathered, runs, running, Option.map_some, Option.some.injEq] at rows
  exact ⟨r', runs, tiles, rows⟩

theorem bagErr (h : KeepsGathered j s t) (rising : Claims.rising s.w.jobs) : (t.job j).bagErr = (s.job j).bagErr :=
  congrArg (fun x => x.2.1) (h.own rising)

theorem accs (h : KeepsGathered j s t) (rising : Claims.rising s.w.jobs) : (t.job j).accs = (s.job j).accs :=
  congrArg (fun x => x.2.2) (h.own rising)

end KeepsGathered

theorem keepsGathered_unitsFail (stage : Nat) (us : List Nat) (s : State) : KeepsGathered j s (unitsFail j stage us s) :=
  .of_onlyFails (onlyFails_unitsFail stage us s)

theorem keepsGathered_freeRetained (e m : Nat) (s : State) : KeepsGathered j s (freeRetained j e m s) := by
  unfold freeRetained
  split
  · exact .refl s
  · exact .ite (.refl s) (.modRun s (fun _ => rfl) (fun _ => rfl))

/-- A row joins those the running step has put on ports; what else `f` changes is neither its tiles nor its rows. -/
theorem run_modRun_rows {f : StepRun → StepRun} {r : StepRun} {x : Nat × Nat × Nat × Nat × Row} (running : (s.job j).run = some r)
    (rising : Claims.rising s.w.jobs) (tiles : (f r).tiles = r.tiles) (rows : (f r).rows = r.rows ++ [x]) :
    ∃ r', ((modRun j f s).job j).run = some r' ∧ r'.tiles = r.tiles ∧ r'.rows = r.rows ++ [x] := by
  refine ⟨f r, ?_, tiles, rows⟩
  rw [modRun, job_modJob_self _ rising, running]
  rfl

end gathered

/-! ### The counts of the engines -/

section engines

variable {k : Nat} {s : State}

theorem keepsJobs_modEngines (l : List Nat) (f : Nat → Se → Se) (s : State) : KeepsJobs s (forAll l (fun i s => s.modEngine i (f i)) s) :=
  .forAll _ _ (fun i s => keepsJobs_modEngine s i (f i)) s

/-- A change that makes an engine busy is read back, whatever form the table of the engines has. -/
theorem busy_modEngine_self {f : Se → Se} (busy : (f (s.engine k)).busy = true) : ((s.modEngine k f).engine k).busy = true := by
  have other : f (s.engine k) ≠ {} := fun same => by
    rw [same] at busy
    contradiction
  rw [show (s.modEngine k f).engine k = f (s.engine k) from tget_tput_of_ne _ _ other, busy]

theorem busy_modEngine {i : Nat} {f : Se → Se} (keeps : ∀ x, x.busy = true → (f x).busy = true) (busy : (s.engine k).busy = true) :
    ((s.modEngine i f).engine k).busy = true := by
  by_cases same : k = i
  · rw [← same]
    exact busy_modEngine_self (keeps _ busy)
  · rw [show (s.modEngine i f).engine k = s.engine k from tget_tput_ne _ _ _ same, busy]

theorem busy_modEngines {f : Nat → Se → Se} {l : List Nat} (keeps : ∀ i x, x.busy = true → (f i x).busy = true) (sets : ∀ x, (f k x).busy = true)
    (listed : k ∈ l) : ((forAll l (fun i s => s.modEngine i (f i)) s).engine k).busy = true := by
  have rest : ∀ {l : List Nat} {s : State}, (s.engine k).busy = true → ((forAll l (fun i s => s.modEngine i (f i)) s).engine k).busy = true := by
    intro l s busy
    induction l generalizing s with
    | nil => exact busy
    | cons i l ih => exact ih (busy_modEngine (keeps i) busy)
  induction l generalizing s with
  | nil => cases listed
  | cons i l ih =>
    by_cases same : k = i
    · refine rest (s := s.modEngine i (f i)) ?_
      rw [← same]
      exact busy_modEngine_self (sets _)
    · exact ih (s := s.modEngine i (f i)) (List.mem_of_ne_of_mem same listed)

end engines

/-! ### A bag (R241-R245) -/

section bags

variable {j e m bag h : Nat} {c : Ctx} {st : Stage} {f : Fig} {d : Decl} {s t : State}

/-- The pooled row of a bag in FP32: of the table rows and weights it lists, or NaN for a bag in error (R244-R246). -/
def pooledRow (g : Gather) (s : State) (j h : Nat) (d : Decl) : Option (List (Nat × Nat)) → List Nat
  | none => List.replicate d.rowLen nan32
  | some list => (List.range d.rowLen).map (fun k =>
      poolElem g (((list.map (fun p => p.1)).map (fun r => rowElems d (tableRow s j h d r))).map (fun v => v.getD k 0)) (list.map (fun p => p.2)))

/-- The table rows of a bag are read, past the caches (R216). -/
def readRows (j h : Nat) (d : Decl) (rows : List Nat) (s : State) : State := forAll rows (fun r s => readDev 1 j h (r * rowBytes d) (rowBytes d) s) s

/-- A row is put on a port and counted in the stage's report. -/
def putPooled (j e port m bag : Nat) (row : Row) (o : TileOut) (s : State) : State :=
  modRun j (fun r => addRep e o false { r with rows := r.rows ++ [(e, port, m, bag, row)] }) s

/-- An engine after a bag: the bag's owner and the engines of its rows have been busy (R241, R260). -/
def Se.gathering (owner : Nat) (places : List (Nat × Nat)) (error : Bool) (flagged : List (Nat × Nat)) (i : Nat) (x : Se) : Se :=
  { x with
    busy := x.busy || i == owner || places.any (fun e => e.1 == i), gathered := x.gathered + (places.filter (fun e => e.1 == i)).length
    nanRun := satAdd 16 x.nanRun (b2n (error && i == owner))
    excRun := satAdd 16 x.excRun (sumNat ((flagged.filter (fun e => e.1 == i)).map (fun e => e.2))) }

/-- What becomes of a bag once its rows are read: its row stands on the port, its rows are counted, disabled units on its way fail the
step, and the engines have worked. -/
def bagPooled (j e port m bag table owner : Nat) (d : Decl) (row : Row) (o : TileOut) (places flagged : List (Nat × Nat)) (off : List Nat) (error : Bool)
    (s : State) : State :=
  forAll (List.range 12) (fun i s => s.modEngine i (Se.gathering owner places error flagged i))
    (unitsFail j e off ((putPooled j e port m bag row o s).modJob j (countRows table d places)))

/-- A bag in error is logged where none of the step has been `logged`, and the job remembers it (R244). -/
def noteBagError (logged : Bool) (j owner step : Nat) (s : State) : State :=
  if logged then s else flt 0x1704 (0x60 + owner) j step locNone (s.modJob j (fun b => { b with bagErr := true }))

/-- A bag that LOOKUP_BAG gathers once nothing holds its rows. -/
structure BagDue (s : State) (j e m bag h : Nat) (c : Ctx) (st : Stage) (f : Fig) (d : Decl) : Prop where
  ctx : ctxOf s j = some c
  stage : c.t.stage? e = some st
  fig : c.t.fig? st = some f
  decl : c.decl st.table = some (h, d)
  lookup : isLookup st = true
  phase : c.r.phase = .run
  inStage : bag < st.bags
  inStep : m < c.t.mb
  active : c.active e m = true
  new : c.portRow e f.port m bag = none

theorem BagDue.ready (due : BagDue s j e m bag h c st f d) :
    (isLookup st && c.r.phase == .run && decide (bag < st.bags) && decide (m < c.t.mb) && c.active e m && (c.portRow e f.port m bag).isNone) = true := by
  simp [due.lookup, due.phase, due.inStage, due.inStep, due.active, due.new]

theorem lookupBag_lists {list : List (Nat × Nat)} (due : BagDue s j e m bag h c st f d)
    (lists : c.bag (parseGather (c.t.img.drop st.desc)) d.nrows (m * st.bags + bag) = some list) (resident : s.w.mr.missing = [])
    (free : ∀ p ∈ list, ∀ x ∈ c.readHomes s st.table h d (m * st.bags + bag) p.1, homeHeld s x = false) :
    ∃ o poison places flagged off, lookupBag j e m bag s =
      bagPooled j e f.port m bag st.table ((m * st.bags + bag) % 12) d
        { (convRow f.oFmt false false {} (pooledRow (parseGather (c.t.img.drop st.desc)) s j h d (some list))).1 with poison := poison } o places flagged off false
        (readRows j h d (list.map (fun p => p.1)) s) := by
  have here : (list.map (fun p => p.1)).find? (fun r => s.w.mr.missing.contains (st.table, blockOf d r)) = none := by simp [resident]
  have unheld : (list.map (fun p => p.1)).any (fun r => (c.readHomes s st.table h d (m * st.bags + bag) r).any (homeHeld s)) = false := by
    simpa using free
  unfold lookupBag
  rw [due.ctx]
  dsimp only
  rw [due.stage]
  dsimp only
  rw [due.fig, due.decl]
  dsimp only
  rw [lists, Option.getD_some, here, due.ready, unheld, if_neg (by simp)]
  exact ⟨_, _, _, _, _, rfl⟩

theorem lookupBag_error (due : BagDue s j e m bag h c st f d)
    (error : c.bag (parseGather (c.t.img.drop st.desc)) d.nrows (m * st.bags + bag) = none) :
    ∃ o poison flagged off, lookupBag j e m bag s =
      noteBagError c.b.bagErr j ((m * st.bags + bag) % 12) c.r.step
        (bagPooled j e f.port m bag st.table ((m * st.bags + bag) % 12) d
          { (convRow f.oFmt false false {} (pooledRow (parseGather (c.t.img.drop st.desc)) s j h d none)).1 with poison := poison } o [] flagged off true s) := by
  unfold lookupBag
  rw [due.ctx]
  dsimp only
  rw [due.stage]
  dsimp only
  rw [due.fig, due.decl]
  dsimp only
  rw [error, due.ready, Option.getD_none, List.map_nil, if_neg (by simp)]
  cases logged : c.b.bagErr with
  | false => exact ⟨_, _, _, _, rfl⟩
  | true => exact ⟨_, _, _, _, rfl⟩

theorem lookupBag_not_due (ctx : ctxOf s j = some c) (stage : c.t.stage? e = some st) (fig : c.t.fig? st = some f)
    (no : st.bags ≤ bag ∨ c.portRow e f.port m bag ≠ none) : lookupBag j e m bag s = s := by
  have unready : (isLookup st && c.r.phase == .run && decide (bag < st.bags) && decide (m < c.t.mb) && c.active e m &&
      (c.portRow e f.port m bag).isNone) = false := by
    rcases no with beyond | there
    · simp [Nat.not_lt.mpr beyond]
    · obtain ⟨row, there⟩ := Option.ne_none_iff_exists'.mp there
      simp [there]
  unfold lookupBag
  rw [ctx]
  dsimp only
  rw [stage]
  dsimp only
  rw [fig]
  cases decl : c.decl st.table with
  | none => rfl
  | some x =>
    dsimp only
    rw [unready]
    rfl

/-! ### What a gathered bag leaves -/

theorem countRows_writes (table : Nat) (d : Decl) (rows : List (Nat × Nat)) (b : Job) : ∃ n, countRows table d rows b = { b with counts := n } := by
  unfold countRows
  induction rows generalizing b with
  | nil => exact ⟨b.counts, rfl⟩
  | cons p rows ih => exact ih _

theorem keepsGathered_countRows (table : Nat) (d : Decl) (rows : List (Nat × Nat)) (s : State) :
    KeepsGathered j s (s.modJob j (countRows table d rows)) := by
  obtain ⟨n, writes⟩ := countRows_writes table d rows (s.job j)
  exact .modJob s (by rw [writes]) (by rw [writes]; rfl)

theorem keepsJobs_readRows (j h : Nat) (d : Decl) (rows : List Nat) (s : State) : KeepsJobs s (readRows j h d rows s) :=
  .forAll _ _ (fun _ s => keepsJobs_readDev _ _ _ _ _ s) s

section bagPooled

variable {port table owner : Nat} {row : Row} {o : TileOut} {places flagged : List (Nat × Nat)} {off : List Nat} {error : Bool} {r : StepRun}

theorem keepsTiles_putPooled : KeepsTiles j s (putPooled j e port m bag row o s) := .modRun (fun _ => rfl)

/-- After the row is on the port, nothing that follows touches it. -/
theorem keepsGathered_bagPooled : KeepsGathered j (putPooled j e port m bag row o s) (bagPooled j e port m bag table owner d row o places flagged off error s) :=
  ((keepsGathered_countRows _ _ _ _).trans (keepsGathered_unitsFail _ _ _)).trans (.of_keepsJobs (keepsJobs_modEngines _ _ _))

theorem keepsTiles_bagPooled : KeepsTiles j s (bagPooled j e port m bag table owner d row o places flagged off error s) :=
  keepsTiles_putPooled.kept keepsGathered_bagPooled.kept

theorem run_bagPooled (rising : Claims.rising s.w.jobs) (running : (s.job j).run = some r) :
    ∃ r', ((bagPooled j e port m bag table owner d row o places flagged off error s).job j).run = some r' ∧ r'.tiles = r.tiles ∧
      r'.rows = r.rows ++ [(e, port, m, bag, row)] := by
  obtain ⟨r1, runs1, tiles1, rows1⟩ := run_modRun_rows (f := fun r => addRep e o false { r with rows := r.rows ++ [(e, port, m, bag, row)] })
    (x := (e, port, m, bag, row)) running rising rfl rfl
  obtain ⟨r2, runs2, tiles2, rows2⟩ := keepsGathered_bagPooled.run (keepsTiles_putPooled.rising rising) runs1
  exact ⟨r2, runs2, tiles2.trans tiles1, rows2.trans rows1⟩

theorem bagErr_bagPooled (rising : Claims.rising s.w.jobs) :
    ((bagPooled j e port m bag table owner d row o places flagged off error s).job j).bagErr = (s.job j).bagErr := by
  rw [keepsGathered_bagPooled.bagErr (keepsTiles_putPooled.rising rising), putPooled, modRun, job_modJob_self _ rising]

/-- The bag's owner has been busy. -/
theorem busy_bagPooled (owned : owner < 12) : ((bagPooled j e port m bag table owner d row o places flagged off error s).engine owner).busy = true :=
  busy_modEngines (fun i x busy => by simp [Se.gathering, busy]) (fun x => by simp [Se.gathering]) (List.mem_range.mpr owned)

end bagPooled

theorem keepsTiles_noteBagError (logged : Bool) (owner step : Nat) (s : State) : KeepsTiles j s (noteBagError logged j owner step s) :=
  .ite (.refl s) ((TilesBecome.modJob_of_run rfl).trans (keepsTiles_flt _ _ _ _ _ _))

theorem job_noteBagError {logged : Bool} (owner step : Nat) (remembered : (s.job j).bagErr = logged) (rising : Claims.rising s.w.jobs) :
    (noteBagError logged j owner step s).job j = { s.job j with bagErr := true } := by
  cases logged with
  | true =>
    show s.job j = _
    rw [← remembered]
  | false =>
    show (flt _ _ _ _ _ _).job j = _
    rw [(keepsJobs_flt _ _ _ _ _ _).job, job_modJob_self _ rising]

/-- LOOKUP_BAG answers what its meaning makes of the world. -/
theorem exec_lookupBag (running : s.ctl.clk.frozen = false) (meaning : lookupBag j e m bag s = t) (world : OnlyWorld s t) :
    exec (.lookupBag j e m bag) s = .next t := onWorld_fabric_of_onlyWorld running meaning world

end bags

/-! ### A gradient row (R251, R252) -/

section scatter

variable {j e m row h : Nat} {c : Ctx} {st lk : Stage} {f : Fig} {q : Strm} {gr : Row} {d : Decl} {s t : State}

/-- The job with another running step. -/
def Job.withRun (b : Job) (x : Option StepRun) : Job := { b with run := x }

theorem foldl_withRun {α : Type} {f : Job → α → Job} {x : Option StepRun} (same : ∀ b p, f (b.withRun x) p = (f b p).withRun x) (l : List α)
    (b : Job) : l.foldl f (b.withRun x) = (l.foldl f b).withRun x := by
  induction l generalizing b with
  | nil => rfl
  | cons p l ih => rw [List.foldl_cons, same, ih, List.foldl_cons]

/-- An accumulator takes a term whatever the job's step has done. -/
theorem addAcc_withRun (stage table row len : Nat) (us : List (Option Int)) (b : Job) (x : Option StepRun) :
    addAcc stage table row len us (b.withRun x) = (addAcc stage table row len us b).withRun x := by
  unfold addAcc Job.withRun
  dsimp only
  split <;> rfl

theorem sumNat_eq_zero {l : List Nat} (zeros : ∀ n ∈ l, n = 0) : sumNat l = 0 := by
  unfold sumNat
  induction l with
  | nil => rfl
  | cons n l ih =>
    rw [List.foldl_cons, zeros n List.mem_cons_self]
    exact ih (fun x hx => zeros x (List.mem_cons_of_mem _ hx))

/-- No engine holds more accumulators than fit its buffer where all of them together do (R252). -/
theorem excess_eq_zero {accs : List Acc} {cap : Nat} (engine : Acc → Nat) (fits : accs.length ≤ cap) :
    sumNat (((List.range 12).map (fun i => (accs.filter (fun a => engine a = i)).length)).map (fun n => n - cap)) = 0 := by
  refine sumNat_eq_zero fun n listed => ?_
  rw [List.map_map] at listed
  obtain ⟨i, -, rfl⟩ := List.mem_map.mp listed
  exact Nat.sub_eq_zero_of_le ((List.length_filter_le _ _).trans fits)

theorem le_bufferRows {len : Nat} (short : len ≤ 16384) : 1000 ≤ 134217728 / (16 + 8 * len) :=
  (Nat.le_div_iff_mul_le (by omega)).mpr (by omega)

/-- A gradient row at its sink that SCATTER_ROW scatters. -/
structure RowDue (s : State) (j e m row h : Nat) (c : Ctx) (st lk : Stage) (f : Fig) (q : Strm) (gr : Row) (d : Decl) : Prop where
  ctx : ctxOf s j = some c
  stage : c.t.stage? e = some st
  fig : c.t.fig? st = some f
  decl : c.decl st.table = some (h, d)
  lookup : c.t.stage? (parseRowOpt (c.t.img.drop st.desc)).lookup = some lk
  stream : c.t.in? e f.port = some q
  arrived : c.sinkRow q m row = some gr
  scatter : isScatter st = true
  phase : c.r.phase = .run
  inStage : row < lk.bags
  inStep : m < c.t.mb
  new : c.portRow e 0x10 m row = none

/-- The rows that the bag of a gradient row lists, with their weights; none for a bag in error. -/
def scatterList (c : Ctx) (lk : Stage) (d : Decl) (m row : Nat) : List (Nat × Nat) :=
  (c.bag (parseGather (c.t.img.drop lk.desc)) d.nrows (m * lk.bags + row)).getD []

/-- Each listed row's accumulator takes the gradient row's term (R251). -/
def addTerms (c : Ctx) (e : Nat) (st lk : Stage) (q : Strm) (gr : Row) (d : Decl) (list : List (Nat × Nat)) (b : Job) : Job :=
  list.foldl (fun b p => addAcc e st.table p.1 d.rowLen ((rowFp32 q.fmt gr).map (fun x =>
    scatterTerm (parseGather (c.t.img.drop lk.desc)) (parseRowOpt (c.t.img.drop st.desc)).qg list.length p.2 x)) b) b

/-- The gradient row is marked as scattered. -/
def markScattered (j e m row : Nat) (gr : Row) (s : State) : State :=
  modRun j (fun r => { r with rows := r.rows ++ [(e, 0x10, m, row, { poison := gr.poison })] }) s

/-- The gradient row is marked, and its terms are added. -/
def scattered (j e m row : Nat) (c : Ctx) (st lk : Stage) (q : Strm) (gr : Row) (d : Decl) (s : State) : State :=
  (markScattered j e m row gr s).modJob j (addTerms c e st lk q gr d (scatterList c lk d m row))

theorem addTerms_withRun (list : List (Nat × Nat)) (b : Job) (x : Option StepRun) :
    addTerms c e st lk q gr d list (b.withRun x) = (addTerms c e st lk q gr d list b).withRun x :=
  foldl_withRun (fun _ _ => addAcc_withRun _ _ _ _ _ _ _) list b

theorem run_addTerms (list : List (Nat × Nat)) (b : Job) : (addTerms c e st lk q gr d list b).run = b.run := by
  have same := congrArg Job.run (addTerms_withRun (c := c) (e := e) (st := st) (lk := lk) (q := q) (gr := gr) (d := d) list b b.run)
  exact same

theorem job_scattered (rising : Claims.rising s.w.jobs) : (scattered j e m row c st lk q gr d s).job j =
    (addTerms c e st lk q gr d (scatterList c lk d m row) (s.job j)).withRun
      ((s.job j).run.map (fun r => { r with rows := r.rows ++ [(e, 0x10, m, row, { poison := gr.poison })] })) := by
  have marked : (markScattered j e m row gr s).job j = (s.job j).withRun
      ((s.job j).run.map (fun r => { r with rows := r.rows ++ [(e, 0x10, m, row, { poison := gr.poison })] })) := job_modJob_self _ rising
  have risingMarked : Claims.rising (markScattered j e m row gr s).w.jobs := rising_tput _ _ _ _ rising
  rw [scattered, job_modJob_self _ risingMarked, marked, addTerms_withRun]

theorem keepsTiles_markScattered (s : State) : KeepsTiles j s (markScattered j e m row gr s) := .modRun (fun _ => rfl)

theorem keepsTiles_scattered (s : State) : KeepsTiles j s (scattered j e m row c st lk q gr d s) :=
  (keepsTiles_markScattered s).kept (.modJob_of_run (run_addTerms _ _))

theorem RowDue.ready (due : RowDue s j e m row h c st lk f q gr d) :
    (isScatter st && c.r.phase == .run && decide (row < lk.bags) && decide (m < c.t.mb) && (c.portRow e 0x10 m row).isNone) = true := by
  simp [due.scatter, due.phase, due.inStage, due.inStep, due.new]

/-- Where the accumulators fit the engines' buffers, what follows the terms counts, frees and fails, and takes none of them back. -/
theorem keepsGathered_scatterRow (due : RowDue s j e m row h c st lk f q gr d) (short : d.rowLen ≤ 16384)
    (few : ((scattered j e m row c st lk q gr d s).job j).accs.length ≤ 1000) :
    KeepsGathered j (scattered j e m row c st lk q gr d s) (scatterRow j e m row s) := by
  have fits := few.trans (le_bufferRows short)
  have none_over := excess_eq_zero (fun a => c.accEngine (scattered j e m row c st lk q gr d s) a) fits
  unfold scatterRow
  rw [due.ctx]
  dsimp only
  rw [due.stage]
  dsimp only
  rw [due.fig, due.decl]
  dsimp only
  rw [due.lookup, due.stream]
  dsimp only
  rw [due.arrived]
  dsimp only
  rw [due.ready, if_neg (by simp)]
  unfold scattered markScattered addTerms scatterList at none_over ⊢
  rw [none_over, if_neg (Nat.not_lt_zero _)]
  simp only [Nat.lt_irrefl, decide_false, Bool.false_and, Bool.false_eq_true, if_false]
  have settled (l : List Nat) (f : Nat → Se → Se) (l' : List (Nat × Nat)) (f' : Nat × Nat → Se → Se) (us : List Nat) (a : State) :
      KeepsGathered j a (freeRetained j e m (unitsFail j e us (forAll l' (fun x s => s.modEngine x.1 (f' x)) (forAll l (fun i s => s.modEngine i (f i)) a)))) :=
    .trans (.of_keepsJobs ((keepsJobs_modEngines l f a).trans (.forAll _ _ (fun x s => keepsJobs_modEngine s x.1 (f' x)) _)))
      ((keepsGathered_unitsFail e us _).trans (keepsGathered_freeRetained e m _))
  exact .ite ((settled _ _ _ _ _ _).trans (.of_onlyFails (onlyFails_failStep _ _ _ _))) (settled _ _ _ _ _ _)

theorem scatterRow_not_due (ctx : ctxOf s j = some c) (there : c.portRow e 0x10 m row ≠ none) : scatterRow j e m row s = s := by
  obtain ⟨x, there⟩ := Option.ne_none_iff_exists'.mp there
  unfold scatterRow
  rw [ctx]
  dsimp only
  split
  · rfl
  · split
    · split
      · split
        · rfl
        · rw [if_pos (by simp [there])]
      · rfl
    · rfl

/-- SCATTER_ROW answers what its meaning makes of the world. -/
theorem exec_scatterRow (running : s.ctl.clk.frozen = false) (meaning : scatterRow j e m row s = t) (world : OnlyWorld s t) :
    exec (.scatterRow j e m row) s = .next t := onWorld_fabric_of_onlyWorld running meaning world

end scatter

/-- Settles O45: a bag whose rows are there, and a bag in error, put their one row on the stage's port before anything else of the job is
written; a gradient row adds its terms before the engines' buffers are counted, and with few accumulators nothing is taken back. -/
theorem bagsArePooledAndRowsScattered : Obligations.BagsArePooledAndRowsScattered := by
  unfold Obligations.BagsArePooledAndRowsScattered
  refine ⟨?_, ?_, ?_, ?_, ?_⟩
  · intro j e m bag h c st f d list s ctx running stage fig decl lookup phase inStage inStep active new resident lists free rising _
    have due : BagDue s j e m bag h c st f d := ⟨ctx, stage, fig, decl, lookup, phase, inStage, inStep, active, new⟩
    obtain ⟨o, poison, places, flagged, off, meaning⟩ := lookupBag_lists due lists resident free
    have read := keepsJobs_readRows j h d (list.map (fun p => p.1)) s
    have kept := read.keepsTiles.kept (meaning ▸ keepsTiles_bagPooled)
    have risingRead : Claims.rising (readRows j h d (list.map (fun p => p.1)) s).w.jobs := read.jobs ▸ rising
    have runsRead := (congrArg Job.run (read.job j)).trans (run_of_ctxOf ctx)
    obtain ⟨r, runs, tiles, rows⟩ := run_bagPooled risingRead runsRead
    refine ⟨lookupBag j e m bag s, r, _, exec_lookupBag running rfl kept.world, kept.jobOnly, kept.dev, by rw [meaning]; exact runs, tiles, rows, ?_, ?_⟩
    · rw [meaning]
      exact busy_bagPooled (Nat.mod_lt _ (by decide))
    · simp only [pooledRow, List.map_map]
      rfl
  · intro j e m bag h c st f d s ctx running stage fig decl lookup phase inStage inStep active new error rising
    have due : BagDue s j e m bag h c st f d := ⟨ctx, stage, fig, decl, lookup, phase, inStage, inStep, active, new⟩
    obtain ⟨o, poison, flagged, off, meaning⟩ := lookupBag_error due error
    have pooled : KeepsTiles j s (bagPooled j e f.port m bag st.table ((m * st.bags + bag) % 12) d
        { (convRow f.oFmt false false {} (pooledRow (parseGather (c.t.img.drop st.desc)) s j h d none)).1 with poison := poison } o [] flagged off true s) :=
      keepsTiles_bagPooled
    have kept := pooled.kept (keepsTiles_noteBagError c.b.bagErr ((m * st.bags + bag) % 12) c.r.step _)
    have own : c.b = s.job j := congrArg Ctx.b (ctxOf_eq ctx)
    have noted := job_noteBagError (logged := c.b.bagErr) ((m * st.bags + bag) % 12) c.r.step ((bagErr_bagPooled rising).trans (by rw [own]))
      (pooled.rising rising)
    obtain ⟨r, runs, tiles, rows⟩ := run_bagPooled rising (run_of_ctxOf ctx)
    rw [← meaning] at kept noted
    exact ⟨lookupBag j e m bag s, r, _, exec_lookupBag running rfl kept.world, kept.jobOnly, kept.dev, (congrArg Job.run noted).trans runs, tiles, rows, rfl,
      congrArg Job.bagErr noted⟩
  · intro j e m bag c st f s ctx running stage fig no
    exact exec_lookupBag running (lookupBag_not_due ctx stage fig no) (.refl s)
  · rintro j e m row h c st lk f q gr d list new s ctx running stage fig decl lookup stream arrived scatter phase inStage inStep short rising fresh
      rfl rfl few
    have due : RowDue s j e m row h c st lk f q gr d :=
      ⟨ctx, stage, fig, decl, lookup, stream, arrived, scatter, phase, inStage, inStep, fresh⟩
    have added := job_scattered (j := j) (e := e) (m := m) (row := row) (c := c) (st := st) (lk := lk) (q := q) (gr := gr) (d := d) rising
    have after := keepsGathered_scatterRow due short (by rw [added]; exact few)
    have kept := (keepsTiles_scattered s).kept after.kept
    have risingAdded := (keepsTiles_scattered (j := j) (e := e) (m := m) (row := row) (c := c) (st := st) (lk := lk) (q := q) (gr := gr) (d := d) s).rising rising
    have runs : ((scattered j e m row c st lk q gr d s).job j).run =
        some { c.r with rows := c.r.rows ++ [(e, 0x10, m, row, { poison := gr.poison })] } := by
      rw [added, run_of_ctxOf ctx]
      rfl
    obtain ⟨r, runsAfter, -, rows⟩ := after.run risingAdded runs
    refine ⟨scatterRow j e m row s, r, exec_scatterRow running rfl kept.world, kept.jobOnly, kept.dev, ?_, runsAfter, ?_⟩
    · rw [after.accs risingAdded, added]
      rfl
    · rw [rows]
      exact List.mem_append_right _ (List.mem_singleton.mpr rfl)
  · intro j e m row c s ctx running there
    exact exec_scatterRow running (scatterRow_not_due ctx there) (.refl s)

end Sys2Proof.Machine
end

section
/-! A record on a page that cannot be reached (R313, R314): the command ends with FAULT_PARKED, or stands in flight and asks for the page. -/

namespace Sys2Proof.Machine

open Sys2Proof

variable {s t : State}

/-- From `s` to `t` a Page Request at most is sent (R300). -/
def OnlyRequests (s t : State) : Prop := t = { s with w := { s.w with mmu := t.w.mmu, out := t.w.out } }

theorem onlyRequests_pageRequest (j page : Nat) (s : State) : OnlyRequests s (pageRequest j page s) := by
  unfold pageRequest
  split <;> rfl

section unreached

variable {j addr n off kind page dva op : Nat} {g : Bytes → Cmd} {cmd : Instr} {h : Hdr} {own : State → Cmd}

theorem withRead_fault (fault : pktRead s j addr n = .fault kind page dva) : withRead s j addr n off g = faultC s j kind page dva off := by
  unfold withRead
  rw [fault]

theorem faultC_page : faultC s j 2 page dva off = .wait (notePark 0xFF j 2 dva s) page off := rfl

theorem faultC_absent (absent : kind ≠ 2) : faultC s j kind page dva off =
    failC (flt 0x1802 0x03 (if j < 64 then j else 0xFF) 0 (locDma 0xFF kind dva) (notePark 0xFF j kind dva s)) 0x40 off 0x02 :=
  if_neg absent

/-- The command stands in flight, and its place among those that wait for a page is remembered (R314). -/
def standsFor (cmd : Instr) (op : Nat) (h : Hdr) (s : State) (page off : Nat) (s1 : State) : State :=
  s1.onW (fun w => { w with
    inflight := w.inflight ++ [accepts op h s off 0]
    waits := w.waits ++ [{ cmd := cmd, hdr := h, op := op, page := page, off := off, dva := (s1.job h.job).lastFault, ord := s.w.ordNext }] })

theorem startCmd_wait {s1 : State} (ready : Ready op h s) (waits : own (counted h s) = .wait s1 page off) :
    startCmd cmd op h own s = pageRequest h.job page (standsFor cmd op h s page off s1) := by
  unfold Ready at ready
  unfold startCmd
  simp only [show (s.modQueue h.q fun c => { c with inflight := c.inflight + 1 }).onW (fun w => { w with ordNext := s.w.ordNext + 1 })
    = counted h s from rfl, ready, waits]
  rfl

/-- A fault that no Page Request mends ends the command (R313, R314). -/
theorem onWorld_fault_absent (ready : Ready op h s) (faults : own (counted h s) = faultC (counted h s) h.job kind page dva off) (absent : kind ≠ 2) :
    onWorld (startCmd cmd op h own) s = .next (finish op h s 0x40 off 0x02 []
      (flt 0x1802 0x03 (if h.job < 64 then h.job else 0xFF) 0 (locDma 0xFF kind dva) (notePark 0xFF h.job kind dva (counted h s)))) := by
  have world := (onlyWorld_notePark 0xFF h.job kind dva (counted h s)).trans
    (onlyWorld_flt 0x1802 0x03 (if h.job < 64 then h.job else 0xFF) 0 (locDma 0xFF kind dva) _)
  exact onWorld_done ready (faults.trans (faultC_absent absent)) world.pending world.cfg world.ctl

/-- A fault of kind 2 leaves the command in flight, waiting for its page (R314). -/
theorem onWorld_fault_page (ready : Ready op h s) (faults : own (counted h s) = faultC (counted h s) h.job 2 page dva off) :
    ∃ t, onWorld (startCmd cmd op h own) s = .next t ∧ t.cfg = s.cfg ∧ t.ctl = s.ctl ∧
      (∃ x ∈ t.w.waits, x.cmd = cmd ∧ x.page = page ∧ x.off = off ∧ x.ord = s.w.ordNext) ∧ accepts op h s off 0 ∈ t.w.inflight := by
  have waits : own (counted h s) = .wait (notePark 0xFF h.job 2 dva (counted h s)) page off := faults.trans faultC_page
  have meaning := startCmd_wait (cmd := cmd) ready waits
  have parked := onlyWorld_notePark 0xFF h.job 2 dva (counted h s)
  have request := onlyRequests_pageRequest h.job page (standsFor cmd op h s page off (notePark 0xFF h.job 2 dva (counted h s)))
  have world : OnlyWorld s (startCmd cmd op h own s) := by
    rw [meaning]
    exact .trans (.trans (t := counted h s) rfl parked) ((OnlyWorld.onW _ _).trans (onlyWorld_pageRequest _ _ _))
  refine ⟨_, onWorld_of_eq rfl world.pending world.cfg world.ctl, world.cfg, world.ctl, ?_, ?_⟩ <;> rw [meaning, request]
  · exact ⟨_, List.mem_append_right _ (List.mem_singleton.mpr rfl), rfl, rfl, rfl, rfl⟩
  · exact List.mem_append_right _ (List.mem_singleton.mpr rfl)

end unreached

/-- Settles O37: each of the four commands reads its record before anything else of its own, and a fault there decides what it answers. -/
theorem recordsThatCannotBeReached : Obligations.RecordsThatCannotBeReached := by
  intro h addr n off op k page a c s command ready fault
  have faulted : ∃ own, exec c s = onWorld (startCmd c op h own) s ∧ own (counted h s) = faultC (counted h s) h.job k page a off := by
    rcases command with ⟨rfl, rfl, rfl, rfl⟩ | ⟨rfl, rfl, rfl, rfl⟩ | ⟨rfl, rfl, short, rfl⟩ | ⟨⟨e, low, rfl⟩, table, rfl, rfl, rfl⟩
    · exact ⟨tensorDeclareOwn h addr, rfl, withRead_fault fault⟩
    · exact ⟨placeSetOwn h addr, rfl, withRead_fault fault⟩
    · exact ⟨drillLoadOwn h addr n, rfl, (if_neg (Nat.not_lt.mpr short)).trans (withRead_fault fault)⟩
    · exact ⟨umpireConfigOwn h e addr, rfl, (if_neg (Nat.not_lt.mpr low)).trans ((if_neg table).trans (withRead_fault fault))⟩
  obtain ⟨own, meaning, faults⟩ := faulted
  rw [meaning]
  refine ⟨onWorld_fault_absent ready faults, ?_⟩
  rintro rfl
  exact onWorld_fault_page ready faults

end Sys2Proof.Machine
end

section
/-! What is left of the DMA channels: reads and writes of memory leave them all alone (R308). -/

namespace Sys2Proof.Machine

open Sys2Proof

variable {s t u : State}

/-- From `s` to `t` the DMA channels stand. -/
def KeepsDma (s t : State) : Prop := t.w.dma = s.w.dma

namespace KeepsDma

theorem refl (s : State) : KeepsDma s s := rfl

theorem trans (h : KeepsDma s t) (k : KeepsDma t u) : KeepsDma s u := Eq.trans k h

theorem ite {p : Prop} [Decidable p] (h : KeepsDma s t) (k : KeepsDma s u) : KeepsDma s (if p then t else u) := by
  split
  · exact h
  · exact k

theorem forAll {α : Type} (l : List α) (f : α → State → State) (hf : ∀ x s, KeepsDma s (f x s)) (s : State) : KeepsDma s (forAll l f s) := by
  unfold Machine.forAll
  induction l generalizing s with
  | nil => exact refl s
  | cons x r ih => exact (hf x s).trans (ih _)

theorem of_onlyReply (h : OnlyReply s t) : KeepsDma s t := by
  unfold KeepsDma
  rw [h]

theorem chan (h : KeepsDma s t) (c : Nat) : t.chan c = s.chan c := by
  unfold State.chan
  rw [h]

theorem onW {f : World → World} (h : (f s.w).dma = s.w.dma := by rfl) : KeepsDma s (s.onW f) := h
theorem modStack (s : State) (i : Nat) (f : Stk → Stk) : KeepsDma s (s.modStack i f) := rfl
theorem modPc (s : State) (p : Nat) (f : Pc → Pc) : KeepsDma s (s.modPc p f) := rfl

theorem poisonUnit (s : State) (key n : Nat) : KeepsDma s (s.poisonUnit key n) := rfl

/-- A change of the world that leaves the channels comes first. -/
theorem after_onW {f : World → World} (k : KeepsDma (s.onW f) u) (h : KeepsDma s (s.onW f) := by rfl) : KeepsDma s u := h.trans k

end KeepsDma

theorem keepsDma_flt (cls unit job step : Nat) (loc : Loc) (s : State) : KeepsDma s (flt cls unit job step loc s) :=
  .of_onlyReply (onlyLog_flt _ _ _ _ _ _).reply

/-! ### Reads of device memory (R211, R230, R231) -/

theorem keepsDma_countCe (n : Nat) (s : State) : KeepsDma s (countCe n s) :=
  .ite (.after_onW (.of_onlyReply (onlyLog_ckptAdvice _ _).reply)) rfl

theorem keepsDma_startRetrains (st : Nat) (s : State) : KeepsDma s (startRetrains st s) := by
  have started : KeepsDma s (forAll (retrainOrder s st) (fun p s =>
      if mayRetrain s p then s.modPc p (fun x => { x with requested := false, exempt := false, deg := x.state = 2, state := 1 }) else s) s) :=
    .forAll _ _ (fun p s => .ite (.modPc s p _) (.refl s)) s
  exact .ite (.refl s) (.ite (started.trans (.modStack _ st _)) started)

theorem keepsDma_requestRetrain (p : Nat) (exempt : Bool) (lanes : List Nat) (s : State) : KeepsDma s (requestRetrain p exempt lanes s) :=
  .ite (.refl s) (.modPc s p _)

theorem keepsDma_countLanes (p : Nat) (lanes : List Nat) (s : State) : KeepsDma s (countLanes p lanes s) := by
  refine .ite (.modPc s p _) (.trans (.trans (.modPc s p _) (.forAll _ _ (fun l s => ?_) _)) (keepsDma_startRetrains _ _))
  exact (keepsDma_requestRetrain p true [l] s).trans (keepsDma_flt _ _ _ _ _ _)

theorem keepsDma_correctedWord (x : Home) (lanes : List Nat) (s : State) : KeepsDma s (correctedWord x lanes s) := by
  refine .ite ?_ (.ite ?_ (.refl s))
  · exact ((KeepsDma.modStack s _ _).trans (keepsDma_countLanes _ _ _)).trans (keepsDma_countCe _ _)
  · exact .trans (.ite (.after_onW (keepsDma_flt _ _ _ _ _ _)) (by exact rfl)) (keepsDma_countCe _ _)

theorem keepsDma_badWord (x : Home) (j : Nat) (loc : Loc) (s : State) : KeepsDma s (badWord x j loc s) :=
  .ite (.trans (.modStack s _ _) (keepsDma_flt _ _ _ _ _ _))
    (.ite (.after_onW (keepsDma_flt _ _ _ _ _ _)) (.after_onW (keepsDma_flt _ _ _ _ _ _)))

theorem keepsDma_countRead (j h off n : Nat) (s : State) : KeepsDma s (countRead j h off n s) := by
  unfold countRead
  split
  · exact .refl s
  · refine .forAll _ _ (fun e s => .ite (.refl s) (.ite (keepsDma_correctedWord _ _ s) (.ite ?_ (.refl s)))) s
    exact .trans (t := s.draw.2) rfl (keepsDma_badWord _ _ _ _)

/-! ### The caches (R214, R479) -/

theorem keepsDma_flipLine (l : Line) (s : State) : KeepsDma s (flipLine l s) := by
  unfold flipLine
  extract_lets e x loc worst d s1
  have drawn : KeepsDma s d.2 := by
    unfold d
    split <;> rfl
  have dropped : KeepsDma s s1 := drawn.trans .onW
  exact .ite drawn (.ite ((dropped.trans (.poisonUnit _ _ _)).trans (keepsDma_flt _ _ _ _ _ _)) (dropped.trans (keepsDma_flt _ _ _ _ _ _)))

theorem keepsDma_afterTouch (j h buf off n : Nat) (s : State) : KeepsDma s (afterTouch j h buf off n s) := by
  refine .ite (.refl s) ?_
  split
  · refine .ite (.trans (t := fired s) ?_ (keepsDma_flipLine _ _)) (.refl s)
    exact .after_onW (keepsDma_flt _ _ _ _ _ _)
  · exact .refl s

theorem keepsDma_touch (cls : Nat) (write : Bool) (j h buf off n : Nat) (s : State) : KeepsDma s (touch cls write j h buf off n s) := by
  unfold touch
  split
  · exact .refl s
  · split
    · exact .refl s
    · extract_lets s1
      have passed : KeepsDma s s1 := .forAll _ _ (fun p s => .ite (.refl s) .onW) s
      exact .ite (passed.trans (keepsDma_afterTouch _ _ _ _ _ _)) passed

theorem keepsDma_readDev (cls j h off n : Nat) (s : State) : KeepsDma s (readDev cls j h off n s) := by
  unfold readDev
  split
  · exact .refl s
  · exact (keepsDma_countRead _ _ _ _ s).trans (keepsDma_touch _ _ _ _ _ _ _ _)

/-! ### Writes of device memory (R446, R465, R495) -/

theorem keepsDma_abandonCkpt (status detail unit cls : Nat) (s : State) : KeepsDma s (abandonCkpt status detail unit cls s) := by
  unfold abandonCkpt ckptReply disarm
  exact (((keepsDma_flt _ _ _ _ _ s).trans (.of_onlyReply (answers_completeAll _ _).reply)).trans .onW).trans .onW

theorem keepsDma_stageGranule (j h buf g : Nat) (s : State) : KeepsDma s (stageGranule j h buf g s) :=
  .ite (.refl s) (.ite (keepsDma_abandonCkpt _ _ _ _ s) .onW)

theorem keepsDma_storeSyms (key tier : Nat) (syms : List (Nat × Nat)) (s : State) : KeepsDma s (storeSyms key tier syms s) := by
  unfold storeSyms
  dsimp only
  split
  · rfl
  · exact .ite rfl (.ite rfl rfl)
  · rfl

theorem keepsDma_afterWrite (key n : Nat) (s : State) : KeepsDma s (afterWrite key n s) := by
  unfold afterWrite
  extract_lets s1 e sz buf k
  have cleared : KeepsDma s s1 := .ite (.refl s) rfl
  refine .ite (.ite (cleared.trans ?_) cleared) cleared
  exact (KeepsDma.after_onW (keepsDma_flt _ _ _ _ _ _)).trans (keepsDma_storeSyms _ _ _ _)

theorem keepsDma_freshen (j h buf off n : Nat) (s : State) : KeepsDma s (freshen j h buf off n s) := by
  unfold KeepsDma
  rw [onlyMarks_freshen]

theorem keepsDma_jobPut (j h buf off : Nat) (bs : Bytes) (s : State) : KeepsDma s (jobPut j h buf off bs s) := by
  unfold jobPut
  extract_lets gs
  have staged : KeepsDma s (forAll gs (stageGranule j h buf) s) := .forAll _ _ (keepsDma_stageGranule j h buf) s
  exact .ite (.refl s) (((((staged.trans .onW).trans (keepsDma_freshen _ _ _ _ _ _)).trans .onW)).trans (keepsDma_afterWrite _ _ _))

theorem keepsDma_imageWrite (j h off : Nat) (bs : Bytes) (s : State) : KeepsDma s (imageWrite j h off bs s) := by
  unfold imageWrite
  split
  · exact .refl s
  · exact (keepsDma_jobPut _ _ _ _ _ s).trans (keepsDma_touch _ _ _ _ _ _ _ _)

end Sys2Proof.Machine
end

section
/-! DMA_COPY and its granules (R305, R306, R308): a copy takes a channel or waits for one, a granule is read, written and counted. -/

namespace Sys2Proof.Machine

open Sys2Proof

variable {s t : State} {c : Nat}

theorem chan_setChan_ne {k : Nat} (v : Chan) (s : State) (other : k ≠ c) : (s.setChan c v).chan k = s.chan k := tget_tput_ne _ _ _ other

theorem chan_setChan_self (v : Chan) (rising : Claims.rising s.w.dma) : (s.setChan c v).chan c = v := tget_tput_rising _ _ _ _ rising

/-! ### Channels are given out (R305) -/

section dispatch

theorem dmaDispatch_full (full : ∀ c < 80, (s.chan c).state ≠ 0) (n : Nat) : dmaDispatch n s = s := by
  have noFree : (List.range 80).find? (fun c => (s.chan c).state = 0) = none := by
    simpa using full
  cases n with
  | zero => rfl
  | succ n =>
    unfold dmaDispatch
    rw [noFree]

theorem find_free_lowest (inRange : c < 80) (free : (s.chan c).state = 0) (lowest : ∀ k < c, (s.chan k).state ≠ 0) :
    (List.range 80).find? (fun c => (s.chan c).state = 0) = some c := by
  refine List.find?_range_eq_some.mpr ⟨by simpa using free, by simpa using inRange, fun k below => ?_⟩
  simpa using lowest k below

/-- A copy that waits alone takes the lowest free channel. -/
theorem dmaDispatch_alone {ord : Nat} {x : Chan} (alone : s.w.dmaWait = [(ord, x)]) (inRange : c < 80) (free : (s.chan c).state = 0)
    (lowest : ∀ k < c, (s.chan k).state ≠ 0) : dmaDispatch 1 s =
      (s.setChan c { x with state := 1, seq := ord }).onW (fun w => { w with dmaWait := [], dmaLast := x.job }) := by
  unfold dmaDispatch
  rw [find_free_lowest inRange free lowest, alone]
  dsimp -zeta only
  extract_lets l jobs j pick stream
  have turn : j = x.job := by
    by_cases later : s.w.dmaLast < x.job <;> simp [j, jobs, l, sortNat, insertNat, later]
  have picked : pick = (ord, x) := by simp [pick, l, turn]
  have rest : s.w.dmaWait.filter (fun y => y.1 != ord) = [] := by simp [alone]
  rw [turn, show stream = x from congrArg Prod.snd picked, picked]
  unfold dmaDispatch State.setChan State.onW
  dsimp only
  rw [rest]

theorem noneWaits_onW (none : s.w.dmaWait = []) (j : Nat) :
    s.onW (fun w => { w with dmaWait := [], dmaLast := j }) = s.onW (fun w => { w with dmaLast := j }) := by
  rw [← none]
  rfl

theorem onlyWorld_dmaDispatch (n : Nat) (s : State) : OnlyWorld s (dmaDispatch n s) := by
  induction n generalizing s with
  | zero => exact .refl s
  | succ n ih =>
    unfold dmaDispatch
    split
    · exact .trans (.trans (t := s.setChan _ _) rfl (.onW _ _)) (ih _)
    · exact .refl s

end dispatch

/-! ### DMA_COPY (R306) -/

section copy

variable {h : Hdr} {src dst len srcH dstH : Nat}

/-- The stream of a DMA_COPY before it has a channel. -/
def copyStream (h : Hdr) (src dst len srcH dstH : Nat) : Chan :=
  { job := h.job, queue := h.q, len := len, total := (len + 4095) / 4096, src := ⟨srcH, src⟩, dst := ⟨dstH, dst⟩ }

/-- The checks of R306. -/
structure CopyPasses (h : Hdr) (src dst len srcH dstH : Nat) (s : State) : Prop where
  nonempty : len ≠ 0
  whole : len % 64 = 0
  short : len ≤ 2 ^ 40
  device : srcH ≠ 0 ∨ dstH ≠ 0
  srcJob : srcH = 0 → src % 64 = 0 ∧ src + len ≤ 2 ^ 48
  dstJob : dstH = 0 → dst % 64 = 0 ∧ dst + len ≤ 2 ^ 48
  srcIn : sideOk s h.job srcH src len = true
  dstIn : sideOk s h.job dstH dst len = true
  apart : srcH = dstH → src + len ≤ dst ∨ dst + len ≤ src
  dstUnused : usedRole s h.job dstH = none
  srcRole : ∀ k, usedRole s h.job srcH = some k → k = 4 ∨ k = 6
  few : (s.w.inflight.filter (fun r => r.op = 0x0203 && r.hdr.job = h.job)).length < 1024

theorem CopyPasses.counted (passes : CopyPasses h src dst len srcH dstH s) : CopyPasses h src dst len srcH dstH (counted h s) := { passes with }

theorem checkPkt_passed {l : List (Nat × Bool)} {k : Cmd} (pass : firstBad l = none) : checkPkt s l k = k := by
  unfold checkPkt
  rw [pass]

theorem jobSide_passed {n a : Nat} (aligned : n = 0 → a % 64 = 0 ∧ a + len ≤ 2 ^ 48) :
    (n != 0 || (a % 64 == 0 && decide (a + len ≤ 2 ^ 48))) = true := by
  simp only [Bool.or_eq_true, bne_iff_ne, Bool.and_eq_true, beq_iff_eq, decide_eq_true_eq]
  tauto

theorem dmaCopyOwn_passes (passes : CopyPasses h src dst len srcH dstH s) (ord : Nat) : dmaCopyOwn h src dst len srcH dstH ord s =
    .later (s.onW (fun w => { w with dmaWait := s.w.dmaWait ++ [(ord, copyStream h src dst len srcH dstH)] })) 0 0 := by
  obtain ⟨nonempty, whole, short, device, srcJob, dstJob, srcIn, dstIn, apart, dstUnused, srcRole, few⟩ := passes
  have sized : ¬ (!(len != 0 && len % 64 == 0 && decide (len ≤ 2 ^ 40))) = true := by
    rw [decide_eq_true short]
    simp [nonempty, whole]
  have oneDevice : ¬ (srcH = 0 && dstH = 0) = true := by
    simp only [Bool.and_eq_true, decide_eq_true_eq]
    tauto
  have jobSides : firstBad [(16, srcH != 0 || (src % 64 == 0 && decide (src + len ≤ 2 ^ 48))),
      (24, dstH != 0 || (dst % 64 == 0 && decide (dst + len ≤ 2 ^ 48)))] = none := by
    rw [jobSide_passed srcJob, jobSide_passed dstJob]
    rfl
  have images : firstBad [(40, sideOk s h.job srcH src len), (44, sideOk s h.job dstH dst len)] = none := by
    rw [srcIn, dstIn]
    rfl
  have disjoint : ¬ (srcH != 0 && srcH = dstH && decide (src < dst + len) && decide (dst < src + len)) = true := by
    simp only [Bool.and_eq_true, bne_iff_ne, decide_eq_true_eq]
    omega
  have unused : ¬ ((usedRole s h.job dstH).isSome || (match usedRole s h.job srcH with | some r => r != 4 && r != 6 | none => false)) = true := by
    rw [dstUnused]
    cases role : usedRole s h.job srcH with
    | none => simp
    | some r => rcases srcRole r role with rfl | rfl <;> simp
  unfold dmaCopyOwn
  dsimp only
  rw [if_neg sized, if_neg oneDevice, checkPkt_passed jobSides, checkPkt_passed images, if_neg disjoint]
  exact (if_neg unused).trans (if_neg (Nat.not_le.mpr few))

/-- What DMA_COPY answers before a channel is sought for it. -/
def copyWaits (h : Hdr) (src dst len srcH dstH : Nat) (s : State) : State :=
  (runsOn 0x0203 h s 0 0 (counted h s)).onW (fun w => { w with dmaWait := [(s.w.ordNext, copyStream h src dst len srcH dstH)] })

theorem exec_dmaCopy (ready : Ready 0x0203 h s) (passes : CopyPasses h src dst len srcH dstH s) (first : s.w.dmaWait = []) :
    exec (.dmaCopy h src dst len srcH dstH) s = .next (dmaDispatch 1 (copyWaits h src dst len srcH dstH s)) := by
  have own := dmaCopyOwn_passes passes.counted s.w.ordNext
  rw [show (counted h s).w.dmaWait = [] from first, List.nil_append] at own
  have meaning : runDmaCopy h src dst len srcH dstH s = dmaDispatch 1 (copyWaits h src dst len srcH dstH s) := by
    unfold runDmaCopy
    rw [startCmd_later ready own]
    rfl
  have world : OnlyWorld s (dmaDispatch 1 (copyWaits h src dst len srcH dstH s)) :=
    .trans (t := copyWaits h src dst len srcH dstH s) rfl (onlyWorld_dmaDispatch _ _)
  exact onWorld_of_eq meaning world.pending world.cfg world.ctl

/-- The copy takes the lowest free channel at once. -/
theorem exec_dmaCopy_takes (ready : Ready 0x0203 h s) (passes : CopyPasses h src dst len srcH dstH s) (first : s.w.dmaWait = [])
    (inRange : c < 80) (free : (s.chan c).state = 0) (lowest : ∀ k < c, (s.chan k).state ≠ 0) :
    exec (.dmaCopy h src dst len srcH dstH) s = .next (((runsOn 0x0203 h s 0 0 (counted h s)).setChan c
      { copyStream h src dst len srcH dstH with state := 1, seq := s.w.ordNext }).onW (fun w => { w with dmaLast := h.job })) := by
  have given := dmaDispatch_alone (s := copyWaits h src dst len srcH dstH s) rfl inRange free lowest
  rw [exec_dmaCopy ready passes first, given]
  exact congrArg Host.Outcome.next (noneWaits_onW (s := (runsOn 0x0203 h s 0 0 (counted h s)).setChan c _) first h.job)

/-- The copy waits while no channel is free. -/
theorem exec_dmaCopy_waits (ready : Ready 0x0203 h s) (passes : CopyPasses h src dst len srcH dstH s) (first : s.w.dmaWait = [])
    (full : ∀ c < 80, (s.chan c).state ≠ 0) :
    exec (.dmaCopy h src dst len srcH dstH) s = .next (copyWaits h src dst len srcH dstH s) := by
  rw [exec_dmaCopy ready passes first, dmaDispatch_full (s := copyWaits h src dst len srcH dstH s) full]

end copy

/-! ### A granule (R308) -/

section granule

variable {g : Nat} {bs : Bytes}

theorem onlyWorld_dmaEnd (status detail unit : Nat) (s : State) : OnlyWorld s (dmaEnd c status detail unit s) := by
  unfold dmaEnd
  exact ((onlyWorld_completeAll _ _ _ _ _ s).trans (.onW _ _)).trans (onlyWorld_dmaDispatch _ _)

/-- The state in which a granule of a stream has been read. -/
def granuleRead (x : Chan) (g : Nat) (s : State) : State :=
  if x.src.handle = 0 then s else readDev 0 x.job x.src.handle (granAt x.src g) (granLen x g) s

/-- The state in which the bytes of a granule have been written to the other side. -/
def granuleWritten (x : Chan) (g : Nat) (bs : Bytes) (s : State) : State :=
  if x.dst.handle = 0 then (jobWrite s x.job (granAt x.dst g) bs).2 else imageWrite x.job x.dst.handle (granAt x.dst g) bs s

theorem keepsDma_granuleRead (x : Chan) (g : Nat) (s : State) : KeepsDma s (granuleRead x g s) := .ite (.refl s) (keepsDma_readDev _ _ _ _ _ s)

theorem keepsDma_granuleWritten (x : Chan) (g : Nat) (bs : Bytes) (s : State) : KeepsDma s (granuleWritten x g bs s) :=
  .ite (.of_onlyReply (onlyLog_jobWrite _ _ _ _).reply) (keepsDma_imageWrite _ _ _ _ s)

theorem onlyWorld_granuleRead (x : Chan) (g : Nat) (s : State) : OnlyWorld s (granuleRead x g s) := .ite (.refl s) (onlyWorld_readDev _ _ _ _ _ s)

theorem onlyWorld_granuleWritten (x : Chan) (g : Nat) (bs : Bytes) (s : State) : OnlyWorld s (granuleWritten x g bs s) :=
  .ite (onlyLog_jobWrite _ _ _ _).world (onlyWorld_imageWrite _ _ _ _ s)

/-- A granule of a running stream that is next or no more than 15 above it, whose accesses can be made. -/
structure GranuleDue (s : State) (c g : Nat) (x : Chan) : Prop where
  inRange : c < 80
  stream : x = s.chan c
  running : x.state = 1
  notDone : x.done ≤ g
  inStream : g < x.total
  near : g < x.done + 16
  fresh : g ∉ x.above
  ready : granReady s x g = true
  on : granOff s x g = none

theorem modChan_of_chan {x : Chan} (stands : s.chan c = x) (f : Chan → Chan) : s.modChan c f = s.setChan c (f x) := by
  unfold State.modChan
  rw [stands]

theorem granuleDone_idle (idle : (s.chan c).state ≠ 1) : granuleDone c g s = s := by
  unfold granuleDone
  exact if_pos (by simp [idle])

/-- The bytes go over and the granule is counted; the count that reaches the total ends the copy. -/
theorem granuleDone_due {x : Chan} {n : Nat} {above : List Nat} (due : GranuleDue s c g x) (read : granRead (granuleRead x g s) x g = .ok bs)
    (clean : hostPoisons (granuleRead x g s) x g = false) (counts : advanceDone 17 x.done (g :: x.above) = (n, above)) :
    granuleDone c g s =
      if n = x.total then dmaEnd c 0x00 0 0xFF ((granuleWritten x g bs (granuleRead x g s)).setChan c { x with done := n, above := above })
      else (granuleWritten x g bs (granuleRead x g s)).setChan c { x with done := n, above := above } := by
  obtain ⟨inRange, rfl, running, notDone, inStream, near, fresh, ready, on⟩ := due
  have goes : ¬ (!(decide (c < 80) && (s.chan c).state = 1 && decide ((s.chan c).done ≤ g) &&
      decide (g < min (s.chan c).total ((s.chan c).done + 16)) && !(s.chan c).above.contains g && granReady s (s.chan c) g)) = true := by
    simp [inRange, running, notDone, inStream, near, fresh, ready]
  have stands : (granuleWritten (s.chan c) g bs (granuleRead (s.chan c) g s)).chan c = s.chan c :=
    ((keepsDma_granuleRead (s.chan c) g s).trans (keepsDma_granuleWritten _ _ _ _)).chan c
  have noPoison : ¬ (hostPoisons (granuleRead (s.chan c) g s) (s.chan c) g && (s.chan c).dst.handle != 0) = true := by simp [clean]
  unfold granuleDone
  dsimp only
  rw [if_neg goes, on]
  dsimp only
  rw [← granuleRead, read]
  dsimp only
  rw [if_neg noPoison, ← granuleWritten, counts, modChan_of_chan stands]

/-! ### The done count (R308) -/

theorem advanceDone_apart {n d : Nat} {l : List Nat} (apart : d ∉ l) : advanceDone n d l = (d, l) := by
  cases n with
  | zero => rfl
  | succ n =>
    unfold advanceDone
    exact if_neg (by simpa using apart)

theorem advanceDone_next (d : Nat) : advanceDone 17 d [d] = (d + 1, []) := by
  unfold advanceDone
  simp [advanceDone_apart]

/-! ### DMA_GRANULE_DONE (R58, R308) -/

theorem exec_dmaGranuleDone (clocked : s.ctl.clk.frozen = false) (meaning : granuleDone c g (s.modXing xHost (Xing.pass 1)) = t)
    (world : OnlyWorld s t) : exec (.dmaGranuleDone c g) s = .next t :=
  (onWorld_through clocked).trans (onWorld_of_eq meaning world.pending world.cfg world.ctl)

theorem exec_dmaGranuleDone_frozen (frozen : s.ctl.clk.frozen = true) (room : (s.xing xHost).held.length < 32) :
    exec (.dmaGranuleDone c g) s =
      .next (s.modXing xHost (fun x => { x with wr := (x.wr + 1) % 64, held := x.held ++ [.dmaGranuleDone c g] })) :=
  onWorld_of_eq ((through_frozen frozen).trans (if_pos room)) rfl rfl rfl

/-- The state in which a granule that passed the host port's crossing has been read and written (R308). -/
def granuleMoved (x : Chan) (g : Nat) (bs : Bytes) (s : State) : State := granuleWritten x g bs (granuleRead x g (s.modXing xHost (Xing.pass 1)))

theorem onlyWorld_granuleMoved (x : Chan) (g : Nat) (bs : Bytes) (s : State) : OnlyWorld s (granuleMoved x g bs s) :=
  (OnlyWorld.trans (t := s.modXing xHost (Xing.pass 1)) rfl (onlyWorld_granuleRead _ _ _)).trans (onlyWorld_granuleWritten _ _ _ _)

/-- Once passed, the granule finds the state it was due in: nothing that decides it lies in the crossing. -/
theorem GranuleDue.passed {x : Chan} (due : GranuleDue s c g x) : GranuleDue (s.modXing xHost (Xing.pass 1)) c g x := { due with }

section moves

variable {x : Chan} (clocked : s.ctl.clk.frozen = false) (due : GranuleDue s c g x)
  (read : granRead (granuleRead x g (s.modXing xHost (Xing.pass 1))) x g = .ok bs)
  (clean : hostPoisons (granuleRead x g (s.modXing xHost (Xing.pass 1))) x g = false)
include clocked due read clean

theorem exec_granule_counted {n : Nat} {above : List Nat} (counts : advanceDone 17 x.done (g :: x.above) = (n, above)) (more : n ≠ x.total) :
    exec (.dmaGranuleDone c g) s = .next ((granuleMoved x g bs s).setChan c { x with done := n, above := above }) :=
  exec_dmaGranuleDone clocked ((granuleDone_due due.passed read clean counts).trans (if_neg more))
    ((onlyWorld_granuleMoved x g bs s).trans (.onW _ _))

theorem exec_granule_last {n : Nat} {above : List Nat} (counts : advanceDone 17 x.done (g :: x.above) = (n, above)) (last : n = x.total) :
    exec (.dmaGranuleDone c g) s = .next (dmaEnd c 0x00 0 0xFF ((granuleMoved x g bs s).setChan c { x with done := n, above := above })) :=
  exec_dmaGranuleDone clocked ((granuleDone_due due.passed read clean counts).trans (if_pos last))
    (((onlyWorld_granuleMoved x g bs s).trans (.onW _ _)).trans (onlyWorld_dmaEnd _ _ _ _))

end moves

end granule

/-! ### STREAM_PARK (R309, R313) -/

section park

variable {g kind a page : Nat}

theorem exec_streamPark (inRange : c < 80) (meaning : streamPark c g kind s = t) (world : OnlyWorld s t) :
    exec (.streamPark c g kind) s = .next t := by
  have notSaved : ¬ (120 ≤ c && c < 124) = true := by
    simp only [Bool.and_eq_true, decide_eq_true_eq]
    omega
  change onWorld (fun s => if 120 ≤ c && c < 124 then quarterPark c g kind s else streamPark c g kind s) s = _
  simp only [if_neg notSaved]
  exact onWorld_of_eq meaning world.pending world.cfg world.ctl

theorem streamPark_idle (idle : (s.chan c).state ≠ 1) : streamPark c g kind s = s := by
  unfold streamPark
  exact if_pos (by simp [idle])

/-- A park before what it logs: the stream at its park point, the fault counted in its job (R309, R312). -/
def parkCounted (c kind addr : Nat) (s : State) : State :=
  (s.setChan c { (s.chan c) with state := 2, above := [], parkAt := addr, kind := kind }).modJob (s.chan c).job (fun b => { b with
    faults := satAdd 32 b.faults 1, parked := satAdd 8 b.parked 1, lastFault := addr })

theorem onlyLog_parkStream (c kind addr : Nat) (s : State) : OnlyLog (parkCounted c kind addr s) (parkStream c kind addr s) :=
  onlyLog_flt _ _ _ _ _ _

/-- A stream parked on a page that its host does not hold: the page is absent from here on and asked for (R300, R313). -/
def parkedOnPage (c addr page : Nat) (s : State) : State :=
  pageRequest (s.chan c).job page ((parkStream c 2 addr s).onW (fun w => { w with hostAbsent := (page :: w.hostAbsent).eraseDups }))

theorem streamPark_page (inRange : c < 80) (running : (s.chan c).state = 1) (notDone : (s.chan c).done ≤ g) (inStream : g < (s.chan c).total)
    (near : g < (s.chan c).done + 16) (faults : (granFaults s (s.chan c) g).find? (fun f => f.1 == 2) = some (2, a, page))
    (may : canRequest s (s.chan c).job a = true) :
    streamPark c g 2 s = parkedOnPage c a page s := by
  have met : ¬ (!(decide (c < 80) && (s.chan c).state = 1 && decide ((s.chan c).done ≤ g) &&
      decide (g < min (s.chan c).total ((s.chan c).done + 16)))) = true := by
    simp [inRange, running, notDone, inStream, near]
  unfold streamPark
  dsimp only
  rw [if_neg met, faults]
  dsimp only
  rw [may]
  rfl

theorem onlyWorld_parkedOnPage (c addr page : Nat) (s : State) : OnlyWorld s (parkedOnPage c addr page s) :=
  ((OnlyWorld.trans (t := parkCounted c 2 addr s) rfl (onlyLog_parkStream _ _ _ _).world).trans (.onW _ _)).trans (onlyWorld_pageRequest _ _ _)

theorem chan_parkedOnPage (k addr page : Nat) (s : State) : (parkedOnPage c addr page s).chan k =
    (s.setChan c { (s.chan c) with state := 2, above := [], parkAt := addr, kind := 2 }).chan k :=
  ((KeepsDma.of_onlyReply (onlyLog_parkStream c 2 addr s).reply).trans (.after_onW (.of_onlyReply (onlyReply_pageRequest _ _ _)))).chan k

theorem job_parkedOnPage (addr page j : Nat) (s : State) : (parkedOnPage c addr page s).job j = (parkCounted c 2 addr s).job j := by
  unfold parkedOnPage
  rw [onlyRequests_pageRequest]
  exact (onlyLog_parkStream c 2 addr s).job j

theorem mem_hostAbsent_parkedOnPage (c addr page : Nat) (s : State) : page ∈ (parkedOnPage c addr page s).w.hostAbsent := by
  unfold parkedOnPage
  rw [onlyRequests_pageRequest]
  exact List.mem_eraseDups.mpr List.mem_cons_self

end park

/-- Settles O28. A copy is given a channel or waits, by the dispatch over the one copy that waits; a granule that is due moves its bytes,
and the channel it is counted in is the one before, since neither side's memory holds a channel; a park changes one channel and one job. -/
theorem dmaStreamsMoveGranulesInOrder : Obligations.DmaStreamsMoveGranulesInOrder := by
  unfold Obligations.DmaStreamsMoveGranulesInOrder
  refine ⟨?_, ?_, ?_, ?_, ?_, ?_, ?_, ?_⟩
  · rintro h src dst len srcH dstH c x s ready nonempty whole short device srcJob dstJob srcIn dstIn apart dstUnused srcRole few first rfl
      inRange free lowest
    have passes : CopyPasses h src dst len srcH dstH s :=
      ⟨nonempty, whole, short, device, srcJob, dstJob, srcIn, dstIn, apart, dstUnused, srcRole, few⟩
    exact exec_dmaCopy_takes ready passes first inRange free lowest
  · rintro h src dst len srcH dstH x s ready nonempty whole short device srcJob dstJob srcIn dstIn apart dstUnused srcRole few first rfl full
    have passes : CopyPasses h src dst len srcH dstH s :=
      ⟨nonempty, whole, short, device, srcJob, dstJob, srcIn, dstIn, apart, dstUnused, srcRole, few⟩
    exact exec_dmaCopy_waits ready passes first full
  · rintro c g bs x s s0 s1 clocked inRange stream running notDone inStream near fresh ready on rfl rfl read clean rfl none more
    have due : GranuleDue s c x.done x := ⟨inRange, stream, running, notDone, inStream, near, fresh, ready, on⟩
    have counts : advanceDone 17 x.done (x.done :: x.above) = (x.done + 1, x.above) := none ▸ advanceDone_next x.done
    exact exec_granule_counted clocked due read clean counts more.ne
  · rintro c g bs x s s0 s1 clocked inRange stream running notDone inStream near fresh ready on rfl rfl read clean above gap
    have due : GranuleDue s c g x := ⟨inRange, stream, running, notDone, inStream, near, fresh, ready, on⟩
    have counts : advanceDone 17 x.done (g :: x.above) = (x.done, g :: x.above) :=
      advanceDone_apart (List.not_mem_cons_of_ne_of_not_mem above.ne gap)
    exact exec_granule_counted clocked due read clean counts (above.trans inStream).ne
  · rintro c g bs x s s0 s1 clocked inRange stream running notDone inStream near fresh ready on rfl rfl read clean rfl none last
    have due : GranuleDue s c x.done x := ⟨inRange, stream, running, notDone, inStream, near, fresh, ready, on⟩
    have counts : advanceDone 17 x.done (x.done :: x.above) = (x.done + 1, x.above) := none ▸ advanceDone_next x.done
    exact exec_granule_last clocked due read clean counts last
  · intro c g kind s inRange idle
    exact ⟨exec_streamPark inRange (streamPark_idle idle) (.refl s), fun clocked => exec_dmaGranuleDone clocked (granuleDone_idle idle) rfl⟩
  · intro c g s frozen room
    exact exec_dmaGranuleDone_frozen frozen room
  · intro c g a page s inRange running notDone inStream near faults may risingDma risingJobs
    have world := onlyWorld_parkedOnPage c a page s
    exact ⟨parkedOnPage c a page s, exec_streamPark inRange (streamPark_page inRange running notDone inStream near faults may) world,
      world.cfg, world.ctl, (chan_parkedOnPage c a page s).trans (chan_setChan_self _ risingDma),
      fun k other => (chan_parkedOnPage k a page s).trans (chan_setChan_ne _ s other), mem_hostAbsent_parkedOnPage c a page s,
      (job_parkedOnPage a page _ s).trans (job_modJob_self _ risingJobs)⟩

end Sys2Proof.Machine
end

section
/-! What a report leaves (R286, R486, R532): the parts of the world that logging does not write, part by part. -/

namespace Sys2Proof.Machine

open Sys2Proof

variable {s t : State}

theorem OnlyLog.cells (h : OnlyLog s t) : t.w.cells = s.w.cells := by rw [h]
theorem OnlyLog.cell (h : OnlyLog s t) (k : Nat) : t.cell k = s.cell k := by rw [h]; rfl
theorem OnlyLog.lk (h : OnlyLog s t) : t.w.lk = s.w.lk := by rw [h]
theorem OnlyLog.link (h : OnlyLog s t) (l : Nat) : t.link l = s.link l := by rw [h]; rfl
theorem OnlyLog.queues (h : OnlyLog s t) : t.w.queues = s.w.queues := by rw [h]
theorem OnlyLog.inflight (h : OnlyLog s t) : t.w.inflight = s.w.inflight := by rw [h]
theorem OnlyLog.dev (h : OnlyLog s t) : t.w.dev = s.w.dev := by rw [h]
theorem OnlyLog.msgs (h : OnlyLog s t) : t.w.msgs = s.w.msgs := by rw [h]
theorem OnlyLog.mr (h : OnlyLog s t) : t.w.mr = s.w.mr := by rw [h]
theorem OnlyLog.ck (h : OnlyLog s t) : t.w.ck = s.w.ck := by rw [h]
theorem OnlyLog.err (h : OnlyLog s t) : t.w.err = s.w.err := by rw [h]
theorem OnlyLog.foul (h : OnlyLog s t) : t.w.foul = s.w.foul := by rw [h]

/-! ### The sideline: of its state only the held records and their counts are written -/

theorem OnlyLog.authSeq (h : OnlyLog s t) : t.w.sl.authSeq = s.w.sl.authSeq := by rw [h]
theorem OnlyLog.handled (h : OnlyLog s t) : t.w.sl.handled = s.w.sl.handled := by rw [h]
theorem OnlyLog.fleetKey (h : OnlyLog s t) : t.w.sl.fleetKey = s.w.sl.fleetKey := by rw [h]
theorem OnlyLog.foulAuth (h : OnlyLog s t) : t.w.sl.foulAuth = s.w.sl.foulAuth := by rw [h]
theorem OnlyLog.foulLeftS (h : OnlyLog s t) : t.w.sl.foulLeftS = s.w.sl.foulLeftS := by rw [h]
theorem OnlyLog.prov (h : OnlyLog s t) : t.w.sl.prov = s.w.sl.prov := by rw [h]
theorem OnlyLog.coll (h : OnlyLog s t) : t.w.sl.coll = s.w.sl.coll := by rw [h]
theorem OnlyLog.port (h : OnlyLog s t) : t.w.sl.port = s.w.sl.port := by rw [h]
theorem OnlyLog.slLink (h : OnlyLog s t) : t.w.sl.link = s.w.sl.link := by rw [h]

end Sys2Proof.Machine
end

section
/-! The management bus (R524-R527): MCTP control and the SPDM responder, past the checks that stand before every request. -/

namespace Sys2Proof.Machine

open Sys2Proof

section bus

variable {f : State → State} {s t : State}

theorem onBus_powered (on : s.ctl.power.phase ≠ .off) : onBus f s = f s := if_neg on

/-- A request on the bus that answers without a change of control state. -/
theorem onWorld_onBus (on : s.ctl.power.phase ≠ .off) (answers : f s = t) (world : OnlyWorld s t) : onWorld (onBus f) s = .next t :=
  onWorld_of_eq ((onBus_powered on).trans answers) world.pending world.cfg world.ctl

theorem onCore_onBus (on : s.ctl.power.phase ≠ .off) (answers : f s = t) (hp : t.pending = s.pending) (hc : t.cfg = s.cfg) :
    onCore (onBus f) s = .next t :=
  onCore_of_eq ((onBus_powered on).trans answers) hp hc

/-! ### SPDM (R525-R527) -/

theorem on_of_run (run : s.ctl.power.phase = .run) : s.ctl.power.phase ≠ .off := by rw [run]; decide

theorem spdmBusy_inService (run : s.ctl.power.phase = .run) (stays : s.ctl.power.sitPending = false) : spdmBusy s = false := by
  simp [spdmBusy, inSitOut, State.power, run, stays]

theorem spdmRequest_inService {need : Nat} (run : s.ctl.power.phase = .run) (stays : s.ctl.power.sitPending = false)
    (inSequence : need ≤ s.ctl.mctp.spdm) : spdmRequest need f s = f s := by
  simp only [spdmRequest, spdmBusy_inService run stays, Bool.false_eq_true, if_false, Nat.not_lt.mpr inSequence]

/-- ResponseNotReady (R527). -/
def notReady (s : State) : State := spdmSend s.ctl.mctp.version 0x7F 0x42 0 (leBytes 4 s.draw.1) s.draw.2

theorem spdmRequest_busy {need : Nat} (busy : spdmBusy s = true) : spdmRequest need f s = notReady s := if_pos busy

theorem onWorld_spdm_notReady {need : Nat} (on : s.ctl.power.phase ≠ .off) (busy : spdmBusy s = true) :
    onWorld (onBus (spdmRequest need f)) s = .next (notReady s) :=
  onWorld_onBus on (spdmRequest_busy busy) rfl

theorem onCore_spdm_notReady {need : Nat} (on : s.ctl.power.phase ≠ .off) (busy : spdmBusy s = true) :
    onCore (onBus (spdmRequest need f)) s = .next (notReady s) :=
  onCore_onBus on (spdmRequest_busy busy) rfl rfl

/-- A request that the responder answers in service and in sequence, changing the world alone. -/
theorem onWorld_spdm {need : Nat} (run : s.ctl.power.phase = .run) (stays : s.ctl.power.sitPending = false)
    (inSequence : need ≤ s.ctl.mctp.spdm) (answers : f s = t) (world : OnlyWorld s t) :
    onWorld (onBus (spdmRequest need f)) s = .next t :=
  onWorld_onBus (on_of_run run) ((spdmRequest_inService run stays inSequence).trans answers) world

theorem onCore_spdm {need : Nat} (run : s.ctl.power.phase = .run) (stays : s.ctl.power.sitPending = false)
    (inSequence : need ≤ s.ctl.mctp.spdm) (answers : f s = t) (hp : t.pending = s.pending) (hc : t.cfg = s.cfg) :
    onCore (onBus (spdmRequest need f)) s = .next t :=
  onCore_onBus (on_of_run run) ((spdmRequest_inService run stays inSequence).trans answers) hp hc

/-- The version that GET_CAPABILITIES settles on is one of the two offered. -/
theorem capabilities_version (n : Nat) : 0x12 + n % 2 = 0x12 ∨ 0x12 + n % 2 = 0x13 := by omega

theorem spdmCertificate_slot0 (off len : Nat) (s : State) : spdmCertificate 0 off len s =
    if Config.certChain.length ≤ off then spdmError 0x01 s
    else spdmSend s.ctl.mctp.version 0x02 0 0 (layout [(2, min (min len 0xFFFF) (Config.certChain.length - off)),
      (2, Config.certChain.length - off - min (min len 0xFFFF) (Config.certChain.length - off))] ++
      (Config.certChain.drop off).take (min len 0xFFFF)) s := by
  by_cases past : Config.certChain.length ≤ off
  · simp [spdmCertificate, past]
  · simp [spdmCertificate, past, List.length_take, List.length_drop]

/-- An unsigned answer of one measurement block: the block, and a free nonce after it (R526). -/
theorem spdmMeasurements_one {i : Nat} (low : 1 ≤ i) (high : i ≤ 8) (s : State) : spdmMeasurements i false s =
    spdmSend s.ctl.mctp.version 0x60 0 0 (layout [(1, 1), (3, (measBlock i s).length)] ++ measBlock i s ++ (leBytes 32 s.draw.1 ++ layout [(2, 0)]))
      s.draw.2 := by
  have named : i ≠ 0 := by omega
  have one : i ≠ 0xFF := by omega
  simp [spdmMeasurements, named, one, low, high, nonceOf]

end bus

/-- Settles O9, request by request: with the bus powered each meaning is its own answer. -/
theorem managementBusAnswers : Obligations.ManagementBusAnswers := by
  unfold Obligations.ManagementBusAnswers
  refine ⟨?_, ?_, ?_, ?_⟩
  · intro op eid s on takes low high
    exact onCore_onBus on (by simp only [setEid, takes, low, high, decide_true, Bool.and_self, if_true]; rfl) rfl rfl
  · intro s on
    exact onWorld_onBus on rfl rfl
  · intro typ s on supported
    refine onWorld_onBus on ?_ rfl
    rcases supported with rfl | rfl | rfl <;> rfl
  · intro s on
    exact onWorld_onBus on rfl rfl

/-- Settles O10: in service and in sequence each request is its own answer; while the responder is busy each is ResponseNotReady. -/
theorem spdmExchangeRuns : Obligations.SpdmExchangeRuns := by
  unfold Obligations.SpdmExchangeRuns
  refine ⟨⟨?_, ?_, ?_, ?_, ?_, ?_, ?_⟩, ?_⟩
  · intro s on
    exact onCore_onBus on rfl rfl rfl
  · intro s run stays opened
    exact ⟨spdmCapabilities s, onCore_spdm run stays opened rfl rfl rfl, rfl, capabilities_version _, rfl, rfl⟩
  · intro asym hash s run stays opened asymOffered hashOffered
    exact onCore_spdm run stays opened (by simp only [spdmAlgorithms, asymOffered, hashOffered, Bool.and_self, if_true]; rfl) rfl rfl
  · intro s run stays negotiated
    exact onWorld_spdm run stays negotiated rfl rfl
  · intro off len s run stays negotiated
    exact onWorld_spdm run stays negotiated (spdmCertificate_slot0 off len s) (.ite rfl rfl)
  · intro nonce s run stays negotiated
    refine ⟨leBytes 32 s.draw.1 ++ (layout [(2, 0)] ++ (signature s.draw.2).1), onWorld_spdm run stays negotiated ?_ rfl⟩
    simp only [← List.append_assoc]
    rfl
  · intro i nonce s run stays negotiated low high
    exact ⟨_, onWorld_spdm run stays negotiated (spdmMeasurements_one low high s) rfl⟩
  · rintro c s request on busy
    rcases request with rfl | ⟨a, h, rfl⟩ | rfl | ⟨x, y, z, rfl⟩ | ⟨x, n, rfl⟩ | ⟨i, b, n, rfl⟩
    · exact onCore_spdm_notReady on busy
    · exact onCore_spdm_notReady on busy
    · exact onWorld_spdm_notReady on busy
    · exact onWorld_spdm_notReady on busy
    · exact onWorld_spdm_notReady on busy
    · exact onWorld_spdm_notReady on busy

end Sys2Proof.Machine
end

section
/-! Authorisation records (R473, R535-R538): what a record that passes checks 1 to 5 does, over the sideline and by REINSTATE. -/

namespace Sys2Proof.Machine

open Sys2Proof

section records

variable {kind seq : Nat} {r : Bytes} {s t : State}

/-! ### A record is used up and acknowledged -/

/-- The record's sequence is used up and its event 0x7201 is logged (R536). -/
def recordUsed (kind : Nat) (r : Bytes) (s : State) : State :=
  flt 0x7201 0x09 0xFF 0 (locCause kind 0x09) (s.modSl (fun x => { x with authSeq := fld r 16 8 }))

theorem onlyLog_recordUsed (kind : Nat) (r : Bytes) (s : State) :
    OnlyLog (s.modSl (fun x => { x with authSeq := fld r 16 8 })) (recordUsed kind r s) := onlyLog_flt _ _ _ _ _ _

/-- The record stands among those handled and its acknowledgement of status 0 is sent (R532). -/
def recordAcked (seq : Nat) (s : State) : State :=
  slOnce 0x04 1 (layout [(4, seq), (1, 0), (3, 0)]) (s.modSl (fun x => { x with handled := (seq, 0) :: x.handled }))

theorem onlyLog_recordAcked (seq : Nat) (s : State) :
    OnlyLog (s.modSl (fun x => { x with handled := (seq, 0) :: x.handled })) (recordAcked seq s) := onlyLog_slOnce _ _ _ _

theorem authRun_passes (passes : authFail kind r s = none) : authRun kind r s = authAct kind r (recordUsed kind r s) := by
  simp only [authRun, passes]; rfl

theorem slArrive_new {run : State → Nat × State} (up : s.slUp = true) (new : ∀ e ∈ s.w.sl.handled, e.1 ≠ seq) (acts : run s = (0, t)) :
    slArrive seq run s = recordAcked seq t := by
  have unhandled : s.w.sl.handled.find? (fun e => e.1 == seq) = none :=
    List.find?_eq_none.mpr fun e member => by simpa using new e member
  simp only [slArrive, up, Bool.not_true, Bool.false_eq_true, if_false, unhandled, acts]
  rfl

theorem authArrive_acts (arrives : Claims.arrives kind seq r s) (acts : authAct kind r (recordUsed kind r s) = (0, 0, t)) :
    authArrive kind seq r s = recordAcked seq t := by
  obtain ⟨up, new, passes⟩ := arrives
  exact slArrive_new up new (by simp only [authRun_passes passes, acts])

/-- What an action leaves of the sideline's counts of records, and of the queue. -/
structure KeepsRecords (kind : Nat) (r : Bytes) (s t : State) : Prop where
  authSeq : t.w.sl.authSeq = (recordUsed kind r s).w.sl.authSeq
  handled : t.w.sl.handled = (recordUsed kind r s).w.sl.handled
  pending : t.pending = (recordUsed kind r s).pending

theorem used_recordAcked (keeps : KeepsRecords kind r s t) : Claims.used seq r 0 s (recordAcked seq t) := by
  have acked := onlyLog_recordAcked seq t
  have logged := onlyLog_recordUsed kind r s
  refine ⟨acked.authSeq.trans (keeps.authSeq.trans logged.authSeq), acked.handled.trans ?_, acked.pending.trans (keeps.pending.trans logged.pending)⟩
  exact congrArg ((seq, 0) :: ·) (keeps.handled.trans logged.handled)

/-- An action that changes no setting, acknowledged. -/
theorem exec_auth_onCore (arrives : Claims.arrives kind seq r s) (acts : authAct kind r (recordUsed kind r s) = (0, 0, t))
    (keeps : KeepsRecords kind r s t) (cfg : t.cfg = (recordUsed kind r s).cfg) :
    onCore (authArrive kind seq r) s = .next (recordAcked seq t) ∧ Claims.used seq r 0 s (recordAcked seq t) ∧ (recordAcked seq t).cfg = s.cfg := by
  have used : Claims.used seq r 0 s (recordAcked seq t) := used_recordAcked keeps
  have settings : (recordAcked seq t).cfg = s.cfg := (onlyLog_recordAcked seq t).cfg.trans (cfg.trans (onlyLog_recordUsed kind r s).cfg)
  exact ⟨onCore_of_eq (authArrive_acts arrives acts) used.2.2 settings, used, settings⟩

/-- An action that changes the world alone, acknowledged. -/
theorem exec_auth_onWorld (arrives : Claims.arrives kind seq r s) (acts : authAct kind r (recordUsed kind r s) = (0, 0, t))
    (keeps : KeepsRecords kind r s t) (world : OnlyWorld (recordUsed kind r s) t) :
    onWorld (authArrive kind seq r) s = .next (recordAcked seq t) ∧ Claims.used seq r 0 s (recordAcked seq t) ∧
      (recordAcked seq t).cfg = s.cfg ∧ (recordAcked seq t).ctl = s.ctl := by
  have used : Claims.used seq r 0 s (recordAcked seq t) := used_recordAcked keeps
  have settings : (recordAcked seq t).cfg = s.cfg := (onlyLog_recordAcked seq t).cfg.trans (world.cfg.trans (onlyLog_recordUsed kind r s).cfg)
  have control : (recordAcked seq t).ctl = s.ctl := (onlyLog_recordAcked seq t).ctl.trans (world.ctl.trans (onlyLog_recordUsed kind r s).ctl)
  exact ⟨onWorld_of_eq (authArrive_acts arrives acts) used.2.2 settings control, used, settings, control⟩

theorem recordAcked_ctl (seq : Nat) (s : State) : (recordAcked seq s).ctl = s.ctl := (onlyLog_recordAcked seq s).ctl
theorem recordUsed_ctl (kind : Nat) (r : Bytes) (s : State) : (recordUsed kind r s).ctl = s.ctl := (onlyLog_recordUsed kind r s).ctl

/-! ### What each kind does (R537) -/

theorem KeepsRecords.of_onlyLog {u : State} (h : OnlyLog t u) (keeps : KeepsRecords kind r s t) : KeepsRecords kind r s u :=
  ⟨h.authSeq.trans keeps.authSeq, h.handled.trans keeps.handled, h.pending.trans keeps.pending⟩

/-- The sent-off state ends and a warm reset of cause 9 is due (R473). -/
def reinstated (s : State) : State :=
  event 0x000A 0xFF 0xFFFF 0 0 (flt 0x5502 0xFF 0xFF 0 locNone
    (s.modHealth (fun h => { h with sentOff := false, inWindow := 0, stamps := [], resetDue := 9 })))

theorem onlyLog_reinstated (s : State) :
    OnlyLog (s.modHealth (fun h => { h with sentOff := false, inWindow := 0, stamps := [], resetDue := 9 })) (reinstated s) :=
  (onlyLog_flt _ _ _ _ _ _).trans (onlyLog_event _ _ _ _ _ _)

theorem authAct_reinstate (sentOff : s.ctl.health.sentOff = true) : authAct 1 r s = (0, 0, reinstated s) := by
  simp only [authAct, sentOff]; rfl

theorem authAct_reinstate_inService (serves : s.ctl.health.sentOff = false) : authAct 1 r s = (1, 1, s) := by
  simp only [authAct, serves]; rfl

/-- A cell whose exclusion has ended: a bench cell again, or a retired one (R399). -/
def Cell.readmitted (c : Cell) : Cell := { c with excluded := false, exclGood := 0, state := if c.retired then 3 else 1 }

theorem authAct_endExclusion (excluded : (s.cell (authCell r)).excluded = true) :
    authAct 3 r s = (0, 0, s.modCell (authCell r) Cell.readmitted) := by
  simp only [authAct, excluded]; rfl

theorem authAct_wake (asleep : s.ctl.power.phase = .sitOut) (cool : s.ctl.power.thermSit = false) (unwoken : s.ctl.power.wakePending = 0) :
    authAct 5 r s = (0, 0, s.modPower (fun p => { p with wakePending := 1 })) := by
  simp [authAct, wake, inSitOut, State.power, State.modPower, asleep, cool, unwoken]

theorem authAct_enrol (new : s.w.sl.fleetKey ≠ some (beNum ((r.drop 64).take 48), beNum ((r.drop 112).take 48))) : authAct 6 r s =
    (0, 0, flt0 0x7301 0x09 0xFF 0 (s.modSl (fun x => { x with fleetKey := some (beNum ((r.drop 64).take 48), beNum ((r.drop 112).take 48)) }))) := by
  simp [authAct, new]

theorem authAct_provision (unprovisioned : s.w.sl.prov = false) : authAct 7 r s = (0, 0, provision r s) := by
  have other : sameProvision r s = false := by simp [sameProvision, unprovisioned]
  simp only [authAct, other]; rfl

theorem authAct_sendOff (serves : s.ctl.health.sentOff = false) : authAct 8 r s = (0, 0, sendOff s.ctl.health.inWindow s) := by
  simp only [authAct, serves]; rfl

theorem bit_setBit_self (n i : Nat) : bit (setBit n i true) i = true := by
  by_cases standing : bit n i = true
  · simp [setBit, standing]
  · have clear : (n / 2 ^ i) % 2 = 0 := by simp [bit, Nat.shiftRight_eq_div_pow] at standing; exact standing
    rw [setBit, if_neg standing, if_pos rfl, bit, Nat.shiftRight_eq_div_pow, Nat.add_div_right _ (Nat.two_pow_pos i)]
    simp [Nat.add_mod, clear]

/-- The injector is enabled or left as it was: nothing else of the control state changes (R62). -/
theorem enableInjector_cases (s : State) : enableInjector s = s ∨ enableInjector s = s.setUnits (setBit s.ctl.unitEn 0x0A true) := by
  unfold enableInjector; split
  · exact .inr rfl
  · exact .inl rfl

theorem unitOn_enableInjector (run : s.ctl.power.phase = .run) (booted : s.ctl.ident.failed = false) (serves : s.ctl.health.sentOff = false) :
    (enableInjector s).unitOn 0x0A = true := by
  have enables : enableInjector s = s.setUnits (setBit s.ctl.unitEn 0x0A true) := by
    simp [enableInjector, running, State.power, run, booted, serves]
  rw [enables]; exact bit_setBit_self _ _

theorem keepsRecords_enableInjector (keeps : KeepsRecords kind r s t) : KeepsRecords kind r s (enableInjector t) := by
  rcases enableInjector_cases t with same | set
  · rwa [same]
  · rw [set]; exact ⟨keeps.authSeq, keeps.handled, keeps.pending⟩

theorem enableInjector_w (s : State) : (enableInjector s).w = s.w := by
  rcases enableInjector_cases s with same | set
  · rw [same]
  · rw [set]; rfl

theorem enableInjector_cfg (s : State) : (enableInjector s).cfg = s.cfg := by
  rcases enableInjector_cases s with same | set
  · rw [same]
  · rw [set]; rfl

/-- The module is sent off with every link off or down: nothing goes down with it (R472). -/
theorem sendOff_no_link (count : Nat) (down : ∀ l < 24, (s.link l).state = 0 ∨ (s.link l).state = 4) :
    ∃ u, OnlyLog (s.modHealth (fun h => { h with sentOff := true })) u ∧
      sendOff count s = u.setUnits (if u.ctl.unitEn = 0 then 0 else sentOffUnits) := by
  have logged : OnlyLog (s.modHealth (fun h => { h with sentOff := true }))
      (event 0x0009 0xFF 0xFFFF 0 (count % 256) (flt0 0x5501 0xFF 0xFF 0 (s.modHealth (fun h => { h with sentOff := true })))) :=
    (onlyLog_flt _ _ _ _ _ _).trans (onlyLog_event _ _ _ _ _ _)
  refine ⟨_, logged, ?_⟩
  have none : ∀ u : State, OnlyLog (s.modHealth (fun h => { h with sentOff := true })) u →
      (List.range 24).filter (fun l => let k := (u.link l).state; k != 0 && k != 4) = [] := by
    intro u h
    refine List.filter_eq_nil_iff.mpr fun l member => ?_
    have idle := down l (List.mem_range.mp member)
    rw [show u.link l = s.link l from h.link l]
    rcases idle with off | down <;> simp [*]
  simp only [sendOff, none _ logged]
  rfl

end records

/-- Settles O6, kind by kind: each action keeps the sequence used up, and its record is acknowledged with status 0. -/
theorem authorisationRecordsAct : Obligations.AuthorisationRecordsAct := by
  unfold Obligations.AuthorisationRecordsAct
  refine ⟨?_, ?_, ?_, ?_, ?_, ?_, ?_, ?_⟩
  · intro seq r s arrives sentOff
    have control := recordUsed_ctl 1 r s
    have acts := onlyLog_reinstated (recordUsed 1 r s)
    have keeps : KeepsRecords 1 r s (reinstated (recordUsed 1 r s)) := .of_onlyLog acts ⟨rfl, rfl, rfl⟩
    obtain ⟨runs, used, settings⟩ := exec_auth_onCore arrives (authAct_reinstate (by rw [control]; exact sentOff)) keeps acts.cfg
    refine ⟨_, runs, used, settings, ?_⟩
    rw [recordAcked_ctl, acts.ctl, State.modHealth_ctl_health, control]
  · intro seq r s arrives
    have control := recordUsed_ctl 2 r s
    have keeps : KeepsRecords 2 r s (enableInjector ((recordUsed 2 r s).modSl (fun x => { x with foulAuth := true, foulLeftS := fld r 24 4 }))) :=
      keepsRecords_enableInjector ⟨rfl, rfl, rfl⟩
    obtain ⟨runs, used, settings⟩ := exec_auth_onCore arrives rfl keeps (enableInjector_cfg _)
    have acked := onlyLog_recordAcked seq (enableInjector ((recordUsed 2 r s).modSl (fun x => { x with foulAuth := true, foulLeftS := fld r 24 4 })))
    refine ⟨_, runs, used, settings, acked.foulAuth.trans ?_, acked.foulLeftS.trans ?_, fun run booted serves => ?_⟩
    · exact congrArg (fun w : World => w.sl.foulAuth) (enableInjector_w _)
    · exact congrArg (fun w : World => w.sl.foulLeftS) (enableInjector_w _)
    · rw [State.unitOn, recordAcked_ctl]
      exact unitOn_enableInjector (by rw [State.modSl_ctl, control]; exact run) (by rw [State.modSl_ctl, control]; exact booted)
        (by rw [State.modSl_ctl, control]; exact serves)
  · intro seq r s arrives rising excluded
    have logged := onlyLog_recordUsed 3 r s
    have cellsOf : (recordUsed 3 r s).w.cells = s.w.cells := logged.cells
    have cellOf : ∀ k, (recordUsed 3 r s).cell k = s.cell k := logged.cell
    obtain ⟨runs, used, settings, control⟩ := exec_auth_onWorld arrives (authAct_endExclusion (by rw [cellOf]; exact excluded)) ⟨rfl, rfl, rfl⟩ rfl
    have ends : (recordAcked seq ((recordUsed 3 r s).modCell (authCell r) Cell.readmitted)).cell (authCell r) =
        ((recordUsed 3 r s).cell (authCell r)).readmitted :=
      ((onlyLog_recordAcked seq _).cell _).trans (cell_modCell_self (authCell r) _ (by rw [cellsOf]; exact rising))
    exact ⟨_, runs, used, settings, control, congrArg Cell.excluded ends, congrArg Cell.exclGood ends⟩
  · intro seq r s arrives
    obtain ⟨runs, used, settings⟩ := exec_auth_onCore arrives rfl ⟨rfl, rfl, rfl⟩ rfl
    refine ⟨_, runs, used, settings, ?_⟩
    rw [recordAcked_ctl, State.modHealth_ctl_health, recordUsed_ctl]
  · intro seq r s arrives asleep cool unwoken
    have control := recordUsed_ctl 5 r s
    obtain ⟨runs, used, settings⟩ := exec_auth_onCore arrives
      (authAct_wake (by rw [control]; exact asleep) (by rw [control]; exact cool) (by rw [control]; exact unwoken)) ⟨rfl, rfl, rfl⟩ rfl
    refine ⟨_, runs, used, settings, ?_⟩
    rw [recordAcked_ctl, State.modPower_ctl_power, control]
  · intro seq r s arrives new
    have logged := onlyLog_recordUsed 6 r s
    have enrols := onlyLog_flt 0x7301 0x09 0xFF 0 locNone ((recordUsed 6 r s).modSl (fun x => { x with
      fleetKey := some (beNum ((r.drop 64).take 48), beNum ((r.drop 112).take 48)) }))
    obtain ⟨runs, used, settings, control⟩ := exec_auth_onWorld arrives (authAct_enrol (by rw [logged.fleetKey]; exact new))
      (.of_onlyLog enrols ⟨rfl, rfl, rfl⟩) (OnlyWorld.trans (OnlyWorld.onW _ _) enrols.world)
    exact ⟨_, runs, used, settings, control, (onlyLog_recordAcked seq _).fleetKey.trans enrols.fleetKey⟩
  · intro seq r s arrives unprovisioned
    have logged := onlyLog_recordUsed 7 r s
    have acts : authAct 7 r (recordUsed 7 r s) = (0, 0, provision r (recordUsed 7 r s)) :=
      authAct_provision (by rw [logged.prov]; exact unprovisioned)
    have keeps : KeepsRecords 7 r s (provision r (recordUsed 7 r s)) := by
      refine ⟨?_, ?_, rfl⟩ <;> simp only [provision, State.modSl_w_sl] <;> split <;> (try split) <;> rfl
    have acked := onlyLog_recordAcked seq (provision r (recordUsed 7 r s))
    have used : Claims.used seq r 0 s _ := used_recordAcked (seq := seq) keeps
    refine ⟨_, onAll_of_eq (authArrive_acts arrives acts) used.2.2, used, acked.ctl.trans logged.ctl, acked.cfg.trans ?_,
      acked.prov.trans rfl, acked.coll.trans rfl, acked.port.trans rfl⟩
    rw [← show (recordUsed 7 r s).cfg = s.cfg from logged.cfg]
    rfl
  · intro seq r s arrives serves down
    have logged := onlyLog_recordUsed 8 r s
    have control := recordUsed_ctl 8 r s
    obtain ⟨u, sent, sends⟩ := sendOff_no_link (s := recordUsed 8 r s) (recordUsed 8 r s).ctl.health.inWindow
      (fun l low => by rw [logged.link]; exact down l low)
    have acts : authAct 8 r (recordUsed 8 r s) = (0, 0, u.setUnits (if u.ctl.unitEn = 0 then 0 else sentOffUnits)) := by
      rw [authAct_sendOff (by rw [control]; exact serves), sends]
    have keeps : KeepsRecords 8 r s u := .of_onlyLog sent ⟨rfl, rfl, rfl⟩
    obtain ⟨runs, used, settings⟩ := exec_auth_onCore arrives acts ⟨keeps.authSeq, keeps.handled, keeps.pending⟩ sent.cfg
    refine ⟨_, runs, used, settings, ?_, ?_⟩
    · rw [recordAcked_ctl, State.setUnits_ctl_health, sent.ctl, State.modHealth_ctl_health, control]
    · rw [recordAcked_ctl, State.setUnits_ctl_unitEn, sent.ctl, State.modHealth_ctl_unitEn, control]
      rfl

/-! ### REINSTATE (R473) -/

section reinstate

variable {h : Hdr} {addr : Nat} {r : Bytes} {s s1 : State} {st d : Nat}

theorem exec_reinstate (ready : Ready 0x0804 h s) (hostJob : h.job = 0xFFFF) (there : s.hostOk addr 256 = true)
    (clean : s.hostBad addr 256 = false) (record : r = mread s.w.host addr 256) (runs : authRun 1 r (counted h s) = (st, d, s1))
    (hp : s1.pending = s.pending) (hc : s1.cfg = s.cfg) :
    exec (.reinstate h addr 256) s = .next (finish 0x0804 h s st d 0xFF [] s1) := by
  have read : pktRead (counted h s) h.job addr 256 = .ok r := by
    have there' : (counted h s).hostOk addr 256 = true := there
    have clean' : (counted h s).hostBad addr 256 = false := clean
    simp only [pktRead, hostJob, if_true, busRead, there', clean', Bool.not_true, Bool.false_eq_true, if_false, record]
    rfl
  have own : reinstateOwn h addr 256 (counted h s) = failC s1 st d := (withRead_ok read).trans (by rw [runs])
  exact onCore_done ready own hp hc

theorem authFail_status (fails : authFail 1 r s = some (st, d)) : (∃ o, st = 0x11 ∧ d = 2 ^ 31 + o) ∨ (st = 0xA0 ∧ d = 0) := by
  unfold authFail at fails
  split at fails
  · next o _ => cases fails; exact .inl ⟨o, rfl, rfl⟩
  · split at fails
    · cases fails
    · cases fails; exact .inr ⟨rfl, rfl⟩

theorem authRun_fails (fails : authFail 1 r s = some (st, d)) : authRun 1 r s = (st, d, flt 0x7202 0x09 0xFF 0 (locCause st 0x09) s) := by
  simp only [authRun, fails]

end reinstate

/-- Settles O7: the record's own run decides the status, and REINSTATE replies with it. -/
theorem reinstateByCommand : Obligations.ReinstateByCommand := by
  unfold Obligations.ReinstateByCommand
  intro h addr r s ready hostJob there clean record
  have logged := onlyLog_recordUsed 1 r (counted h s)
  refine ⟨fun st d fails => ?_, fun passes => ⟨fun serves => ?_, fun sentOff => ?_⟩, fun st d => authFail_status⟩
  · have refused := onlyLog_flt 0x7202 0x09 0xFF 0 (locCause st 0x09) (counted h s)
    exact exec_reinstate ready hostJob there clean record (authRun_fails fails) refused.pending refused.cfg
  · refine exec_reinstate ready hostJob there clean record ((authRun_passes passes).trans ?_) logged.pending logged.cfg
    exact authAct_reinstate_inService (by rw [recordUsed_ctl]; exact serves)
  · have acts := onlyLog_reinstated (recordUsed 1 r (counted h s))
    refine exec_reinstate ready hostJob there clean record ((authRun_passes passes).trans ?_) (acts.pending.trans logged.pending)
      (acts.cfg.trans logged.cfg)
    exact authAct_reinstate (by rw [recordUsed_ctl]; exact sentOff)

end Sys2Proof.Machine
end

section
/-! The network as links go down and up again (R334, R337, R342, R348): what is written of the links and the ports, and what stands. -/

namespace Sys2Proof.Machine

open Sys2Proof

variable {s t u : State}

/-- `t` differs from `s` at most in what reporting writes, in the links and in the ports. -/
def OnlyNet (s t : State) : Prop :=
  t = { s with w := { s.w with
    flog := t.w.flog, sl := { s.w.sl with nextSeq := t.w.sl.nextSeq, held := t.w.sl.held, sent := t.w.sl.sent, dropped := t.w.sl.dropped }
    ev := { s.w.ev with en := t.w.ev.en, err := t.w.ev.err, tail := t.w.ev.tail, lost := t.w.ev.lost }
    msix := t.w.msix, out := t.w.out, host := t.w.host, last60 := t.w.last60, xings := t.w.xings
    lk := t.w.lk, topo := { s.w.topo with ports := t.w.topo.ports } } }

namespace OnlyNet

theorem refl (s : State) : OnlyNet s s := rfl

theorem trans (h : OnlyNet s t) (k : OnlyNet t u) : OnlyNet s u := by
  unfold OnlyNet at *
  rw [k, h]

theorem ite {p : Prop} [Decidable p] (h : OnlyNet s t) (k : OnlyNet s u) : OnlyNet s (if p then t else u) := by
  split
  · exact h
  · exact k

theorem of_onlyLog (h : OnlyLog s t) : OnlyNet s t := by
  unfold OnlyNet; unfold OnlyLog at h; rw [h]

theorem forAll {α : Type} {l : List α} {f : α → State → State} (hf : ∀ x s, OnlyNet s (f x s)) (s : State) : OnlyNet s (forAll l f s) := by
  unfold Machine.forAll
  induction l generalizing s with
  | nil => exact refl s
  | cons x r ih => exact (hf x s).trans (ih _)

theorem modLink (s : State) (l : Nat) (f : Lk → Lk) : OnlyNet s (s.modLink l f) := rfl

theorem setPorts (s : State) (f : World → Tab Port) : OnlyNet s (s.onW (fun w => { w with topo := { w.topo with ports := f w } })) := rfl

theorem world (h : OnlyNet s t) : OnlyWorld s t := by
  unfold OnlyWorld; unfold OnlyNet at h; rw [h]

theorem cfg (h : OnlyNet s t) : t.cfg = s.cfg := h.world.cfg
theorem ctl (h : OnlyNet s t) : t.ctl = s.ctl := h.world.ctl
theorem pending (h : OnlyNet s t) : t.pending = s.pending := h.world.pending
theorem jobs (h : OnlyNet s t) : t.w.jobs = s.w.jobs := by rw [h]
theorem inflight (h : OnlyNet s t) : t.w.inflight = s.w.inflight := by rw [h]
theorem msgs (h : OnlyNet s t) : t.w.msgs = s.w.msgs := by rw [h]
theorem mr (h : OnlyNet s t) : t.w.mr = s.w.mr := by rw [h]
theorem lost (h : OnlyNet s t) : t.w.topo.lost = s.w.topo.lost := by rw [h]
theorem subs (h : OnlyNet s t) : t.w.topo.subs = s.w.topo.subs := by rw [h]
theorem jobPlan (h : OnlyNet s t) : t.w.topo.jobPlan = s.w.topo.jobPlan := by rw [h]
theorem plan (h : OnlyNet s t) : t.w.topo.plan = s.w.topo.plan := by rw [h]
theorem node (h : OnlyNet s t) : t.w.topo.node = s.w.topo.node := by rw [h]
theorem holder (h : OnlyNet s t) : t.w.holder = s.w.holder := by rw [h]

end OnlyNet

/-- A report from a state that has written links or ports. -/
theorem onlyNet_flt (cls unit job step : Nat) (loc : Loc) (s : State) : OnlyNet s (flt cls unit job step loc s) :=
  .of_onlyLog (onlyLog_flt _ _ _ _ _ _)

/-- One port is written, with a report or without. -/
theorem onlyNet_flt_setPorts (cls unit job step : Nat) (loc : Loc) (s : State) (f : World → Tab Port) :
    OnlyNet s (flt cls unit job step loc (s.onW (fun w => { w with topo := { w.topo with ports := f w } }))) :=
  (OnlyNet.setPorts s f).trans (onlyNet_flt _ _ _ _ _ _)

/-! ### The ports follow the links (R337, R348): of the links they write the port number alone -/

/-- What refreshing the ports leaves of the links: all of each but the port that groups it. -/
structure OnlyPorts (s t : State) : Prop where
  net : OnlyNet s t
  rising : Claims.rising s.w.lk → Claims.rising t.w.lk
  link : Claims.rising s.w.lk → ∀ l, t.link l = { s.link l with port := (t.link l).port }

namespace OnlyPorts

theorem of_lk (net : OnlyNet s t) (same : t.w.lk = s.w.lk) : OnlyPorts s t where
  net := net
  rising h := by rw [same]; exact h
  link _ l := by simp only [State.link, same]

theorem refl (s : State) : OnlyPorts s s := of_lk (.refl s) rfl

theorem trans (h : OnlyPorts s t) (k : OnlyPorts t u) : OnlyPorts s u where
  net := h.net.trans k.net
  rising r := k.rising (h.rising r)
  link r l := by rw [k.link (h.rising r) l, h.link r l]

theorem ite {p : Prop} [Decidable p] (h : OnlyPorts s t) (k : OnlyPorts s u) : OnlyPorts s (if p then t else u) := by
  split
  · exact h
  · exact k

theorem forAll {α : Type} {l : List α} {f : α → State → State} (hf : ∀ x s, OnlyPorts s (f x s)) (s : State) : OnlyPorts s (forAll l f s) := by
  unfold Machine.forAll
  induction l generalizing s with
  | nil => exact refl s
  | cons x r ih => exact (hf x s).trans (ih _)

theorem of_onlyLog (h : OnlyLog s t) : OnlyPorts s t := of_lk (.of_onlyLog h) h.lk

theorem setPorts (s : State) (f : World → Tab Port) : OnlyPorts s (s.onW (fun w => { w with topo := { w.topo with ports := f w } })) :=
  of_lk (.setPorts s f) rfl

theorem flt_setPorts (cls unit job step : Nat) (loc : Loc) (s : State) (f : World → Tab Port) :
    OnlyPorts s (flt cls unit job step loc (s.onW (fun w => { w with topo := { w.topo with ports := f w } }))) :=
  (setPorts s f).trans (of_onlyLog (onlyLog_flt _ _ _ _ _ _))

end OnlyPorts

theorem link_modLink_ne {l k : Nat} (f : Lk → Lk) (s : State) (h : k ≠ l) : (s.modLink l f).link k = s.link k := tget_tput_ne _ _ _ h

theorem link_modLink_self (l : Nat) (f : Lk → Lk) (rising : Claims.rising s.w.lk) : (s.modLink l f).link l = f (s.link l) :=
  tget_tput_rising _ _ _ _ rising

theorem rising_modLink (l : Nat) (f : Lk → Lk) (rising : Claims.rising s.w.lk) : Claims.rising (s.modLink l f).w.lk :=
  rising_tput _ _ _ _ rising

/-- A link's port number is written. -/
theorem onlyPorts_setPort (l : Nat) (p : Nat) (s : State) : OnlyPorts s (s.modLink l (fun k => { k with port := p })) where
  net := rfl
  rising := rising_modLink l _
  link rising k := by
    by_cases same : k = l
    · subst same; rw [link_modLink_self k _ rising]
    · rw [link_modLink_ne _ s same]

theorem onlyPorts_refreshPorts (s : State) : OnlyPorts s (refreshPorts s) := by
  unfold refreshPorts
  refine (OnlyPorts.forAll (fun k s => ?_) s).trans (OnlyPorts.forAll (fun l s => onlyPorts_setPort l _ s) _)
  exact .ite (.flt_setPorts _ _ _ _ _ s _) (.ite (.flt_setPorts _ _ _ _ _ s _) (.setPorts s _))

theorem onlyPorts_refreshDetours (s : State) : OnlyPorts s (refreshDetours s) := by
  unfold refreshDetours
  refine OnlyPorts.forAll (fun k s => .ite (.refl s) (.ite ?_ (.ite (.flt_setPorts _ _ _ _ _ s _) (.refl s)))) s
  split
  · exact .ite (.refl s) (.flt_setPorts _ _ _ _ _ s _)
  · exact .refl s

theorem onlyPorts_relink (s : State) : OnlyPorts s (relink s) := (onlyPorts_refreshPorts s).trans (onlyPorts_refreshDetours _)

/-! ### A link goes down (R334) -/

/-- A link that has gone down: its queues are empty and the times of its last hour stand. -/
def Lk.downed (downs : List Nat) (k : Lk) : Lk :=
  { k with
    state := 4, lock := false, judged := false, replay := [], txq := [], rx := [], rxBad := false, badRun := [0, 0, 0, 0]
    txSeq := 0, rxSeq := 0xFFF, vc := [], lastVc := [], waited := [], swap := none, downs := downs }

/-- The times at which a link has gone down in the last hour, with now. -/
def downTimes (s : State) (l : Nat) : List Nat := s.now :: (s.link l).downs.filter (fun t => decide (s.now < t + 3600000000000))

/-- What a link that goes down leaves: itself down, every other link as it was but for its port. -/
theorem linkDown_onlyPorts (l cause : Nat) (s : State) : OnlyPorts (s.modLink l (Lk.downed (downTimes s l))) (linkDown l cause s) := by
  unfold linkDown
  exact (OnlyPorts.trans (.of_onlyLog (onlyLog_flt _ _ _ _ _ _)) (.ite (.of_onlyLog (onlyLog_benchAdvice _ _ _)) (.refl _))).trans
    (onlyPorts_relink _)

theorem onlyNet_linkDown (l cause : Nat) (s : State) : OnlyNet s (linkDown l cause s) :=
  (OnlyNet.modLink s l _).trans (linkDown_onlyPorts l cause s).net

theorem OnlyPorts.link_eq (h : OnlyPorts s t) (rising : Claims.rising s.w.lk) {l : Nat} {k : Lk} (stands : s.link l = k) :
    ∃ p, t.link l = { k with port := p } := ⟨_, stands ▸ h.link rising l⟩

theorem link_linkDown_self (l cause : Nat) (rising : Claims.rising s.w.lk) :
    ∃ p, (linkDown l cause s).link l = { (s.link l).downed (downTimes s l) with port := p } :=
  (linkDown_onlyPorts l cause s).link_eq (rising_modLink l _ rising) (link_modLink_self l _ rising)

theorem link_linkDown_ne {l k : Nat} (cause : Nat) (rising : Claims.rising s.w.lk) (h : k ≠ l) :
    ∃ p, (linkDown l cause s).link k = { s.link k with port := p } :=
  (linkDown_onlyPorts l cause s).link_eq (rising_modLink l _ rising) (link_modLink_ne _ s h)

theorem rising_linkDown (l cause : Nat) (rising : Claims.rising s.w.lk) : Claims.rising (linkDown l cause s).w.lk :=
  (linkDown_onlyPorts l cause s).rising (rising_modLink l _ rising)

/-! ### Links wake, and a plan has changed (R334, R342) -/

theorem onlyNet_wakeLinks (s : State) : OnlyNet s (wakeLinks s) := .forAll (fun l s => .ite (.modLink s l _) (.refl s)) s

theorem onlyNet_replan (s : State) : OnlyNet s (replan s) := by
  unfold replan
  refine ((OnlyNet.forAll (fun l s => ?_) s).trans (onlyNet_wakeLinks _)).trans (onlyPorts_relink _).net
  exact .ite ((OnlyNet.modLink s l _).trans (onlyNet_flt _ _ _ _ _ _)) (.refl s)

end Sys2Proof.Machine
end

section
/-! Rails off, warm resets and the watchdogs (R459-R463, R469, R507): what a reset keeps of the control state and the world, past what
boot and bringing the units up write. -/

namespace Sys2Proof.Machine

open Sys2Proof

section rails

variable {s : State}

theorem exec_railsOff {c : Instr} (trips : c = .pwrEnLow ∨ c = .underVoltage ∨ c = .overVoltage) (on : s.ctl.power.phase ≠ .off) :
    ∃ cls, exec c s = .next (railsOff (flt cls 0xFF 0xFF 0 locNone s)) := by
  have drops : ∀ cls, onAll (inputTrip cls) s = .next (railsOff (flt cls 0xFF 0xFF 0 locNone s)) := fun cls =>
    onAll_of_eq (inputTrip_powered cls on) (railsOff_flt_pending cls 0xFF 0xFF 0 locNone s)
  rcases trips with rfl | rfl | rfl
  · exact ⟨0x4303, drops _⟩
  · exact ⟨0x4303, drops _⟩
  · exact ⟨0x4304, drops _⟩

theorem coldSl_fleetKey (x : Sl) : (coldSl x).fleetKey = x.fleetKey := by unfold coldSl; split <;> rfl
theorem coldSl_authSeq (x : Sl) : (coldSl x).authSeq = x.authSeq := by unfold coldSl; split <;> rfl

theorem length_coldFlog (f : Flog) : (coldFlog f).recs.length ≤ 256 := by
  simp [coldFlog, List.length_take]

theorem old_of_mem_coldFlog {f : Flog} {r : FRec} (member : r ∈ (coldFlog f).recs) : r.old = true := by
  simp only [coldFlog, List.mem_map] at member
  obtain ⟨p, _, rfl⟩ := member
  rfl

theorem cells_railsOff (s : State) : (railsOff s).w.cells =
    (s.w.cells.filter (fun e => e.2.retired)).map (fun e => (e.1, { cellDefault e.1 with retired := true })) := rfl

end rails

/-- Settles O12: the rails drop from the logged state, and each part of what is left is read off it. -/
theorem railsOffKeepsTheKeepStore : Obligations.RailsOffKeepsTheKeepStore := by
  unfold Obligations.RailsOffKeepsTheKeepStore
  intro c s trips on
  obtain ⟨cls, drops⟩ := exec_railsOff trips on
  have log := onlyLog_flt cls 0xFF 0xFF 0 locNone s
  have ident : (railsOff (flt cls 0xFF 0xFF 0 locNone s)).ctl.ident =
      { s.ctl.ident with fwVer := 0, svn := 0, slot := false, fallback := false, failed := false } := by rw [← log.ctl]; rfl
  have health : (railsOff (flt cls 0xFF 0xFF 0 locNone s)).ctl.health = {
      warmTotal := s.ctl.health.warmTotal, inWindow := s.ctl.health.inWindow, sentOff := s.ctl.health.sentOff
      stamps := s.ctl.health.stamps.map (fun t => t - ((flt cls 0xFF 0xFF 0 locNone s).now : Int)) } := by rw [← log.ctl]; rfl
  refine ⟨_, drops, rfl, rfl, rfl, rfl, rfl, rfl, rfl, rfl, rfl, rfl, rfl, rfl, rfl, ?_, ?_, ?_, ?_, ?_, ?_, ?_, ?_, length_coldFlog _,
    fun r => old_of_mem_coldFlog, fun e member => ?_, fun e member retired => ?_⟩
  · rw [ident]
  · rw [ident]
  · rw [ident]
  · rw [ident]
  · rw [health]
  · rw [health]
  · exact (coldSl_fleetKey _).trans log.fleetKey
  · exact (coldSl_authSeq _).trans log.authSeq
  · rw [cells_railsOff, List.mem_map] at member
    obtain ⟨x, _, rfl⟩ := member
    rfl
  · rw [cells_railsOff, log.cells]
    exact ⟨_, List.mem_map.mpr ⟨e, List.mem_filter.mpr ⟨member, retired⟩, rfl⟩, rfl, rfl⟩

/-! ### A warm reset (R460, R461) -/

section warm

variable {s t u : State}

/-- What comes after the reset proper — the log, boot, a send-off, the units — leaves of the state that the reset has made. -/
structure KeepsReset (s t : State) : Prop where
  pending : t.pending = s.pending
  surv : t.ctl.surv = s.ctl.surv
  clk : t.ctl.clk = s.ctl.clk
  mctp : t.ctl.mctp = s.ctl.mctp
  health : t.ctl.health = { s.ctl.health with sentOff := t.ctl.health.sentOff, alive := t.ctl.health.alive }
  dev : t.w.dev = s.w.dev
  queues : t.w.queues = s.w.queues
  mmu : t.w.mmu = s.w.mmu
  dma : t.w.dma = s.w.dma
  inflight : t.w.inflight = s.w.inflight
  waits : t.w.waits = s.w.waits
  apWait : t.w.apWait = s.w.apWait

namespace KeepsReset

theorem refl (s : State) : KeepsReset s s := ⟨rfl, rfl, rfl, rfl, rfl, rfl, rfl, rfl, rfl, rfl, rfl, rfl⟩

theorem trans (h : KeepsReset s t) (k : KeepsReset t u) : KeepsReset s u where
  pending := k.pending.trans h.pending
  surv := k.surv.trans h.surv
  clk := k.clk.trans h.clk
  mctp := k.mctp.trans h.mctp
  health := by rw [k.health, h.health]
  dev := k.dev.trans h.dev
  queues := k.queues.trans h.queues
  mmu := k.mmu.trans h.mmu
  dma := k.dma.trans h.dma
  inflight := k.inflight.trans h.inflight
  waits := k.waits.trans h.waits
  apWait := k.apWait.trans h.apWait

theorem ite {p : Prop} [Decidable p] (h : KeepsReset s t) (k : KeepsReset s u) : KeepsReset s (if p then t else u) := by
  split
  · exact h
  · exact k

theorem of_onlyNet (h : OnlyNet s t) : KeepsReset s t := by
  constructor <;> rw [h]

theorem of_onlyLog (h : OnlyLog s t) : KeepsReset s t := .of_onlyNet (.of_onlyLog h)

theorem modIdent (s : State) (f : Ident → Ident) : KeepsReset s (s.modIdent f) := ⟨rfl, rfl, rfl, rfl, rfl, rfl, rfl, rfl, rfl, rfl, rfl, rfl⟩
theorem modPower (s : State) (f : Power → Power) : KeepsReset s (s.modPower f) := ⟨rfl, rfl, rfl, rfl, rfl, rfl, rfl, rfl, rfl, rfl, rfl, rfl⟩
theorem setUnits (s : State) (v : Nat) : KeepsReset s (s.setUnits v) := ⟨rfl, rfl, rfl, rfl, rfl, rfl, rfl, rfl, rfl, rfl, rfl, rfl⟩
theorem setCfg (s : State) (c : Cfg) : KeepsReset s { s with cfg := c } := ⟨rfl, rfl, rfl, rfl, rfl, rfl, rfl, rfl, rfl, rfl, rfl, rfl⟩

theorem flt (cls unit job step : Nat) (loc : Loc) (s : State) : KeepsReset s (flt cls unit job step loc s) := .of_onlyLog (onlyLog_flt _ _ _ _ _ _)

end KeepsReset

theorem keepsReset_startImage (slot fallback : Bool) (s : State) : KeepsReset s (startImage slot fallback s) := by
  unfold startImage
  exact .ite ((((KeepsReset.modIdent s _).trans (.flt _ _ _ _ _ _)).trans (.modIdent _ _)).trans (.flt _ _ _ _ _ _))
    ((KeepsReset.modIdent s _).trans (.flt _ _ _ _ _ _))

theorem keepsReset_boot (s : State) : KeepsReset s (boot s) := by
  unfold boot
  exact .ite (keepsReset_startImage _ _ s)
    (.ite ((KeepsReset.flt _ _ _ _ _ s).trans (keepsReset_startImage _ _ _)) ((KeepsReset.modIdent s _).trans (.flt _ _ _ _ _ _)))

theorem onlyLog_resendRecords (s : State) : OnlyLog s (resendRecords s) := by
  unfold resendRecords forAll
  generalize (s.w.flog.recs.filter _).reverse = l
  induction l generalizing s with
  | nil => exact .refl s
  | cons r l ih => exact (onlyLog_slSend _ _ _ _ s).trans (ih _)

theorem keepsReset_sendOff (count : Nat) (s : State) : KeepsReset s (sendOff count s) := by
  have off : KeepsReset s (s.modHealth (fun h => { h with sentOff := true })) := ⟨rfl, rfl, rfl, rfl, rfl, rfl, rfl, rfl, rfl, rfl, rfl, rfl⟩
  unfold sendOff
  exact (((off.trans (.flt _ _ _ _ _ _)).trans (.of_onlyLog (onlyLog_event _ _ _ _ _ _))).trans
    (.of_onlyNet (.forAll (fun l s => onlyNet_linkDown l 7 s) _))).trans (.setUnits _ _)

theorem keepsReset_unitsUp (s : State) : KeepsReset s (unitsUp s) := by
  unfold unitsUp
  refine .ite ((KeepsReset.setUnits s 0).trans (.modPower _ _)) (.ite ?_ ?_)
  all_goals exact ⟨rfl, rfl, rfl, rfl, rfl, rfl, rfl, rfl, rfl, rfl, rfl, rfl⟩

/-- Before the reset proper the log is written and foul mode ends: what the reset keeps stands, but for the mark of fresh stale lines. -/
structure ReadyForReset (s t : State) : Prop where
  pending : t.pending = s.pending
  cfg : t.cfg = s.cfg
  clk : t.ctl.clk = s.ctl.clk
  prov : t.w.sl.prov = s.w.sl.prov
  dev : t.w.dev = s.w.dev

theorem ReadyForReset.trans (h : ReadyForReset s t) (k : ReadyForReset t u) : ReadyForReset s u :=
  ⟨k.pending.trans h.pending, k.cfg.trans h.cfg, k.clk.trans h.clk, k.prov.trans h.prov, k.dev.trans h.dev⟩

theorem ReadyForReset.ite {p : Prop} [Decidable p] (h : ReadyForReset s t) (k : ReadyForReset s u) : ReadyForReset s (if p then t else u) := by
  split
  · exact h
  · exact k

theorem readyForReset_of_onlyLog (h : OnlyLog s t) : ReadyForReset s t := by
  constructor <;> rw [h]

theorem ReadyForReset.onW {f : World → World} (s : State) (prov : (f s.w).sl.prov = s.w.sl.prov := by rfl) (dev : (f s.w).dev = s.w.dev := by rfl) :
    ReadyForReset s (s.onW f) := ⟨rfl, rfl, rfl, prov, dev⟩

theorem readyForReset_flt0 (cls unit job step : Nat) (s : State) : ReadyForReset s (flt0 cls unit job step s) :=
  readyForReset_of_onlyLog (onlyLog_flt _ _ _ _ _ _)

theorem readyForReset_disarmFoul (s : State) : ReadyForReset s (disarmFoul s) := by
  unfold disarmFoul
  exact .ite (readyForReset_of_onlyLog (.refl s)) ((ReadyForReset.onW s).trans (readyForReset_flt0 _ _ _ _ _))

theorem readyForReset_endFoulAuth (s : State) : ReadyForReset s (endFoulAuth s) := by
  unfold endFoulAuth
  exact .ite (readyForReset_of_onlyLog (.refl s)) (((ReadyForReset.onW s).trans (readyForReset_disarmFoul _)).trans (readyForReset_flt0 _ _ _ _ _))

theorem readyForReset_makeStale (l : List Gran) (s : State) : ReadyForReset s (makeStale l s) := by
  unfold makeStale
  exact .ite ⟨rfl, rfl, rfl, rfl, rfl⟩ ⟨rfl, rfl, rfl, rfl, rfl⟩

/-- What a warm reset of a cause and a detail has made of a state in service (R460, R461, R463). -/
structure ResetMade (cause detail : Nat) (s t : State) : Prop where
  pending : t.pending = s.pending
  survCause : t.ctl.surv.cause = cause
  survNs : t.ctl.surv.ns = s.ctl.clk.ns
  survDetail : t.ctl.surv.causeDetail = detail
  valid : t.ctl.health.recordValid = true
  lastCause : t.ctl.health.lastCause = cause
  lastNs : t.ctl.health.lastNs = s.ctl.clk.ns
  counted : t.ctl.health.warmTotal = satAdd 16 s.ctl.health.warmTotal 1
  cfg : t.cfg = { settleUs := s.cfg.settleUs, sideSev := if s.w.sl.prov then s.cfg.provSev else 1, provSev := s.cfg.provSev }
  dev : t.w.dev = s.w.dev
  empty : t.w.queues = [] ∧ t.w.mmu = {} ∧ t.w.dma = [] ∧ t.w.inflight = [] ∧ t.w.waits = [] ∧ t.w.apWait = []
  spdm : t.ctl.mctp.spdm = 0
  time : t.ctl.clk.ns = s.ctl.clk.ns

theorem ResetMade.after {cause detail : Nat} (made : ResetMade cause detail s t) (keeps : KeepsReset t u) :
    ResetMade cause detail s { u with cfg := t.cfg } where
  pending := keeps.pending.trans made.pending
  survCause := (congrArg Survival.cause keeps.surv).trans made.survCause
  survNs := (congrArg Survival.ns keeps.surv).trans made.survNs
  survDetail := (congrArg Survival.causeDetail keeps.surv).trans made.survDetail
  valid := (congrArg Health.recordValid keeps.health).trans made.valid
  lastCause := (congrArg Health.lastCause keeps.health).trans made.lastCause
  lastNs := (congrArg Health.lastNs keeps.health).trans made.lastNs
  counted := (congrArg Health.warmTotal keeps.health).trans made.counted
  cfg := made.cfg
  dev := keeps.dev.trans made.dev
  empty := by
    obtain ⟨queues, mmu, dma, inflight, waits, apWait⟩ := made.empty
    exact ⟨keeps.queues.trans queues, keeps.mmu.trans mmu, keeps.dma.trans dma, keeps.inflight.trans inflight, keeps.waits.trans waits,
      keeps.apWait.trans apWait⟩
  spdm := (congrArg Mctp.spdm keeps.mctp).trans made.spdm
  time := (congrArg Clk.ns keeps.clk).trans made.time

theorem warmReset_made (cause detail : Nat) (run : s.ctl.power.phase = .run) : ResetMade cause detail s (warmReset cause detail s) := by
  unfold warmReset
  extract_lets h asleep unit now s0 stuck s1 flush gone listed stamps js surv ctl1 power1 clk1 mctp1 s2 s3 s4 s5 last
  have awake : ¬ asleep := by simp [asleep, State.power, run]
  have ready : ReadyForReset s s1 :=
    ((readyForReset_of_onlyLog (onlyLog_flt _ _ _ _ _ _)).trans (readyForReset_endFoulAuth _)).trans (readyForReset_makeStale _ _)
  have made : ResetMade cause detail s s2 := {
    pending := ready.pending, survCause := rfl, survNs := rfl, survDetail := rfl, valid := rfl, lastCause := rfl, lastNs := rfl, counted := rfl
    cfg := by simp only [s2, cfgAfter, ready.cfg, ready.prov]
    dev := ready.dev, empty := ⟨rfl, rfl, rfl, rfl, rfl, rfl⟩, spdm := rfl, time := show s1.ctl.clk.ns = _ from congrArg Clk.ns ready.clk }
  have logged : KeepsReset s2 s4 :=
    (KeepsReset.trans (.ite (.flt _ _ _ _ _ _) (.refl _)) (.of_onlyLog (onlyLog_resendRecords _))).trans (keepsReset_boot _)
  have judged : KeepsReset s4 s5 := .ite (keepsReset_sendOff _ _) (.refl _)
  have up : last = unitsUp s5 := if_neg awake
  rw [up]
  exact made.after ((logged.trans judged).trans (keepsReset_unitsUp _))

end warm

/-- Settles O15: what the reset proper has made stands through the log, boot and the units. -/
theorem warmResetLeavesASurvivalRecord : Obligations.WarmResetLeavesASurvivalRecord := by
  unfold Obligations.WarmResetLeavesASurvivalRecord
  intro cause unit detail s low high run
  have strikes : warmResetEvent cause unit detail s =
      warmReset cause (unit % 256 + (if cause = 5 then 256 * (detail % 262144) else 0)) s := by
    simp [warmResetEvent, State.power, run, low, high]
  have made := warmReset_made cause (unit % 256 + (if cause = 5 then 256 * (detail % 262144) else 0)) run
  obtain ⟨queues, mmu, dma, inflight, waits, apWait⟩ := made.empty
  refine ⟨_, onAll_of_eq strikes made.pending, made.survCause, made.survNs, ?_, made.valid, made.lastCause, made.lastNs, made.counted, made.cfg,
    made.dev, queues, mmu, dma, inflight, waits, apWait, made.spdm, made.time⟩
  rw [made.survDetail]
  split <;> omega

/-! ### Watchdogs (R469) -/

section watchdogs

variable {s : State}

theorem running_inService (run : s.ctl.power.phase = .run) (booted : s.ctl.ident.failed = false) : running s = true := by
  simp [running, State.power, run, booted]

theorem flt_ctl (cls unit job step : Nat) (loc : Loc) (s : State) : (flt cls unit job step loc s).ctl = s.ctl := (onlyLog_flt _ _ _ _ _ _).ctl
theorem flt_pending (cls unit job step : Nat) (loc : Loc) (s : State) : (flt cls unit job step loc s).pending = s.pending :=
  (onlyLog_flt _ _ _ _ _ _).pending

/-- A watchdog's event, and a change of the marks of health that goes with it. -/
theorem onCore_flt_modHealth {f : State → State} {cls unit job step : Nat} {loc : Loc} {g : Health → Health}
    (strikes : f s = (flt cls unit job step loc s).modHealth g) :
    ∃ t, onCore f s = .next t ∧ t = (flt cls unit job step loc s).modHealth g ∧ t.cfg = s.cfg ∧ t.ctl.health = g s.ctl.health :=
  ⟨_, onCore_of_eq strikes (flt_pending _ _ _ _ _ _) (flt_cfg _ _ _ _ _ _), rfl, flt_cfg _ _ _ _ _ _,
    by rw [State.modHealth_ctl_health, flt_ctl]⟩

theorem makeStale_pending (l : List Gran) (s : State) : (makeStale l s).pending = s.pending := by rw [onlyStale_makeStale l s]

end watchdogs

/-- Settles O16, watchdog by watchdog: each writes its event and marks what is due. -/
theorem watchdogsAndFlush : Obligations.WatchdogsAndFlush := by
  unfold Obligations.WatchdogsAndFlush
  refine ⟨?_, ?_, ?_, ?_, ?_⟩
  · intro core s run booted
    have strikes : heartbeatMiss core s = (flt 0x5301 0x00 0xFF 0 (locCause 4 0x00) s).modHealth (fun h => { h with
        misses := satAdd 16 h.misses 1, alive := setBit h.alive (core % 4) false, resetDue := 4 }) := by
      simp only [heartbeatMiss, running_inService run booted]; rfl
    obtain ⟨t, runs, rfl, settings, health⟩ := onCore_flt_modHealth strikes
    exact ⟨_, runs, settings, health, rfl⟩
  · intro unit die cell s run booted
    have strikes : ∃ loc, stageStuck unit die cell s = (flt 0x5302 unit 0xFF 0 loc s).modHealth (fun h => { h with resetDue := 5 }) :=
      ⟨_, by simp only [stageStuck, running_inService run booted]; rfl⟩
    obtain ⟨loc, strikes⟩ := strikes
    obtain ⟨t, runs, _, settings, health⟩ := onCore_flt_modHealth strikes
    exact ⟨t, runs, settings, health⟩
  · intro l s low rising up
    have logged := onlyLog_flt 0x5303 (0x30 + l) 0xFF 0 (locLink l (s.link l).port (s.link l).peerNode 5) s
    have strikes : linkStuck l s = linkDown l 5 (flt 0x5303 (0x30 + l) 0xFF 0 (locLink l (s.link l).port (s.link l).peerNode 5) s) := by
      simp [linkStuck, low, up]
    have world := logged.world.trans (onlyWorld_linkDown l 5 _)
    obtain ⟨p, down⟩ := link_linkDown_self l 5 (s := flt 0x5303 (0x30 + l) 0xFF 0 (locLink l (s.link l).port (s.link l).peerNode 5) s)
      (by rw [logged.lk]; exact rising)
    refine ⟨_, onWorld_of_eq strikes world.pending world.cfg world.ctl, world.cfg, world.ctl, ?_, ?_, ?_⟩
    all_goals rw [down]; rfl
  · intro job r s low run booted member ofJob present rising
    have waits : (s.w.inflight.any (fun r => r.hdr.job = job) || s.w.queues.any (fun e => e.2.fetched.any (fun p => p.hdr.job = job))) = true := by
      simp only [Bool.or_eq_true, List.any_eq_true, decide_eq_true_eq]
      exact .inl ⟨r, member, ofJob⟩
    have strikes : queueStuck job s = (flt 0x5304 0x00 job (s.stepOf job) locNone s).modHealth (fun h => { h with
        tripped := tput false h.tripped job true, idleMs := tput 0 h.idleMs job (satAdd 32 (tget 0 h.idleMs job) (tget 5000 s.cfg.qwdBudget job)) }) := by
      simp only [queueStuck, waits, low, running_inService run booted, bne_iff_ne.mpr present]; rfl
    obtain ⟨t, runs, rfl, settings, health⟩ := onCore_flt_modHealth strikes
    have logged := onlyLog_flt 0x5304 0x00 job (s.stepOf job) locNone s
    refine ⟨_, runs, settings, logged.jobs, logged.queues, logged.inflight, ?_⟩
    rw [health]
    exact tget_tput_rising _ _ _ _ rising
  · intro g s run dirty
    have strikes : flushTimeout g s = (makeStale [g] s).modHealth (fun h => { h with flushMiss := max h.flushMiss 1 }) := by
      simp [flushTimeout, State.power, run, dirty]
    exact onCore_of_eq strikes (makeStale_pending [g] s) (makeStale_cfg [g] s)

end Sys2Proof.Machine
end

section
/-! The power controller and sit-out (R500-R510): what a sample, a trip and the entry to sit-out write of the control state. -/

namespace Sys2Proof.Machine

open Sys2Proof

section controller

variable {s t u : State}

theorem onlyLog_flt60 (cls : Nat) (loc : Loc) (s : State) : OnlyLog s (flt60 cls loc s) := by
  unfold flt60
  dsimp only
  split
  · exact (onlyLog_once60 _ _).trans (onlyLog_flt _ _ _ _ _ _)
  · exact .refl s

theorem OnlyLog.ite {p : Prop} [Decidable p] (h : OnlyLog s t) (k : OnlyLog s u) : OnlyLog s (if p then t else u) := by
  split
  · exact h
  · exact k

/-- What the controller may change: the core voltage, the gate, the stack cap, the marks of limits and trips, and the log. -/
structure OnlySteers (s t : State) : Prop where
  pending : t.pending = s.pending
  cfg : t.cfg = s.cfg
  units : t.ctl.unitEn = s.ctl.unitEn
  power : t.ctl.power = { s.ctl.power with
    nowMv := t.ctl.power.nowMv, gate := t.ctl.power.gate, stkCap := t.ctl.power.stkCap, limited := t.ctl.power.limited
    coldDies := t.ctl.power.coldDies, dieTripped := t.ctl.power.dieTripped }

namespace OnlySteers

theorem refl (s : State) : OnlySteers s s := ⟨rfl, rfl, rfl, rfl⟩

theorem trans (h : OnlySteers s t) (k : OnlySteers t u) : OnlySteers s u where
  pending := k.pending.trans h.pending
  cfg := k.cfg.trans h.cfg
  units := k.units.trans h.units
  power := by rw [k.power, h.power]

theorem ite {p : Prop} [Decidable p] (h : OnlySteers s t) (k : OnlySteers s u) : OnlySteers s (if p then t else u) := by
  split
  · exact h
  · exact k

theorem of_onlyLog (h : OnlyLog s t) : OnlySteers s t := by
  refine ⟨h.pending, h.cfg, ?_, ?_⟩ <;> rw [h.ctl]

theorem modPower {f : Power → Power} (s : State) (steers : f s.ctl.power = { s.ctl.power with
    nowMv := (f s.ctl.power).nowMv, gate := (f s.ctl.power).gate, stkCap := (f s.ctl.power).stkCap, limited := (f s.ctl.power).limited
    coldDies := (f s.ctl.power).coldDies, dieTripped := (f s.ctl.power).dieTripped } := by rfl) : OnlySteers s (s.modPower f) :=
  ⟨rfl, rfl, rfl, steers⟩

theorem note (cls : Nat) (loc : Loc) (s : State) : OnlySteers s (flt60 cls loc s) := of_onlyLog (onlyLog_flt60 cls loc s)

end OnlySteers

theorem onlySteers_powerLoop (ps pm t : Nat) (s : State) : OnlySteers s (powerLoop ps pm t s) := by
  unfold powerLoop
  dsimp only
  refine OnlySteers.trans (.ite (.ite ?_ (.ite ?_ (.ite (.refl s) ?_))) (.ite ?_ (.refl s))) (.modPower _)
  · refine .ite (OnlySteers.trans ?_ (.note _ _ _)) ?_
    all_goals exact .ite ((OnlySteers.modPower s).trans (.note _ _ _)) (.modPower s)
  · exact (OnlySteers.modPower s).trans (.note _ _ _)
  · exact (OnlySteers.modPower s).trans (.note _ _ _)
  · exact .ite (.modPower s) (.ite (.modPower s) (.ite (.modPower s) (.refl s)))

/-- Above the cap with voltage to spare, the loop lowers the core voltage and touches neither the gate nor the stacks (R500). -/
theorem powerLoop_overCap {ps pm t : Nat} (above : s.ctl.power.capW < ps) (spare : 600 < s.ctl.power.nowMv) :
    (powerLoop ps pm t s).ctl.power.nowMv = s.ctl.power.nowMv - 5 ∧ (powerLoop ps pm t s).ctl.power.gate = s.ctl.power.gate ∧
      (powerLoop ps pm t s).ctl.power.stkCap = s.ctl.power.stkCap := by
  have lowered : ∃ (u : State) (limited : Power → Bool), OnlyLog (s.modPower (fun p => { p with nowMv := p.nowMv - 5 })) u ∧
      powerLoop ps pm t s = u.modPower (fun p => { p with limited := limited p }) := by
    unfold powerLoop
    simp only [State.power, above, spare, decide_true, Bool.true_or, if_true]
    refine ⟨_, _, ?_, rfl⟩
    split
    · exact (onlyLog_flt60 _ _ _).trans (onlyLog_flt60 _ _ _)
    · exact onlyLog_flt60 _ _ _
  obtain ⟨u, _, logged, loop⟩ := lowered
  rw [loop]
  simp only [State.modPower_ctl_power, logged.ctl, and_self]

/-- What a sample writes into the POWER block (R500, R503, R504, R506), before any event. -/
def sampleRead (x : Sample) (s : State) : State :=
  let dies := powerSample.padTo4 x.tj
  let all := dies ++ [x.hub]
  let uj := s.power.energyRest + 10 * x.psW
  s.modPower (fun p => { p with
    inMv := min x.inMv 65535, inW := min x.pmW 65535, hubTenths := min x.hub 4095, arrTenths := min (dies.foldl max 0) 4095
    hottest := hottestOf all, dieTenths := dies, inletTenths := min x.inlet 4095, outletTenths := min x.outlet 4095
    diesBelow85 := all.all (fun v => decide (v < 850)), energyRest := uj % 1000000000
    energyKj := wrapAdd 32 p.energyKj (uj / 1000000000) })

/-- A sample is read, its warnings are logged, and the controller steers; in service the loop runs unless a die has tripped. -/
theorem powerSample_steers (x : Sample) (powered : s.ctl.power.phase ≠ .off) :
    OnlySteers (sampleRead x s) (powerSample x s) ∧
      (s.ctl.power.phase = .run → s.ctl.power.dieTripped = false →
        ∃ t u, OnlyLog (sampleRead x s) u ∧ powerSample x s = powerLoop x.psW x.pmW t u) := by
  unfold powerSample
  rw [if_neg (show ¬ s.power.phase = .off from powered)]
  extract_lets dies all t arr uj s1 s2 s3 s4 s5 cold marked warm cooled
  have noted : OnlyLog s1 s5 :=
    (((OnlyLog.ite (onlyLog_flt60 _ _ _) (.refl s1)).trans (.ite (onlyLog_flt60 _ _ _) (.refl s2))).trans
      (.ite (onlyLog_flt _ _ _ _ _ _) (.refl s3))).trans (.ite (onlyLog_flt _ _ _ _ _ _) (.refl s4))
  have steers : OnlySteers s1 s5 := .of_onlyLog noted
  have phase : s5.ctl.power.phase = s.ctl.power.phase := by rw [noted.ctl]; rfl
  have tripped : s5.ctl.power.dieTripped = s.ctl.power.dieTripped := by rw [noted.ctl]; rfl
  simp only [State.power, phase]
  have advised : OnlyLog s5 warm := .ite (onlyLog_ckptAdvice _ _) (.refl s5)
  constructor
  · have noted : OnlySteers s5 (if cold then flt60 0x4205 locNone marked else marked) :=
      (OnlySteers.modPower s5).trans (.ite (.note _ _ _) (.refl marked))
    have looped : OnlySteers s5 (if cooled.ctl.power.dieTripped then cooled else powerLoop x.psW x.pmW t cooled) :=
      ((OnlySteers.of_onlyLog advised).trans (.ite (.modPower warm) (.refl warm))).trans (.ite (.refl cooled) (onlySteers_powerLoop _ _ _ _))
    exact .ite (steers.trans noted) (.ite steers (steers.trans looped))
  · intro run untripped
    have still : warm.ctl.power.dieTripped = false := by rw [advised.ctl, tripped]; exact untripped
    have same : cooled = warm := if_neg (by simp [State.power, still])
    refine ⟨t, _, noted.trans advised, ?_⟩
    simp [run, same, still]

/-- The marks a die trip sets: the core clamped to 600 mV, the gate at half, the stacks capped (R504). -/
def clamped (s : State) : State :=
  s.modPower (fun p => { p with nowMv := min p.nowMv 600, gate := 8, stkCap := true, dieTripped := true, diesBelow85 := false })

theorem dieTrip_free (die : Nat) (run : s.ctl.power.phase = .run) (free : s.w.holder = none) : OnlyLog (clamped s) (dieTrip die s) := by
  unfold dieTrip
  have awake : inSitOut s = false := by simp [inSitOut, State.power, run]
  have logged : ∀ unit, OnlyLog (clamped s) (flt 0x4202 unit 0xFF 0 locNone (clamped s)) := fun _ => onlyLog_flt _ _ _ _ _ _
  have stops : ∀ unit v, thermalStop v (flt 0x4202 unit 0xFF 0 locNone (clamped s)) = flt 0x4202 unit 0xFF 0 locNone (clamped s) :=
    fun unit _ => thermalStop_free ((logged unit).holder.trans free)
  simp only [awake, State.power, run, bne_self_eq_false, Bool.false_eq_true, if_false]
  show OnlyLog (clamped s) (benchAdvice 4 _ (thermalStop _ (flt 0x4202 _ 0xFF 0 locNone (clamped s))))
  rw [stops]
  exact (logged _).trans (onlyLog_benchAdvice _ _ _)

end controller

/-- Settles O17: a sample's registers stand through its events and the loop; a trip clamps and logs. -/
theorem powerControllerActs : Obligations.PowerControllerActs := by
  unfold Obligations.PowerControllerActs
  refine ⟨?_, ?_, ?_⟩
  · intro x s powered
    obtain ⟨steers, steps⟩ := powerSample_steers x powered
    refine ⟨_, onCore_of_eq rfl steers.pending steers.cfg, steers.cfg, ?_, ?_, ?_, ?_, ?_, ?_, ?_, steers.units, ?_⟩
    iterate 7 rw [steers.power]; rfl
    intro run untripped above spare
    obtain ⟨t, u, logged, loop⟩ := steps run untripped
    have power : u.ctl.power = (sampleRead x s).ctl.power := by rw [logged.ctl]
    rw [loop]
    have lowered := powerLoop_overCap (s := u) (ps := x.psW) (pm := x.pmW) (t := t) (by rw [power]; exact above) (by rw [power]; exact spare)
    rw [power] at lowered
    exact lowered
  · intro s run core gate capped
    have logged := onlyLog_flt 0x4104 0xFF 0xFF 0 locNone s
    exact onCore_of_eq (by simp [State.power, run, core, gate, capped]) logged.pending logged.cfg
  · intro die s _ run free
    have logged := dieTrip_free die run free
    refine ⟨_, onCore_of_eq rfl logged.pending logged.cfg, logged.cfg, ?_, ?_⟩ <;> rw [logged.ctl] <;> rfl

section sitOut

variable {s : State}

theorem onlyWorld_releaseJob (j : Nat) (s : State) : OnlyWorld s (releaseJob j s) := by
  unfold releaseJob
  exact ((OnlyWorld.ite ((OnlyWorld.onW s _).trans (.onW _ _)) (.refl s)).trans ((OnlyWorld.onW _ _).trans (.onW _ _))).trans
    (keepsJobs_syncPlan false _).world

/-- What the entry to sit-out has made of a state (R509, R511). -/
structure SitsOut (thermal : Bool) (s t : State) : Prop where
  pending : t.pending = s.pending
  phase : t.ctl.power.phase = .sitOut
  thermSit : t.ctl.power.thermSit = thermal
  sitPending : t.ctl.power.sitPending = false
  units : t.ctl.unitEn = 0
  core : t.ctl.power.nowMv = 0
  host : t.ctl.power.hostPortUp = false
  ready : t.ctl.power.ready = false
  retention : t.ctl.power.retention = some { capW := s.ctl.power.capW, targetMv := s.cfg.targetMv, tjLimitC := s.cfg.tjLimitC }
  target : t.cfg.targetMv = s.cfg.targetMv
  empty : t.w.queues = [] ∧ t.w.mmu = {} ∧ t.w.inflight = [] ∧ t.w.waits = []

theorem sitsOut_enterSitOut (thermal : Bool) (s : State) : SitsOut thermal s (enterSitOut thermal s) := by
  unfold enterSitOut
  extract_lets s0 s1 s2 s3 keep gone s4
  have ended : OnlyWorld s s0 := onlyWorld_endFoulAuth s
  have noted : OnlyWorld s1 s3 := (OnlyWorld.forAll _ _ (fun l s => onlyWorld_linkDown l 7 s) s1).trans (onlyWorld_flt _ _ _ _ _ _)
  have released : OnlyWorld s3 s4 := .forAll _ _ onlyWorld_releaseJob s3
  have settings : s3.cfg = s.cfg := noted.cfg.trans ended.cfg
  have cap : s3.ctl.power.capW = s.ctl.power.capW := by rw [noted.ctl]; exact congrArg (·.power.capW) ended.ctl
  exact {
    pending := released.pending.trans (noted.pending.trans ended.pending)
    phase := rfl, thermSit := rfl, sitPending := rfl, units := rfl, core := rfl, host := rfl, ready := rfl
    retention := by simp only [keep, State.power, settings, cap]
    target := rfl, empty := ⟨rfl, rfl, rfl, rfl⟩ }

end sitOut

/-- Settles O18: both entries run the same beats, the thermal one after its event. -/
theorem sitOutIsEnteredAndWoken : Obligations.SitOutIsEnteredAndWoken := by
  unfold Obligations.SitOutIsEnteredAndWoken
  refine ⟨?_, ?_, ?_⟩
  · intro s accepted run
    have sits := sitsOut_enterSitOut false s
    obtain ⟨queues, mmu, inflight, waits⟩ := sits.empty
    exact ⟨_, onAll_of_eq (by simp [State.power, accepted, run]) sits.pending, sits.phase, sits.thermSit, sits.sitPending, sits.units, sits.core,
      sits.host, sits.ready, ⟨_, sits.retention, rfl, rfl, rfl⟩, sits.target, queues, mmu, inflight, waits⟩
  · intro s hot run
    have sits := sitsOut_enterSitOut true (flt0 0x4203 0xFF 0xFF 0 s)
    obtain ⟨queues, _, inflight, _⟩ := sits.empty
    exact ⟨_, onAll_of_eq (by simp [State.power, hot, run]) (sits.pending.trans (onlyLog_flt _ _ _ _ _ _).pending), sits.phase, sits.thermSit,
      sits.units, sits.core, queues, inflight⟩
  · intro s armed asleep cool unwoken
    have wakes : (if s.cfg.wakeBench && !(inSitOut s && s.power.thermSit) then wake 2 s else s) =
        s.modPower (fun p => { p with wakePending := 2 }) := by
      simp [armed, State.power, cool, wake, inSitOut, asleep, unwoken, State.modPower]
    exact onCore_of_eq wakes rfl rfl

end Sys2Proof.Machine
end

section
/-! Sideline records (R523, R528-R533, R541): what goes out, what comes in once, and what comes in again. -/

namespace Sys2Proof.Machine

open Sys2Proof

section sideline

variable {s t : State} {seq st : Nat}

theorem powered_of_slUp (up : s.slUp = true) : s.ctl.power.phase ≠ .off := by
  simp only [State.slUp, Bool.and_eq_true, bne_iff_ne] at up
  exact up.1.2

theorem slOnce_up (kind sev : Nat) (p : Bytes) (up : s.slUp = true) :
    slOnce kind sev p s = (s.modSl (fun x => { x with nextSeq := wrapAdd 32 x.nextSeq 1, sent := wrapAdd 32 x.sent 1 })).emit
      (.sideline s.w.sl.nextSeq kind sev (slDatagram s kind s.w.sl.nextSeq p)) := if_pos up

/-! ### Outgoing records -/

/-- Of a heartbeat's second only foul mode and what is known of the collector change beside what is sent (R531, R539, R540). -/
theorem heartbeat_up (up : s.slUp = true) : ∃ (f : World → World) (g : Sl → Sl), heartbeat s =
      ((slOnce 0x01 1 (layout [(8, hlState s), (8, pwIn s), (8, pwTj s), (8, idBoot s), (8, idFw s)]) s).onW f).modSl g ∧
    (∀ w, (f w).out = w.out ∧ (f w).sl = w.sl) ∧ ∀ x, (g x).nextSeq = x.nextSeq ∧ (g x).sent = x.sent := by
  refine ⟨_, _, if_neg (powered_of_slUp up), ?_, ?_⟩
  · exact fun _ => ⟨rfl, rfl⟩
  · exact fun _ => ⟨rfl, rfl⟩

theorem resendDue_held {r : SlRec} (up : s.slUp = true) (held : s.w.sl.held.find? (fun x => x.seq == seq) = some r) :
    resendDue seq s = (s.modSl (fun x => { x with
      sent := wrapAdd 32 x.sent 1, held := updWhere (fun (q : SlRec) => q.seq == r.seq) (fun q => { q with resends := q.resends + 1 }) x.held })).emit
      (.sideline r.seq r.kind r.sev (slDatagram s r.kind r.seq r.payload)) := by
  simp only [resendDue, held, resendHeld, up, Bool.not_true, Bool.false_eq_true, if_false]

theorem slLink_comes (powered : s.ctl.power.phase ≠ .off) (down : s.w.sl.link = false) (none : s.w.sl.held = []) :
    slLink true s = s.modSl (fun x => { x with link := true }) := by
  simp [slLink, State.power, powered, down, none, forAll]

/-! ### Incoming records -/

/-- A record under a sequence handled before is only acknowledged again, with the status it had (R532). -/
theorem slArrive_again (run : State → Nat × State) (up : s.slUp = true) (handled : s.w.sl.handled.find? (fun e => e.1 == seq) = some (seq, st)) :
    slArrive seq run s = slOnce 0x04 1 (layout [(4, seq), (1, st), (3, 0)]) s := by
  simp only [slArrive, up, handled, Bool.not_true, Bool.false_eq_true, if_false]

/-- So whichever part of the state the row may change, its next state is the acknowledgement's. -/
theorem onAll_slArrive_again (run : State → Nat × State) (up : s.slUp = true)
    (handled : s.w.sl.handled.find? (fun e => e.1 == seq) = some (seq, st)) :
    onAll (slArrive seq run) s = .next (slOnce 0x04 1 (layout [(4, seq), (1, st), (3, 0)]) s) ∧
      onCore (slArrive seq run) s = .next (slOnce 0x04 1 (layout [(4, seq), (1, st), (3, 0)]) s) ∧
      onWorld (slArrive seq run) s = .next (slOnce 0x04 1 (layout [(4, seq), (1, st), (3, 0)]) s) := by
  have logged := onlyLog_slOnce 0x04 1 (layout [(4, seq), (1, st), (3, 0)]) s
  have again := slArrive_again run up handled
  exact ⟨onAll_of_eq again logged.pending, onCore_of_eq again logged.pending logged.cfg,
    onWorld_of_eq again logged.pending logged.cfg logged.ctl⟩

variable {p : Bytes} {x : Xfer}

/-- A chunk that leaves its drill image incomplete opens or goes on with the transfer (R533). -/
theorem drillChunk_open (joins : chunkIn s.w.sl.drill p = some x) (part : covered x.got x.total = false) :
    drillChunk p s = (0, s.modSl (fun y => { y with drill := some x })) := by
  simp only [drillChunk, joins, part, Bool.not_false, if_true]

/-- A chunk that leaves its firmware image incomplete is written to the idle slot (R523). -/
theorem firmwareChunk_open (joins : chunkIn s.w.sl.fw p = some x) (part : covered x.got x.total = false) :
    firmwareChunk p s = (0, (s.modIdent (fun d => d.putSlot (idleSlot s.ctl.ident) (.held (mread x.data 0 x.total)))).modSl
      (fun y => { y with fw := some x })) := by
  simp only [firmwareChunk, joins, part, Bool.not_false, if_true]

end sideline

/-- Settles O8: the rows out one by one, then every row in under a sequence that was handled. -/
theorem sidelineRecordsComplete : Obligations.SidelineRecordsComplete := by
  unfold Obligations.SidelineRecordsComplete
  refine ⟨⟨?_, ?_, ?_, ?_, ?_, ?_, ?_⟩, ?_⟩
  · intro s up
    obtain ⟨f, g, beats, kept, keptSl⟩ := heartbeat_up up
    rw [slOnce_up _ _ _ up] at beats
    refine ⟨_, onWorld_of_eq beats rfl rfl rfl, rfl, rfl, (keptSl _).1.trans ?_, (keptSl _).2.trans ?_, (kept _).1⟩
    · exact congrArg Sl.nextSeq (kept _).2
    · exact congrArg Sl.sent (kept _).2
  · intro seq r s up held
    exact ⟨_, onWorld_of_eq (resendDue_held up held) rfl rfl rfl, rfl, rfl, rfl, rfl⟩
  · intro seq s up
    have acked : slAcked seq s = s.onW (fun w => (slAcked seq s).w) := by simp only [slAcked, up]; rfl
    refine ⟨_, onWorld_of_eq acked rfl rfl rfl, rfl, rfl, ?_, ?_, ?_, ?_⟩ <;> simp only [State.onW, slAcked, up, Bool.not_true, Bool.false_eq_true, if_false]
    · intro x member
      simpa using (List.mem_filter.mp member).2
    · intro x member other
      exact List.mem_filter.mpr ⟨member, by simpa using other⟩
    · rfl
  · intro seq p x s up new joins part
    have acked := onlyLog_recordAcked seq (s.modSl (fun y => { y with drill := some x }))
    refine ⟨_, onWorld_of_eq (slArrive_new up new (drillChunk_open joins part)) acked.pending acked.cfg acked.ctl, acked.cfg, acked.ctl, ?_,
      acked.handled⟩
    rw [acked]
    rfl
  · intro seq p x s up new joins part
    have acked := onlyLog_recordAcked seq ((s.modIdent (fun d => d.putSlot (idleSlot s.ctl.ident) (.held (mread x.data 0 x.total)))).modSl
      (fun y => { y with fw := some x }))
    refine ⟨_, onCore_of_eq (slArrive_new up new (firmwareChunk_open joins part)) acked.pending acked.cfg, acked.cfg, ?_, acked.handled,
      congrArg Ctl.ident acked.ctl⟩
    rw [acked]
    rfl
  · intro s powered down none
    exact onWorld_of_eq (slLink_comes powered down none) rfl rfl rfl
  · intro addr mask gateway s up dhcp
    exact onWorld_of_eq (if_neg (by simp [up, dhcp])) rfl rfl rfl
  · intro c seq st p s row up handled
    have next : ∀ run : State → Nat × State, _ := fun run => onAll_slArrive_again run up handled
    simp only [slOnce_up _ _ _ up] at next
    rcases row with rfl | rfl | rfl | rfl | rfl | rfl | rfl | rfl | rfl | rfl
    · exact (next _).2.2
    · exact (next _).2.1
    · exact (next _).2.1
    · exact (next _).2.1
    · exact (next _).2.2
    · exact (next _).2.1
    · exact (next _).2.1
    · exact (next _).2.2
    · exact (next _).1
    · exact (next _).2.1

end Sys2Proof.Machine
end

section
/-! Scrubbing and the checker injector (R479-R497): what a pass makes of one cell, and when an injection is armed. -/

namespace Sys2Proof.Machine

open Sys2Proof

section scrubbing

variable {s t u : State} {k : Nat} {f : Cell → Cell}

/-- What a table holds at a key is its default, or listed under the key. -/
theorem tget_default_or_mem {α : Type} (d : α) (l : Tab α) (k : Nat) : tget d l k = d ∨ (k, tget d l k) ∈ l := by
  induction l with
  | nil => exact .inl rfl
  | cons e l ih =>
    obtain ⟨k', v⟩ := e
    unfold tget
    split
    · next same => exact .inr (same ▸ List.mem_cons_self)
    · exact ih.imp_right (List.mem_cons_of_mem _)

theorem flips_of_unstruck (clean : ∀ e ∈ s.w.cells, e.1 ≠ k → e.2.flips = []) {k' : Nat} (other : k' ≠ k) : (s.cell k').flips = [] := by
  rcases tget_default_or_mem (cellDefault k') s.w.cells k' with same | listed
  · rw [State.cell, same]; rfl
  · exact clean _ listed other

/-- Of the world only one cell changes, as a function says, beside counts and the log. -/
structure CellBecomes (k : Nat) (f : Cell → Cell) (s t : State) : Prop where
  world : OnlyWorld s t
  self : t.cell k = f (s.cell k)
  other : ∀ k', k' ≠ k → t.cell k' = s.cell k'

namespace CellBecomes

theorem modCell (rising : Claims.rising s.w.cells) : CellBecomes k f s (s.modCell k f) :=
  ⟨.modCell s k f, cell_modCell_self k f rising, fun _ other => cell_modCell_ne f s other⟩

/-- What leaves every cell as it is may follow. -/
theorem after (h : CellBecomes k f s t) (world : OnlyWorld t u) (cells : u.w.cells = t.w.cells) : CellBecomes k f s u := by
  have cell : ∀ k', u.cell k' = t.cell k' := fun k' => by rw [State.cell, cells]; rfl
  exact ⟨h.world.trans world, (cell k).trans h.self, fun k' other => (cell k').trans (h.other k' other)⟩

theorem noted (h : CellBecomes k f s t) (log : OnlyLog t u) : CellBecomes k f s u := h.after log.world log.cells

theorem runs (h : CellBecomes k f s t) {c : Instr} {g : State → State} (clocked : s.ctl.clk.frozen = false) (meaning : g s = t) :
    onCore (fabric c g) s = .next t :=
  onCore_of_eq ((fabric_running clocked).trans meaning) h.world.pending h.world.cfg

end CellBecomes

theorem countCe_cells (n : Nat) (s : State) : (countCe n s).w.cells = s.w.cells := by
  unfold countCe
  dsimp only
  split
  · exact (onlyLog_ckptAdvice _ _).cells
  · rfl

/-- A corrected word of a cell's store, as the cell counts it at a time; a flip an injection left there is gone (R479). -/
def Cell.corrected (now word : Nat) (c : Cell) : Cell :=
  { c with ce := satAdd 16 c.ce 1, ceWin := now :: c.ceWin.filter (recent now), flips := c.flips.filter (fun e => e.1 != word) }

/-- An uncorrectable word of a cell's store poisons the cell (R479). -/
def Cell.uncorrectable (word : Nat) (c : Cell) : Cell :=
  { c with ue := satAdd 8 c.ue 1, poisoned := true, flips := c.flips.filter (fun e => e.1 != word) }

theorem scrubCell_corrects (k word : Nat) (rising : Claims.rising s.w.cells) :
    CellBecomes k (Cell.corrected s.now word) s (scrubCell k word false s) := by
  have counted : CellBecomes k (Cell.corrected s.now word) s (countCe 1 (s.modCell k (fun c => { c with
      ce := satAdd 16 c.ce 1, ceWin := s.now :: (s.cell k).ceWin.filter (recent s.now), flips := c.flips.filter (fun e => e.1 != word) }))) := by
    refine CellBecomes.after (t := s.modCell k _) ⟨.modCell s k _, ?_, fun _ other => cell_modCell_ne _ s other⟩ (onlyWorld_countCe _ _) (countCe_cells _ _)
    exact cell_modCell_self k _ rising
  unfold scrubCell
  simp only [Bool.false_eq_true, if_false]
  split
  · exact counted.noted (onlyLog_flt _ _ _ _ _ _)
  · exact counted

theorem scrubCell_poisons (k word : Nat) (rising : Claims.rising s.w.cells) :
    CellBecomes k (Cell.uncorrectable word) s (scrubCell k word true s) := by
  unfold scrubCell
  simp only [if_true]
  exact (CellBecomes.modCell rising).noted (onlyLog_flt _ _ _ _ _ _)

/-! ### The words an injection has struck (R484, R495) -/

/-- What a pass does with the struck words of one cell. -/
def readFlips (k : Nat) (s : State) : State :=
  forAll (s.cell k).flips (fun e s =>
    let n := popCount e.2 72
    let x := if n ≤ 2 then (n - 1, s) else s.draw
    if x.1 % 3 = 2 then x.2 else scrubCell k e.1 (x.1 % 3 = 1) x.2) s

theorem scrubFlips_eq (s : State) : scrubFlips s = forAll ((tkeys s.w.cells).filter (fun k => s.unitOn (0x50 + k / 144))) readFlips s := rfl

theorem readFlips_unstruck (clean : (s.cell k).flips = []) : readFlips k s = s := by
  rw [readFlips, clean]
  rfl

theorem scrubFlips_unstruck (clean : ∀ e ∈ s.w.cells, e.2.flips = []) : scrubFlips s = s := by
  rw [scrubFlips_eq]
  exact forAll_eq_self fun k _ => readFlips_unstruck (flips_of_unstruck (k := k + 1) (fun e listed _ => clean e listed) (by omega))

/-- Where only one cell is struck, the pass reads that cell's words and no others. -/
theorem scrubFlips_struck (rising : Claims.rising s.w.cells) (on : s.unitOn (0x50 + k / 144) = true) (struck : (s.cell k).flips ≠ [])
    (clean : ∀ e ∈ s.w.cells, e.1 ≠ k → e.2.flips = []) (reads : CellBecomes k f s (readFlips k s)) : scrubFlips s = readFlips k s := by
  have listed : k ∈ tkeys s.w.cells := by
    rcases tget_default_or_mem (cellDefault k) s.w.cells k with same | listed
    · exact absurd (by rw [State.cell, same]; rfl) struck
    · exact List.mem_map_of_mem listed
  obtain ⟨before, after, split⟩ := List.append_of_mem (List.mem_filter (p := fun k => s.unitOn (0x50 + k / 144)) |>.mpr ⟨listed, on⟩)
  have once : (before ++ k :: after).Nodup := by
    rw [← split]
    exact (rising.imp Nat.ne_of_lt).filter _
  have unseen : k ∉ before ++ after := (List.nodup_cons.mp ((List.perm_middle.nodup_iff).mp once)).1
  have apart : ∀ k' ∈ before ++ after, k' ≠ k := fun k' member same => unseen (same ▸ member)
  have first : forAll before readFlips s = s := forAll_eq_self fun k' member =>
    readFlips_unstruck (flips_of_unstruck clean (apart k' (List.mem_append_left _ member)))
  have rest : forAll after readFlips (readFlips k s) = readFlips k s := forAll_eq_self fun k' member => by
    have other := apart k' (List.mem_append_right _ member)
    exact readFlips_unstruck (by rw [reads.other k' other]; exact flips_of_unstruck clean other)
  calc scrubFlips s = forAll (before ++ k :: after) readFlips s := by rw [scrubFlips_eq, split]
    _ = forAll after readFlips (readFlips k (forAll before readFlips s)) := by simp only [forAll, List.foldl_append, List.foldl_cons]
    _ = readFlips k s := by rw [first, rest]

variable {word mask : Nat}

theorem readFlips_one (struck : (s.cell k).flips = [(word, mask)]) (single : popCount mask 72 = 1) : readFlips k s = scrubCell k word false s := by
  simp [readFlips, struck, forAll, single]

theorem readFlips_two (struck : (s.cell k).flips = [(word, mask)]) (double : popCount mask 72 = 2) : readFlips k s = scrubCell k word true s := by
  simp [readFlips, struck, forAll, double]

/-! ### Words of a tier on demand (R484, R485) -/

theorem demandScrub_corrects {p g lane : Nat} {pos : Gran} (low : p < 768)
    (reads : scrubSkips s { tier := 1, place := p } (unitKey s 1 g pos) pos = false) :
    scrubOne false (.tier1 p g lane pos false) s =
      s.onW (fun w => { w with inject := w.inject.filter (fun e => !(e.1 = unitKey s 1 g pos && synClass 1 e.2.2 = 1)) }) := by
  simp [scrubOne, low, scrubWord, reads]

theorem demandScrub_marks {p g lane : Nat} {pos : Gran} (low : p < 768)
    (reads : scrubSkips s { tier := 1, place := p } (unitKey s 1 g pos) pos = false) :
    ∃ loc, scrubOne false (.tier1 p g lane pos true) s =
      badWord { tier := 1, place := p } pos.job loc (s.poisonUnit (unitKey s 1 g pos) 64) :=
  ⟨_, by simp only [scrubOne, low, if_true, scrubWord, reads, Bool.false_eq_true, if_false]; rfl⟩

theorem badWord_tierOne {p j : Nat} {loc : Loc} (s : State) :
    (badWord { tier := 1, place := p } j loc s).w.poison = s.w.poison ∧ (badWord { tier := 1, place := p } j loc s).w.inject = s.w.inject := by
  unfold badWord
  dsimp only
  rw [if_pos rfl]
  constructor <;> rw [onlyLog_flt _ _ _ _ _ _] <;> rfl

theorem onWorld_retAdd {u : State} (h : retAdd s = u) (world : OnlyWorld s u := by rfl) : exec .retGoAdd s = .next u :=
  onWorld_of_eq h world.pending world.cfg world.ctl

end scrubbing

/-- Settles O33: cells, hub words, code words of tier 1, then the retirement table. -/
theorem scrubsCorrectMarkAndRetire : Obligations.ScrubsCorrectMarkAndRetire := by
  unfold Obligations.ScrubsCorrectMarkAndRetire
  refine ⟨?_, ?_, ?_, ?_, ?_, ?_, ?_, ?_, ?_, ?_⟩
  · intro d c word s clocked clean low inDie on rising
    have found : ∀ f, forAll [f] (scrubOne true) (scrubFlips s) = scrubOne true f s := fun f => by rw [scrubFlips_unstruck clean]; rfl
    have corrects := scrubCell_corrects (144 * d + c) word rising
    have poisons := scrubCell_poisons (144 * d + c) word rising
    have spoils : CellBecomes (144 * d + c) (fun x => { x with ue := satAdd 8 x.ue 1, figBad := true }) s _ := .modCell rising
    refine ⟨⟨_, corrects.runs clocked ((found _).trans ?_), corrects.world.cfg, corrects.world.ctl, ?_, ?_, corrects.other⟩,
      ⟨_, poisons.runs clocked ((found _).trans ?_), poisons.world.cfg, poisons.world.ctl, ?_, ?_, poisons.other⟩,
      ⟨_, spoils.runs clocked ((found _).trans ?_), spoils.world.cfg, spoils.world.ctl, ?_, ?_, spoils.other⟩⟩
    · simp [scrubOne, low, inDie, on]
    · rw [corrects.self]; rfl
    · rw [corrects.self]; rfl
    · simp [scrubOne, low, inDie, on]
    · rw [poisons.self]; rfl
    · rw [poisons.self]; rfl
    · simp [scrubOne, low, inDie, on, scrubFigure]
    · rw [spoils.self]; rfl
    · rw [spoils.self]
  · intro k word mask s clocked _ on rising struck clean
    constructor
    · intro single
      have corrects := scrubCell_corrects k word rising
      rw [← readFlips_one struck single] at corrects
      refine ⟨_, corrects.runs clocked (scrubFlips_struck rising on (by simp [struck]) clean corrects), corrects.world.cfg, corrects.world.ctl, ?_, ?_, ?_⟩
      · rw [corrects.self]; rfl
      · rw [corrects.self]; simp [Cell.corrected, struck]
      · rw [corrects.self]; rfl
    · intro double
      have poisons := scrubCell_poisons k word rising
      rw [← readFlips_two struck double] at poisons
      refine ⟨_, poisons.runs clocked (scrubFlips_struck rising on (by simp [struck]) clean poisons), poisons.world.cfg, poisons.world.ctl, ?_, ?_, ?_⟩
      · rw [poisons.self]; rfl
      · rw [poisons.self]; simp [Cell.uncorrectable, struck]
      · rw [poisons.self]; rfl
  · intro mem word s clocked clean
    have log := onlyLog_flt 0x1906 0xFF 0xFF 0 (locHub mem word) s
    have marks : forAll [Scrub.hub mem word true] (scrubOne true) (scrubFlips s) =
        { (flt 0x1906 0xFF 0xFF 0 (locHub mem word) s) with ctl := { s.ctl with health := { s.ctl.health with resetDue := 7 } } } := by
      rw [scrubFlips_unstruck clean, ← log.ctl]
      rfl
    exact onCore_of_eq ((fabric_running clocked).trans marks) log.pending log.cfg
  · intro s clocked clean
    exact onCore_of_eq ((fabric_running clocked).trans (scrubFlips_unstruck clean)) rfl rfl
  · rintro p g lane _ pos s clocked low rfl reads
    exact onCore_of_eq ((fabric_running clocked).trans (demandScrub_corrects low reads)) rfl rfl
  · rintro p g lane _ pos s clocked low rfl reads
    obtain ⟨loc, marks⟩ := demandScrub_marks (lane := lane) low reads
    have world := onlyWorld_badWord { tier := 1, place := p } pos.job loc (s.poisonUnit (unitKey s 1 g pos) 64)
    obtain ⟨poison, inject⟩ := badWord_tierOne (p := p) (j := pos.job) (loc := loc) (s.poisonUnit (unitKey s 1 g pos) 64)
    refine ⟨_, onCore_of_eq ((fabric_running clocked).trans marks) world.pending world.cfg, world.cfg, world.ctl, ?_, inject⟩
    rw [poison]
    exact List.mem_eraseDups.mpr List.mem_cons_self
  · rintro _ s rfl new sound held
    refine onWorld_retAdd ?_
    have occupied : s.w.holder.isNone = false := by simpa [Option.isSome_iff_ne_none] using held
    simp [retAdd, new, sound, occupied]
  · intro s listed
    exact onWorld_retAdd (by simp [retAdd, listed])
  · intro s new refused
    exact onWorld_retAdd (by simp [retAdd, new, refused])
  · intro s
    exact onWorld_of_eq rfl rfl rfl rfl

/-! ### The checker injector (R495-R497) -/

section injector

variable {s : State}

/-- The injector's target is a cell word within range, of an enabled die and a cell not retired. -/
structure AimsAtCell (s : State) : Prop where
  auth : s.w.sl.foulAuth = true
  target : s.w.err.target = 1
  cell : s.w.err.c < 144
  die : s.w.err.die < 4
  word : s.w.err.handleOrWord < 262144
  on : s.unitOn (0x50 + s.w.err.die) = true
  inUse : (s.cell (144 * s.w.err.die + s.w.err.c)).retired = false

theorem errReason_cell (aims : AimsAtCell s) (mode : s.w.err.mode ≠ 0) : errReason s = 0 := by
  simp [errReason, aims.auth, aims.target, mode, aims.cell, aims.die, aims.word, aims.on, aims.inUse]

theorem errReason_home {x : Home} (auth : s.w.sl.foulAuth = true) (target : s.w.err.target = 2 ∨ (s.w.err.target = 3 ∧ (errLine s).isSome = true))
    (mode : s.w.err.mode ≠ 0) (home : errHome s = some x) (on : s.unitOn x.unit = true) (inUse : homeRetired s x = false) : errReason s = 0 := by
  rcases target with two | ⟨three, line⟩
  · simp [errReason, auth, two, mode, home, on, inUse]
  · simp [errReason, auth, three, mode, home, on, inUse, Option.isNone_eq_false_iff.mpr line]

theorem errArm_refused (refused : errReason s ≠ 0) :
    errArm s = s.onW (fun w => { w with err := { w.err with state := 3, reason := errReason s } }) := by
  simp [errArm, refused]

theorem errArm_arms (sound : errReason s = 0) (mode : s.w.err.mode ≠ 2) :
    errArm s = s.onW (fun w => { w with err := { w.err with
      state := 1, reason := 0, tier := match errHome s with | some x => x.tier | none => 0 } }) := by
  simp only [errArm, sound, mode]
  rfl

/-- A cell whose word is struck by a mask and was not before. -/
theorem cell_flipCell {mask : Nat} (rising : Claims.rising s.w.cells) (whole : (s.cell (144 * s.w.err.die + s.w.err.c)).flips = []) (some : mask ≠ 0) :
    (flipCell mask s).cell (144 * s.w.err.die + s.w.err.c) =
      { (s.cell (144 * s.w.err.die + s.w.err.c)) with flips := [(s.w.err.handleOrWord, mask)] } := by
  rw [flipCell, cell_modCell_self _ _ rising]
  simp [whole, some]

/-- The injector has fired on memory of a tier. -/
def firing (tier : Nat) (s : State) : State := s.onW (fun w => { w with err := { w.err with state := 2, reason := 0, tier := tier } })

theorem flipNow_cell (tier : Nat) (target : s.w.err.target = 1) : flipNow tier s = flipCell (s.w.err.mask % 2 ^ 72) s := if_pos target

theorem errArm_fires (sound : errReason s = 0) (mode : s.w.err.mode = 2) :
    ∃ tier, errArm s = flipNow tier (fired (s.onW (fun w => { w with err := { w.err with reason := 0, tier := tier } }))) := by
  refine ⟨match errHome s with | some x => x.tier | none => 0, ?_⟩
  simp only [errArm, sound, mode]
  rfl

/-- Mode 2 fires at once: the state and event 0x190B, then the flip (R495, R497). -/
theorem errArm_flips (aims : AimsAtCell s) (mode : s.w.err.mode = 2) :
    ∃ tier u, OnlyLog (firing tier s) u ∧ errArm s = flipCell (s.w.err.mask % 2 ^ 72) u := by
  obtain ⟨tier, fires⟩ := errArm_fires (errReason_cell aims (by omega)) mode
  have log : OnlyLog (firing tier s) (fired (s.onW (fun w => { w with err := { w.err with reason := 0, tier := tier } }))) := onlyLog_flt _ _ _ _ _ _
  refine ⟨tier, _, log, fires.trans ?_⟩
  rw [flipNow_cell tier ((congrArg Err.target log.err).trans aims.target), congrArg Err.mask log.err]
  rfl

end injector

/-- Settles O34: armed, fired, or refused with the first reason that applies. -/
theorem injectorArmsOrRefuses : Obligations.InjectorArmsOrRefuses := by
  unfold Obligations.InjectorArmsOrRefuses
  refine ⟨?_, ?_, ?_, ?_⟩
  · intro s auth target mode cell die word on inUse
    have arms := errArm_arms (errReason_cell ⟨auth, target, cell, die, word, on, inUse⟩ (by omega)) (by omega)
    exact ⟨_, onWorld_of_eq arms rfl rfl rfl, rfl, rfl, rfl, rfl, target, rfl⟩
  · intro x s auth target mode home on inUse
    have arms := errArm_arms (errReason_home auth target (by omega) home on inUse) (by omega)
    simp only [home] at arms
    exact onWorld_of_eq arms rfl rfl rfl
  · intro s auth target mode cell die word on inUse rising whole strikes
    obtain ⟨tier, u, log, flips⟩ := errArm_flips ⟨auth, target, cell, die, word, on, inUse⟩ mode
    have die : u.w.err.die = s.w.err.die := (congrArg Err.die log.err :)
    have index : u.w.err.c = s.w.err.c := (congrArg Err.c log.err :)
    have word : u.w.err.handleOrWord = s.w.err.handleOrWord := (congrArg Err.handleOrWord log.err :)
    have cells : ∀ k, u.cell k = s.cell k := fun k => log.cell k
    have struck := cell_flipCell (s := u) (mask := s.w.err.mask % 2 ^ 72) (by rw [log.cells]; exact rising)
      (by rw [die, index, cells]; exact whole) strikes
    rw [die, index, word, cells] at struck
    refine ⟨_, onWorld_of_eq flips log.pending log.cfg log.ctl, log.cfg, log.ctl, ?_, struck, fun k other => ?_⟩
    · exact congrArg Err.state log.err
    · rw [flipCell, die, index, cell_modCell_ne _ _ other, cells]
  · intro n s reason
    have refused : errReason s = n ∧ n ≠ 0 := by
      rcases reason with ⟨rfl, auth⟩ | ⟨rfl, auth, none⟩ | ⟨rfl, auth, mode, out⟩ | ⟨rfl, auth, mode, off⟩ | ⟨rfl, auth, mode, retired⟩ |
        ⟨rfl, auth, mode, three, ⟨x, home, on, inUse⟩, noLine⟩
      · simp [errReason, auth]
      · simp [errReason, auth, none]
      · rcases out with high | ⟨one, range⟩ | ⟨word, noHome⟩
        · simp [errReason, auth, mode, high, show s.w.err.target ≠ 0 by omega, show s.w.err.target ≠ 1 by omega]
        · simp [errReason, auth, mode, one, or_assoc, range]
        · simp [errReason, auth, mode, noHome, show s.w.err.target ≠ 0 by omega, show s.w.err.target ≠ 1 by omega]
      · rcases off with ⟨one, cell, die, word, off⟩ | ⟨word, x, home, off⟩
        · simp [errReason, auth, mode, one, cell, die, word, off]
        · simp [errReason, auth, mode, home, off, show s.w.err.target ≠ 0 by omega, show s.w.err.target ≠ 1 by omega,
            show ¬ 3 < s.w.err.target by omega]
      · rcases retired with ⟨one, cell, die, word, on, retired⟩ | ⟨word, x, home, on, retired⟩
        · simp [errReason, auth, mode, one, cell, die, word, on, retired]
        · simp [errReason, auth, mode, home, on, retired, show s.w.err.target ≠ 0 by omega, show s.w.err.target ≠ 1 by omega,
            show ¬ 3 < s.w.err.target by omega]
      · simp [errReason, auth, mode, three, home, on, inUse, noLine]
    have refuses := errArm_refused (s := s) (by rw [refused.1]; exact refused.2)
    rw [refused.1] at refuses
    exact onWorld_of_eq refuses rfl rfl rfl

end Sys2Proof.Machine
end

section
/-! The links (R334-R344): a state in which LINK_DISCOVER does not stay in flight. -/

namespace Sys2Proof.Machine

open Sys2Proof

/-- A LINK_DISCOVER of no port that stands in flight under the next command's order number. -/
def discoverOfNoPort : Run := { hdr := {}, op := 0x0701, ord := 0 }

/-- Link 0 is down and its unit enabled; the command of no port is in flight. -/
def linkZeroDown : State := { ctl := { unitEn := 2 ^ 0x30 }, w := { lk := [(0, { state := 4 })], inflight := [discoverOfNoPort] } }

/-- LINK_DISCOVER of port 0 trains link 0; the command of no port is settled, and what is in flight under its order number leaves. -/
theorem linkDiscover_linkZeroDown : ∃ t, exec (.linkDiscover {} 1) linkZeroDown = .next t ∧ t.w.inflight = [] := by
  refine ⟨_, rfl, ?_⟩
  decide

/-- Refutes O50: a command completes by its order number, so a LINK_DISCOVER of no port in flight under the number that the new one takes
is answered at once and takes the new one with it, although link 0 of its port trains. -/
theorem not_linksTrainAndAreJudged : ¬ Obligations.LinksTrainAndAreJudged := by
  unfold Obligations.LinksTrainAndAreJudged
  rintro ⟨-, -, -, -, -, -, -, -, -, -, -, -, -, -, -, -, -, -, -, discover, -, -⟩
  obtain ⟨t, runs, -, -, -, stands⟩ := discover {} 1 0 ⟨0, 1, 0x7, 0xFFFF⟩ linkZeroDown (by unfold Ready; decide) (List.pairwise_singleton _ _) (by decide)
    (by decide) (by decide) (by decide) (by decide) (by decide) (by decide)
  obtain ⟨u, same, none⟩ := linkDiscover_linkZeroDown
  obtain rfl : u = t := by injection same.symm.trans runs
  rw [none] at stands
  exact absurd stands List.not_mem_nil

end Sys2Proof.Machine
end

section
/-! Plans, time and foul mode (R339, R352-R354, R539). -/

namespace Sys2Proof.Machine

open Sys2Proof

section

variable {s t : State} {h : Hdr} {f : State → State}

/-- A row whose meaning changes the world alone answers with what it makes of the state. -/
theorem OnlyWorld.runs (world : OnlyWorld s t) (meaning : f s = t) : onWorld f s = .next t :=
  onWorld_of_eq meaning world.pending world.cfg world.ctl

theorem OnlyWorld.done {own : State → Cmd} {cmd : Instr} {op st d u : Nat} {res : Bytes} (world : OnlyWorld (counted h s) t) (ready : Ready op h s)
    (answers : own (counted h s) = .done t st d u res) : onWorld (startCmd cmd op h own) s = .next (finish op h s st d u res t) :=
  onWorld_done ready answers world.pending world.cfg world.ctl

/-! ### TOPOLOGY_PLAN (R338, R339) -/

variable {addr len : Nat} {b : Bytes}

theorem masterSync_keeps (s : State) : (masterSync s).pending = s.pending ∧ (masterSync s).cfg = s.cfg := by
  unfold masterSync
  dsimp only
  split <;> split <;> exact ⟨rfl, rfl⟩

theorem exec_topologyPlan {st d u : Nat} {res : Bytes} (ready : Ready 0x0702 h s)
    (answers : topologyPlanOwn h addr len (counted h s) = .done t st d u res) (world : OnlyWorld (counted h s) t) :
    exec (.topologyPlan h addr len) s = .next (masterSync (finish 0x0702 h s st d u res t)) := by
  have reply := onlyReply_finish 0x0702 h s st d u res t
  obtain ⟨pending, cfg⟩ := masterSync_keeps (finish 0x0702 h s st d u res t)
  have meaning : masterSync (runTopologyPlan h addr len s) = masterSync (finish 0x0702 h s st d u res t) :=
    congrArg masterSync (startCmd_done ready answers)
  exact onCore_of_eq (f := fun s => masterSync (runTopologyPlan h addr len s)) meaning (pending.trans (reply.pending.trans world.pending))
    (cfg.trans (reply.cfg.trans world.cfg))

/-- No set is current: a plan may come into force. -/
theorem noSet_of_forall (idle : ∀ j < 64, s.live j = true → (s.job j).cur = none) :
    (List.range 64).any (fun j => s.live j && (s.job j).cur.isSome) = false := by
  simp only [List.any_eq_false, List.mem_range, Bool.and_eq_true, not_and]
  intro j low live
  simp [idle j low live]

/-- A plan's bytes are in force, before the links are looked at again. -/
def planTaken (b : Bytes) (s : State) : State := s.onW (fun w => { w with topo := { w.topo with
  plan := some (parsePlan b), node := (parsePlan b).node, hops := if (parsePlan b).master = (parsePlan b).node then 0 else 255, upLink := 0x1F } })

/-- The plan in force is the one these bytes spell. -/
def planStands (b : Bytes) (s : State) : Bool := match s.w.topo.plan with | some p => p.img == b | none => false

theorem topologyPlanOwn_reads (idle : ∀ j < 64, s.live j = true → (s.job j).cur = none) (low : 64 ≤ len) (high : len ≤ 256)
    (read : pktRead s h.job addr len = .ok b) (pass : firstBad (planChecks b 0 0 ++ [(8, fld b 8 4 == len)]) = none) :
    topologyPlanOwn h addr len s = if planStands b s then noteC s 1 else okC (replan (planTaken b s)) := by
  unfold topologyPlanOwn
  rw [if_neg (by simp only [noSet_of_forall idle]; simp), if_neg (by simp; omega), withRead_ok read]
  exact checkRec_passed pass

/-! ### Time (R352, R353) -/

theorem timeRequest_slave (slave : isMaster s = false) (runs : s.ctl.clk.running = true) :
    timeRequest s = match upstream s with
      | none => s.onW (fun w => { w with topo := { w.topo with upLink := 0x1F, hops := 255 } })
      | some l => (s.onW (fun w => { w with topo := { w.topo with upLink := l, t1 := s.now } })).emit (.time l s.now 0 0) :=
  if_neg (by simp [slave, runs])

theorem timeLoss_slave (slave : isMaster s = false) (runs : s.ctl.clk.running = true) :
    timeLoss s = flt0 0x3401 0xFF 0xFF 0 (s.modClk (fun c => { c with synced := false, good := 0 })) := by
  simp only [timeLoss, slave, runs, Bool.not_true, Bool.or_self, Bool.false_eq_true, if_false]

/-- What a reply writes of the topology: the offset and rate in its fields, and the hop count (R352). -/
def replyTold (off adj : Int) (hops : Nat) (s : State) : State :=
  (s.modLink s.w.topo.upLink (fun k => { k with peerHops := min hops 255 })).onW (fun w => { w with topo := { w.topo with
    offsetNs := max (-2147483647) (min 2147483647 off), adj := max (-2147483) (min 2147483 adj), hops := min (hops + 1) 255 } })

/-- Whether the clock is stepped, slewed, or only counted, is a matter of the offset (R352). -/
theorem timeReply_slave {t1 t2 t3 t4 hops : Nat} {adj off : Int} (slave : isMaster s = false) (runs : s.ctl.clk.running = true)
    (link : s.w.topo.upLink ≠ 0x1F) (offset : off = (((t2 : Int) - t1) - ((t4 : Int) - t3)) / 2) :
    timeReply t1 t2 t3 t4 hops adj s =
      if 1000 ≤ off then
        flt0 0x3402 0xFF 0xFF 0 ((replyTold off adj hops s).modClk (fun c => { c with
          ns := wrapAdd 64 c.ns off.toNat, synced := false, good := 0, lastSyncNs := c.ns }))
      else if off ≤ -1000 && !s.ctl.clk.slew then
        flt0 0x3402 0xFF 0xFF 0 ((replyTold off adj hops s).modClk (fun c => { c with slew := true, synced := false, good := 0, lastSyncNs := c.ns }))
      else (replyTold off adj hops s).modClk (fun c => { c with
        slew := c.slew && (if off.natAbs < 20 then s.ctl.clk.good + 1 else 0) = 0, good := if off.natAbs < 20 then s.ctl.clk.good + 1 else 0
        synced := c.synced || decide (16 ≤ if off.natAbs < 20 then s.ctl.clk.good + 1 else 0), lastSyncNs := c.ns }) := by
  subst offset
  unfold timeReply
  rw [if_neg (by simp [slave, runs, link])]
  rfl

/-! ### Foul mode (R354, R539) -/

variable {mask action rate ms : Nat}

theorem exec_foulArm {st d u : Nat} {res : Bytes} (ready : Ready 0x0703 h s)
    (answers : foulArmOwn mask action rate ms (counted h s) = .done t st d u res) (world : OnlyWorld (counted h s) t) :
    exec (.foulArm h mask action rate ms) s = .next (finish 0x0703 h s st d u res t) := world.done ready answers

/-- FOUL_ARM whose fields pass: authorised, it disarms with action 0 and arms with another. -/
theorem foulArmOwn_passes (known : action ≤ 3) (inMask : mask < 2 ^ 24) (named : action ≠ 0 → mask ≠ 0) (slow : rate ≤ 30)
    (timed : action ≠ 0 → 1 ≤ ms ∧ ms ≤ 3600000) :
    foulArmOwn mask action rate ms s = if !s.w.sl.foulAuth then failC s 0xA0 else if action = 0 then okC (disarmFoul s)
      else okC (flt0 0x3501 0x0A 0xFF 0 (s.onW (fun w => { w with foul := { armed := mask, action := action, rate := rate, ms := ms, hits := 0 } }))) := by
  unfold foulArmOwn
  rw [if_neg (by omega), if_neg (by simp; omega), if_neg (by omega), if_neg (by simp; omega)]

theorem foulArmOwn_action (reserved : 3 < action) : foulArmOwn mask action rate ms s = badC s 20 := if_pos reserved

theorem foulArmOwn_mask (known : action ≤ 3) (out : 2 ^ 24 ≤ mask ∨ (action ≠ 0 ∧ mask = 0)) : foulArmOwn mask action rate ms s = badC s 16 := by
  unfold foulArmOwn
  rw [if_neg (by omega), if_pos (by simpa using out)]

theorem foulArmOwn_rate (known : action ≤ 3) (inMask : mask < 2 ^ 24) (named : action ≠ 0 → mask ≠ 0) (fast : 30 < rate) :
    foulArmOwn mask action rate ms s = badC s 21 := by
  unfold foulArmOwn
  rw [if_neg (by omega), if_neg (by simp; omega), if_pos fast]

theorem foulArmOwn_duration (known : action ≤ 3) (inMask : mask < 2 ^ 24) (acts : action ≠ 0) (named : mask ≠ 0) (slow : rate ≤ 30)
    (out : ms = 0 ∨ 3600000 < ms) : foulArmOwn mask action rate ms s = badC s 24 := by
  unfold foulArmOwn
  rw [if_neg (by omega), if_neg (by simp; omega), if_neg (by omega), if_pos (by simp; omega)]

theorem disarmFoul_armed (armed : s.w.foul.armed ≠ 0) :
    disarmFoul s = flt0 0x3501 0x0A 0xFF 0 (s.onW (fun w => { w with foul := { w.foul with armed := 0, action := 0, rate := 0, ms := 0 } })) := if_neg armed

/-- After disarming, nothing is armed; the sideline's authorisation and the injector stand. -/
theorem disarmFoul_disarms (s : State) : (disarmFoul s).w.foul.armed = 0 ∧ (disarmFoul s).w.sl.foulAuth = s.w.sl.foulAuth ∧
    (disarmFoul s).w.sl.foulLeftS = s.w.sl.foulLeftS ∧ (disarmFoul s).w.err = s.w.err := by
  by_cases armed : s.w.foul.armed = 0
  · rw [disarmFoul, if_pos armed]
    exact ⟨armed, rfl, rfl, rfl⟩
  · rw [disarmFoul_armed armed]
    have log := onlyLog_flt 0x3501 0x0A 0xFF 0 locNone (s.onW (fun w => { w with foul := { w.foul with armed := 0, action := 0, rate := 0, ms := 0 } }))
    exact ⟨congrArg Foul.armed log.foul, log.foulAuth, log.foulLeftS, log.err⟩

/-- The authorisation of foul mode ends: disarmed, and the injector no more armed (R539). -/
theorem endFoulAuth_ends (auth : s.w.sl.foulAuth = true) : (endFoulAuth s).w.sl.foulAuth = false ∧ (endFoulAuth s).w.sl.foulLeftS = 0 ∧
    (endFoulAuth s).w.foul.armed = 0 ∧ (endFoulAuth s).w.err.state ≠ 1 := by
  unfold endFoulAuth
  rw [if_neg (by simp [auth])]
  extract_lets ended
  obtain ⟨disarmed, unauth, left, injector⟩ := disarmFoul_disarms ended
  have log : OnlyLog (disarmFoul ended) (flt0 0x7403 0x09 0xFF 0 (disarmFoul ended)) := onlyLog_flt _ _ _ _ _ _
  refine ⟨log.foulAuth.trans unauth, log.foulLeftS.trans left, (congrArg Foul.armed log.foul).trans disarmed, ?_⟩
  rw [log.err, injector]
  show (if s.w.err.state = 1 then ({ s.w.err with state := 0 } : Err) else s.w.err).state ≠ 1
  split
  · exact Nat.zero_ne_one
  · next unarmed => exact unarmed

end

/-- Settles O52: plans, then the exchanges of time, then foul mode. -/
theorem plansTimeAndFoulMode : Obligations.PlansTimeAndFoulMode := by
  unfold Obligations.PlansTimeAndFoulMode
  refine ⟨?_, ?_, ?_, ?_, ?_, ?_, ?_, ?_, ?_, ?_, ?_, ?_, ?_, ?_, ?_, ?_, ?_, ?_, ?_⟩
  · intro h addr len b s ready idle low high read pass new
    have other : ¬ planStands b (counted h s) = true := by
      show ¬ (match s.w.topo.plan with | some p => p.img == b | none => false) = true
      cases plan : s.w.topo.plan with
      | none => exact Bool.false_ne_true
      | some p => simpa using new p plan
    have net := onlyNet_replan (planTaken b (counted h s))
    exact ⟨_, exec_topologyPlan ready ((topologyPlanOwn_reads (s := counted h s) idle low high read pass).trans (if_neg other)) ((OnlyWorld.onW _ _).trans net.world),
      net.plan, net.node, net.cfg, net.ctl, net.jobs⟩
  · intro h addr len b p s ready idle low high read pass plan same
    have stands : planStands b (counted h s) = true := by
      show (match s.w.topo.plan with | some p => p.img == b | none => false) = true
      rw [plan]
      exact beq_iff_eq.mpr same
    exact exec_topologyPlan ready ((topologyPlanOwn_reads (s := counted h s) idle low high read pass).trans (if_pos stands)) (.refl _)
  · rintro h addr len s ready ⟨j, low, live, set⟩
    refine exec_topologyPlan ready (if_pos ?_) (.refl _)
    exact List.any_eq_true.mpr ⟨j, List.mem_range.mpr low, Bool.and_eq_true _ _ |>.mpr ⟨live, Option.isSome_iff_ne_none.mpr set⟩⟩
  · intro h addr len s ready idle outside
    refine exec_topologyPlan ready ?_ (.refl _)
    unfold topologyPlanOwn
    rw [if_neg (by rw [noSet_of_forall (s := counted h s) idle]; exact Bool.false_ne_true), if_pos (by simpa using outside)]
    rfl
  · intro l s slave runs nearest
    have asks := timeRequest_slave slave runs
    rw [nearest] at asks
    exact onWorld_of_eq asks rfl rfl rfl
  · intro s slave runs nowhere
    have asks := timeRequest_slave slave runs
    rw [nowhere] at asks
    exact onWorld_of_eq asks rfl rfl rfl
  · intro s slave runs
    have log := onlyLog_flt 0x3401 0xFF 0xFF 0 locNone (s.modClk (fun c => { c with synced := false, good := 0 }))
    exact onCore_of_eq (timeLoss_slave slave runs) log.pending log.cfg
  · intro s away
    have nothing : (isMaster s || !s.ctl.clk.running) = true := by simpa using away
    exact ⟨onWorld_of_eq (if_pos nothing) rfl rfl rfl, onCore_of_eq (if_pos nothing) rfl rfl⟩
  · intro t1 t2 t3 t4 hops adj off s slave runs link offset
    have reply := timeReply_slave (hops := hops) (adj := adj) slave runs link offset
    by_cases late : 1000 ≤ off
    · rw [if_pos late] at reply
      have log := onlyLog_flt 0x3402 0xFF 0xFF 0 locNone ((replyTold off adj hops s).modClk (fun c => { c with
        ns := wrapAdd 64 c.ns off.toNat, synced := false, good := 0, lastSyncNs := c.ns }))
      exact ⟨_, onCore_of_eq reply log.pending log.cfg, log.cfg, log.jobs, congrArg Topo.hops log.topo, fun _ => log.ctl,
        fun early _ => absurd late (by omega), fun _ near => absurd late (by omega)⟩
    · rw [if_neg late] at reply
      by_cases slews : (off ≤ -1000 && !s.ctl.clk.slew) = true
      · rw [if_pos slews] at reply
        have early : off ≤ -1000 := by simpa using (Bool.and_eq_true _ _ |>.mp slews).1
        have log := onlyLog_flt 0x3402 0xFF 0xFF 0 locNone ((replyTold off adj hops s).modClk (fun c => { c with
          slew := true, synced := false, good := 0, lastSyncNs := c.ns }))
        exact ⟨_, onCore_of_eq reply log.pending log.cfg, log.cfg, log.jobs, congrArg Topo.hops log.topo, fun late' => absurd late' late,
          fun _ _ => log.ctl, fun near _ => absurd early (by omega)⟩
      · rw [if_neg slews] at reply
        refine ⟨_, onCore_of_eq reply rfl rfl, rfl, rfl, rfl, fun late' => absurd late' late, fun early steady => absurd ?_ slews, fun near near' => ?_⟩
        · simp [early, steady]
        · by_cases close : off.natAbs < 20
          · simp [replyTold, State.modClk, State.modLink, close, show ¬ 20 ≤ off.natAbs by omega]
          · simp [replyTold, State.modClk, State.modLink, close, show 20 ≤ off.natAbs by omega]
  · intro h mask action rate ms s ready low high some_ inMask slow short long auth
    have log := onlyLog_flt 0x3501 0x0A 0xFF 0 locNone
      ((counted h s).onW (fun w => { w with foul := { armed := mask, action := action, rate := rate, ms := ms, hits := 0 } }))
    refine exec_foulArm ready ((foulArmOwn_passes (by omega) inMask (by omega) slow (by omega)).trans ?_) ((OnlyWorld.onW _ _).trans log.world)
    rw [if_neg (by rw [show (counted h s).w.sl.foulAuth = true from auth]; exact Bool.false_ne_true), if_neg (by omega)]
    rfl
  · intro h mask rate ms s ready inMask slow auth
    refine exec_foulArm ready ((foulArmOwn_passes (by omega) inMask (by omega) slow (by omega)).trans ?_) (onlyWorld_disarmFoul _)
    rw [if_neg (by rw [show (counted h s).w.sl.foulAuth = true from auth]; exact Bool.false_ne_true), if_pos rfl]
    rfl
  · intro h mask action rate ms s ready reserved
    exact exec_foulArm ready (foulArmOwn_action reserved) (.refl _)
  · intro h mask action rate ms s ready known out
    exact exec_foulArm ready (foulArmOwn_mask known out) (.refl _)
  · intro h mask action rate ms s ready known inMask named fast
    exact exec_foulArm ready (foulArmOwn_rate known inMask named fast) (.refl _)
  · intro h mask action rate ms s ready acts known named inMask slow out
    exact exec_foulArm ready (foulArmOwn_duration known inMask (by omega) (by omega) slow out) (.refl _)
  · intro h mask action rate ms s ready known inMask fields slow unauth
    refine exec_foulArm ready ((foulArmOwn_passes known inMask (fun acts => (fields acts).1) slow (fun acts => (fields acts).2)).trans (if_pos ?_)) (.refl _)
    rw [show (counted h s).w.sl.foulAuth = false from unauth]
    rfl
  · intro s armed
    have world := onlyWorld_disarmFoul s
    rw [disarmFoul_armed armed] at world
    exact world.runs (disarmFoul_armed armed)
  · intro s auth
    have world := onlyWorld_endFoulAuth s
    obtain ⟨unauth, left, disarmed, injector⟩ := endFoulAuth_ends auth
    exact ⟨_, world.runs rfl, world.cfg, world.ctl, unauth, left, disarmed, injector⟩
  · intro s
    exact ⟨fun none => (OnlyWorld.refl s).runs (if_pos none), fun none => (OnlyWorld.refl s).runs (if_pos (by simp [none]))⟩

end Sys2Proof.Machine
end

section
/-! Huddles (R378, R379, R431): what asks for one, what a module alone makes of it, and what ends it. -/

namespace Sys2Proof.Machine

open Sys2Proof

section

variable {s t u : State} {j : Nat}

/-! ### Replies count faults and leave the jobs otherwise -/

/-- Of the jobs only the counts of faults change. -/
def JobsButFaults (s t : State) : Prop := ∀ k, ∃ n a, t.job k = { s.job k with faults := n, lastFault := a }

namespace JobsButFaults

theorem of_jobs (jobs : t.w.jobs = s.w.jobs) : JobsButFaults s t := fun k =>
  ⟨(s.job k).faults, (s.job k).lastFault, by simp only [State.job, jobs]⟩

theorem refl (s : State) : JobsButFaults s s := of_jobs rfl

theorem trans (h : JobsButFaults s t) (k : JobsButFaults t u) : JobsButFaults s u := fun i => by
  obtain ⟨_, _, first⟩ := h i
  obtain ⟨n, a, second⟩ := k i
  exact ⟨n, a, by rw [second, first]⟩

theorem ite {p : Prop} [Decidable p] (h : JobsButFaults s t) (k : JobsButFaults s u) : JobsButFaults s (if p then t else u) := by
  split
  · exact h
  · exact k

theorem forAll {α : Type} {l : List α} {f : α → State → State} (hf : ∀ x s, JobsButFaults s (f x s)) (s : State) : JobsButFaults s (forAll l f s) := by
  unfold Machine.forAll
  induction l generalizing s with
  | nil => exact refl s
  | cons x r ih => exact (hf x s).trans (ih _)

theorem of_onlyLog (h : OnlyLog s t) : JobsButFaults s t := of_jobs h.jobs

/-- A job whose faults are counted is no job at its default, so it is listed wherever its key stands. -/
theorem countFault (j a : Nat) (s : State) : JobsButFaults s (s.modJob j (fun b => { b with faults := satAdd 32 b.faults 1, lastFault := a })) := by
  intro k
  rcases eq_or_ne k j with rfl | other
  · refine ⟨_, _, tget_tput_of_ne s.w.jobs k fun none => ?_⟩
    have counted : satAdd 32 (s.job k).faults 1 = 0 := congrArg Job.faults none
    unfold satAdd at counted
    omega
  · exact ⟨(s.job k).faults, (s.job k).lastFault, job_modJob_ne _ s other⟩

theorem notePark (ch j kind a : Nat) (s : State) : JobsButFaults s (notePark ch j kind a s) :=
  .trans (.ite (.countFault j a s) (.refl s)) (.of_onlyLog (onlyLog_flt _ _ _ _ _ _))

theorem pageRequest (j page : Nat) (s : State) : JobsButFaults s (pageRequest j page s) := .ite (.refl s) (.of_jobs rfl)

theorem drainDone (q : Nat) (s : State) : JobsButFaults s (drainDone q s) := .ite (.of_jobs rfl) (.refl s)

theorem haltQueue (q err : Nat) (s : State) : JobsButFaults s (haltQueue q err s) :=
  .of_jobs ((onlyLog_event _ _ _ _ _ _).jobs.trans (onlyLog_flt _ _ _ _ _ _).jobs)

theorem countReply (h : Hdr) (s : State) : JobsButFaults s (countReply h s) := by
  refine .trans (.trans (.of_jobs (t := s.modQueue h.q _) rfl) (.ite ?_ (.refl _))) (drainDone _ _)
  exact .of_jobs (onlyLog_fireVector _ _).jobs

theorem putReply (h : Hdr) (bs : Bytes) (s : State) : JobsButFaults s (putReply h bs s) := by
  refine .ite (.ite (.of_jobs rfl) ?_) ((JobsButFaults.of_jobs (t := s.modQueue h.q _) rfl).trans (drainDone _ _))
  split
  · rename_i s1 wrote
    have log : OnlyLog s s1 := (congrArg (fun w => OnlyLog s w.2) wrote).mp (onlyLog_ringWrite _ _ _ _)
    exact (of_onlyLog log).trans (countReply h s1)
  · exact .ite (((notePark _ _ _ _ s).trans (.of_jobs (t := State.modQueue _ _ _) rfl)).trans (pageRequest _ _ _))
      (((notePark _ _ _ _ s).trans (.of_jobs (t := State.modQueue _ _ _) rfl)).trans (haltQueue _ _ _))

theorem settleFences (n : Nat) (s : State) : JobsButFaults s (settleFences n s) := by
  induction n generalizing s with
  | zero => exact .refl s
  | succ n ih =>
    unfold Machine.settleFences
    split
    · exact .refl s
    · exact ((JobsButFaults.of_jobs (t := dropOrd _ s) rfl).trans (putReply _ _ _)).trans (ih _)

theorem complete (r : Run) (st d unit : Nat) (bs : Bytes) (s : State) : JobsButFaults s (complete r st d unit bs s) :=
  ((JobsButFaults.of_jobs (t := dropOrd r.ord s) rfl).trans (putReply _ _ _)).trans (settleFences _ _)

theorem completeAll (p : Run → Bool) (st d unit : Nat) (bs : Run → Bytes) (s : State) : JobsButFaults s (completeAll p st d unit bs s) :=
  .forAll (fun r s => complete r st d unit (bs r) s) s

theorem waiting (h : JobsButFaults s t) (k : Nat) : (t.job k).waiting = (s.job k).waiting := by
  obtain ⟨n, a, same⟩ := h k
  rw [same]

end JobsButFaults

/-! ### Asking (R378) -/

theorem onlyWorld_controlAll (j step kind flags node epoch a b count : Nat) (s : State) :
    OnlyWorld s (controlAll j step kind flags node epoch a b count s) :=
  .forAll _ _ (fun _ s => onlyWorld_control _ _ _ _ _ _ _ _ _ _ s) s

theorem onlyWorld_askHuddle (j reason boundary : Nat) (s : State) : OnlyWorld s (askHuddle j reason boundary s) := by
  unfold askHuddle
  exact .ite (.refl s) (((onlyWorld_modHud _ _ s).trans (onlyWorld_controlAll _ _ _ _ _ _ _ _ _ _)).trans (onlyWorld_hudAdvance _ _))

/-! ### A module alone ends its huddle at once -/

variable {x h : Hud} {bd cut : Nat}

/-- The state a huddle of job `j` leaves when it ends, before any command is answered. -/
def hudLeft (j : Nat) (s : State) : State :=
  s.onW (fun w => { w with reel := { w.reel with huds := w.reel.huds.filter (fun x => x.job != j) } })

/-- HUDDLE and STEP_ABORT of job `j` answered with the cut. -/
def hudAnswered (j cut : Nat) (s : State) : State :=
  completeAll (fun r => r.op = 0x0303 && r.hdr.job = j) 0 0 0xFF (fun r => leBytes 8 r.a)
    (completeAll (fun r => r.op = 0x0505 && r.hdr.job = j) 0 0 0xFF (fun _ => leBytes 8 cut) s)

/-- What stands after the exit of a huddle of a module alone that takes no checkpoint and has nothing waiting. -/
theorem hudExit_alone (hud : hudOf s j = some h) (at_ : h.cut = some cut) (noPlan : s.w.topo.jobPlan = none) (idle : (s.job j).waiting = [])
    (noCkpt : s.w.ck.state ≠ 1) : OnlyWorld s (hudExit j s) ∧ hudOf (hudExit j s) j = none ∧ Claims.answered [0x0505, 0x0303] j (hudExit j s) := by
  have world := onlyWorld_hudExit j s
  have exits : hudExit j s = startWaiting j (if h.reason = 1 then armCut j cut (hudAnswered j cut (hudLeft j s)) else hudAnswered j cut (hudLeft j s)) := by
    rw [hudExit, hud]
    dsimp only
    rw [at_, downNodes_of_no_plan noPlan]
    rfl
  have one : Answers (hudLeft j s) (completeAll (fun r => r.op = 0x0505 && r.hdr.job = j) 0 0 0xFF (fun _ => leBytes 8 cut) (hudLeft j s)) :=
    answers_completeAll ..
  have two : Answers _ (hudAnswered j cut (hudLeft j s)) := answers_completeAll (p := fun r => r.op = 0x0303 && r.hdr.job = j) ..
  have answers := one.trans two
  have noArm : armCut j cut (hudAnswered j cut (hudLeft j s)) = hudAnswered j cut (hudLeft j s) := if_neg (by
    rw [show (hudAnswered j cut (hudLeft j s)).w.ck = s.w.ck by rw [answers.reply]; rfl]
    simp [noCkpt])
  have waits : ((hudAnswered j cut (hudLeft j s)).job j).waiting = [] := by
    have jobs : JobsButFaults (hudLeft j s) (hudAnswered j cut (hudLeft j s)) := (JobsButFaults.completeAll _ _ _ _ _ _).trans (.completeAll _ _ _ _ _ _)
    rw [jobs.waiting]
    exact idle
  rw [exits] at world ⊢
  rw [noArm, ite_self, startWaiting_alone waits] at world ⊢
  refine ⟨world, ?_, ?_⟩
  · have huds : (hudAnswered j cut (hudLeft j s)).w.reel.huds = (hudLeft j s).w.reel.huds := by rw [answers.reply]
    rw [hudOf, huds, List.find?_eq_none]
    intro y left
    simpa using (List.mem_filter.mp left).2
  · intro c left op mine
    have before := two.inflight left
    have abort := not_selected_of_mem_completeAll left
    have huddle := not_selected_of_mem_completeAll before
    rcases List.mem_cons.mp op with isHuddle | isAbort
    · simp [isHuddle, mine] at huddle
    · simp [List.mem_singleton.mp isAbort, mine] at abort

/-- The one member there is has asked and stands at the cut: its huddle is over. -/
theorem hudAdvance_alone (asked : Asked s j h bd) (alone : Claims.alone s) (goesOn : stopsStep h.reason = false) (idle : (s.job j).run = none)
    (waits : (s.job j).waiting = []) (noCkpt : s.w.ck.state ≠ 1) :
    hudOf (hudAdvance j s) j = none ∧ Claims.answered [0x0505, 0x0303] j (hudAdvance j s) := by
  obtain ⟨noPlan, here⟩ := alone
  have fixed := hudOf_fixCut asked.hud
  have fixes : OnlyHuds s (fixCut j s) := onlyHuds_modHud j _ s
  have enters : OnlyHuds s (enterHud j (fixCut j s)) := fixes.trans (onlyHuds_modHud j _ _)
  have entered : hudOf (enterHud j (fixCut j s)) j = some { h with cut := some (cutOf s j h), entered := true } := by
    rw [enterHud, hudOf_modHud, fixed]
    rfl
  have reached : atCut (fixCut j s) j (cutOf s j h) h.reason = true := by rw [atCut, fixes.job, idle]
  have step : (if (!h.entered && atCut (fixCut j s) j (cutOf s j h) h.reason) = true then
      modHud j (fun h => { h with entered := true }) (stopAtCut j { h with cut := some (cutOf s j h) } (fixCut j s)) else fixCut j s) =
      enterHud j (fixCut j s) := by
    rw [if_pos (by rw [asked.unentered, reached]; rfl), stopAtCut_of_going_on (h := { h with cut := some (cutOf s j h) }) goesOn]
    rfl
  have one : liveMembers (enterHud j (fixCut j s)) j = [s.w.topo.node] := by
    rw [liveMembers_of_not_lost (enters.topo ▸ noPlan) (by rwa [enters.topo]), enters.topo]
  have combined (x : Hud) : hudCombined (enterHud j (fixCut j s)) j x = some 1 := by
    simp [hudCombined, downNodes_of_no_plan (j := j) (enters.topo ▸ noPlan), sumNat]
  have exits : hudAdvance j s = hudExit j (modHud j (fun h => { h with sentUp := true, exited := true }) (enterHud j (fixCut j s))) := by
    rw [hudAdvance, asked.hud]
    dsimp only
    rw [asked.fixes noPlan, fixed]
    dsimp only
    rw [step, entered]
    dsimp only
    rw [asked.unsent, combined, upNode_of_no_plan (enters.topo ▸ noPlan), one]
    rfl
  have leaves := enters.trans (onlyHuds_modHud j (fun h => { h with sentUp := true, exited := true }) _)
  have last : hudOf (modHud j (fun h => { h with sentUp := true, exited := true }) (enterHud j (fixCut j s))) j =
      some { h with cut := some (cutOf s j h), entered := true, sentUp := true, exited := true } := by
    rw [hudOf_modHud, entered]
    rfl
  rw [exits]
  have ck : (modHud j (fun h => { h with sentUp := true, exited := true }) (enterHud j (fixCut j s))).w.ck = s.w.ck := by
    rw [leaves]; rfl
  exact (hudExit_alone last rfl (leaves.topo ▸ noPlan) (by rw [leaves.job, waits]) (by rwa [ck])).2

/-- The first to ask, on a module alone. -/
theorem askHuddle_alone {reason boundary : Nat} (noHuddle : hudOf s j = none) (alone : Claims.alone s) (goesOn : stopsStep reason = false)
    (idle : (s.job j).run = none) (waits : (s.job j).waiting = []) (noCkpt : s.w.ck.state ≠ 1) :
    hudOf (askHuddle j reason boundary s) j = none ∧ Claims.answered [0x0505, 0x0303] j (askHuddle j reason boundary s) := by
  set a := modHud j (fun h => { h with
      reason := if h.reqs.isEmpty then reason else h.reason
      reqs := h.reqs ++ [(s.w.topo.node, max boundary (reachable (s.job j)), goodStep (s.job j))] }) s with aIs
  have only : OnlyHuds s a := onlyHuds_modHud j _ s
  have noPlan : a.w.topo.jobPlan = none := by rw [only.topo, alone.1]
  have asks : askHuddle j reason boundary s = hudAdvance j a := by
    rw [askHuddle, noHuddle]
    dsimp only
    rw [if_neg Bool.false_ne_true, controlAll_of_no_plan noPlan]
  have hud : hudOf a j = some { job := j, reason := reason, reqs := [(s.w.topo.node, max boundary (reachable (s.job j)), goodStep (s.job j))] } := by
    rw [aIs, hudOf_modHud, noHuddle]
    rfl
  have asked : Asked a j _ (max boundary (reachable (s.job j))) := ⟨hud, rfl, rfl, rfl, _, by rw [only.topo]⟩
  have ck : a.w.ck = s.w.ck := by rw [only]; rfl
  rw [asks]
  exact hudAdvance_alone asked (by rw [Claims.alone, only.topo]; exact alone) goesOn (by rw [only.job, idle]) (by rw [only.job, waits]) (by rwa [ck])

/-! ### HUDDLE and the messages of a huddle -/

variable {hd : Hdr} {reason boundary : Nat}

theorem startCmd_huddle (ready : Ready 0x0505 hd s) (low : 1 ≤ reason) (high : reason ≤ 6) :
    startCmd (.huddle hd reason boundary) 0x0505 hd (huddleOwn reason boundary) s = runsOn 0x0505 hd s reason boundary (counted hd s) :=
  startCmd_later ready (if_neg (by simp [low, high]))

theorem runHuddle_accepted (ready : Ready 0x0505 hd s) (low : 1 ≤ reason) (high : reason ≤ 6) :
    runHuddle hd reason boundary s = match hudOf s hd.job with
      | some _ => hudAdvance hd.job (runsOn 0x0505 hd s reason boundary (counted hd s))
      | none => askHuddle hd.job reason boundary (runsOn 0x0505 hd s reason boundary (counted hd s)) := by
  have runs : accepted s (runsOn 0x0505 hd s reason boundary (counted hd s)) = true := accepted_runsOn rfl
  rw [runHuddle, startCmd_huddle ready low high]
  exact if_pos runs

theorem runHuddle_first (ready : Ready 0x0505 hd s) (low : 1 ≤ reason) (high : reason ≤ 6) (first : hudOf s hd.job = none) :
    runHuddle hd reason boundary s = askHuddle hd.job reason boundary (runsOn 0x0505 hd s reason boundary (counted hd s)) := by
  rw [runHuddle_accepted ready low high, first]

theorem runHuddle_joins (ready : Ready 0x0505 hd s) (low : 1 ≤ reason) (high : reason ≤ 6) (hud : hudOf s hd.job = some x) :
    runHuddle hd reason boundary s = hudAdvance hd.job (runsOn 0x0505 hd s reason boundary (counted hd s)) := by
  rw [runHuddle_accepted ready low high, hud]

theorem runHuddle_refused (ready : Ready 0x0505 hd s) (out : ¬(1 ≤ reason ∧ reason ≤ 6)) :
    runHuddle hd reason boundary s = finish 0x0505 hd s 0x11 16 0xFF [] (counted hd s) := by
  have own : huddleOwn reason boundary (counted hd s) = badC (counted hd s) 16 := if_pos (by simp; omega)
  rw [runHuddle, startCmd_done ready own, if_neg (by simp [not_accepted_finish])]

theorem onlyWorld_runsOn (op : Nat) (hd : Hdr) (a b : Nat) (s : State) : OnlyWorld s (runsOn op hd s a b (counted hd s)) := rfl

/-- A huddle for which a live member has not asked waits. -/
theorem hudAdvance_unasked (hud : hudOf s j = some x) (uncut : x.cut = none) (quiet : ∃ n ∈ liveMembers s j, ∀ q ∈ x.reqs, q.1 ≠ n) :
    hudAdvance j s = s := by
  obtain ⟨n, live, unasked⟩ := quiet
  have notAll : (liveMembers s j).all (fun n => x.reqs.any (fun q => q.1 == n)) = false :=
    List.all_eq_false.mpr ⟨n, live, by
      rw [Bool.not_eq_true]
      exact List.any_eq_false.mpr fun q asked => by simpa using unasked q asked⟩
  rw [hudAdvance, hud]
  dsimp only
  rw [notAll, Bool.and_false, if_neg Bool.false_ne_true, hud]
  dsimp only
  rw [uncut]

end

/-- Settles O49: HUDDLE, then the messages of its members, then its time limit. -/
theorem huddlesGatherAndEnd : Obligations.HuddlesGatherAndEnd := by
  unfold Obligations.HuddlesGatherAndEnd
  refine ⟨?_, ?_, ?_, ?_, ?_, ?_, ?_, ?_, ?_, ?_, ?_⟩
  · intro h reason boundary s ready low high first
    exact ((onlyWorld_runsOn 0x0505 h _ _ s).trans (onlyWorld_askHuddle _ _ _ _)).runs (runHuddle_first ready low high first)
  · intro h reason boundary s ready low high joins
    obtain ⟨x, hud⟩ := Option.ne_none_iff_exists'.mp joins
    exact ((onlyWorld_runsOn 0x0505 h _ _ s).trans (onlyWorld_hudAdvance _ _)).runs (runHuddle_joins ready low high hud)
  · intro h reason boundary s ready low high first noLoss noAbort alone idle waits noCkpt
    have world := (onlyWorld_runsOn 0x0505 h reason boundary s).trans (onlyWorld_askHuddle h.job reason boundary _)
    obtain ⟨ended, answered⟩ := askHuddle_alone (s := runsOn 0x0505 h s reason boundary (counted h s)) (j := h.job) (boundary := boundary)
      (reason := reason) first alone (by simp [stopsStep, noLoss, noAbort]) idle waits noCkpt
    exact ⟨_, world.runs (runHuddle_first ready low high first), world.cfg, world.ctl, ended, answered⟩
  · intro h reason boundary s ready out
    exact ((onlyWorld_counted h s).trans (onlyReply_finish _ _ _ _ _ _ _ _).world).runs (runHuddle_refused ready (by omega))
  · intro j src reason boundary good s unheard noAbort
    have meaning : huddleRequest j src reason boundary good s = hudAdvance j (askHuddle j reason 0 (modHud j (fun x => { x with
        reason := if x.reqs.isEmpty then reason else x.reason, reqs := x.reqs ++ [(src, boundary, good)] }) s)) := by
      refine (if_neg ?_).trans (if_neg noAbort)
      split
      · next x hud =>
        rw [Bool.not_eq_true]
        exact List.any_eq_false.mpr fun q asked => by simpa using unheard x hud q asked
      · exact Bool.false_ne_true
    exact (((onlyWorld_modHud _ _ s).trans (onlyWorld_askHuddle _ _ _ _)).trans (onlyWorld_hudAdvance _ _)).runs meaning
  · rintro j src reason boundary good x s hud ⟨q, asked, same⟩
    have meaning : huddleRequest j src reason boundary good s = s := by
      rw [huddleRequest, hud]
      exact if_pos (List.any_eq_true.mpr ⟨q, asked, by simpa using same⟩)
    exact (OnlyWorld.refl s).runs meaning
  · intro j src boundary count x s hud _ uncut quiet _
    have kept : hudOf (modHud j (fun x => { x with kids := x.kids.filter (fun k => k.src != src) ++
        [{ src := src, step := boundary, count := count }] }) s) j = some _ := hudOf_modHud
    rw [hud] at kept
    have only := onlyHuds_modHud j (fun x => { x with kids := x.kids.filter (fun k => k.src != src) ++
        [{ src := src, step := boundary, count := count }] }) s
    have live : liveMembers (modHud j (fun x => { x with kids := x.kids.filter (fun k => k.src != src) ++
        [{ src := src, step := boundary, count := count }] }) s) j = liveMembers s j := by rw [only]; rfl
    exact (onlyWorld_modHud _ _ s).runs (hudAdvance_unasked kept uncut (by rw [live]; exact quiet))
  · intro j boundary count x s hud entered cut all
    have meaning : huddleDown j boundary count s = hudExit j (modHud j (fun x => { x with exited := true }) s) := by
      rw [huddleDown, hud]
      exact if_pos (by simp [entered, cut, all])
    exact ((onlyWorld_modHud _ _ s).trans (onlyWorld_hudExit _ _)).runs meaning
  · intro j boundary count s other
    have meaning : huddleDown j boundary count s = s := by
      unfold huddleDown
      split
      · next x hud => exact if_neg (by rcases other x hud with no | no | no <;> simp [no])
      · rfl
    exact (OnlyWorld.refl s).runs meaning
  · intro j x s hud entered stands first
    have meaning : huddleTimeout j s = completeAll (fun r => r.op = 0x0505 && r.hdr.job = j) 0x62 0 0x06 (fun _ => leBytes 8 (x.cut.getD 0))
        (flt 0x3601 0x06 j (x.cut.getD 0) locNone (modHud j (fun x => { x with timedOut := true }) s)) := by
      rw [huddleTimeout, hud]
      exact if_pos (by simp [entered, stands, first])
    exact (((onlyWorld_modHud _ _ s).trans (onlyWorld_flt _ _ _ _ _ _)).trans (onlyWorld_completeAll _ _ _ _ _ _)).runs meaning
  · intro j s other
    have meaning : huddleTimeout j s = s := by
      unfold huddleTimeout
      split
      · next x hud => exact if_neg (by rcases other x hud with no | no | no <;> simp [no])
      · rfl
    exact (OnlyWorld.refl s).runs meaning

end Sys2Proof.Machine
end

section
/-! Calling a step good (R377, R407, R408, R425): what the call changes on a module alone, and what a member's update changes. -/

namespace Sys2Proof.Machine

open Sys2Proof

section

variable {j n : Nat} {s t : State}

/-! ### The journal is trimmed, the exclusions count the step -/

/-- Device memory, the checkpoint, the barriers and huddles, and the topology: what no bookkeeping of a called-good step touches. -/
def State.around (s : State) : Memory × Ck × Reel × Topo := (s.w.dev, s.w.ck, s.w.reel, s.w.topo)

theorem OnlyLog.around (h : OnlyLog s t) : t.around = s.around := by rw [State.around, h.dev, h.ck, h.reel, h.topo]; rfl

theorem around_undoCounts (s : State) : (undoCounts j s).around = s.around := by
  unfold undoCounts
  refine forAll_keeps (part := State.around) (fun i s => ?_) s
  rfl

theorem around_dropEntry (s : State) : (dropEntry j n s).around = s.around :=
  (onlyLog_event _ _ _ _ _ _).around.trans (around_undoCounts _)

theorem around_trimJournal (n : Nat) (s : State) : (trimJournal n j s).around = s.around := by
  induction n generalizing s with
  | zero => rfl
  | succ n ih =>
    rcases trimJournal_succ n j s with stands | ⟨e, _, _, drops⟩
    · rw [stands]
    · rw [drops, ih, around_dropEntry]

theorem around_eq_iff : t.around = s.around ↔ t.w.dev = s.w.dev ∧ t.w.ck = s.w.ck ∧ t.w.reel = s.w.reel ∧ t.w.topo = s.w.topo := by
  simp only [State.around, Prod.mk.injEq]

/-- What a job has called good and runs. -/
def Job.called (b : Job) : Option Nat × Nat × Bool × Option StepRun := (b.lastGood, b.jobGood, b.consTillGood, b.run)

theorem Job.called_eq_iff {b : Job} {last : Option Nat} {good : Nat} {cons : Bool} {run : Option StepRun} :
    b.called = (last, good, cons, run) ↔ b.lastGood = last ∧ b.jobGood = good ∧ b.consTillGood = cons ∧ b.run = run := by
  simp only [Job.called, Prod.mk.injEq]

theorem keepsCalled_dropEntry (n : Nat) (s : State) : KeepsView j Job.called s (dropEntry j n s) :=
  ((KeepsView.modJob s rfl).trans (keepsView_undoCounts j _)).trans (.of_onlyLog (onlyLog_event _ _ _ _ _ _))

theorem keepsCalled_trimJournal (n : Nat) (s : State) : KeepsView j Job.called s (trimJournal n j s) := by
  induction n generalizing s with
  | zero => exact .refl s
  | succ n ih =>
    rcases trimJournal_succ n j s with stands | ⟨e, _, _, drops⟩
    · rw [stands]
      exact .refl s
    · rw [drops]
      exact (keepsCalled_dropEntry _ s).trans (ih _)

theorem keepsView_modCell {α : Type} {v : Job → α} (k : Nat) (f : Cell → Cell) (s : State) : KeepsView j v s (s.modCell k f) := by
  unfold State.modCell State.setCell
  exact .onW s ⟨rfl, rfl, rfl⟩

theorem around_modCell (k : Nat) (f : Cell → Cell) (s : State) : (s.modCell k f).around = s.around := rfl

theorem keepsCalled_countExclusions (s : State) : KeepsView j Job.called s (countExclusions s) := by
  unfold countExclusions
  refine .forAll (fun k s => ?_) s
  exact keepsView_modCell _ _ s

theorem around_countExclusions (s : State) : (countExclusions s).around = s.around := by
  unfold countExclusions
  refine forAll_keeps (part := State.around) (fun k s => ?_) s
  exact around_modCell _ _ s

/-! ### The job's good step -/

theorem onlyWorld_ckptReply (st d u : Nat) (s : State) : OnlyWorld s (ckptReply st d u s) := onlyWorld_completeAll _ _ _ _ _ s

theorem ckptFinish_idle (idle : s.w.ck.state ≠ 1) : ckptFinish j s = s := if_pos (by simp [idle])

/-- With no mirror held and no checkpoint in progress a reached good step is noted, and no more. -/
theorem reachGood_idle {g : Nat} (unheld : s.w.mr.inNode = 0xFFFF) (idle : s.w.ck.state ≠ 1) :
    reachGood j g s = s.modJob j (fun b => { b with jobGood := g }) := by
  have stands : mirrorGood j g (s.modJob j (fun b => { b with jobGood := g })) = s.modJob j (fun b => { b with jobGood := g }) := if_pos unheld
  rw [reachGood, stands]
  exact ckptFinish_idle idle

/-- On a module alone the job's good step is the module's own. -/
theorem goodAdvance_alone (alone : Claims.alone s) (unheld : s.w.mr.inNode = 0xFFFF) (idle : s.w.ck.state ≠ 1) (called : (s.job j).lastGood = some n)
    (numbered : n ≠ noGood) :
    goodAdvance j s = if (s.job j).jobGood < n then s.modJob j (fun b => { b with jobGood := n }) else s := by
  have own : goodKey ((s.job j).lastGood.getD noGood) - 1 = n := by simp [called, goodKey, numbered]
  rw [goodAdvance, upNode_alone alone, downNodes_alone alone]
  simp only [List.map_nil, List.foldl_nil, own]
  exact if_congr Iff.rfl (reachGood_idle unheld idle) rfl

theorem barAdvance_absent (none : barOf s j = none) : barAdvance j s = s := by simp [barAdvance, barCombined, none]

/-! ### A step is called good -/

/-- The entry of step `n` is marked good, and what its mode epoch kept of the one before is let go (R163, R372, R408). -/
def markGood (j n : Nat) (e : Jrn) (s : State) : State :=
  s.modJob j (fun b => { pushNorms e (b.modEntry n (fun x => { x with good := true, endNs := s.now, saved := [] })) with
    lastGood := some n, consTillGood := b.consTillGood && decide (n < b.consFrom), consKept := b.consKept.filter (fun x => x.1 != n)
    prev := (match b.epochFirst with
      | some f => if f ≤ n then b.prev.map ModeRec.release else b.prev
      | none => b.prev)
    resid := (match b.epochFirst with
      | some f => if f ≤ n then b.resid.filter (fun r => b.compress.any (fun c => c.1 == r.tensor && c.2.1 != 0)) else b.resid
      | none => b.resid)
    applied := match b.applied with
      | some (k, m) => if k ≤ n then none else some (k, m)
      | none => none })

/-- A marked step is logged and counted, and the journal is trimmed to its depth. -/
def noteGood (j n : Nat) (s : State) : State := trimJournal 16 j (event 0x0006 0x05 j n 0 (countExclusions s))

theorem keepsCalled_noteGood (s : State) : KeepsView j Job.called s (noteGood j n s) :=
  ((keepsCalled_countExclusions s).trans (.of_onlyLog (onlyLog_event _ _ _ _ _ _))).trans (keepsCalled_trimJournal _ _)

theorem around_noteGood (s : State) : (noteGood j n s).around = s.around :=
  (around_trimJournal _ _).trans ((onlyLog_event _ _ _ _ _ _).around.trans (around_countExclusions s))

theorem called_markGood {e : Jrn} (rising : Claims.rising s.w.jobs) : ((markGood j n e s).job j).called =
    (some n, (s.job j).jobGood, (s.job j).consTillGood && decide (n < (s.job j).consFrom), (s.job j).run) := by
  rw [markGood, job_modJob_self _ rising]
  rfl

theorem calledGood_unmet (unmet : goodConds s j n = false) : calledGood j n s = s := if_pos (by simp [unmet])

theorem entry_of_goodConds (met : goodConds s j n = true) : ∃ e, (s.job j).entry? n = some e := by
  unfold goodConds at met
  cases found : (s.job j).entry? n with
  | some e => exact ⟨e, rfl⟩
  | none => simp [found] at met

theorem calledGood_unentered {e : Jrn} (met : goodConds s j n = true) (entry : (s.job j).entry? n = some e) (outside : barOf s j = none) :
    calledGood j n s = barAdvance j (goodAdvance j (noteGood j n (markGood j n e s))) := by
  have bar : barOf (noteGood j n (markGood j n e s)) j = none := by
    obtain ⟨_, _, reel, _⟩ := around_eq_iff.mp (around_noteGood (j := j) (n := n) (markGood j n e s))
    rw [barOf, reel]
    exact outside
  rw [calledGood, entry, if_neg (by simp [met])]
  refine congrArg (fun u => barAdvance j (goodAdvance j u)) ?_
  split
  · next x entered => exact absurd (bar.symm.trans entered) nofun
  · rfl

/-- On a module alone with no barrier entered: what is left of the call when the step is marked, logged and counted. -/
theorem calledGood_alone {e : Jrn} (rising : Claims.rising s.w.jobs) (met : goodConds s j n = true) (entry : (s.job j).entry? n = some e)
    (numbered : n ≠ noGood) (alone : Claims.alone s) (unheld : s.w.mr.inNode = 0xFFFF) (idle : s.w.ck.state ≠ 1) (outside : barOf s j = none) :
    calledGood j n s = if (s.job j).jobGood < n then (noteGood j n (markGood j n e s)).modJob j (fun b => { b with jobGood := n })
      else noteGood j n (markGood j n e s) := by
  have notes := keepsCalled_noteGood (j := j) (n := n) (markGood j n e s)
  have around : (noteGood j n (markGood j n e s)).around = s.around := around_noteGood _
  obtain ⟨_, ck, reel, topo⟩ := around_eq_iff.mp around
  have marked := (notes.own (rising_tput _ _ _ _ rising)).trans (called_markGood rising)
  obtain ⟨called, good, _, _⟩ := Job.called_eq_iff.mp marked
  rw [calledGood_unentered met entry outside, goodAdvance_alone (n := n) (by rw [Claims.alone, topo]; exact alone) ((congrArg Mr.inNode notes.mirror).trans unheld)
    (by rwa [ck]) called numbered, good]
  refine barAdvance_absent ?_
  rw [apply_ite (barOf · j)]
  simp only [barOf, State.modJob, State.setJob, State.onW_w, reel, ite_self]
  exact outside

/-- Calling a step good changes no job but its own. -/
theorem keepsDev_calledGood {e : Jrn} (rising : Claims.rising s.w.jobs)
    (meaning : t = if (s.job j).jobGood < n then (noteGood j n (markGood j n e s)).modJob j (fun b => { b with jobGood := n })
      else noteGood j n (markGood j n e s)) : OnlyJob j s t ∧ t.w.dev = s.w.dev ∧ (t.job j).called =
        (some n, max (s.job j).jobGood n, (s.job j).consTillGood && decide (n < (s.job j).consFrom), (s.job j).run) := by
  have notes := keepsCalled_noteGood (j := j) (n := n) (markGood j n e s)
  have marks : OnlyJob j s (noteGood j n (markGood j n e s)) := .trans (.modJob s rfl) notes.only
  obtain ⟨dev, _⟩ := around_eq_iff.mp (around_noteGood (j := j) (n := n) (markGood j n e s))
  have marked := (notes.own (rising_tput _ _ _ _ rising)).trans (called_markGood rising)
  rw [meaning]
  split
  · next newer =>
    refine ⟨marks.trans (.modJob _ rfl), (State.modJob_w_dev _ _ _).trans dev, ?_⟩
    obtain ⟨last, _, cons, run⟩ := Job.called_eq_iff.mp marked
    rw [job_modJob_self _ (marks.rising rising), max_eq_right newer.le]
    simp only [Job.called, last, cons, run]
  · next older => exact ⟨marks, dev, by rw [marked, max_eq_left (not_lt.mp older)]⟩

/-! ### Conditions and updates -/

theorem goodConds_met {e : Jrn} (entry : (s.job j).entry? n = some e) (met : goodConds s j n = true) :
    e.ended = true ∧ e.failed = false ∧ e.plaus = true ∧ ackMet s e = true ∧ (∀ x ∈ (s.job j).samps, x.step ≠ n) ∧
      (∀ x ∈ (s.job j).jrn, x.step < n → x.good = true) := by
  rw [goodConds, entry] at met
  simp only [Bool.and_eq_true, Bool.not_eq_true', List.all_eq_true, bne_iff_ne, Bool.or_eq_true, decide_eq_true_eq] at met
  obtain ⟨⟨⟨⟨⟨⟨⟨ended, succeeded⟩, _⟩, plausible⟩, acked⟩, _⟩, sampled⟩, older⟩ := met
  exact ⟨ended, succeeded, plausible, acked, sampled, fun x inJournal less => (older x inJournal).resolve_left (by omega)⟩

theorem onlyWorld_userUnpark (c : Nat) (s : State) : OnlyWorld s (userUnpark c s) := .ite rfl (.refl s)

theorem onlyWorld_ckptFinish (j : Nat) (s : State) : OnlyWorld s (ckptFinish j s) := by
  unfold ckptFinish
  extract_lets ck n leaf root addr
  refine .ite (.refl s) ?_
  split
  · next k page dva s1 missed =>
    unfold ckptMiss ckptFault
    refine .ite (onlyWorld_userPark _ _ _ _ _ s) (.trans ?_ (onlyWorld_userUnpark _ _))
    exact (onlyWorld_flt _ _ _ _ _ _).trans (onlyWorld_ckptReply _ _ _ _)
  · next s1 wrote =>
    have writes : OnlyWorld s s1 := by
      have log := (onlyLog_jobWrite s j addr (shardRecord s root)).world
      rwa [wrote] at log
    exact ((((writes.trans (OnlyWorld.onW s1 _)).trans (onlyWorld_flt _ _ _ _ _ _)).trans (onlyWorld_ckptReply _ _ _ _)).trans (OnlyWorld.onW _ _))

theorem onlyWorld_reachGood (j g : Nat) (s : State) : OnlyWorld s (reachGood j g s) :=
  (((OnlyWorld.modJob s j _).trans (onlyWorld_mirrorGood _ _ _)).trans (onlyWorld_ckptFinish _ _))

theorem onlyWorld_goodAdvance (j : Nat) (s : State) : OnlyWorld s (goodAdvance j s) := by
  unfold goodAdvance
  split
  · exact .ite ((OnlyWorld.modJob s j _).trans (onlyWorld_control _ _ _ _ _ _ _ _ _ _ _)) (.refl s)
  · exact .ite ((onlyWorld_reachGood _ _ s).trans (.forAll _ _ (fun _ s => onlyWorld_control _ _ _ _ _ _ _ _ _ _ s) _)) (.refl s)

theorem calledGoodUpdate_above {src good : Nat} (above : upNode s j = some src) (newer : (s.job j).jobGood < good) :
    calledGoodUpdate j src good s =
      forAll (downNodes s j) (fun d s => control d j 0 9 0 s.w.topo.node (s.job j).modeEpoch good 0 0 s) (reachGood j good s) := by
  rw [calledGoodUpdate, if_pos above, if_pos newer]

theorem calledGoodUpdate_below {src good : Nat} (other : upNode s j ≠ some src) (below : src ∈ downNodes s j) (outside : barOf s j = none) :
    calledGoodUpdate j src good s = barAdvance j (goodAdvance j (s.modJob j (fun b => { b with kidGood := putAssoc src good b.kidGood }))) := by
  refine ((if_neg other).trans (if_pos (List.contains_iff_mem.mpr below))).trans ?_
  refine congrArg (fun u => barAdvance j (goodAdvance j u)) ?_
  split
  · next x entered => exact absurd (outside.symm.trans entered) nofun
  · rfl

theorem calledGoodUpdate_kept {src good : Nat}
    (old : (upNode s j = some src ∧ good ≤ (s.job j).jobGood) ∨ (upNode s j ≠ some src ∧ src ∉ downNodes s j)) : calledGoodUpdate j src good s = s := by
  rcases old with ⟨above, older⟩ | ⟨other, notBelow⟩
  · exact (if_pos above).trans (if_neg (by omega))
  · exact (if_neg other).trans (if_neg (by simpa using notBelow))

end

/-- Settles O48: the call where R408 is not met and where it is, the conditions, and the updates of members. -/
theorem stepsAreCalledGood : Obligations.StepsAreCalledGood := by
  unfold Obligations.StepsAreCalledGood
  refine ⟨fun j n s => ⟨fun clocked unmet => ?_, fun clocked met numbered alone unheld idle outside rising => ?_⟩, ?_, ?_, ?_, ?_⟩
  · exact onWorld_fabric_of_onlyWorld clocked (calledGood_unmet unmet) (.refl s)
  · obtain ⟨e, entry⟩ := entry_of_goodConds met
    obtain ⟨only, dev, called⟩ := keepsDev_calledGood rising (calledGood_alone rising met entry numbered alone unheld idle outside)
    obtain ⟨last, good, cons, run⟩ := Job.called_eq_iff.mp called
    exact ⟨_, onWorld_fabric_of_onlyWorld clocked rfl only.world, ⟨only.world.cfg, only.world.ctl, only.others⟩, last, good, cons, run, dev⟩
  · intro j n e s entry met
    obtain ⟨ended, succeeded, plausible, acked, sampled, older⟩ := goodConds_met entry met
    exact ⟨ended, succeeded, plausible, by simpa [ackMet, or_assoc] using acked, sampled, older⟩
  · intro j src good s above newer
    exact ((onlyWorld_reachGood _ _ s).trans (.forAll _ _ (fun _ s => onlyWorld_control _ _ _ _ _ _ _ _ _ _ s) _)).runs (calledGoodUpdate_above above newer)
  · intro j src good s other below outside _
    exact (((OnlyWorld.modJob s j _).trans (onlyWorld_goodAdvance _ _)).trans (onlyWorld_barAdvance _ _)).runs (calledGoodUpdate_below other below outside)
  · intro j src good s old
    exact (OnlyWorld.refl s).runs (calledGoodUpdate_kept old)

end Sys2Proof.Machine
end

section
/-! The partner mirror (R420, R421, R424-R428, R438): its binding, what the holder does with each message, and the answers it gives. -/

namespace Sys2Proof.Machine

open Sys2Proof

section

variable {h : Hdr} {s t : State} {node role j step good kind tensor off cut : Nat} {data : Bytes} {last : Bool}

/-! ### What the parts of seeding and answering change -/

theorem onlyWorld_modMr (f : Mr → Mr) (s : State) : OnlyWorld s (modMr f s) := .onW s _

theorem onlyWorld_draw (s : State) : OnlyWorld s s.draw.2 := rfl

theorem onlyWorld_seedJob (reseed : Bool) (j : Nat) (s : State) : OnlyWorld s (seedJob reseed j s) := by
  unfold seedJob
  extract_lets b
  split
  · exact .refl s
  · extract_lets s1 s2 s3 s4
    have tensors : OnlyWorld s s1 := by
      refine .forAll _ _ (fun r s => ?_) s
      split
      · exact .refl s
      · exact .forAll _ _ (fun _ s => onlyWorld_mirrorSend _ _ _ _ _ _ _ _ _ s) s
    have residuals : OnlyWorld s1 s2 := .forAll _ _ (fun r s => .forAll _ _ (fun i s => onlyWorld_mirrorSend _ _ _ _ _ _ _ _ _ s) s) s1
    have records : OnlyWorld s2 s3 := .forAll _ _ (fun e s => onlyWorld_mirrorSend _ _ _ _ _ _ _ _ _ s) s2
    have scores : OnlyWorld s s4 := ((tensors.trans residuals).trans records).trans (onlyWorld_mirrorSend _ _ _ _ _ _ _ _ _ s3)
    refine .ite scores (scores.trans (.forAll _ _ (fun e s => ?_) s4))
    split
    · exact .refl s
    · split
      · exact .refl s
      · exact onlyWorld_mirrorSend _ _ _ _ _ _ _ _ _ s

theorem onlyWorld_seedAll (reseed : Bool) (s : State) : OnlyWorld s (seedAll reseed s) :=
  (OnlyWorld.forAll _ _ (fun j s => onlyWorld_seedJob reseed j s) s).trans (onlyWorld_mirrorSend _ _ _ _ _ _ _ _ _ _)

theorem onlyWorld_holderSend (j flags step : Nat) (s : State) : OnlyWorld s (holderSend j flags step s) := onlyWorld_sendMsg _ _ _ _ _ _ s

theorem onlyWorld_mirrorWarn (j : Nat) (s : State) : OnlyWorld s (mirrorWarn j s) :=
  .ite (OnlyWorld.trans (.ite ((onlyLog_once60 s _).world.trans (onlyWorld_flt _ _ _ _ _ _)) (.refl s)) (onlyLog_ckptAdvice _ _).world) (.refl s)

/-! ### MIRROR_BIND -/

/-- A step of some job runs. -/
def someRuns (s : State) : Bool := (tkeys s.w.jobs).any (fun j => (s.job j).run.isSome)

theorem someRuns_false (idle : ∀ e ∈ s.w.jobs, (s.job e.1).run = none) : someRuns s = false := by
  refine List.any_eq_false.mpr fun j listed => ?_
  obtain ⟨e, member, rfl⟩ := List.mem_map.mp listed
  simp [idle e member]

theorem someRuns_true (runs : ∃ e ∈ s.w.jobs, (s.job e.1).run ≠ none) : someRuns s = true := by
  obtain ⟨e, member, runs⟩ := runs
  exact List.any_eq_true.mpr ⟨e.1, List.mem_map.mpr ⟨e, member, rfl⟩, Option.isSome_iff_ne_none.mpr runs⟩

theorem mirrorBindOwn_otherRole (out : 1 < role) : mirrorBindOwn node role s = badC s 18 := if_pos (by simp; omega)

theorem mirrorBindOwn_away (low : role ≤ 1) (away : partnerUp s node = false) : mirrorBindOwn node role s = failC s 0x60 :=
  (if_neg (by simp [low])).trans (if_pos (by simp [away]))

/-- The partner is at port 6 and no plan names another: what is left to check. -/
theorem mirrorBindOwn_up (low : role ≤ 1) (up : partnerUp s node = true) (noPlan : s.w.topo.jobPlan = none) :
    mirrorBindOwn node role s =
      if role = 1 && !mirrorRoom s then failC s 0x20
      else if someRuns s then failC s 0x30
      else if role = 0 then
        (if s.w.mr.outNode = node && (s.w.mr.out = 1 || s.w.mr.out = 2) then noteC s 1
         else okC (flt0 0x6101 0x08 0xFF 0 (seedAll false (modMr (fun m => { m with out := 1, outNode := node, acked := 0, exposed := false, sent := [] }) s))))
      else if s.w.mr.inNode = node && (s.w.mr.inn = 1 || s.w.mr.inn = 2) then noteC s 1
      else okC (flt0 0x6101 0x08 0xFF 0 (bindIn node s)) := by
  rw [mirrorBindOwn, noPlan]
  exact (if_neg (by simp [low])).trans ((if_neg (by simp [up])).trans (if_neg (by simp)))

theorem mirrorBindOwn_seeds (up : partnerUp s node = true) (noPlan : s.w.topo.jobPlan = none) (idle : someRuns s = false) (unbound : s.w.mr.out = 0 ∨ s.w.mr.out = 3) :
    mirrorBindOwn node 0 s =
      okC (flt0 0x6101 0x08 0xFF 0 (seedAll false (modMr (fun m => { m with out := 1, outNode := node, acked := 0, exposed := false, sent := [] }) s))) := by
  rw [mirrorBindOwn_up (by omega) up noPlan, if_neg (by simp), if_neg (by simp [idle]), if_pos rfl, if_neg (by rcases unbound with u | u <;> simp [u])]

theorem mirrorBindOwn_holds (up : partnerUp s node = true) (noPlan : s.w.topo.jobPlan = none) (idle : someRuns s = false) (room : mirrorRoom s = true)
    (unbound : s.w.mr.inn = 0 ∨ s.w.mr.inn = 3) : mirrorBindOwn node 1 s = okC (flt0 0x6101 0x08 0xFF 0 (bindIn node s)) := by
  rw [mirrorBindOwn_up (by omega) up noPlan, if_neg (by simp [room]), if_neg (by simp [idle]), if_neg (by omega),
    if_neg (by rcases unbound with u | u <;> simp [u])]

theorem mirrorBindOwn_again (up : partnerUp s node = true) (noPlan : s.w.topo.jobPlan = none) (idle : someRuns s = false) (same : s.w.mr.outNode = node)
    (bound : s.w.mr.out = 1 ∨ s.w.mr.out = 2) : mirrorBindOwn node 0 s = noteC s 1 := by
  rw [mirrorBindOwn_up (by omega) up noPlan, if_neg (by simp), if_neg (by simp [idle]), if_pos rfl, if_pos (by simpa [same] using bound)]

theorem mirrorBindOwn_full (up : partnerUp s node = true) (noPlan : s.w.topo.jobPlan = none) (full : mirrorRoom s = false) :
    mirrorBindOwn node 1 s = failC s 0x20 := by
  rw [mirrorBindOwn_up (by omega) up noPlan, if_pos (by simp [full])]

theorem mirrorBindOwn_busy (up : partnerUp s node = true) (noPlan : s.w.topo.jobPlan = none) (runs : someRuns s = true) :
    mirrorBindOwn node 0 s = failC s 0x30 := by
  rw [mirrorBindOwn_up (by omega) up noPlan, if_neg (by simp), if_pos runs]

/-! ### What a holder does -/

theorem deltaReceive_held (holds : holding s = true) (named : j < 64) : deltaReceive j step kind tensor off good data s =
    if (mirrorGood j good s).w.mr.noRoom.contains (j, step) then mirrorGood j good s
    else if kind = 4 then modMr (putCtx j 4 step data) (mirrorGood j good s)
    else if !deltaRoom (mirrorGood j good s).w.mr kind (mirKey j tensor) off data then
      holderSend j 1 step (flt0 0x6103 0x08 j step (modMr (fun m => { m with noRoom := (j, step) :: m.noRoom }) (mirrorGood j good s)))
    else
      mirrorWarn j (modMr (fun m => { m with pend := m.pend ++
        [{ step := step, kind := kind, tensor := mirKey j tensor, off := off, data := data, hot := bit (if kind = 3 then (mirrorGood j good s).draw else (0, mirrorGood j good s)).1 0 }] })
        (if kind = 3 then (mirrorGood j good s).draw else (0, mirrorGood j good s)).2) :=
  if_neg (by simp [holds, named])

theorem endOfStep_held (holds : holding s = true) (named : j < 64) : endOfStep j step good s =
    if (mirrorGood j good s).w.mr.noRoom.contains (j, step) then
      modMr (fun m => { m with noRoom := m.noRoom.filter (fun e => e != (j, step)) }) (mirrorGood j good s)
    else holderSend j 0 step (mirrorGood j good s) := if_neg (by simp [holds, named])

theorem seedIn_dense (holds : holding s = true) (named : j < 64) : seedIn j 1 tensor off data false s = modMr (putDense (mirKey j tensor) off data) s := by
  refine (if_neg (by simp [holds])).trans ((if_pos rfl).trans ?_)
  rw [if_neg (by omega), if_neg (by omega), if_neg (by omega), if_neg (by omega), if_pos (by simp)]

theorem seedIn_block (holds : holding s = true) (named : j < 64) :
    seedIn j 3 tensor off data false s = modMr (putSlot (bit s.draw.1 0) (mirKey j tensor) off 0 data) s.draw.2 := by
  refine (if_neg (by simp [holds])).trans ((if_pos rfl).trans ?_)
  rw [if_neg (by omega), if_neg (by omega), if_neg (by omega), if_pos rfl]

theorem seedIn_end (holds : holding s = true) : seedIn 0xFF 6 tensor off data true s =
    flt0 0x6101 0x08 0xFF 0 (holderSend 0xFF 2 0 (modMr (fun m => { m with inn := 2, inSeeded := true }) s)) :=
  (if_neg (by simp [holds])).trans (if_neg (by simp))

end

/-- Settles O53: MIRROR_BIND, then the holder's messages, then the answers the mirrored module takes. -/
theorem mirrorIsBoundFedAndAnchored : Obligations.MirrorIsBoundFedAndAnchored := by
  unfold Obligations.MirrorIsBoundFedAndAnchored
  refine ⟨?_, ?_, ?_, ?_, ?_, ?_, ?_, ?_, ?_, ?_, ?_, ?_, ?_, ?_, ?_, ?_, ?_, ?_, ?_⟩
  · intro h node s ready up noPlan idle unbound
    exact OnlyWorld.done (((onlyWorld_modMr _ (counted h s)).trans (onlyWorld_seedAll false _)).trans (onlyWorld_flt _ _ _ _ _ _)) ready (mirrorBindOwn_seeds (s := counted h s) up noPlan (someRuns_false (s := s) idle) unbound)
  · intro h node s ready up noPlan idle room unbound
    exact OnlyWorld.done ((onlyWorld_modMr _ (counted h s)).trans (onlyWorld_flt _ _ _ _ _ _)) ready (mirrorBindOwn_holds (s := counted h s) up noPlan (someRuns_false (s := s) idle) room unbound)
  · intro h node s ready up noPlan idle same bound
    exact (OnlyWorld.refl (counted h s)).done ready (mirrorBindOwn_again (s := counted h s) up noPlan (someRuns_false (s := s) idle) same bound)
  · intro h node role s ready out
    exact (OnlyWorld.refl (counted h s)).done ready (mirrorBindOwn_otherRole out)
  · intro h node role s ready low away
    exact (OnlyWorld.refl (counted h s)).done ready (mirrorBindOwn_away (s := counted h s) low away)
  · intro h node s ready up noPlan full
    exact (OnlyWorld.refl (counted h s)).done ready (mirrorBindOwn_full (s := counted h s) up noPlan full)
  · intro h node s ready up noPlan runs
    exact (OnlyWorld.refl (counted h s)).done ready (mirrorBindOwn_busy (s := counted h s) up noPlan (someRuns_true (s := s) runs))
  · intro j step kind tensor items off good cut data s free
    exact ⟨(OnlyWorld.refl s).runs (if_pos (by simp [free])), (OnlyWorld.refl s).runs (if_pos (by simp [free])), (OnlyWorld.refl s).runs (if_pos (by simp [free])),
      (OnlyWorld.refl s).runs ((if_pos (by simp [free])).trans (if_neg (by simp)))⟩
  · intro j step kind tensor items off good data s s1 holds named is kept noBlock noRecord room
    subst is
    refine (((onlyWorld_mirrorGood _ _ _).trans (onlyWorld_modMr _ _)).trans (onlyWorld_mirrorWarn _ _)).runs ((deltaReceive_held holds named).trans ?_)
    rw [if_neg (by simpa using kept), if_neg noRecord, if_neg (by simp [room]), if_neg noBlock]
    rfl
  · intro j step tensor items off good data s s1 holds named is kept room
    subst is
    refine ((((onlyWorld_mirrorGood j good s).trans (onlyWorld_draw _)).trans (onlyWorld_modMr _ _)).trans (onlyWorld_mirrorWarn _ _)).runs ((deltaReceive_held holds named).trans ?_)
    rw [if_neg (by simpa using kept), if_neg (by omega), if_neg (by simp [room]), if_pos rfl]
  · intro j step tensor items off good data s s1 holds named is kept
    subst is
    refine ((onlyWorld_mirrorGood j good s).trans (onlyWorld_modMr _ _)).runs ((deltaReceive_held holds named).trans ?_)
    rw [if_neg (by simpa using kept), if_pos rfl]
  · intro j step kind tensor items off good data s s1 holds named is kept noRecord full
    subst is
    refine ((((onlyWorld_mirrorGood j good s).trans (onlyWorld_modMr _ _)).trans (onlyWorld_flt _ _ _ _ _ _)).trans (onlyWorld_holderSend _ _ _ _)).runs
      ((deltaReceive_held holds named).trans ?_)
    rw [if_neg (by simpa using kept), if_neg noRecord, if_pos (by simp [full])]
    rfl
  · intro j step good s s1 holds named is kept
    subst is
    exact ((onlyWorld_mirrorGood j good s).trans (onlyWorld_holderSend _ _ _ _)).runs ((endOfStep_held holds named).trans (if_neg (by simpa using kept)))
  · intro j step kind tensor items off good data s s1 holds named is dropped
    subst is
    exact ⟨(onlyWorld_mirrorGood j good s).runs ((deltaReceive_held holds named).trans (if_pos (by simpa using dropped))),
      ((onlyWorld_mirrorGood j good s).trans (onlyWorld_modMr _ _)).runs ((endOfStep_held holds named).trans (if_pos (by simpa using dropped)))⟩
  · intro j cut s holds
    exact (onlyWorld_modMr _ s).runs (if_neg (by simp [holds]))
  · intro j tensor off data s holds named
    exact ⟨(onlyWorld_modMr _ s).runs (seedIn_dense holds named), ((onlyWorld_draw s).trans (onlyWorld_modMr _ _)).runs (seedIn_block holds named),
      (((onlyWorld_modMr _ s).trans (onlyWorld_holderSend _ _ _ _)).trans (onlyWorld_flt _ _ _ _ _ _)).runs (seedIn_end holds)⟩
  · intro j step s bound named
    have takes : ¬(!(decide (s.w.mr.out = 1) || decide (s.w.mr.out = 2))) = true := by
      rcases bound with b | b <;> simp [b]
    exact ⟨((OnlyWorld.modJob s j _).trans (onlyWorld_modMr _ _)).runs ((if_neg takes).trans ((if_neg (by omega)).trans (if_neg (by simp)))),
      (onlyWorld_failStep _ _ _ _ s).runs ((if_neg takes).trans ((if_neg (by omega)).trans (if_pos rfl)))⟩
  · intro j step s binding seed
    have takes : ¬(!(decide (s.w.mr.out = 1) || decide (s.w.mr.out = 2))) = true := by simp [binding]
    refine ⟨(onlyWorld_modMr _ s).runs ((if_neg takes).trans ((if_pos seed).trans ((if_neg (by omega)).trans (if_pos rfl)))), fun unexposed => ?_⟩
    exact ((onlyWorld_modMr _ s).trans (onlyWorld_flt _ _ _ _ _ _)).runs
      ((if_neg takes).trans ((if_pos seed).trans ((if_neg (by omega)).trans ((if_neg (by simp)).trans (if_neg (by simp [unexposed]))))))
  · intro j step noRoom s notBinding notBound
    exact (OnlyWorld.refl s).runs (if_pos (by simp [notBinding, notBound]))

end Sys2Proof.Machine
end

section
/-! Frames and messages go out (R326-R332, R354): what sending writes, and what of a link it leaves alone. -/

namespace Sys2Proof.Machine

open Sys2Proof

variable {s t u : State} {l : Nat}

/-- From `s` to `t` the module only sends: the links, what goes out, the free values, the foul injector's count, the crossings and the
messages kept with their sequences may change. -/
def OnlySends (s t : State) : Prop :=
  t = { s with w := { s.w with
    free := t.w.free, out := t.w.out, foul := { s.w.foul with hits := t.w.foul.hits }, lk := t.w.lk, xings := t.w.xings
    msgs := { s.w.msgs with kept := t.w.msgs.kept, seqs := t.w.msgs.seqs } } }

namespace OnlySends

theorem refl (s : State) : OnlySends s s := rfl

theorem trans (h : OnlySends s t) (k : OnlySends t u) : OnlySends s u := by
  unfold OnlySends at *
  rw [k, h]

theorem ite {p : Prop} [Decidable p] (h : OnlySends s t) (k : OnlySends s u) : OnlySends s (if p then t else u) := by
  split
  · exact h
  · exact k

theorem forAll {α : Type} {l : List α} {f : α → State → State} (hf : ∀ x s, OnlySends s (f x s)) (s : State) : OnlySends s (forAll l f s) := by
  unfold Machine.forAll
  induction l generalizing s with
  | nil => exact refl s
  | cons x r ih => exact (hf x s).trans (ih _)

theorem modLink (s : State) (l : Nat) (f : Lk → Lk) : OnlySends s (s.modLink l f) := rfl
theorem emit (s : State) (o : Out) : OnlySends s (s.emit o) := rfl

theorem world (h : OnlySends s t) : OnlyWorld s t := by
  unfold OnlyWorld; unfold OnlySends at h; rw [h]

theorem jobs (h : OnlySends s t) : t.w.jobs = s.w.jobs := by rw [h]
theorem mr (h : OnlySends s t) : t.w.mr = s.w.mr := by rw [h]
theorem unacked (h : OnlySends s t) : t.w.msgs.unacked = s.w.msgs.unacked := by rw [h]
theorem now (h : OnlySends s t) : t.now = s.now := by rw [h]; rfl

end OnlySends

theorem onlySends_sendFrame (l : Nat) (f : Frm) (s : State) : OnlySends s (sendFrame l f s) := by
  unfold sendFrame
  split
  · rfl
  · exact .ite rfl (.ite rfl (.ite rfl (.ite rfl rfl)))

/-- A link after a slot of channel `v` (R328-R330): `f` has left its queue and stands in the replay buffer as `g`. -/
def Lk.slotSent (v : Nat) (f g : Frm) (credits : Tab Vc) (k : Lk) : Lk :=
  { k.slotUsed v with txq := k.txq.erase f, txSeq := (k.txSeq + 1) % 4096, replay := k.replay ++ [g], vc := credits }

/-- A link that drains either has nothing that may go, or sends one frame and drains on. -/
theorem drainTx_succ (n l : Nat) (s : State) :
    drainTx (n + 1) l s = s ∨ ∃ v f g credits, drainTx (n + 1) l s = drainTx n l (sendFrame l g (s.modLink l (Lk.slotSent v f g credits))) := by
  rw [drainTx]
  dsimp only
  split
  · exact .inl rfl
  · split
    · exact .inl rfl
    · exact .inr ⟨_, _, _, _, rfl⟩

theorem onlySends_drainTx (n l : Nat) (s : State) : OnlySends s (drainTx n l s) := by
  induction n generalizing s with
  | zero => exact .refl s
  | succ n ih =>
    rcases drainTx_succ n l s with stands | ⟨v, f, g, credits, sends⟩
    · rw [stands]
      exact .refl s
    · rw [sends]
      exact ((OnlySends.modLink s l _).trans (onlySends_sendFrame _ _ _)).trans (ih _)

theorem onlySends_queueFrames (l : Nat) (fs : List Frm) (s : State) : OnlySends s (queueFrames l fs s) :=
  (OnlySends.modLink s l _).trans (onlySends_drainTx _ _ _)

theorem onlySends_launch (m : Msg) (vc : Nat) (s : State) : OnlySends s (launch m vc s) := by
  unfold launch
  extract_lets s0
  have noted : OnlySends s s0 := rfl
  split
  · split
    · exact noted.trans (onlySends_queueFrames _ _ _)
    · exact noted
  · exact noted

theorem onlySends_sendMsg (dst job cls step : Nat) (spec data : Bytes) (s : State) : OnlySends s (sendMsg dst job cls step spec data s) := by
  unfold sendMsg
  refine .ite (.refl s) ?_
  extract_lets q m
  have keeps : OnlySends s (s.onW (fun w => { w with msgs := { w.msgs with
      kept := if cls = 6 then w.msgs.kept else w.msgs.kept ++ [m]
      seqs := w.msgs.seqs.filter (fun e => !(e.1 == dst && e.2.1 == cls)) ++ [(dst, cls, wrapAdd 32 q 1)] } })) := rfl
  exact keeps.trans (onlySends_launch _ _ _)

/-! ### What of a link sending leaves alone -/

/-- A link's state and what it has received: no frame that goes out changes it. -/
def Lk.received (k : Lk) : Nat × Nat × Bool × Nat × Nat := (k.state, k.rxSeq, k.rxBad, k.frames, k.lastValid)

theorem Lk.received_eq_iff {k : Lk} {state seq frames valid : Nat} {bad : Bool} : k.received = (state, seq, bad, frames, valid) ↔
    k.state = state ∧ k.rxSeq = seq ∧ k.rxBad = bad ∧ k.frames = frames ∧ k.lastValid = valid := by
  simp only [Lk.received, Prod.mk.injEq]

/-- From `s` to `t` the module only sends, and link `l` has received what it had. -/
structure KeepsReceived (l : Nat) (s t : State) : Prop where
  sends : OnlySends s t
  rising : Claims.rising s.w.lk → Claims.rising t.w.lk
  link : Claims.rising s.w.lk → (t.link l).received = (s.link l).received

namespace KeepsReceived

theorem refl (s : State) : KeepsReceived l s s := ⟨.refl s, id, fun _ => rfl⟩

theorem trans (h : KeepsReceived l s t) (k : KeepsReceived l t u) : KeepsReceived l s u :=
  ⟨h.sends.trans k.sends, fun r => k.rising (h.rising r), fun r => (k.link (h.rising r)).trans (h.link r)⟩

theorem ite {p : Prop} [Decidable p] (h : KeepsReceived l s t) (k : KeepsReceived l s u) : KeepsReceived l s (if p then t else u) := by
  split
  · exact h
  · exact k

theorem of_lk (sends : OnlySends s t) (same : t.w.lk = s.w.lk) : KeepsReceived l s t :=
  ⟨sends, fun r => by rwa [same], fun _ => by rw [State.link, same]; rfl⟩

theorem modLink (s : State) {f : Lk → Lk} (same : (f (s.link l)).received = (s.link l).received) : KeepsReceived l s (s.modLink l f) :=
  ⟨rfl, rising_modLink l f, fun r => by rw [link_modLink_self l f r, same]⟩

theorem emit (s : State) (o : Out) : KeepsReceived l s (s.emit o) := .of_lk rfl rfl

end KeepsReceived

theorem keepsReceived_sendFrame (l : Nat) (f : Frm) (s : State) : KeepsReceived l s (sendFrame l f s) := by
  have hit (s : State) : KeepsReceived l s (foulHit s) := .of_lk rfl rfl
  have drawn : KeepsReceived l s s.draw.2 := .of_lk rfl rfl
  unfold sendFrame
  split
  · exact (((KeepsReceived.modLink s rfl).trans (hit _)).trans (.emit _ _)).trans (.emit _ _)
  · refine .ite (.emit s _) (.ite (drawn.trans (.emit _ _)) (.ite (drawn.trans (hit _)) (.ite ((drawn.trans (hit _)).trans (.emit _ _)) ?_)))
    exact (drawn.trans (hit _)).trans (.modLink _ rfl)

theorem keepsReceived_drainTx (n l : Nat) (s : State) : KeepsReceived l s (drainTx n l s) := by
  induction n generalizing s with
  | zero => exact .refl s
  | succ n ih =>
    rcases drainTx_succ n l s with stands | ⟨v, f, g, credits, sends⟩
    · rw [stands]
      exact .refl s
    · rw [sends]
      exact ((KeepsReceived.modLink s rfl).trans (keepsReceived_sendFrame _ _ _)).trans (ih _)

theorem keepsReceived_hopAck (l ack : Nat) (s : State) : KeepsReceived l s (hopAck l ack s) := by
  unfold hopAck
  extract_lets k
  split
  · exact (KeepsReceived.modLink s rfl).trans (keepsReceived_drainTx _ _ _)
  · exact .refl s

theorem keepsReceived_hopCredit (l vc n : Nat) (s : State) : KeepsReceived l s (hopCredit l vc n s) := by
  have crosses : KeepsReceived l s (s.modXing (xLink l) Xing.event) := .of_lk rfl rfl
  exact (crosses.trans (.modLink _ rfl)).trans (keepsReceived_drainTx _ _ _)

end Sys2Proof.Machine
end

section
/-! The bench module takes over (R434-R438): BENCH_CALL, what the partner answers, and the blocks that come in or are lost. -/

namespace Sys2Proof.Machine

open Sys2Proof

section

variable {h : Hdr} {s t u : State} {failed partner node j tensor block first g : Nat} {data : Bytes} {p : Plan} {e : PlaceEnt}

/-! ### BENCH_CALL -/

theorem onlyWorld_pullSend (node j kind sect tensor items first step : Nat) (data : Bytes) (s : State) :
    OnlyWorld s (pullSend node j kind sect tensor items first step data s) := onlyWorld_sendMsg _ _ _ _ _ _ s

theorem onlyWorld_benchStart (j partner : Nat) (s : State) : OnlyWorld s (benchStart j partner s) := by
  unfold benchStart
  extract_lets fresh s1 s2
  have calls : OnlyWorld s s1 := onlyWorld_modMr _ s
  have binds : OnlyWorld s1 s2 := .ite (.ite (.refl s1) (onlyWorld_modMr _ s1)) (onlyWorld_flt _ _ _ _ _ s1)
  exact ((calls.trans binds).trans (onlyWorld_flt _ _ _ _ _ _)).trans (onlyWorld_pullSend _ _ _ _ _ _ _ _ _ _)

theorem benchCallOwn_unplaced (missing : s.w.holder = none ∨ s.w.topo.jobPlan = none) : benchCallOwn failed partner s = badC s 16 := by
  unfold benchCallOwn
  split
  · next held planned => rcases missing with m | m <;> simp_all
  · rfl

theorem benchCallOwn_otherPlace (held : s.w.holder = some j) (planned : s.w.topo.jobPlan = some p)
    (other : ∀ e, p.places.find? (fun e => e.node == failed) = some e → e.subst ≠ s.w.topo.node) : benchCallOwn failed partner s = badC s 16 := by
  rw [benchCallOwn, held, planned]
  dsimp only
  split
  · rfl
  · next e found => exact if_pos (by simpa using other e found)

/-- The place is this module's to take: what is left to check. -/
theorem benchCallOwn_placed (held : s.w.holder = some j) (planned : s.w.topo.jobPlan = some p)
    (found : p.places.find? (fun e => e.node == failed) = some e) (mine : e.subst = s.w.topo.node) : benchCallOwn failed partner s =
      if standing s e.partner != partner || !partnerUp s partner then failC s 0x60
      else if s.w.topo.lost.contains partner then failC s 0x61
      else if s.w.mr.callJob = j && s.w.mr.hotIn && !((s.job j).run.isSome || !(s.job j).waiting.isEmpty) then okC s (leBytes 4 0)
      else .later (if (s.job j).run.isSome || !(s.job j).waiting.isEmpty then pullSend partner j 1 0 0 0 0 0 [] s else benchStart j partner s) j
        (b2n ((s.job j).run.isSome || !(s.job j).waiting.isEmpty)) := by
  rw [benchCallOwn, held, planned]
  dsimp only
  rw [found]
  exact if_neg (by simp [mine])

theorem benchCallOwn_away (held : s.w.holder = some j) (planned : s.w.topo.jobPlan = some p)
    (found : p.places.find? (fun e => e.node == failed) = some e) (mine : e.subst = s.w.topo.node)
    (away : standing s e.partner ≠ partner ∨ partnerUp s partner = false) : benchCallOwn failed partner s = failC s 0x60 := by
  rw [benchCallOwn_placed held planned found mine, if_pos (by rcases away with a | a <;> simp [a])]

theorem benchCallOwn_lost (held : s.w.holder = some j) (planned : s.w.topo.jobPlan = some p)
    (found : p.places.find? (fun e => e.node == failed) = some e) (mine : e.subst = s.w.topo.node)
    (stands : standing s e.partner = partner) (up : partnerUp s partner = true) (lost : partner ∈ s.w.topo.lost) :
    benchCallOwn failed partner s = failC s 0x61 := by
  rw [benchCallOwn_placed held planned found mine, if_neg (by simp [stands, up]), if_pos (by simpa using lost)]

theorem benchCallOwn_starts (held : s.w.holder = some j) (planned : s.w.topo.jobPlan = some p)
    (found : p.places.find? (fun e => e.node == failed) = some e) (mine : e.subst = s.w.topo.node)
    (stands : standing s e.partner = partner) (up : partnerUp s partner = true) (present : partner ∉ s.w.topo.lost)
    (idle : (s.job j).run = none) (waits : (s.job j).waiting = []) (new : s.w.mr.callJob ≠ j) :
    benchCallOwn failed partner s = .later (benchStart j partner s) j 0 := by
  have between : ((s.job j).run.isSome || !(s.job j).waiting.isEmpty) = false := by simp [idle, waits]
  rw [benchCallOwn_placed held planned found mine, if_neg (by simp [stands, up]), if_neg (by simpa using present), if_neg (by simp [new]), between, if_neg Bool.false_ne_true,
    show b2n false = 0 from rfl]

/-! ### The partner's answer -/

theorem onlySends_sendImage (node j : Nat) (s : State) : OnlySends s (sendImage node j s) := by
  have sends {kind sect tensor items first step : Nat} {data : Bytes} (s : State) : OnlySends s (pullSend node j kind sect tensor items first step data s) :=
    onlySends_sendMsg _ _ _ _ _ _ s
  unfold sendImage
  extract_lets m g cold s1 s2 s3 s4
  have context : OnlySends s s1 := .forAll (fun _ s => sends s) s
  have dense : OnlySends s1 s2 := .forAll (fun _ s => sends s) s1
  have hot : OnlySends s2 s3 := .forAll (fun _ s => sends s) s2
  have ends : OnlySends s3 s4 := sends s3
  have colds : OnlySends s4 (forAll cold (fun x s => pullSend node j 2 4 (x.tensor % 65536) 1 x.block g x.image s) s4) := .forAll (fun _ s => sends s) s4
  exact ((((context.trans dense).trans hot).trans ends).trans colds).trans (sends _)

theorem pullRequest_bound (may : mayPull s node = true) (toward : s.w.mr.outNode = node) (bound : s.w.mr.out = 2) :
    pullRequest j node s = modMr (fun m => { m with inNode := node, inn := 2, owner := node }) (sendImage node j s) := by
  have mr := (onlySends_sendImage node j s).mr
  refine (if_neg (by simp [may])).trans (if_pos ?_)
  simp [modMr, mr, toward, bound]

/-! ### What comes in for a call -/

/-- The calls of a job in flight. -/
def calls (s : State) (j : Nat) : List Run := s.w.inflight.filter (fun r => r.op = 0x0504 && r.a = j)

theorem calls_isEmpty_false (called : ∃ r ∈ s.w.inflight, r.op = 0x0504 ∧ r.a = j) : (calls s j).isEmpty = false := by
  obtain ⟨r, flying, op, mine⟩ := called
  have member : r ∈ calls s j := List.mem_filter.mpr ⟨flying, by simp [op, mine]⟩
  simpa using List.ne_nil_of_mem member

theorem calls_isEmpty_true (uncalled : ∀ r ∈ s.w.inflight, r.op = 0x0504 → r.a ≠ j) : (calls s j).isEmpty = true := by
  rw [List.isEmpty_iff, calls, List.filter_eq_nil_iff]
  intro r flying
  simpa using uncalled r flying

theorem calls_unbusy (between : ∀ r ∈ s.w.inflight, r.op = 0x0504 → r.a = j → r.b ≠ 1) : (calls s j).any (fun r => r.b = 1) = false := by
  refine List.any_eq_false.mpr fun r member => ?_
  obtain ⟨flying, mine⟩ := List.mem_filter.mp member
  simp only [Bool.and_eq_true, decide_eq_true_eq] at mine
  simpa using between r flying mine.1 mine.2

/-- A hot block of a call under way, the call between steps: it is taken unless it has been. -/
theorem pullData_block (called : ∃ r ∈ s.w.inflight, r.op = 0x0504 ∧ r.a = j) (between : ∀ r ∈ s.w.inflight, r.op = 0x0504 → r.a = j → r.b ≠ 1)
    (mine : s.w.mr.callJob = j) : pullData j 2 3 tensor first g data s =
      if s.w.mr.pulled.contains (3, tensor, first) then s
      else blockIn j tensor first data (modMr (fun m => { m with
        pulled := (3, tensor, first) :: m.pulled, doneB := m.doneB + data.length, doneMib := (m.doneB + data.length) / 1048576 }) s) := by
  have some := calls_isEmpty_false called
  have idle := calls_unbusy between
  unfold pullData
  extract_lets cs key s1
  rw [if_neg (by omega), if_neg (by simpa [cs, calls] using some), if_neg (by simp), if_neg (by simpa [cs, calls] using idle), if_neg (by simp [mine]),
    if_neg (by omega)]
  refine if_congr (by simp [key]) rfl ?_
  rw [if_neg (by omega), if_neg (by omega), if_pos rfl]

theorem pullData_refused (called : ∃ r ∈ s.w.inflight, r.op = 0x0504 ∧ r.a = j) : pullData j 3 0 tensor first g data s =
    completeAll (fun r => r.op = 0x0504 && r.a = j) 0x20 1 0xFF (fun _ => []) (modMr (fun m => { m with callJob := 0xFF, missing := [], pulled := [] }) s) := by
  have some := calls_isEmpty_false called
  unfold pullData
  extract_lets cs key s1
  rw [if_neg (by omega), if_neg (by simpa [cs, calls] using some), if_pos (by simp)]

theorem pullData_uncalled {kind sect : Nat} (other : sect ≠ 4) (uncalled : ∀ r ∈ s.w.inflight, r.op = 0x0504 → r.a ≠ j) :
    pullData j kind sect tensor first g data s = s :=
  (if_neg other).trans (if_pos (calls_isEmpty_true uncalled))

/-! ### Blocks that come in -/

theorem onlyWorld_serveWaiting (s : State) : OnlyWorld s (serveWaiting s) := by
  unfold serveWaiting
  exact .forAll _ _ (fun a s => .ite (.refl s) ((OnlyWorld.onW s _).trans (onlyWorld_serveAp a _))) s

theorem onlyWorld_resumeStream (c : Nat) (s : State) : OnlyWorld s (resumeStream c s) := rfl

theorem onlyWorld_blockCame (j : Nat) (s : State) : OnlyWorld s (blockCame j s) := by
  unfold blockCame
  extract_lets free s1
  have serves : OnlyWorld s s1 := (OnlyWorld.forAll _ _ onlyWorld_resumeStream s).trans (onlyWorld_serveWaiting _)
  exact serves.trans (onlyWorld_modMr _ _)

theorem onlyWorld_blockIn (j tensor block : Nat) (data : Bytes) (s : State) : OnlyWorld s (blockIn j tensor block data s) := by
  unfold blockIn
  split
  · exact .refl s
  · split
    · exact .refl s
    · extract_lets n s1 s2
      have came : OnlyWorld s s2 := ((onlyWorld_jobPut _ _ _ _ _ s).trans (onlyWorld_modMr _ _)).trans (onlyWorld_blockCame _ _)
      exact .ite (came.trans (onlyWorld_flt _ _ _ _ _ _)) came

theorem parkedOn_nil {kind : Nat} (unparked : ∀ c < 128, (s.chan c).state ≠ 2) : parkedOn s j kind = [] :=
  List.filter_eq_nil_iff.mpr fun c listed => by simp [unparked c (List.mem_range.mp listed)]

theorem onlyWorld_parkFail (c : Nat) (s : State) : OnlyWorld s (parkFail c s) :=
  ((OnlyWorld.modJob s _ _).trans (onlyWorld_flt _ _ _ _ _ _)).trans (onlyWorld_dmaEnd _ _ _ _)

theorem onlyWorld_emit (o : Out) (s : State) : OnlyWorld s (s.emit o) := rfl

theorem onlyWorld_failGone (s : State) : OnlyWorld s (failGone s) := by
  unfold failGone
  extract_lets j s1 hit l
  have streams : OnlyWorld s s1 := .forAll _ _ onlyWorld_parkFail s
  exact (streams.trans (OnlyWorld.onW s1 _)).trans (.forAll _ _ (fun _ s => onlyWorld_emit _ s) _)

theorem onlyWorld_blockLost (j tensor block : Nat) (s : State) : OnlyWorld s (blockLost j tensor block s) := by
  unfold blockLost
  extract_lets s1
  have fails : OnlyWorld s s1 := ((onlyWorld_flt _ _ _ _ _ s).trans (onlyWorld_modMr _ _)).trans (onlyWorld_failGone _)
  split
  · exact fails.trans (onlyWorld_failStep _ _ _ _ s1)
  · exact fails

/-- From `s` to `t` device memory changes with its marks and its injected errors, and nothing else. -/
def OnlyWrites (s t : State) : Prop :=
  t = { s with w := { s.w with dev := t.w.dev, poison := t.w.poison, stale := t.w.stale, inject := t.w.inject } }

theorem OnlyWrites.trans (h : OnlyWrites s t) (k : OnlyWrites t u) : OnlyWrites s u := by
  unfold OnlyWrites at *
  rw [k, h]

theorem OnlyMarks.writes (h : OnlyMarks s t) : OnlyWrites s t := by
  unfold OnlyWrites
  rw [h]

theorem onlyWrites_afterWrite {key n : Nat} (quiet : s.w.err.state ≠ 1) : OnlyWrites s (afterWrite key n s) := by
  unfold afterWrite
  extract_lets s1 e sz buf k
  have same : e = s.w.err := by
    simp only [e, s1]
    split <;> rfl
  rw [if_neg (by simp [same, quiet])]
  simp only [s1]
  split <;> rfl

/-- A write with no checkpoint armed and no injection pending touches device memory alone. -/
theorem onlyWrites_jobPut {k buf off : Nat} {bs : Bytes} (disarmed : s.w.ck.armed = false) (quiet : s.w.err.state ≠ 1) :
    OnlyWrites s (jobPut j k buf off bs s) := by
  unfold jobPut
  split
  · rfl
  · extract_lets gs
    rw [forAll_eq_self (fun g _ => stageGranule_disarmed disarmed)]
    have written : OnlyWrites s (devWrite j k buf off bs s) := rfl
    have cleared := written.trans (onlyMarks_clearBad (devKey j k buf off) bs.length (onlyMarks_freshen j k buf off bs.length _)).writes
    exact cleared.trans (onlyWrites_afterWrite (by rw [cleared]; exact quiet))

/-- With no stream parked and no access waiting, a block that comes in resumes nothing. -/
theorem blockCame_quiet (unparked : ∀ c < 128, (s.chan c).state ≠ 2) (nobody : s.w.apWait = []) :
    ∃ n, blockCame j s = modMr (fun m => { m with parked := n }) s := by
  have none : parkedOn s j 3 = [] := parkedOn_nil unparked
  have resumes : serveWaiting (forAll [] resumeStream s) = s := serveWaiting_of_none nobody
  unfold blockCame
  rw [none, List.filter_nil]
  dsimp only
  rw [resumes]
  exact ⟨_, rfl⟩

/-- A good block of a declared tensor is missing no longer; jobs stand. -/
theorem blockIn_keeps {r : Tens} {d : Decl} (named : (s.job j).cur.bind (fun t => t.tens? tensor) = some r) (decl : s.decl j r.handle = some d)
    (nobody : s.w.apWait = []) (unparked : ∀ c < 128, (s.chan c).state ≠ 2) (disarmed : s.w.ck.armed = false) (quiet : s.w.err.state ≠ 1) :
    (blockIn j tensor block data s).w.mr.missing = s.w.mr.missing.filter (fun e => e != (tensor, block)) ∧
      (blockIn j tensor block data s).w.mr.cold = s.w.mr.cold.filter (fun e => e != (tensor, block)) ∧ (blockIn j tensor block data s).w.jobs = s.w.jobs := by
  rw [blockIn, named]
  dsimp only
  rw [decl]
  dsimp only
  set s1 := jobPut j r.handle 0 (block * rowsPerBlock d * rowBytes d) (data.take (min (rowsPerBlock d * rowBytes d) (d.imageBytes - block * rowsPerBlock d * rowBytes d))) s
    with written
  have writes : OnlyWrites s s1 := onlyWrites_jobPut disarmed quiet
  set s2 := modMr (fun m => { m with
    missing := m.missing.filter (fun e => e != (tensor, block)), cold := m.cold.filter (fun e => e != (tensor, block)) }) s1 with taken
  obtain ⟨n, came⟩ := blockCame_quiet (s := s2) (j := j) (by rw [taken, writes]; exact unparked) (by rw [taken, writes]; exact nobody)
  rw [came]
  have noted (u : State) : OnlyLog u (if (u.w.mr.missing.isEmpty && u.w.mr.hotIn) = true then flt0 0x6203 0x08 j 0 u else u) :=
    .ite (onlyLog_flt _ _ _ _ _ _) (.refl u)
  rw [(noted _).mr, (noted _).jobs, taken, writes]
  exact ⟨rfl, rfl, rfl⟩

theorem lazyBlock_stands {ok : Bool} (stands : s.w.mr.callJob ≠ j ∨ (tensor, block) ∉ s.w.mr.missing ∨ (tensor, block) ∈ s.w.mr.gone) :
    lazyBlock j tensor block ok data s = s := by
  refine if_pos ?_
  rcases stands with other | came | gone
  · simp [other]
  · simp [came]
  · simp [gone]

theorem lazyBlock_missing {ok : Bool} (mine : s.w.mr.callJob = j) (missing : (tensor, block) ∈ s.w.mr.missing) (present : (tensor, block) ∉ s.w.mr.gone) :
    lazyBlock j tensor block ok data s = if ok then blockIn j tensor block data s else blockLost j tensor block s :=
  if_neg (by simp [mine, missing, present])

end

/-- Settles O54: the call, the partner's answer, what comes in for a call, and the blocks of lazy restore. -/
theorem benchModuleTakesOver : Obligations.BenchModuleTakesOver := by
  unfold Obligations.BenchModuleTakesOver
  refine ⟨?_, ?_, ?_, ?_, ?_, ?_, ?_, ?_, ?_, ?_, ?_, ?_, ?_, ?_⟩
  · intro h failed partner j p e s ready held planned found mine stands up present idle waits new
    have own := benchCallOwn_starts (s := counted h s) held planned found mine stands up present idle waits new
    have world : OnlyWorld s (runsOn 0x0504 h s j 0 (benchStart j partner (counted h s))) :=
      ((onlyWorld_counted h s).trans (onlyWorld_benchStart _ _ _)).trans rfl
    exact world.runs (startCmd_later ready own)
  · intro h failed partner s ready missing
    exact (OnlyWorld.refl (counted h s)).done ready (benchCallOwn_unplaced (s := counted h s) missing)
  · intro h failed partner j p s ready held planned other
    exact (OnlyWorld.refl (counted h s)).done ready (benchCallOwn_otherPlace (s := counted h s) held planned other)
  · intro h failed partner j p e s ready held planned found mine away
    exact (OnlyWorld.refl (counted h s)).done ready (benchCallOwn_away (s := counted h s) held planned found mine away)
  · intro h failed partner j p e s ready held planned found mine stands up lost
    exact (OnlyWorld.refl (counted h s)).done ready (benchCallOwn_lost (s := counted h s) held planned found mine stands up lost)
  · intro j node step s may toward bound
    exact ((onlySends_sendImage node j s).world.trans (onlyWorld_modMr _ _)).runs (pullRequest_bound may toward bound)
  · intro j node step s mayNot
    exact (onlyWorld_pullSend _ _ _ _ _ _ _ _ _ s).runs (if_pos (by simp [mayNot]))
  · intro j tensor items first step data s called between mine new
    exact ((onlyWorld_modMr _ s).trans (onlyWorld_blockIn _ _ _ _ _)).runs ((pullData_block called between mine).trans (if_neg (by simpa using new)))
  · intro j tensor items first step data s called between mine old
    exact (OnlyWorld.refl s).runs ((pullData_block called between mine).trans (if_pos (by simpa using old)))
  · intro j tensor items first step data s called
    exact ((onlyWorld_modMr _ s).trans (onlyWorld_completeAll _ _ _ _ _ _)).runs (pullData_refused called)
  · intro j kind sect tensor items first step data s other uncalled
    exact (OnlyWorld.refl s).runs (pullData_uncalled other uncalled)
  · intro j tensor block ckpt data r d s mine missing present named decl nobody unparked disarmed quiet
    have world := onlyWorld_blockIn j tensor block data s
    obtain ⟨left, cold, jobs⟩ := blockIn_keeps (data := data) (block := block) named decl nobody unparked disarmed quiet
    exact ⟨_, world.runs ((lazyBlock_missing mine missing present).trans (if_pos rfl)), world.cfg, world.ctl, left, cold, jobs⟩
  · intro j tensor block ckpt data s mine missing present
    exact (onlyWorld_blockLost _ _ _ s).runs ((lazyBlock_missing mine missing present).trans (if_neg (by simp)))
  · intro j tensor block ckpt ok data s stands
    exact (OnlyWorld.refl s).runs (lazyBlock_stands stands)

end Sys2Proof.Machine
end

section
/-! Frames arrive, messages are acknowledged, nodes are lost and replaced (R330, R332, R347, R348, R350). -/

namespace Sys2Proof.Machine

open Sys2Proof

section

variable {s t : State} {l corrected bad node dst cls seq src j : Nat} {frame : Bytes} {m : Msg}

/-! ### Frames (R330) -/

theorem onlyWorld_symbolsCounted (l corrected bad : Nat) (s : State) : OnlyWorld s (Claims.symbolsCounted l corrected bad s) := .modLink s l _

theorem onlyWorld_sendNak (l : Nat) (s : State) : OnlyWorld s (sendNak l s) := rfl

theorem frameReceive_down (down : 24 ≤ l ∨ ((s.link l).state ≠ 2 ∧ (s.link l).state ≠ 3)) : frameReceive l frame corrected bad s = s := by
  refine if_pos ?_
  rcases down with high | ⟨notHeld, notUp⟩
  · simp [high]
  · simp [notHeld, notUp]

/-- A frame on a link in service, before its sequence is looked at. -/
theorem frameReceive_served (low : l < 24) (served : (s.link l).state = 2 ∨ (s.link l).state = 3) : frameReceive l frame corrected bad s =
    if (Claims.lanesRun s l bad).any (fun n => decide (3 ≤ n)) then linkDown l 2 (Claims.symbolsCounted l corrected bad s)
    else if bad % 16 != 0 || frame.length != 2570 || frameCrc (frame.take 2560) (Claims.ctlOf frame) != bits (Claims.ctlOf frame) 67 52 then
      sendNak l (Claims.symbolsCounted l corrected bad s)
    else
      let ctl := Claims.ctlOf frame
      let k := s.link l
      let kind := bits ctl 1 0
      let seq := bits ctl 30 19
      let s2 := (Claims.symbolsCounted l corrected bad s).modLink l (fun k => { k with lastValid := s.now })
      let carries := kind = 1 || kind = 2
      if carries && seq != (k.rxSeq + 1) % 4096 then (if k.rxBad then s2 else sendNak l s2)
      else
        let s3 := hopCredit l (bits ctl 46 44) (bits ctl 51 47) (hopAck l (bits ctl 42 31) s2)
        let s4 := if bit ctl 43 then hopNak l s3 else s3
        if !carries || !((s4.link l).state = 2 || (s4.link l).state = 3) then s4
        else
          let s5 := (s4.modLink l (fun k => { k with rxSeq := seq, rxBad := false, frames := wrapAdd 64 k.frames 1 })).emit (.hop l 1 seq)
          let s6 := s5.emit (.hop l 3 (bits ctl 4 2))
          if kind = 1 then takeFrame l ctl (frame.take 2560) s6 else s6 :=
  if_neg (by rcases served with h | h <;> simp [h, low])

theorem any_lanes_iff : ((Claims.lanesRun s l bad).any (fun n => decide (3 ≤ n))) = true ↔ ∃ n ∈ Claims.lanesRun s l bad, 3 ≤ n := by
  simp only [List.any_eq_true, decide_eq_true_eq]

theorem lanes_clear (clear : ∀ n ∈ Claims.lanesRun s l bad, n < 3) : ¬(Claims.lanesRun s l bad).any (fun n => decide (3 ≤ n)) = true := by
  rw [any_lanes_iff]
  rintro ⟨n, lane, run⟩
  exact absurd (clear n lane) (by omega)

theorem frameGood_iff : Claims.frameGood frame bad ↔
    ¬(bad % 16 != 0 || frame.length != 2570 || frameCrc (frame.take 2560) (Claims.ctlOf frame) != bits (Claims.ctlOf frame) 67 52) = true := by
  simp [Claims.frameGood, and_assoc]

theorem frameReceive_refused (low : l < 24) (served : (s.link l).state = 2 ∨ (s.link l).state = 3) (clear : ∀ n ∈ Claims.lanesRun s l bad, n < 3)
    (spoilt : ¬Claims.frameGood frame bad) : frameReceive l frame corrected bad s = sendNak l (Claims.symbolsCounted l corrected bad s) := by
  rw [frameReceive_served low served, if_neg (lanes_clear clear), if_pos (by rw [frameGood_iff, not_not] at spoilt; exact spoilt)]

theorem frameReceive_outOfOrder (low : l < 24) (served : (s.link l).state = 2 ∨ (s.link l).state = 3) (clear : ∀ n ∈ Claims.lanesRun s l bad, n < 3)
    (good : Claims.frameGood frame bad) (carries : bits (Claims.ctlOf frame) 1 0 = 1 ∨ bits (Claims.ctlOf frame) 1 0 = 2)
    (other : bits (Claims.ctlOf frame) 30 19 ≠ ((s.link l).rxSeq + 1) % 4096) : frameReceive l frame corrected bad s =
      if (s.link l).rxBad then (Claims.symbolsCounted l corrected bad s).modLink l (fun k => { k with lastValid := s.now })
      else sendNak l ((Claims.symbolsCounted l corrected bad s).modLink l (fun k => { k with lastValid := s.now })) := by
  rw [frameReceive_served low served, if_neg (lanes_clear clear), if_neg (frameGood_iff.mp good)]
  exact if_pos (by rcases carries with c | c <;> simp [c, other])

/-- The state in which the acknowledgement and the credits of a good frame in sequence have been taken. -/
def framePassed (l corrected bad : Nat) (frame : Bytes) (s : State) : State :=
  hopCredit l (bits (Claims.ctlOf frame) 46 44) (bits (Claims.ctlOf frame) 51 47) (hopAck l (bits (Claims.ctlOf frame) 42 31)
    ((Claims.symbolsCounted l corrected bad s).modLink l (fun k => { k with lastValid := s.now })))

theorem keepsReceived_framePassed (l corrected bad : Nat) (frame : Bytes) (s : State) :
    KeepsReceived l ((Claims.symbolsCounted l corrected bad s).modLink l (fun k => { k with lastValid := s.now })) (framePassed l corrected bad frame s) :=
  (keepsReceived_hopAck _ _ _).trans (keepsReceived_hopCredit _ _ _ _)

theorem received_framePassed (rising : Claims.rising s.w.lk) : ((framePassed l corrected bad frame s).link l).received =
    ((s.link l).state, (s.link l).rxSeq, (s.link l).rxBad, (s.link l).frames, s.now) := by
  have counted : Claims.rising (Claims.symbolsCounted l corrected bad s).w.lk := rising_modLink l _ rising
  have stands : (Claims.symbolsCounted l corrected bad s).link l = { s.link l with
      corr := satAdd 32 (s.link l).corr corrected, uncorr := satAdd 32 (s.link l).uncorr (popCount bad 4), badRun := Claims.lanesRun s l bad } :=
    link_modLink_self l _ rising
  rw [(keepsReceived_framePassed l corrected bad frame s).link (rising_modLink l _ counted), link_modLink_self l _ counted, stands]
  rfl

/-- A credit frame in sequence is taken: acknowledged and counted. -/
theorem frameReceive_taken (low : l < 24) (served : (s.link l).state = 2 ∨ (s.link l).state = 3) (rising : Claims.rising s.w.lk)
    (clear : ∀ n ∈ Claims.lanesRun s l bad, n < 3) (good : Claims.frameGood frame bad) (kind : bits (Claims.ctlOf frame) 1 0 = 2)
    (numbered : bits (Claims.ctlOf frame) 30 19 = seq) (inOrder : seq = ((s.link l).rxSeq + 1) % 4096) (noNak : bit (Claims.ctlOf frame) 43 = false) :
    frameReceive l frame corrected bad s =
      (((framePassed l corrected bad frame s).modLink l (fun k => { k with rxSeq := seq, rxBad := false, frames := wrapAdd 64 k.frames 1 })).emit
        (.hop l 1 seq)).emit (.hop l 3 (bits (Claims.ctlOf frame) 4 2)) := by
  have stands : ((framePassed l corrected bad frame s).link l).state = (s.link l).state := (Lk.received_eq_iff.mp (received_framePassed rising)).1
  have next : bits (Claims.ctlOf frame) 30 19 = ((s.link l).rxSeq + 1) % 4096 := numbered.trans inOrder
  rw [frameReceive_served low served, if_neg (lanes_clear clear), if_neg (frameGood_iff.mp good)]
  dsimp only
  rw [if_neg (by simp [next]), if_neg (by simp [noNak] : ¬bit (Claims.ctlOf frame) 43 = true), numbered]
  exact (if_neg (by
    rw [show (hopCredit _ _ _ _).link l = (framePassed l corrected bad frame s).link l from rfl, stands]
    rcases served with h | h <;> simp [kind, h])).trans (if_neg (by omega))

/-! ### Acknowledgements (R332) -/

/-- Acknowledging a list of sequences takes the messages that bear one of them. -/
theorem forAll_ackMessage (src cls : Nat) (qs : List Nat) (s : State) : forAll qs (fun q s => ackMessage src cls q s) s =
    s.onW (fun w => { w with msgs := { w.msgs with kept := w.msgs.kept.filter (fun m => !(m.dst == src && m.cls == cls && qs.contains m.seq)) } }) := by
  induction qs generalizing s with
  | nil =>
    have all : s.w.msgs.kept.filter (fun m => !(m.dst == src && m.cls == cls && ([] : List Nat).contains m.seq)) = s.w.msgs.kept := by simp
    show s = { s with w := { s.w with msgs := { s.w.msgs with kept := _ } } }
    rw [all]
  | cons q qs ih =>
    have step : forAll (q :: qs) (fun q s => ackMessage src cls q s) s = forAll qs (fun q s => ackMessage src cls q s) (ackMessage src cls q s) := rfl
    have merged : (s.w.msgs.kept.filter (fun m => !(m.dst == src && m.cls == cls && m.seq == q))).filter
          (fun m => !(m.dst == src && m.cls == cls && qs.contains m.seq)) =
        s.w.msgs.kept.filter (fun m => !(m.dst == src && m.cls == cls && (q :: qs).contains m.seq)) := by
      rw [List.filter_filter]
      refine List.filter_congr fun m _ => ?_
      rw [List.contains_cons]
      cases m.dst == src <;> cases m.cls == cls <;> cases m.seq == q <;> cases qs.contains m.seq <;> rfl
    rw [step, ih]
    show ({ s with w := { s.w with msgs := { s.w.msgs with kept := _ } } } : State) = { s with w := { s.w with msgs := { s.w.msgs with kept := _ } } }
    rw [← merged]
    rfl

theorem mem_acknowledged {seq map q : Nat} : q ∈ seq :: (bitList map 64).map (fun i => wrapAdd 32 seq (1 + i)) ↔
    q = seq ∨ ∃ i < 64, bit map i = true ∧ q = wrapAdd 32 seq (1 + i) := by
  simp only [bitList, List.mem_cons, List.mem_map, List.mem_filter, List.mem_range]
  exact or_congr Iff.rfl ⟨fun ⟨i, ⟨low, set⟩, is⟩ => ⟨i, low, set, is.symm⟩, fun ⟨i, low, set, is⟩ => ⟨i, ⟨low, set⟩, is.symm⟩⟩

theorem sendAck_owed (few : (s.w.msgs.unacked.filter (fun e => e.1 == src)).length ≤ 312) :
    OnlyWorld s (sendAck src s) ∧ (sendAck src s).w.jobs = s.w.jobs ∧ (∀ e, e ∈ (sendAck src s).w.msgs.unacked ↔ (e ∈ s.w.msgs.unacked ∧ e.1 ≠ src)) := by
  unfold sendAck
  rw [List.take_of_length_le few]
  extract_lets owed
  split
  · next none =>
    refine ⟨.refl s, rfl, fun e => ⟨fun member => ⟨member, fun mine => ?_⟩, And.left⟩⟩
    have listed : e ∈ owed := List.mem_filter.mpr ⟨member, by simp [mine]⟩
    rw [List.isEmpty_iff.mp none] at listed
    exact absurd listed List.not_mem_nil
  · set s1 := s.onW (fun w => { w with msgs := { w.msgs with unacked := w.msgs.unacked.filter (fun e => !owed.contains e) } }) with dropped
    have sends := onlySends_sendMsg src 0xFF 6 0 [] (owed.flatMap (fun e => layout [(1, e.2.1), (3, 0), (4, e.2.2)])) s1
    refine ⟨(OnlyWorld.onW s _).trans sends.world, sends.jobs, fun e => ?_⟩
    rw [sends.unacked, dropped]
    show e ∈ s.w.msgs.unacked.filter (fun e => !owed.contains e) ↔ _
    simp only [List.mem_filter, owed, Bool.not_eq_true', List.contains_eq_mem, decide_eq_false_iff_not, beq_iff_eq, not_and]
    exact and_congr_right fun member => ⟨fun other => other member, fun other _ => other⟩

/-! ### Losing a node (R350) -/

theorem onlyWorld_ownHuddle (j reason boundary : Nat) (s : State) : OnlyWorld s (ownHuddle j reason boundary s) :=
  (onlyLog_event _ _ _ _ _ _).world.trans (onlyWorld_askHuddle _ _ _ _)

theorem onlyWorld_lazyLost (node : Nat) (s : State) : OnlyWorld s (lazyLost node s) := by
  unfold lazyLost
  extract_lets mr l s1
  have notes : OnlyWorld s s1 := (OnlyWorld.onW s _).trans (onlyWorld_flt _ _ _ _ _ _)
  refine .ite (.refl s) ?_
  split
  · exact notes.trans (onlyWorld_failStep _ _ _ _ s1)
  · exact notes

/-- A node is listed as lost, the messages to it and from it are dropped and a mirror bound to it ends. -/
def lostListed (node : Nat) (s : State) : State := s.onW (fun w => { w with
  topo := { w.topo with lost := sortNat (node :: w.topo.lost) }
  msgs := { w.msgs with kept := w.msgs.kept.filter (fun m => m.dst != node), held := w.msgs.held.filter (fun e => e.2.src != node) }
  lk := w.lk.map (fun e => (e.1, { e.2 with rx := e.2.rx.filter (fun x => fld x.2 0 2 != node) }))
  mr := { w.mr with out := if w.mr.outNode = node && w.mr.out != 0 then 3 else w.mr.out, inn := if w.mr.inNode = node && w.mr.inn != 0 then 3 else w.mr.inn } })

/-- The same, with its fault-log record. -/
def lostNoted (node : Nat) (s : State) : State := flt 0x3301 0xFF 0xFF 0 (locLink 0xFF 0xF node 0) (lostListed node s)

/-- A job that had a lost node among its members: its collectives end, its commands are answered and it asks for a huddle. -/
def loseJob (j : Nat) (s : State) : State :=
  let s := completeAll (fun r => r.hdr.job = j && (r.op = 0x0402 || r.op = 0x0504)) 0x61 0 0xFF (fun _ => [])
    (s.onW (fun w => { w with reel := { w.reel with invs := w.reel.invs.filter (fun v => v.job != j) } }))
  match (s.job j).run with
  | some r => ownHuddle j 2 0 (failStep j r.step { status := 0x61 } [] s)
  | none => ownHuddle j 2 0 s

theorem forAll_nil {α : Type} (f : α → State → State) (s : State) : forAll [] f s = s := rfl

theorem onlyWorld_lose (flood : Bool) (node : Nat) (s : State) : OnlyWorld s (lose flood node s) := by
  unfold lose
  refine .ite (.refl s) ?_
  extract_lets s1 s2 js s3 s4 s5
  have listed : OnlyWorld s s2 := (OnlyWorld.onW s _).trans (onlyWorld_flt _ _ _ _ _ s1)
  have floods : OnlyWorld s2 s3 := .ite (.forAll _ _ (fun j s => onlyWorld_controlAll _ _ _ _ _ _ _ _ _ s) s2) (.refl s2)
  have jobs : OnlyWorld s3 s4 := by
    refine .forAll _ _ (fun j s => ?_) s3
    extract_lets s6
    have ended : OnlyWorld s s6 := (OnlyWorld.onW s _).trans (onlyWorld_completeAll _ _ _ _ _ _)
    split
    · exact (ended.trans (onlyWorld_failStep _ _ _ _ s6)).trans (onlyWorld_ownHuddle _ _ _ _)
    · exact ended.trans (onlyWorld_ownHuddle _ _ _ s6)
  have calls : OnlyWorld s4 s5 := onlyWorld_completeAll _ _ _ _ _ s4
  exact ((((listed.trans floods).trans jobs).trans calls).trans ((onlyWorld_lazyLost node s5).trans (onlyWorld_relink _))).trans
    (.forAll _ _ (fun j s => (onlyWorld_barAdvance j s).trans (onlyWorld_hudAdvance j _)) _)

theorem onlyWorld_loses (flood : Bool) (node : Nat) (s : State) : OnlyWorld s (failGone (lose flood node s)) :=
  (onlyWorld_lose flood node s).trans (onlyWorld_failGone _)

theorem lose_again {flood : Bool} (known : node ∈ s.w.topo.lost ∨ node = s.w.topo.node) : lose flood node s = s :=
  if_pos (by rcases known with k | k <;> simp [k])

theorem lazyLost_unmissed (none : s.w.mr.missing = []) : lazyLost node s = s := if_pos (by simp [none])

theorem jobsOf_jobless (jobless : ∀ j < 64, s.live j = false) : jobsOf s node = [] :=
  List.filter_eq_nil_iff.mpr fun j listed => by simp [jobless j (List.mem_range.mp listed)]

/-- A node that is new to the module is lost: what is left to do. -/
theorem lose_new (new : node ∉ s.w.topo.lost) (other : node ≠ s.w.topo.node) : lose false node s =
    forAll (jobsOf (lostNoted node s) node) (fun j s => hudAdvance j (barAdvance j s))
      (relink (lazyLost node (completeAll (fun r => r.op = 0x0504) 0x61 0 0xFF (fun _ => []) (forAll (jobsOf (lostNoted node s) node) loseJob (lostNoted node s))))) := by
  unfold lose
  rw [if_neg (by simp [new, other])]
  rfl

/-- With no job the loss of a node ends the calls of the bench module and nothing else that runs. -/
theorem lose_jobless (new : node ∉ s.w.topo.lost) (other : node ≠ s.w.topo.node) (jobless : ∀ j < 64, s.live j = false) (unmissed : s.w.mr.missing = []) :
    lose false node s = relink (completeAll (fun r => r.op = 0x0504) 0x61 0 0xFF (fun _ => []) (lostNoted node s)) := by
  have log : OnlyLog (lostListed node s) (lostNoted node s) := onlyLog_flt _ _ _ _ _ _
  have noJobs : jobsOf (lostNoted node s) node = [] := jobsOf_jobless (fun j low => by
    rw [show (lostNoted node s).live j = s.live j by rw [log]; rfl]
    exact jobless j low)
  have answers := answers_completeAll (fun r => r.op = 0x0504) (lostNoted node s) (status := 0x61) (detail := 0) (unit := 0xFF) (result := fun _ => [])
  have stands := lazyLost_unmissed (node := node) (s := completeAll (fun r => r.op = 0x0504) 0x61 0 0xFF (fun _ => []) (lostNoted node s)) (by
    rw [answers.reply]
    exact (congrArg Mr.missing log.mr).trans unmissed)
  rw [lose_new new other, noJobs, forAll_nil, forAll_nil, stands]

/-- With no stream parked and no access waiting, nothing ends with the blocks that are gone. -/
theorem failGone_quiet (unparked : ∀ c < 128, (s.chan c).state ≠ 2) (nobody : s.w.apWait = []) :
    ∃ l, failGone s = s.onW (fun w => { w with apWait := l }) := by
  unfold failGone
  extract_lets j s1 hit l
  have stands : s1 = s := by
    simp only [s1, parkedOn_nil unparked, List.filter_nil]
    rfl
  have noAccess : l = [] := by
    simp only [l, stands, nobody]
    rfl
  refine ⟨s.w.apWait.filter (fun a => !hit a), ?_⟩
  rw [noAccess, stands]
  rfl

/-! ### Substitutes (R347) -/

/-- A substitute stands at a place, in the list of those that do. -/
def substituted (node old : Nat) (s : State) : State := s.onW (fun w => { w with topo := { w.topo with
  subs := w.topo.subs.filter (fun e => e.2 != old && e.1 != node) ++ [(node, old)] } })

theorem substitute_jobless {old : Nat} (free : s.w.holder = none) (new : (node, old) ∉ s.w.topo.subs) : substitute node old s = substituted node old s := by
  unfold substitute
  rw [if_neg (by simpa using new)]
  extract_lets s1
  have unheld : s1.w.holder = none := free
  rw [unheld]
  rfl

theorem mem_substituted {old : Nat} : (node, old) ∈ (substituted node old s).w.topo.subs ∧ (∀ x ∈ (substituted node old s).w.topo.subs, x.2 = old → x.1 = node) := by
  refine ⟨List.mem_append_right _ (List.mem_singleton_self _), fun x member place => ?_⟩
  rcases List.mem_append.mp member with kept | new
  · have away := (List.mem_filter.mp kept).2
    simp [place] at away
  · rw [List.mem_singleton.mp new]

theorem membersChanged_jobless (free : s.w.holder = none) : membersChanged s = s := by
  rw [membersChanged, free]

theorem onlyWorld_substituted (node old : Nat) (s : State) : OnlyWorld s (substituted node old s) := .onW s _

theorem substituteNotice_named {place : Nat} {p : Plan} {e : PlaceEnt} (planned : s.w.topo.jobPlan = some p) (found : p.places[place]? = some e)
    (is : e.subst = node) (named : node ≠ 0xFFFF) (free : s.w.holder = none) (new : (node, e.node) ∉ s.w.topo.subs) :
    substituteNotice node place s = relink (substituted node e.node s) := by
  have unheld : (relink (substituted node e.node s)).w.holder = none := (onlyPorts_relink _).net.holder.trans free
  rw [substituteNotice, planned]
  dsimp only
  rw [found]
  refine (if_pos (by simp [is, named])).trans ?_
  rw [substitute_jobless free new, membersChanged_jobless unheld]

theorem substituteNotice_stands {old : Nat} : (node, old) ∈ (relink (substituted node old s)).w.topo.subs ∧
    (∀ x ∈ (relink (substituted node old s)).w.topo.subs, x.2 = old → x.1 = node) := by
  rw [(onlyPorts_relink (substituted node old s)).net.subs]
  exact mem_substituted

theorem substituteNotice_unnamed {place : Nat}
    (unnamed : ∀ p e, s.w.topo.jobPlan = some p → p.places[place]? = some e → e.subst ≠ node ∨ node = 0xFFFF) : substituteNotice node place s = s := by
  unfold substituteNotice
  split
  · rfl
  · next p planned =>
    split
    · rfl
    · next e found => exact if_neg (by rcases unnamed p e planned found with no | no <;> simp [no])

/-! ### Detours (R348) -/

/-- A port with the detour that host software has written. -/
def detoured (k v : Nat) (s : State) : Port :=
  { s.port k with via := if bits v 39 36 ≤ 11 then bits v 39 36 else (s.port k).via, dvalid := bit v 40, host := bit v 40 }

theorem detourWrite_log {k v : Nat} (low : k < 12) : OnlyLog
    (s.onW (fun w => { w with topo := { w.topo with ports := tput {} w.topo.ports k (detoured k v s) } })) (detourWrite k v s) := by
  unfold detourWrite
  rw [if_neg (by omega)]
  extract_lets p via valid s1
  exact .ite (onlyLog_flt _ _ _ _ _ s1) (.refl s1)

/-! ### The timers of messages and nodes -/

theorem resendMessage_again (kept : s.w.msgs.kept.find? (fun m => m.dst == dst && m.cls == cls && m.seq == seq) = some m) (few : m.resends < 3) :
    resendMessage dst cls seq s = launch { m with resends := m.resends + 1 } 0xFF (s.onW (fun w => { w with msgs := { w.msgs with
      kept := w.msgs.kept.map (fun x => if x == m then { m with resends := m.resends + 1 } else x) } })) := by
  rw [resendMessage, kept]
  exact if_neg (by omega)

theorem resendMessage_last (kept : s.w.msgs.kept.find? (fun m => m.dst == dst && m.cls == cls && m.seq == seq) = some m) (three : 3 ≤ m.resends) :
    resendMessage dst cls seq s = failGone (declareLost dst s) := by
  rw [resendMessage, kept]
  exact if_pos three

theorem resendMessage_acknowledged (gone : ∀ m ∈ s.w.msgs.kept, ¬(m.dst = dst ∧ m.cls = cls ∧ m.seq = seq)) : resendMessage dst cls seq s = s := by
  have absent : s.w.msgs.kept.find? (fun m => m.dst == dst && m.cls == cls && m.seq == seq) = none :=
    List.find?_eq_none.mpr fun m kept => by simpa [and_assoc] using gone m kept
  rw [resendMessage, absent]

theorem peerLost_out (node_ : node ≠ 0xFFFF) (known : ∃ e ∈ portEnts s, portPeer s e = node) (down : ∀ e ∈ portEnts s, portPeer s e = node → linksUp s e = 0) :
    peerLost node s = failGone (declareLost node s) := by
  obtain ⟨e, listed, toward⟩ := known
  have some : e ∈ (portEnts s).filter (fun e => portPeer s e = node) := List.mem_filter.mpr ⟨listed, by simpa using toward⟩
  have all : ((portEnts s).filter (fun e => portPeer s e = node)).all (fun e => linksUp s e = 0) = true := List.all_eq_true.mpr fun e member => by
    obtain ⟨listed, toward⟩ := List.mem_filter.mp member
    simpa using down e listed (by simpa using toward)
  exact if_pos (by simp only [all, Bool.and_true, Bool.and_eq_true, bne_iff_ne, ne_eq, node_, not_false_eq_true, true_and]; simpa using List.ne_nil_of_mem some)

theorem peerLost_stands (stands : node = 0xFFFF ∨ (∃ e ∈ portEnts s, portPeer s e = node ∧ linksUp s e ≠ 0) ∨ (∀ e ∈ portEnts s, portPeer s e ≠ node)) :
    peerLost node s = s := by
  refine if_neg fun lost => ?_
  simp only [Bool.and_eq_true, bne_iff_ne, ne_eq, Bool.not_eq_true', List.all_eq_true, List.mem_filter, decide_eq_true_eq] at lost
  obtain ⟨⟨named, some⟩, down⟩ := lost
  rcases stands with none | ⟨e, listed, toward, up⟩ | away
  · exact named none
  · exact up (down e ⟨listed, toward⟩)
  · have empty : (portEnts s).filter (fun e => portPeer s e = node) = [] := List.filter_eq_nil_iff.mpr fun e listed => by simpa using away e listed
    simp [empty] at some

/-- What a report, replies to commands and a refresh of the ports leave, one after another. -/
theorem reported_replied_refreshed {a b c d : State} (log : OnlyLog a b) (reply : OnlyReply b c) (net : OnlyNet c d) :
    d.w.apWait = a.w.apWait ∧ d.w.dma = a.w.dma ∧ d.w.topo.lost = a.w.topo.lost ∧ d.w.msgs = a.w.msgs ∧ d.w.mr = a.w.mr := by
  rw [net, reply, log]
  exact ⟨rfl, rfl, rfl, rfl, rfl⟩

/-- The module with no job that a lost node leaves, before the blocks that are gone are looked at. -/
def lostAnswered (node : Nat) (s : State) : State := completeAll (fun r => r.op = 0x0504) 0x61 0 0xFF (fun _ => []) (lostNoted node s)

theorem onlyLog_lostNoted (node : Nat) (s : State) : OnlyLog (lostListed node s) (lostNoted node s) := onlyLog_flt _ _ _ _ _ _

theorem answers_lostAnswered (node : Nat) (s : State) : Answers (lostNoted node s) (lostAnswered node s) := answers_completeAll _ _

theorem lostAnswered_uncalled {r : Run} (left : r ∈ (lostAnswered node s).w.inflight) : r.op ≠ 0x0504 := by
  simpa using not_selected_of_mem_completeAll left

/-- The notice of a lost node on a module with no job (R350). -/
theorem lostNotice_jobless (new : node ∉ s.w.topo.lost) (other : node ≠ s.w.topo.node) (jobless : ∀ j < 64, s.live j = false) (unmissed : s.w.mr.missing = [])
    (nobody : s.w.apWait = []) (unparked : ∀ c < 128, (s.chan c).state ≠ 2) :
    ∃ l, failGone (lose false node s) = (relink (lostAnswered node s)).onW (fun w => { w with apWait := l }) := by
  obtain ⟨waits, dma, _⟩ := reported_replied_refreshed (onlyLog_lostNoted node s) (answers_lostAnswered node s).reply
    (onlyPorts_relink (lostAnswered node s)).net
  have loses : lose false node s = relink (lostAnswered node s) := lose_jobless new other jobless unmissed
  rw [loses]
  exact failGone_quiet (fun c low => by rw [State.chan, dma]; exact unparked c low) (waits.trans nobody)

theorem lostNotice_leaves {d : State} {l : List ApAcc} (net : OnlyNet (lostAnswered node s) d) (is : t = d.onW (fun w => { w with apWait := l })) :
    t.w.topo.lost = sortNat (node :: s.w.topo.lost) ∧ t.w.msgs.kept = s.w.msgs.kept.filter (fun m => m.dst != node) ∧
      t.w.mr = (lostListed node s).w.mr ∧ (∀ r ∈ t.w.inflight, r.op ≠ 0x0504) := by
  obtain ⟨_, _, lost, msgs, mr⟩ := reported_replied_refreshed (onlyLog_lostNoted node s) (answers_lostAnswered node s).reply net
  have flying : t.w.inflight = (lostAnswered node s).w.inflight := by
    rw [is, ← net.inflight]
    rfl
  refine ⟨?_, ?_, by rw [is, ← mr]; rfl, fun r left => lostAnswered_uncalled (by rwa [flying] at left)⟩
  · rw [is]
    exact lost
  · rw [is]
    exact congrArg Msgs.kept msgs

theorem link_emit (o : Out) (s : State) : (s.emit o).link l = s.link l := rfl

/-- A frame in sequence leaves its link's count and sequence, and its acknowledgement goes out. -/
theorem frameTaken_link (rising : Claims.rising s.w.lk) (is : t =
    (((framePassed l corrected bad frame s).modLink l (fun k => { k with rxSeq := seq, rxBad := false, frames := wrapAdd 64 k.frames 1 })).emit
      (.hop l 1 seq)).emit (.hop l 3 (bits (Claims.ctlOf frame) 4 2))) :
    OnlySends s t ∧ (t.link l).rxSeq = seq ∧ (t.link l).rxBad = false ∧ (t.link l).frames = wrapAdd 64 (s.link l).frames 1 ∧ (t.link l).lastValid = s.now ∧
      Out.hop l 1 seq ∈ t.w.out := by
  have passes := keepsReceived_framePassed l corrected bad frame s
  have counts : OnlySends s ((Claims.symbolsCounted l corrected bad s).modLink l (fun k => { k with lastValid := s.now })) := rfl
  have order : Claims.rising (framePassed l corrected bad frame s).w.lk := passes.rising (rising_modLink l _ (rising_modLink l _ rising))
  obtain ⟨_, _, _, frames, valid⟩ := Lk.received_eq_iff.mp (received_framePassed (corrected := corrected) (bad := bad) (frame := frame) rising)
  have sends := (counts.trans passes.sends).trans (.modLink _ l (fun k => { k with rxSeq := seq, rxBad := false, frames := wrapAdd 64 k.frames 1 }))
  generalize framePassed l corrected bad frame s = u at *
  have link : t.link l = { u.link l with rxSeq := seq, rxBad := false, frames := wrapAdd 64 (u.link l).frames 1 } := by
    rw [is, link_emit, link_emit, link_modLink_self l _ order]
  refine ⟨?_, by rw [link], by rw [link], by rw [link, ← frames], by rw [link, ← valid], ?_⟩
  · rw [is]
    exact (sends.trans (.emit _ _)).trans (.emit _ _)
  · rw [is]
    exact List.mem_cons_of_mem _ List.mem_cons_self

end

/-- Settles O51: frames, the acknowledgements and resends of messages, detours, lost nodes and their substitutes. -/
theorem framesAndMessagesArrive : Obligations.FramesAndMessagesArrive := by
  unfold Obligations.FramesAndMessagesArrive
  refine ⟨?_, ?_, ?_, ?_, ?_, ?_, ?_, ?_, ?_, ?_, ?_, ?_, ?_, ?_, ?_, ?_, ?_, ?_⟩
  · intro l frame corrected bad s down
    exact (OnlyWorld.refl s).runs (frameReceive_down down)
  · intro l frame corrected bad seq s low served rising clear good kind numbered inOrder noNak
    obtain ⟨sends, received, unspoilt, frames, valid, acknowledged⟩ := frameTaken_link (corrected := corrected) (bad := bad) (frame := frame) (seq := seq) rising rfl
    exact ⟨_, sends.world.runs (frameReceive_taken low served rising clear good kind numbered inOrder noNak), sends.world.cfg, sends.world.ctl, sends.jobs,
      received, unspoilt, frames, valid, acknowledged⟩
  · intro l frame corrected bad s low served _ third
    exact ((onlyWorld_symbolsCounted l corrected bad s).trans (onlyNet_linkDown _ _ _).world).runs
      ((frameReceive_served low served).trans (if_pos (any_lanes_iff.mpr third)))
  · intro l frame corrected bad s low served _ clear spoilt
    exact ((onlyWorld_symbolsCounted l corrected bad s).trans (onlyWorld_sendNak _ _)).runs (frameReceive_refused low served clear spoilt)
  · intro l frame corrected bad s low served _ clear good carries other
    have seen := (onlyWorld_symbolsCounted l corrected bad s).trans (OnlyWorld.modLink _ l (fun k => { k with lastValid := s.now }))
    exact (OnlyWorld.ite seen (seen.trans (onlyWorld_sendNak _ _))).runs (frameReceive_outOfOrder low served clear good carries other)
  · intro src cls seq map s
    refine ⟨_, (OnlyWorld.onW s _).runs (forAll_ackMessage src cls _ s), rfl, fun m => ?_⟩
    show m ∈ s.w.msgs.kept.filter _ ↔ _
    rw [List.mem_filter]
    refine and_congr_right fun _ => ?_
    rw [← mem_acknowledged, Bool.not_eq_true', ← Bool.not_eq_true, not_iff_not]
    simp only [Bool.and_eq_true, beq_iff_eq, List.contains_iff_mem, and_assoc]
  · intro src s few
    obtain ⟨world, jobs, unacked⟩ := sendAck_owed few
    exact ⟨_, world.runs rfl, world.cfg, world.ctl, jobs, unacked⟩
  · intro dst cls seq m s kept few
    exact ((OnlyWorld.onW s _).trans (onlyWorld_launch _ _ _)).runs (resendMessage_again kept few)
  · intro dst cls seq m s kept three
    exact (onlyWorld_loses true dst s).runs (resendMessage_last kept three)
  · intro dst cls seq s gone
    exact (OnlyWorld.refl s).runs (resendMessage_acknowledged gone)
  · intro k v s low rising
    have log := detourWrite_log (s := s) (v := v) low
    have world := (OnlyWorld.onW s _).trans log.world
    have port (i : Nat) : (detourWrite k v s).port i = tget {} (tput {} s.w.topo.ports k (detoured k v s)) i := by rw [log]; rfl
    exact ⟨_, world.runs rfl, world.cfg, world.ctl, (port k).trans (tget_tput_rising _ _ _ _ rising), fun i other => (port i).trans (tget_tput_ne _ _ _ other)⟩
  · intro k v s high
    exact (OnlyWorld.refl s).runs (if_pos high)
  · intro node s named known down
    exact (onlyWorld_loses true node s).runs (peerLost_out named known down)
  · intro node s stands
    exact (OnlyWorld.refl s).runs (peerLost_stands stands)
  · intro node s new other jobless unmissed nobody unparked
    have world := onlyWorld_loses false node s
    obtain ⟨l, meaning⟩ := lostNotice_jobless new other jobless unmissed nobody unparked
    obtain ⟨lost, kept, mr, ended⟩ := lostNotice_leaves (onlyPorts_relink _).net meaning
    refine ⟨_, world.runs (f := fun s => failGone (lose false node s)) rfl, world.cfg, world.ctl, lost, kept, fun toward bound => ?_, fun holds bound => ?_, ended⟩
    · rw [mr]
      exact if_pos (by simp [toward, bound])
    · rw [mr]
      exact if_pos (by simp [holds, bound])
  · intro node s known
    exact (onlyWorld_failGone s).runs (f := fun s => failGone (lose false node s)) (congrArg failGone (lose_again known))
  · rintro node place p e s planned found rfl named free new
    have world := (onlyWorld_substituted e.subst e.node s).trans (onlyWorld_relink _)
    obtain ⟨stands, alone⟩ := substituteNotice_stands (s := s) (node := e.subst) (old := e.node)
    exact ⟨_, world.runs (substituteNotice_named planned found rfl named free new), world.cfg, world.ctl, stands, alone⟩
  · intro node place s unnamed
    exact (OnlyWorld.refl s).runs (substituteNotice_unnamed unnamed)

end Sys2Proof.Machine
end

section
/-! Checkpoints (R443-R446, R449, R452): CKPT_WRITE and the commit notice, the promenade and copy-before-write, and CKPT_RESTORE. -/

namespace Sys2Proof.Machine

open Sys2Proof

section

variable {h : Hdr} {s s0 s1 s2 t : State} {addr gen j i c o : Nat} {d hd recs bs : Bytes}

theorem onlyWorld_modCk (f : Ck → Ck) (s : State) : OnlyWorld s (modCk f s) := .onW s _

theorem onlyWorld_askCut (j : Nat) (s : State) : OnlyWorld s (askCut j s) := .ite (onlyWorld_ownHuddle _ _ _ s) (.refl s)

/-! ### The descriptor (R443) -/

theorem runCkpt_done {cmd : Instr} {st detail unit : Nat} {res : Bytes} (ready : Ready 0x0501 h s)
    (own : ckptOwn h addr gen (counted h s) = .done t st detail unit res) :
    runCkpt cmd h addr gen s = askCut h.job (finish 0x0501 h s st detail unit res t) := congrArg (askCut h.job) (startCmd_done ready own)

theorem runCkpt_later {cmd : Instr} {a b : Nat} (ready : Ready 0x0501 h s) (own : ckptOwn h addr gen (counted h s) = .later t a b) :
    runCkpt cmd h addr gen s = askCut h.job (runsOn 0x0501 h s a b t) := congrArg (askCut h.job) (startCmd_later ready own)

/-- The command is answered with what its own part says, and a cut that has ended is asked for. -/
theorem ckpt_answers {cmd : Instr} {st detail unit : Nat} {res : Bytes} (world : OnlyWorld (counted h s) t) (ready : Ready 0x0501 h s)
    (own : ckptOwn h addr gen (counted h s) = .done t st detail unit res) :
    onWorld (runCkpt cmd h addr gen) s = .next (askCut h.job (finish 0x0501 h s st detail unit res t)) :=
  ((((onlyWorld_counted h s).trans world).trans (onlyReply_finish _ _ _ _ _ _ _ _).world).trans (onlyWorld_askCut _ _)).runs (runCkpt_done ready own)

theorem ckptOwn_refused (read : pktRead s h.job addr 64 = .ok d) (fails : firstBad (ckptDescChecks d) = some o) : ckptOwn h addr gen s = badRec s o := by
  rw [ckptOwn, withRead_ok read, checkRec_failed fails]

theorem ckptOwn_write (read : pktRead s h.job addr 64 = .ok d) (pass : firstBad (ckptDescChecks d) = none) (op : fld d 2 1 = 0) :
    ckptOwn h addr gen s = ckptWriteOwn h.job gen d s := by
  rw [ckptOwn, withRead_ok read, checkRec_passed pass, if_pos op]

theorem ckptOwn_commit (read : pktRead s h.job addr 64 = .ok d) (pass : firstBad (ckptDescChecks d) = none) (op : fld d 2 1 = 1) :
    ckptOwn h addr gen s = commitOwn h.job gen d s := by
  rw [ckptOwn, withRead_ok read, checkRec_passed pass, if_neg (by omega)]

/-! ### CKPT_WRITE (R445) -/

theorem ckptWriteOwn_old (old : gen ≤ s.w.ck.anchored) : ckptWriteOwn j gen d s = badC s 24 := if_pos old

theorem ckptWriteOwn_complete (new : s.w.ck.anchored < gen) (found : s.w.ck.lost = none) (mine : s.w.ck.job = j) (this : s.w.ck.gen = gen)
    (complete : s.w.ck.state = 2) : ckptWriteOwn j gen d s = noteC s 3 (layout [(4, 0), (4, chunkCount s.w.ck.srcs)]) := by
  unfold ckptWriteOwn
  extract_lets ck c own
  have isMine : own = true := by simp [own, ck, mine, this, Nat.ne_of_gt (Nat.zero_lt_of_lt new)]
  rw [if_neg (by simp only [ck]; omega), if_neg (by simp [ck, found]), if_pos (by simp [isMine, ck, complete])]

/-- The engine is free and the cut not before the last started step. -/
theorem ckptWriteOwn_free (new : s.w.ck.anchored < gen) (found : s.w.ck.lost = none) (idle : s.w.ck.state = 0) (none : s.w.ck.gen = 0)
    (ahead : fld d 8 8 = 0 ∨ (s.job j).lastStarted.getD 0 ≤ fld d 8 8) : ckptWriteOwn j gen d s =
      if !areaHolds s j d then failC s 0x20 else .later (ckptOpen j gen d false s) gen 1 := by
  unfold ckptWriteOwn
  extract_lets ck c own
  have notMine : own = false := by simp [own, ck, none, Nat.ne_of_lt (Nat.zero_lt_of_lt new)]
  rw [if_neg (by simp only [ck]; omega), if_neg (by simp [ck, found]), if_neg (by simp [notMine]), if_neg (by simp [notMine]), if_neg (by simp [notMine]),
    if_neg (by simpa [c] using fun some => ahead.resolve_left some), if_neg (by simp [ck, idle]), if_neg (by simp [engineBusy, idle])]

/-! ### The commit notice (R449) -/

theorem onlySends_mirrorSend (j kind flags tensor items off step cut : Nat) (data : Bytes) (s : State) :
    OnlySends s (mirrorSend j kind flags tensor items off step cut data s) := .ite (onlySends_sendMsg _ _ _ _ _ _ s) (.refl s)

theorem onlyWorld_anchorAt (j cut : Nat) (s : State) : OnlyWorld s (anchorAt j cut s) := by
  unfold anchorAt
  exact (onlyWorld_mirrorSend _ _ _ _ _ _ _ _ _ s).trans (onlyWorld_modMr _ _)

/-- A generation is anchored here: the newest there is, and no longer in progress (R449). -/
def ckAnchored (gen : Nat) (s : State) : State := modCk (fun c =>
  { c with anchored := gen, state := if c.gen = gen then 0 else c.state, gen := if c.gen = gen then 0 else c.gen, job := if c.gen = gen then 0xFF else c.job }) s

theorem anchorAt_keeps (j cut : Nat) (s : State) :
    (anchorAt j cut s).w.jobs = s.w.jobs ∧ (anchorAt j cut s).w.ck = s.w.ck ∧ (anchorAt j cut s).w.mr.anchored = true := by
  have sends := onlySends_mirrorSend j 8 0 0 0 0 0 cut [] s
  exact ⟨sends.jobs, by rw [anchorAt, modMr, State.onW_w, sends], rfl⟩

theorem commitOwn_slot (head : pktRead s j (slotAddr (fld d 40 8) gen) 256 = .ok hd)
    (records : pktRead s j (slotAddr (fld d 40 8) gen + 256) (128 * fld hd 6 2) = .ok recs) : commitOwn j gen d s =
      if fld hd 8 4 != gen then badRec s 8
      else if fld hd 12 4 != fld hd 8 4 then badRec s 12
      else if !slotValid hd recs then badRec s 64
      else match s.w.ck.digests.find? (fun e => e.1 == gen) with
        | some e =>
          if e.2 == (recs.drop (128 * myIndex s + 56)).take 32 then okC (flt0 0x6303 0x07 j (fld hd 16 8) (anchorAt j (fld hd 16 8) (ckAnchored gen s)))
          else badRec s (256 + 128 * myIndex s + 56)
        | none => badRec s (256 + 128 * myIndex s + 56) := by
  rw [commitOwn]
  exact (withRead_ok head).trans (withRead_ok records)

theorem commitOwn_other (head : pktRead s j (slotAddr (fld d 40 8) gen) 256 = .ok hd)
    (records : pktRead s j (slotAddr (fld d 40 8) gen + 256) (128 * fld hd 6 2) = .ok recs) (other : fld hd 8 4 ≠ gen) :
    commitOwn j gen d s = badRec s 8 := (commitOwn_slot head records).trans (if_pos (by simpa using other))

theorem commitWord_of_slotValid (valid : slotValid hd recs = true) : fld hd 12 4 = fld hd 8 4 := by
  rw [slotValid, Bool.and_eq_true] at valid
  simpa using valid.1

theorem commitOwn_anchors (head : pktRead s j (slotAddr (fld d 40 8) gen) 256 = .ok hd)
    (records : pktRead s j (slotAddr (fld d 40 8) gen + 256) (128 * fld hd 6 2) = .ok recs) (this : fld hd 8 4 = gen) (valid : slotValid hd recs = true)
    (digest : (gen, (recs.drop (128 * myIndex s + 56)).take 32) ∈ s.w.ck.digests)
    (one : ∀ e ∈ s.w.ck.digests, e.1 = gen → e.2 = (recs.drop (128 * myIndex s + 56)).take 32) :
    commitOwn j gen d s = okC (flt0 0x6303 0x07 j (fld hd 16 8) (anchorAt j (fld hd 16 8) (ckAnchored gen s))) := by
  have listed : (s.w.ck.digests.find? (fun e => e.1 == gen)).isSome = true := List.find?_isSome.mpr ⟨_, digest, by simp⟩
  obtain ⟨e, found⟩ := Option.isSome_iff_exists.mp listed
  have same := one e (List.mem_of_find?_eq_some found) (by simpa using List.find?_some found)
  rw [commitOwn_slot head records, if_neg (by simp [this]), if_neg (by simp [commitWord_of_slotValid valid]), if_neg (by simp [valid]), found]
  exact if_pos (by simp [same])

/-! ### The promenade (R445) -/

/-- From `s` to `t` the cache alone changes. -/
def OnlyCache (s t : State) : Prop := t = { s with w := { s.w with cache := t.w.cache } }

theorem onlyCache_forAll {α : Type} {l : List α} {f : α → State → State} (hf : ∀ x s, OnlyCache s (f x s)) (s : State) : OnlyCache s (forAll l f s) := by
  unfold forAll
  induction l generalizing s with
  | nil => rfl
  | cons x r ih =>
    have first := hf x s
    have rest := ih (f x s)
    unfold OnlyCache at *
    rw [List.foldl_cons, rest, first]

theorem onlyCache_partTouch (j : Nat) (p : Nat × Nat) (s : State) : OnlyCache s (partTouch j p s) := by
  unfold partTouch touch
  extract_lets q
  split
  · rfl
  · split
    · rfl
    · refine onlyCache_forAll (fun g s => ?_) s
      dsimp only
      split <;> rfl

/-- A chunk whose parts are free: the state once they have passed the cache. -/
def partsRead (j i : Nat) (s : State) : State := forAll (chunkParts s.w.ck.srcs i) (partTouch j) s

theorem onlyCache_partsRead (j i : Nat) (s : State) : OnlyCache s (partsRead j i s) := onlyCache_forAll (onlyCache_partTouch j) s

theorem onlyWorld_partsRead (j i : Nat) (s : State) : OnlyWorld s (partsRead j i s) := by
  unfold OnlyWorld
  rw [onlyCache_partsRead]

/-- The promenade has a chunk of the generation in progress to do, and its parts can be read. -/
def chunkOpen (j i : Nat) (s : State) : Prop :=
  s.w.ck.state = 1 ∧ s.w.ck.armed = true ∧ s.w.ck.job = j ∧ i < chunkCount s.w.ck.srcs ∧ i ∉ s.w.ck.done ∧ (s.chan (96 + i % 16)).state = 0 ∧
    ∀ p ∈ chunkParts s.w.ck.srcs i, partFree s j p = true

/-- A chunk of no dedupe group, uncompressed and looked at for the first time, is written with its progress record. -/
theorem promenade_writes (undone : chunkOpen j i s) (clean : ∀ p ∈ chunkParts s.w.ck.srcs i, partBad (partsRead j i s) j p = none) (first : s.w.ck.again = false)
    (own : s.w.ck.group ≤ 1) (plain : s.w.ck.comp = false) (is : bs = streamRead (partsRead j i s) (chunkBytes * i) (chunkLen s.w.ck.srcs i))
    (data : jobWrite (partsRead j i s) j (fld s.w.ck.desc 16 8 + chunkBytes * i) bs = (none, s1))
    (record : jobWrite s1 j (fld s.w.ck.desc 32 8 + 64 * i) (progressRec 1 bs.length (chunkBytes * i) (leafDigest bs) (myIndex s)) = (none, s2)) :
    promenade j i s = chunkDone j i (leafDigest bs) 1 0 bs.length s2 := by
  have cache : OnlyCache s (partsRead j i s) := onlyCache_partsRead j i s
  have ck : (partsRead j i s).w.ck = s.w.ck := by rw [cache]
  have index : myIndex (partsRead j i s) = myIndex s := by rw [cache]; rfl
  have stored : storedChunk (partsRead j i s) i = bs := by
    rw [storedChunk, ck, plain, is]
    rfl
  have place : storedAt (partsRead j i s) i = chunkBytes * i := by
    rw [storedAt, ck, plain]
    rfl
  obtain ⟨running, armed, mine, listed, new, free, ready⟩ := undone
  have all : (chunkParts s.w.ck.srcs i).all (partFree s j) = true := List.all_eq_true.mpr ready
  unfold promenade
  rw [if_neg (by simp [running, armed, mine, listed, new, free, all])]
  dsimp only
  rw [show forAll (chunkParts s.w.ck.srcs i) (partTouch j) s = partsRead j i s from rfl, List.findSome?_eq_none_iff.mpr clean]
  dsimp only
  rw [if_pos (by simp [first]), if_neg (by simp; omega), stored, place, index, data, ← is]
  dsimp only
  rw [record]

theorem promenade_stands (done : s.w.ck.state ≠ 1 ∨ s.w.ck.armed = false ∨ s.w.ck.job ≠ j ∨ chunkCount s.w.ck.srcs ≤ i ∨ i ∈ s.w.ck.done) :
    promenade j i s = s := by
  refine if_pos ?_
  rcases done with d | d | d | d | d <;> simp [d, Nat.not_lt_of_le]

theorem onlyWorld_chunkDone (j i : Nat) (leaf : Bytes) (wrote skipped stored : Nat) (s : State) : OnlyWorld s (chunkDone j i leaf wrote skipped stored s) :=
  (onlyWorld_modCk _ s).trans (onlyWorld_ckptFinish _ _)

theorem onlyWorld_of_jobWrite {fault : Option (Nat × Nat × Nat)} (written : jobWrite s j addr bs = (fault, t)) : OnlyWorld s t := by
  have log := (onlyLog_jobWrite s j addr bs).world
  rwa [written] at log

theorem onlyWorld_modXing (k : Nat) (f : Xing → Xing) (s : State) : OnlyWorld s (s.modXing k f) := .onW s _

/-- A row of the promenade passes the host crossing and does what its part says. -/
theorem exec_promenadeChunk (clocked : s.ctl.clk.frozen = false) (meaning : promenade j i (s.modXing xHost (Xing.pass 1)) = t) (world : OnlyWorld s t) :
    exec (.promenadeChunk j i) s = .next t := world.runs ((through_running clocked).trans meaning)

/-! ### Copy before write (R446) -/

theorem copyBefore_stages {g us k : Nat} {x : Sect} (source : s.w.ck.srcs.find? (fun x => x.kind != 2 && (keySide x.key).1 = k && decide (65536 * g < x.bytes)) = some x)
    (armed : s.w.ck.armed = true) (mine : s.w.ck.job = j) (new : x.key / 65536 + g ∉ s.w.ck.copied) : copyBefore j k g us s =
      modCk (fun c => { c with stallMax := min (max c.stallMax us) 65535 }) (stageGranule j k (keySide x.key).2.1 g s) := by
  rw [copyBefore, source]
  exact if_neg (by simp [armed, mine, new])

theorem copyBefore_stands {g us k : Nat} (unarmed : s.w.ck.armed = false ∨ s.w.ck.job ≠ j ∨ s.w.ck.srcs = []) : copyBefore j k g us s = s := by
  unfold copyBefore
  extract_lets ck hit
  split
  · rfl
  · next x found =>
    rcases unarmed with a | a | a
    · exact if_pos (by simp [ck, a])
    · exact if_pos (by simp [ck, a])
    · simp [ck, a] at found

/-! ### CKPT_RESTORE (R452) -/

theorem onlyWorld_putSects (j c : Nat) (l : List Sect) (img : Bytes) (s : State) : OnlyWorld s (putSects j c l img s) := by
  refine .forAll _ _ (fun x s => ?_) s
  dsimp only
  split
  · exact .modJob s j _
  · exact onlyWorld_imageWrite _ _ _ _ s

theorem onlyWorld_restored (j c : Nat) (s : State) : OnlyWorld s (restored j c s) := by
  unfold restored
  extract_lets s1 s2 s3
  have anchored : OnlyWorld s s3 := ((OnlyWorld.modJob s j _).trans (onlyWorld_modMr _ s1)).trans (onlyWorld_mirrorSend _ _ _ _ _ _ _ _ _ s2)
  exact (anchored.trans (.ite (onlyWorld_seedAll false s3) (.refl s3))).trans (onlyWorld_flt _ _ _ _ _ _)

/-- The slot that CKPT_RESTORE names can be read, with the records behind its head. -/
def slotRead (h : Hdr) (addr gen : Nat) (hd recs : Bytes) (s : State) : Prop :=
  pktRead s h.job (slotAddr addr gen) 256 = .ok hd ∧ pktRead s h.job (slotAddr addr gen + 256) (128 * fld hd 6 2) = .ok recs

theorem restoreOwn_badSlot (slot : slotRead h addr gen hd recs s) (bad : slotValid hd recs = false ∨ fld hd 8 4 ≠ gen) : restoreOwn h addr gen s = badC s 16 := by
  obtain ⟨head, records⟩ := slot
  rw [restoreOwn]
  refine (withRead_ok head).trans ((withRead_ok records).trans (if_pos ?_))
  rcases bad with b | b <;> simp [b]

theorem restoreOwn_running {img : SetImg} (slot : slotRead h addr gen hd recs s) (valid : slotValid hd recs = true) (this : fld hd 8 4 = gen)
    (noPlan : s.w.topo.jobPlan = none) (single : [fld hd 6 2, fld hd 24 1, fld hd 25 1, fld hd 26 1] = [1, 1, 1, 1]) (cur : (s.job h.job).cur = some img)
    (digest : img.digest = fld hd 32 32) (runs : (s.job h.job).run ≠ none) : restoreOwn h addr gen s = failC s 0x30 := by
  obtain ⟨head, records⟩ := slot
  rw [restoreOwn, noPlan]
  refine (withRead_ok head).trans ((withRead_ok records).trans ((if_neg (by simp [valid, this])).trans ((if_neg (by simp [single])).trans ?_)))
  rw [cur]
  exact (if_neg (by simp [digest])).trans (if_pos (by simp [Option.isSome_iff_ne_none, runs]))

theorem restoreOwn_restores {img : SetImg} {l : List Sect} {xs : List Bytes} (slot : slotRead h addr gen hd recs s) (valid : slotValid hd recs = true)
    (this : fld hd 8 4 = gen) (noPlan : s.w.topo.jobPlan = none) (single : [fld hd 6 2, fld hd 24 1, fld hd 25 1, fld hd 26 1] = [1, 1, 1, 1])
    (cur : (s.job h.job).cur = some img) (digest : img.digest = fld hd 32 32) (idle : (s.job h.job).run = none) (waits : (s.job h.job).waiting = [])
    (free : s.w.ck.state = 0) (none : s.w.ck.gen = 0) (cut : c = fld hd 16 8) (sects : l = shardSects s h.job c)
    (chunks : restoreChunks s h.job 0 recs l (List.range (chunkCount l)) = .ok xs) (root : rootDigest (xs.map leafDigest) = (recs.drop 56).take 32) :
    restoreOwn h addr gen s = okC (restored h.job c (putSects h.job c l xs.flatten s)) (leBytes 8 c) := by
  obtain ⟨head, records⟩ := slot
  have index : myIndex s = 0 := by rw [myIndex, noPlan]
  subst cut sects
  rw [restoreOwn, noPlan]
  refine (withRead_ok head).trans ((withRead_ok records).trans ((if_neg (by simp [valid, this])).trans ((if_neg (by simp [single])).trans ?_)))
  rw [cur]
  refine (if_neg (by simp [digest])).trans ((if_neg (by simp [idle, waits])).trans ((if_neg (by simp [engineBusy, free])).trans ?_))
  simp only [index, chunks]
  rw [if_neg (by simp [root]), if_neg (by simp [none])]

end

/-- Settles O55: the two commands on a descriptor, the promenade and copy-before-write, and CKPT_RESTORE. -/
theorem checkpointsAreWrittenCommittedAndRestored : Obligations.CheckpointsAreWrittenCommittedAndRestored := by
  unfold Obligations.CheckpointsAreWrittenCommittedAndRestored
  refine ⟨?_, ?_, ?_, ?_, ?_, ?_, ?_, ?_, ?_, ?_, ?_, ?_, ?_, ?_⟩
  · intro h addr gen d s ready read pass op new found idle none ahead room
    have own : ckptOwn h addr gen (counted h s) = .later (ckptOpen h.job gen d false (counted h s)) gen 1 := by
      rw [ckptOwn_write read pass op, ckptWriteOwn_free (s := counted h s) new found idle none ahead, if_neg (by simp [room])]
    have world : OnlyWorld s (runsOn 0x0501 h s gen 1 (ckptOpen h.job gen d false (counted h s))) := rfl
    exact (world.trans (onlyWorld_askCut _ _)).runs (runCkpt_later ready own)
  · intro h addr gen d s ready read pass op new found idle none ahead full
    refine ckpt_answers (.refl _) ready ?_
    rw [ckptOwn_write read pass op, ckptWriteOwn_free (s := counted h s) new found idle none ahead, if_pos (by simp [full])]
    rfl
  · intro h addr gen d s ready read pass op new found mine this complete
    exact ckpt_answers (.refl _) ready ((ckptOwn_write read pass op).trans (ckptWriteOwn_complete (s := counted h s) new found mine this complete))
  · intro h addr gen d s ready read pass op old
    exact ckpt_answers (.refl _) ready ((ckptOwn_write read pass op).trans (ckptWriteOwn_old (s := counted h s) old))
  · intro h addr gen o d s ready read fails
    exact ckpt_answers (.refl _) ready (ckptOwn_refused read fails)
  · intro h addr gen d hd recs s ready read pass op head records this valid digest one
    have own := (ckptOwn_commit read pass op).trans (commitOwn_anchors (s := counted h s) head records this valid digest one)
    have world := (onlyWorld_modCk _ (counted h s)).trans (onlyWorld_anchorAt h.job (fld hd 16 8) (ckAnchored gen (counted h s)))
    obtain ⟨jobs, ck, anchored⟩ := anchorAt_keeps h.job (fld hd 16 8) (ckAnchored gen (counted h s))
    exact ⟨_, ckpt_answers (world.trans (onlyWorld_flt _ _ _ _ _ _)) ready own, world.cfg, world.ctl, jobs, congrArg Ck.anchored ck, anchored⟩
  · intro h addr gen d hd recs s ready read pass op head records other
    exact ckpt_answers (.refl _) ready ((ckptOwn_commit read pass op).trans (commitOwn_other head records other))
  · rintro j i bs s _ s1 s2 clocked running armed mine listed new free ready rfl clean first own plain is data record
    have meaning := promenade_writes (s := s.modXing xHost (Xing.pass 1)) ⟨running, armed, mine, listed, new, free, ready⟩ clean first own plain is data record
    have world := ((((onlyWorld_modXing xHost (Xing.pass 1) s).trans (onlyWorld_partsRead j i _)).trans (onlyWorld_of_jobWrite data)).trans (onlyWorld_of_jobWrite record)).trans
      (onlyWorld_chunkDone j i (leafDigest bs) 1 0 bs.length s2)
    exact exec_promenadeChunk clocked meaning world
  · intro j i s clocked done
    exact exec_promenadeChunk clocked (promenade_stands (s := s.modXing xHost (Xing.pass 1)) done) (onlyWorld_modXing _ _ s)
  · intro j k g us x s clocked source armed mine new
    exact onWorld_fabric_of_onlyWorld clocked (copyBefore_stages source armed mine new) ((onlyWorld_stageGranule _ _ _ _ s).trans (onlyWorld_modCk _ _))
  · intro j k g us s clocked unarmed
    exact onWorld_fabric_of_onlyWorld clocked (copyBefore_stands unarmed) (.refl s)
  · intro h addr gen c hd recs img l xs s ready head records valid this noPlan single cur digest idle waits free none cut sects chunks root
    exact ((onlyWorld_putSects _ _ _ _ (counted h s)).trans (onlyWorld_restored _ _ _)).done ready
      (restoreOwn_restores (s := counted h s) ⟨head, records⟩ valid this noPlan single cur digest idle waits free none cut sects chunks root)
  · intro h addr gen hd recs img s ready head records valid this noPlan single cur digest runs
    exact (OnlyWorld.refl (counted h s)).done ready (restoreOwn_running (s := counted h s) ⟨head, records⟩ valid this noPlan single cur digest runs)
  · intro h addr gen hd recs s ready head records bad
    exact (OnlyWorld.refl (counted h s)).done ready (restoreOwn_badSlot (s := counted h s) ⟨head, records⟩ bad)

end Sys2Proof.Machine
end

section
/-! The Reel engine (R365-R383): everything it does writes the world alone, and a COLL_RUN leaves the holder of the array and the steps
that the jobs run alone. -/

namespace Sys2Proof.Machine

open Sys2Proof

variable {p q : Prop} {s t u : State} {v : Inv} {c : Coll}

/-- From `s` to `t` the world alone changes, and where `p` holds the holder of the array stands and of the jobs only the counts of faults
change. -/
structure KeepsRuns (p : Prop) (s t : State) : Prop where
  world : OnlyWorld s t
  holder : p → t.w.holder = s.w.holder
  jobs : p → JobsButFaults s t

namespace KeepsRuns

theorem refl (s : State) : KeepsRuns p s s := ⟨.refl s, fun _ => rfl, fun _ => .refl s⟩

theorem trans (h : KeepsRuns p s t) (k : KeepsRuns p t u) : KeepsRuns p s u :=
  ⟨h.world.trans k.world, fun c => (k.holder c).trans (h.holder c), fun c => (h.jobs c).trans (k.jobs c)⟩

theorem ite {r : Prop} [Decidable r] (h : KeepsRuns p s t) (k : KeepsRuns p s u) : KeepsRuns p s (if r then t else u) := by
  split
  · exact h
  · exact k

theorem mono (h : KeepsRuns p s t) (of : q → p) : KeepsRuns q s t := ⟨h.world, fun c => h.holder (of c), fun c => h.jobs (of c)⟩

theorem forAll {α : Type} {l : List α} {f : α → State → State} (hf : ∀ x s, KeepsRuns p s (f x s)) (s : State) : KeepsRuns p s (forAll l f s) := by
  unfold Machine.forAll
  induction l generalizing s with
  | nil => exact refl s
  | cons x r ih => exact (hf x s).trans (ih _)

theorem foldl_snd {β γ : Type} {f : β × State → γ → β × State} (hf : ∀ acc x, KeepsRuns p acc.2 (f acc x).2) (l : List γ) (acc : β × State) :
    KeepsRuns p acc.2 (l.foldl f acc).2 := by
  induction l generalizing acc with
  | nil => exact refl acc.2
  | cons x r ih => exact (hf acc x).trans (ih _)

/-- Where `p` does not hold, that the world alone changes is all there is to show. -/
theorem of_onlyWorld (world : OnlyWorld s t) (no : ¬ p) : KeepsRuns p s t := ⟨world, fun c => absurd c no, fun c => absurd c no⟩

theorem of_keepsJobs (h : KeepsJobs s t) : KeepsRuns p s t := ⟨h.world, fun _ => h.holder, fun _ => .of_jobs h.jobs⟩

theorem of_onlySends (h : OnlySends s t) : KeepsRuns p s t := ⟨h.world, fun _ => by rw [h], fun _ => .of_jobs h.jobs⟩

theorem same (world : OnlyWorld s t) (jobs : t.w.jobs = s.w.jobs) (holder : t.w.holder = s.w.holder) : KeepsRuns p s t :=
  ⟨world, fun _ => holder, fun _ => .of_jobs jobs⟩

theorem onW {f : World → World} (s : State) (jobs : (f s.w).jobs = s.w.jobs := by rfl) (holder : (f s.w).holder = s.w.holder := by rfl) :
    KeepsRuns p s (s.onW f) := same (.onW s f) jobs holder

/-- A job that runs no step still runs none. -/
theorem idle {j : Nat} (h : KeepsRuns p s t) (holds : p) (idle : (s.job j).run = none) : (t.job j).run = none := by
  obtain ⟨n, a, same⟩ := h.jobs holds j
  rw [same]
  exact idle

end KeepsRuns

theorem keepsRuns_flt (cls unit job step : Nat) (loc : Loc) (s : State) : KeepsRuns p s (flt cls unit job step loc s) :=
  .of_keepsJobs (keepsJobs_flt _ _ _ _ _ _)

theorem keepsRuns_completeAll (sel : Run → Bool) (st d unit : Nat) (bs : Run → Bytes) (s : State) :
    KeepsRuns p s (completeAll sel st d unit bs s) := by
  refine ⟨onlyWorld_completeAll _ _ _ _ _ _, fun _ => ?_, fun _ => .completeAll _ _ _ _ _ _⟩
  have reply : OnlyReply s (completeAll sel st d unit bs s) := (answers_completeAll sel s).reply
  rw [reply]

/-! ### Writes of device memory (R383, R446, R480) -/

theorem keepsRuns_stageGranule (j h buf g : Nat) (s : State) : KeepsRuns p s (stageGranule j h buf g s) := by
  refine .ite (.refl s) (.ite ?_ (.onW s))
  unfold abandonCkpt ckptReply disarm
  exact (((keepsRuns_flt _ _ _ _ _ s).trans (keepsRuns_completeAll _ _ _ _ _ _)).trans (.onW _)).trans (.onW _)

theorem keepsRuns_freshen (j h buf off n : Nat) (s : State) : KeepsRuns p s (freshen j h buf off n s) := by
  unfold freshen
  split
  · exact .refl s
  · exact .ite (.refl s) (.onW s)

theorem keepsRuns_storeSyms (key tier : Nat) (syms : List (Nat × Nat)) (s : State) : KeepsRuns p s (storeSyms key tier syms s) := by
  unfold storeSyms
  dsimp only
  split
  · exact .same rfl rfl rfl
  · exact .ite (.same rfl rfl rfl) (.ite (.same rfl rfl rfl) (.same rfl rfl rfl))
  · exact .same rfl rfl rfl

theorem keepsRuns_afterWrite (key n : Nat) (s : State) : KeepsRuns p s (afterWrite key n s) := by
  unfold afterWrite
  generalize cleared : (if s.w.inject.isEmpty then s else s.onW (fun w => { w with
    inject := w.inject.filter (fun x => !(decide (x.1 < key + n) && decide (key < x.1 + x.2.1)) || s.badAt x.1 x.2.1) })) = t
  have clear : KeepsRuns p s t := cleared ▸ .ite (.refl s) (.onW s)
  refine .ite (.ite ?_ clear) clear
  exact (clear.trans ((KeepsRuns.onW t).trans (keepsRuns_flt _ _ _ _ _ _))).trans (keepsRuns_storeSyms _ _ _ _)

theorem keepsRuns_jobPut (j h buf off : Nat) (bs : Bytes) (s : State) : KeepsRuns p s (jobPut j h buf off bs s) := by
  refine .ite (.refl s) (KeepsRuns.trans ?_ (keepsRuns_afterWrite _ _ _))
  have staged := KeepsRuns.forAll (p := p) (l := (List.range ((off + bs.length - 1) / 65536 + 1 - off / 65536)).map (fun i => off / 65536 + i))
    (keepsRuns_stageGranule j h buf) s
  exact ((staged.trans (.onW _)).trans (keepsRuns_freshen _ _ _ _ _ _)).trans (.onW _)

theorem keepsRuns_writeDecl (j h : Nat) (codes : List Nat) (s : State) : KeepsRuns p s (writeDecl j h codes s) := by
  unfold writeDecl
  split
  · exact .refl s
  · exact .forAll (fun _ s => .forAll (fun _ s => (keepsRuns_jobPut _ _ _ _ _ s).trans (.of_keepsJobs (keepsJobs_touch _ _ _ _ _ _ _ _))) s) s

theorem keepsRuns_poisonUnits (j h : Nat) (us : List Nat) (size : Nat) (s : State) : KeepsRuns p s (poisonUnits j h us size s) := by
  unfold poisonUnits
  split
  · exact .refl s
  · exact .forAll (fun _ s => .forAll (fun _ s => .ite (.onW s) (.refl s)) s) s

/-! ### Messages and sums under way (R366-R368, R380) -/

theorem keepsRuns_reelSend (s : State) (v : Inv) (c : Coll) (dst : List Nat) (pass first units fmt : Nat) (comp : Bool) (data : Bytes) :
    KeepsRuns p s (reelSend s v c dst pass first units fmt comp data) := by
  unfold reelSend
  extract_lets up sent spec s1
  have counts : KeepsRuns p s s1 := .onW s
  exact counts.trans (.of_onlySends (onlySends_sendMsg _ _ _ _ _ _ _))

theorem keepsRuns_putInv (v : Inv) (s : State) : KeepsRuns p s (putInv v s) := .onW s

theorem keepsRuns_spreadUnit (v : Inv) (c : Coll) (u g : Nat) (codes : List Nat) (s : State) : KeepsRuns p s (spreadUnit v c u g codes s) := by
  refine .forAll (fun i s => ?_) s
  split
  · exact .forAll (fun _ s => keepsRuns_reelSend s _ _ _ _ _ _ _ _ _) s
  · exact .refl s

theorem keepsRuns_finishUnit (v : Inv) (c : Coll) (u g : Nat) (codes : List Nat) (s : State) : KeepsRuns p s (finishUnit v c u g codes s).2 :=
  .ite (keepsRuns_spreadUnit _ _ _ _ _ s) (.refl s)

theorem keepsRuns_unitAt (v : Inv) (c : Coll) (u k : Nat) (x : List Nat) (s : State) : KeepsRuns p s (unitAt v c u k x s).2 := by
  unfold unitAt
  extract_lets pl me v1
  split
  · exact keepsRuns_finishUnit _ _ _ _ _ s
  · split
    · exact keepsRuns_reelSend s _ _ _ _ _ _ _ _ _
    · exact .refl s

theorem stage_unitAt (v : Inv) (c : Coll) (u k : Nat) (x : List Nat) (s : State) : (unitAt v c u k x s).1.stage = v.stage := by
  unfold unitAt
  extract_lets pl me v1
  split
  · rfl
  · split <;> rfl

theorem keepsRuns_addPartial (v : Inv) (c : Coll) (u k : Nat) (part x : List Nat) (s : State) :
    KeepsRuns p s (addPartial v c u k part x s).2 := by
  unfold addPartial
  extract_lets pl me sum f
  split
  · exact .refl s
  · split
    · exact keepsRuns_unitAt _ _ _ _ _ s
    · exact keepsRuns_reelSend s _ _ _ _ _ _ _ _ _

theorem stage_addPartial (v : Inv) (c : Coll) (u k : Nat) (part x : List Nat) (s : State) : (addPartial v c u k part x s).1.stage = v.stage := by
  unfold addPartial
  extract_lets pl me sum f
  split
  · rfl
  · split
    · exact stage_unitAt _ _ _ _ _ s
    · rfl

theorem keepsRuns_pump (n : Nat) (v : Inv) (c : Coll) (s : State) : KeepsRuns p s (pump n v c s).2 := by
  induction n generalizing v s with
  | zero => exact .refl s
  | succ n ih =>
    unfold pump
    split
    · exact .refl s
    · exact (keepsRuns_addPartial _ _ _ _ _ _ s).trans (ih _ _)

theorem stage_pump (n : Nat) (v : Inv) (c : Coll) (s : State) : (pump n v c s).1.stage = v.stage := by
  induction n generalizing v s with
  | zero => rfl
  | succ n ih =>
    unfold pump
    split
    · rfl
    · exact (ih _ _).trans (stage_addPartial _ _ _ _ _ _ s)

theorem keepsRuns_settleBlocks (v : Inv) (c : Coll) (s : State) : KeepsRuns p s (settleBlocks v c s).2 := by
  unfold settleBlocks
  extract_lets me nb
  refine .foldl_snd (fun acc blk => ?_) (List.range nb) (v, s)
  extract_lets v recs byRank len sums codes us v1 s1
  split
  · exact .refl acc.2
  · exact .forAll (fun _ s => keepsRuns_reelSend s _ _ _ _ _ _ _ _ _) acc.2

/-- Steps of an invocation that each keep its stage keep it together. -/
theorem stage_foldl {γ : Type} {f : Inv × State → γ → Inv × State} (hf : ∀ acc x, (f acc x).1.stage = acc.1.stage) (l : List γ)
    (acc : Inv × State) : (l.foldl f acc).1.stage = acc.1.stage := by
  induction l generalizing acc with
  | nil => rfl
  | cons x r ih => exact (ih _).trans (hf acc x)

theorem stage_settleBlocks (v : Inv) (c : Coll) (s : State) : (settleBlocks v c s).1.stage = v.stage := by
  unfold settleBlocks
  extract_lets me nb
  refine stage_foldl (fun acc blk => ?_) (List.range nb) (v, s)
  extract_lets v recs byRank len sums codes us v1 s1
  split <;> rfl

/-! ### How an invocation ends, moves on and starts (R366-R374, R383) -/

theorem onlyWorld_writeTensor (j id : Nat) (codes : List Nat) (s : State) : OnlyWorld s (writeTensor j id codes s) := by
  unfold writeTensor
  split
  · exact .refl s
  · split
    · exact .refl s
    · refine .forAll _ _ (fun _ s => ?_) s
      split
      · exact onlyWorld_modRun _ _ s
      · exact .refl s

theorem onlyWorld_putRows (j e port m : Nat) (codes : List Nat) (poison : Bool) (c : Ctx) (s : State) :
    OnlyWorld s (putRows j e port m codes poison c s) := (keepsTiles_putRows (j := j) e port m codes poison c s).world

theorem keepsRuns_invEnd (v : Inv) (c : Coll) (s : State) : KeepsRuns (v.stage = 0xFFFF) s (invEnd v c s) := by
  unfold invEnd
  extract_lets units codes s1 h done s2 l poisoned
  have dropped (p : Prop) : KeepsRuns p s s1 := .onW s
  split
  · have written : KeepsRuns (v.stage = 0xFFFF) s s2 := (dropped _).trans (keepsRuns_writeDecl _ _ _ _)
    split
    · exact written.trans (keepsRuns_completeAll _ _ _ _ _ _)
    · exact ((written.trans (keepsRuns_poisonUnits _ _ _ _ _)).trans (keepsRuns_flt _ _ _ _ _ _)).trans (keepsRuns_completeAll _ _ _ _ _ _)
  · rename_i stage
    refine .of_onlyWorld ?_ stage
    split
    · exact (dropped True).world
    · rename_i k _
      extract_lets s2 s3
      have written : OnlyWorld s1 s2 := by
        refine .ite (.refl s1) (.ite (onlyWorld_writeTensor _ _ _ s1) ?_)
        split
        · split
          · exact .ite ((onlyWorld_putRows _ _ _ _ _ _ _ s1).trans (onlyWorld_writeTensor _ _ _ _)) (onlyWorld_putRows _ _ _ _ _ _ _ s1)
          · exact .refl s1
        · exact .refl s1
      have reports : OnlyWorld s s3 := ((dropped True).world.trans written).trans (onlyWorld_modRun _ _ s2)
      exact .ite ((reports.trans (onlyWorld_flt _ _ _ _ _ _)).trans (onlyWorld_failStep _ _ _ _ _)) reports

theorem keepsRuns_invPump (ofRun : p → v.stage = 0xFFFF) (s : State) : KeepsRuns p s (invPump v s) := by
  unfold invPump
  extract_lets c r r2 s1
  have pumped : KeepsRuns p s r.2 := keepsRuns_pump _ v c s
  have ofPump : r.1.stage = v.stage := stage_pump _ v c s
  have settled : KeepsRuns p s r2.2 ∧ r2.1.stage = v.stage := by
    unfold r2
    split
    · exact ⟨pumped.trans (keepsRuns_settleBlocks _ _ _), (stage_settleBlocks _ _ _).trans ofPump⟩
    · exact ⟨pumped, ofPump⟩
  obtain ⟨moved, stage⟩ := settled
  have put : KeepsRuns p s s1 := moved.trans (keepsRuns_putInv _ _)
  exact .ite (put.trans ((keepsRuns_invEnd _ _ _).mono (fun run => stage.trans (ofRun run)))) put

/-- What makes an invocation's start a COLL_RUN's with nothing come in before it. -/
def FirstRun (v : Inv) (s : State) : Prop := getInv s v = none ∧ v.stage = 0xFFFF ∧ v.comp = false ∧ v.held = []

theorem onlyWorld_mirrorResid (j tensor i step : Nat) (s : State) : OnlyWorld s (mirrorResid j tensor i step s) := by
  unfold mirrorResid
  split
  · exact onlyWorld_mirrorSend _ _ _ _ _ _ _ _ _ s
  · exact .refl s

theorem keepsRuns_invStart (v0 : Inv) (x : List Nat) (s : State) : KeepsRuns (FirstRun v0 s) s (invStart v0 x s) := by
  unfold invStart
  extract_lets c early me rk v others fp b n r e units mine v3 owned us s4 seg s5 data s6 s7
  have ofRun : FirstRun v0 s → v.stage = 0xFFFF ∧ v.held = [] ∧ v.comp = false := by
    rintro ⟨fresh, stage, plain, held⟩
    have first : early = v0 := by simp only [early, fresh]
    unfold v
    rw [first]
    exact ⟨stage, held, plain⟩
  have pumps (w : Inv) (t : State) (same : w.stage = v.stage) : KeepsRuns (FirstRun v0 s) t (invPump w t) :=
    keepsRuns_invPump (fun run => same.trans (ofRun run).1) t
  split
  · rename_i compressed
    refine .of_onlyWorld ?_ (fun run => by simp [(ofRun run).2.2] at compressed)
    split
    · exact .refl s
    · extract_lets blocks d s1 own s2
      have residual : OnlyWorld s s1 := (OnlyWorld.modJob s _ _).trans (onlyWorld_mirrorResid _ _ _ _ _)
      have sent : OnlyWorld s1 s2 := .forAll _ _ (fun _ s => (keepsRuns_reelSend (p := True) s _ _ _ _ _ _ _ _ _).world) s1
      exact (residual.trans sent).trans (keepsRuns_invPump (p := False) nofun s2).world
  · split
    · have begun : KeepsRuns (FirstRun v0 s) s units.2 := .foldl_snd (fun acc u => keepsRuns_unitAt _ _ _ _ _ acc.2) _ (v, s)
      have same : units.1.stage = v.stage := stage_foldl (fun acc u => stage_unitAt acc.1 c u 0 (unitOf fp u) acc.2) _ (v, s)
      exact begun.trans (pumps _ _ same)
    · split
      · have begun : KeepsRuns (FirstRun v0 s) s owned.2 := .foldl_snd (fun acc u => keepsRuns_finishUnit _ _ _ _ _ acc.2) _ (v3, s)
        have same : owned.1.stage = v3.stage := 
          stage_foldl (γ := Nat × Nat) (f := fun acc p => finishUnit acc.1 c p.1 0 (unitOf x p.2) acc.2) (fun _ _ => rfl) _ (v3, s)
        exact begun.trans (pumps _ _ same)
      · split
        · split
          · have sent : KeepsRuns (FirstRun v0 s) s s4 :=
              .forAll (fun _ s => .forAll (fun _ s => keepsRuns_reelSend s _ _ _ _ _ _ _ _ _) s) s
            exact sent.trans (pumps _ _ rfl)
          · exact pumps v s rfl
        · split
          · have sent : KeepsRuns (FirstRun v0 s) s s5 := .forAll (fun _ s => keepsRuns_reelSend s _ _ _ _ _ _ _ _ _) s
            exact sent.trans (pumps _ _ rfl)
          · have sent : KeepsRuns (FirstRun v0 s) s s6 := .forAll (fun _ s => keepsRuns_reelSend s _ _ _ _ _ _ _ _ _) s
            have merged : KeepsRuns (FirstRun v0 s) s6 s7 := by
              refine ⟨.forAll _ _ (fun _ s => .forAll _ _ (fun _ s => .modJob s _ _) s) s6, fun run => ?_, fun run => ?_⟩
              all_goals
                have nothing : s7 = s6 := by
                  unfold s7
                  rw [(ofRun run).2.1]
                  rfl
                rw [nothing]
              exact .refl s6
            exact (sent.trans merged).trans (pumps _ _ rfl)

/-! ### What any event of the engine changes -/

theorem onlyWorld_invPump (v : Inv) (s : State) : OnlyWorld s (invPump v s) := (keepsRuns_invPump (p := False) nofun s).world

theorem onlyWorld_invStart (v : Inv) (x : List Nat) (s : State) : OnlyWorld s (invStart v x s) := (keepsRuns_invStart v x s).world

theorem onlyWorld_putInv (v : Inv) (s : State) : OnlyWorld s (putInv v s) := .onW s _

theorem onlyWorld_reelReceive (j stage mb serial crc pass first units fmt : Nat) (comp : Bool) (rank : Nat) (sent : Bytes) (s : State) :
    OnlyWorld s (reelReceive j stage mb serial crc pass first units fmt comp rank sent s) := by
  unfold reelReceive
  extract_lets v0
  refine .ite (.refl s) ?_
  split
  · split
    · refine .ite ?_ ((onlyWorld_flt _ _ _ _ _ s).trans (onlyWorld_failStep _ _ _ _ _))
      exact ((onlyWorld_flt _ _ _ _ _ s).trans (.onW _ _)).trans (onlyWorld_completeAll _ _ _ _ _ _)
    · extract_lets c n data v1 v el set_ len r parts units
      have finished : OnlyWorld s units.2 := onlyWorld_foldl_snd (fun acc i => (keepsRuns_finishUnit (p := True) _ _ _ _ _ acc.2).world) _ (v, s)
      have merged (l : List Acc) : OnlyWorld s (forAll l (fun a s => s.modJob j (mergeAcc stage a)) s) := .forAll _ _ (fun _ s => .modJob s _ _) s
      have pumps (v : Inv) : OnlyWorld s (invPump v s) := onlyWorld_invPump v s
      refine .ite (.ite (.refl s) (pumps _)) (.ite (pumps _) (.ite (finished.trans (onlyWorld_invPump _ _)) (.ite (pumps _) (.ite (pumps _) ?_))))
      exact .ite (.refl s) (.ite ((merged _).trans (onlyWorld_invPump _ _)) (pumps _))
  · exact .ite (.refl s) (onlyWorld_putInv _ s)

theorem onlyWorld_startRun (v : Inv) (s : State) : OnlyWorld s (startRun v s) := by
  have replays (s : State) (l : List Bytes) : OnlyWorld s (replayEarly v.job v.serial l s) :=
    .forAll _ _ (fun _ s => onlyWorld_reelReceive _ _ _ _ _ _ _ _ _ _ _ _ s) s
  exact ((OnlyWorld.onW s _).trans (onlyWorld_invStart _ _ _)).trans (replays _ _)

theorem onlyWorld_startExchanges (j : Nat) (s : State) : OnlyWorld s (startExchanges j s) := by
  unfold startExchanges
  split
  · exact .refl s
  · extract_lets s1
    have started : OnlyWorld s s1 := by
      refine .forAll _ _ (fun st s => ?_) s
      split
      · exact .refl s
      · refine .ite (.refl s) ?_
        split
        · exact .refl s
        · exact onlyWorld_invStart _ _ s
    exact started.trans (.forAll _ _ (fun st s => .ite (.refl s) (onlyWorld_invStart _ _ s)) s1)

theorem onlyWorld_startStreamed (j : Nat) (s : State) : OnlyWorld s (startStreamed j s) := by
  unfold startStreamed
  split
  · exact .refl s
  · refine .forAll _ _ (fun st s => .forAll _ _ (fun m s => ?_) s) s
    split
    · exact .refl s
    · split
      · exact .refl s
      · refine .ite (.refl s) ?_
        split
        · exact .refl s
        · exact (onlyWorld_modRun _ _ s).trans (onlyWorld_invStart _ _ _)

theorem onlyWorld_startDue (s : State) : OnlyWorld s (startDue s) := by
  unfold startDue
  extract_lets s1
  have started : OnlyWorld s s1 := .forAll _ _ (fun v s => .ite (onlyWorld_startRun v s) (.refl s)) s
  split
  · exact started
  · split
    · exact .ite (started.trans (onlyWorld_startExchanges _ _)) (.ite (started.trans (onlyWorld_startStreamed _ _)) started)
    · exact started

end Sys2Proof.Machine
end

section
/-! COLL_COMPRESS, COLL_RUN and the data of collectives (R371, R376, R380, R383). -/

namespace Sys2Proof.Machine

open Sys2Proof

section

variable {s t : State} {h : Hdr} {tensor mode k block : Nat}

/-! ### COLL_COMPRESS (R371) -/

/-- A set has an all-reduce of the tensor in a format of R370. -/
def namesReduction (tensor : Nat) : Option SetImg → Bool
  | some t => (setColls t).any (fun c => c.op == 1 && c.src == tensor && [0x01, 0x02, 0x03].contains c.fmt)
  | none => false

/-- The setting COLL_COMPRESS asks for. -/
def compressEntry (tensor mode k block : Nat) : Nat × Nat × Nat × Nat := (tensor, mode, if mode = 1 then k else 0, if mode = 2 then block else 0)

/-- The setting of a tensor after the staged ones take effect is the one asked for already. -/
def compressStands (tensor mode : Nat) (e : Nat × Nat × Nat × Nat) (b : Job) : Bool :=
  match b.stCompress.find? (fun x => x.1 == tensor) with
  | some x => x == e
  | none => match b.compress.find? (fun x => x.1 == tensor) with
    | some x => x == e
    | none => mode = 0

/-- What COLL_COMPRESS does past the checks of every command. -/
def compressOwn (h : Hdr) (tensor mode k block : Nat) (s : State) : Cmd :=
  if !(namesReduction tensor (s.job h.job).cur || namesReduction tensor (s.job h.job).staged) || tensor = 0 then badC s 16
  else if 2 < mode then badC s 18
  else if mode = 1 && !(decide (3 ≤ k) && decide (k ≤ 10)) then badC s 19
  else if mode = 2 && !([32, 64, 128, 256, 512, 1024].contains block) then badC s 20
  else if compressStands tensor mode (compressEntry tensor mode k block) (s.job h.job) then noteC s 1
  else okC (s.modJob h.job (fun b => { b with stCompress := b.stCompress.filter (fun x => x.1 != tensor) ++ [compressEntry tensor mode k block] }))

theorem exec_collCompress {st d : Nat} (ready : Ready 0x0401 h s) (world : OnlyWorld (counted h s) t)
    (own : compressOwn h tensor mode k block (counted h s) = .done t st d 0xFF []) :
    exec (.collCompress h tensor mode k block) s = .next (finish 0x0401 h s st d 0xFF [] t) :=
  world.done (cmd := .collCompress h tensor mode k block) ready own

/-- A refused or idle COLL_COMPRESS is replied to and changes nothing else. -/
theorem exec_collCompress_same {st d : Nat} (ready : Ready 0x0401 h s)
    (own : compressOwn h tensor mode k block (counted h s) = .done (counted h s) st d 0xFF []) :
    exec (.collCompress h tensor mode k block) s = .next (finish 0x0401 h s st d 0xFF [] (counted h s)) :=
  exec_collCompress ready (.refl _) own

theorem namesReduction_iff {o : Option SetImg} : namesReduction tensor o = true ↔
    ∃ t, o = some t ∧ ∃ c ∈ setColls t, c.op = 1 ∧ c.src = tensor ∧ (c.fmt = 0x01 ∨ c.fmt = 0x02 ∨ c.fmt = 0x03) := by
  cases o with
  | none => simp [namesReduction]
  | some t => simp [namesReduction, and_assoc]

theorem named_iff : (namesReduction tensor (s.job h.job).cur || namesReduction tensor (s.job h.job).staged) = true ↔
    Claims.compressible s h.job tensor := by
  rw [Bool.or_eq_true, namesReduction_iff, namesReduction_iff, ← exists_or]
  simp only [← or_and_right]
  exact Iff.rfl

theorem compressOwn_unnamed (un : tensor = 0 ∨ ¬ Claims.compressible s h.job tensor) : compressOwn h tensor mode k block s = badC s 16 := by
  refine if_pos ?_
  rcases un with zero | un
  · simp [zero]
  · simp [Bool.eq_false_iff.mpr (mt named_iff.mp un)]

section named

variable (named : Claims.compressible s h.job tensor) (nonzero : tensor ≠ 0)
include named nonzero

/-- A tensor that may be compressed passes the first check. -/
theorem compressOwn_named : compressOwn h tensor mode k block s =
    if 2 < mode then badC s 18
    else if mode = 1 && !(decide (3 ≤ k) && decide (k ≤ 10)) then badC s 19
    else if mode = 2 && !([32, 64, 128, 256, 512, 1024].contains block) then badC s 20
    else if compressStands tensor mode (compressEntry tensor mode k block) (s.job h.job) then noteC s 1
    else okC (s.modJob h.job (fun b => { b with
      stCompress := b.stCompress.filter (fun x => x.1 != tensor) ++ [compressEntry tensor mode k block] })) :=
  if_neg (by simp [named_iff.mpr named, nonzero])

theorem compressOwn_mode (above : 2 < mode) : compressOwn h tensor mode k block s = badC s 18 := by
  rw [compressOwn_named named nonzero]
  exact if_pos above

theorem compressOwn_entries (topk : mode = 1) (outside : k < 3 ∨ 10 < k) : compressOwn h tensor mode k block s = badC s 19 := by
  rw [compressOwn_named named nonzero, if_neg (by omega)]
  refine if_pos ?_
  simp only [topk, decide_true, Bool.true_and, Bool.not_eq_true', Bool.and_eq_false_iff, decide_eq_false_iff_not]
  omega

theorem compressOwn_block (sign : mode = 2) (other : block ∉ [32, 64, 128, 256, 512, 1024]) :
    compressOwn h tensor mode k block s = badC s 20 := by
  rw [compressOwn_named named nonzero, if_neg (by omega), if_neg (by simp [sign])]
  exact if_pos (by simpa [sign] using other)

/-- A setting in range is staged unless it stands. -/
theorem compressOwn_inRange (known : mode ≤ 2) (entries : mode = 1 → 3 ≤ k ∧ k ≤ 10)
    (blocks : mode = 2 → block ∈ [32, 64, 128, 256, 512, 1024]) : compressOwn h tensor mode k block s =
    if compressStands tensor mode (compressEntry tensor mode k block) (s.job h.job) then noteC s 1
    else okC (s.modJob h.job (fun b => { b with
      stCompress := b.stCompress.filter (fun x => x.1 != tensor) ++ [compressEntry tensor mode k block] })) := by
  rw [compressOwn_named named nonzero, if_neg (by omega), if_neg (by simpa using entries)]
  exact if_neg (by simpa only [Bool.and_eq_true, decide_eq_true_eq, Bool.not_eq_true', not_and, Bool.not_eq_false, List.contains_iff_mem] using blocks)

end named

/-- With nothing staged for the tensor, what is in force decides. -/
theorem compressStands_unstaged {e : Nat × Nat × Nat × Nat} {b : Job} (unstaged : ∀ x ∈ b.stCompress, x.1 ≠ tensor) :
    compressStands tensor mode e b = true ↔
      b.compress.find? (fun x => x.1 == tensor) = some e ∨ (b.compress.find? (fun x => x.1 == tensor) = none ∧ mode = 0) := by
  have no : b.stCompress.find? (fun x => x.1 == tensor) = none := List.find?_eq_none.mpr (fun x mem => by simpa using unstaged x mem)
  unfold compressStands
  rw [no]
  cases b.compress.find? (fun x => x.1 == tensor) <;> simp

end

section

variable {s t u : State} {h : Hdr} {addr n : Nat} {bs : Bytes} {v : Inv}

/-! ### Reads of a job's address space give the bytes asked for, whatever the jobs do (R294, R300) -/

/-- An address leads to host memory where a mapping of the job that allows the access has it on a page that is there. -/
theorem xlate_eq_at_iff {j a x : Nat} {w : Bool} : xlate s j a w = .at_ x ↔
    ∃ m, s.w.mmu.maps.find? (fun m => m.job == j && decide (m.dva ≤ a) && decide (a < m.dva + m.len)) = some m ∧
      bit m.access (if w then 1 else 0) = true ∧ s.w.hostAbsent.contains ((m.host + (a - m.dva)) / 4096) = false ∧ m.host + (a - m.dva) = x := by
  unfold xlate
  generalize s.w.mmu.maps.find? (fun m => m.job == j && decide (m.dva ≤ a) && decide (a < m.dva + m.len)) = found
  cases found with
  | none => simp
  | some m =>
    simp only [Option.some.injEq, exists_eq_left']
    generalize bit m.access (if w = true then 1 else 0) = allowed
    generalize s.w.hostAbsent.contains ((m.host + (a - m.dva)) / 4096) = absent
    cases allowed with
    | false => simp
    | true => cases absent with
      | false => simp
      | true =>
        rw [if_neg (by simp), if_pos rfl]
        split <;> simp

/-- One piece of a read of a job's address space. -/
def readPiece (s : State) (j : Nat) (acc : Rd) (p : Nat × Nat) : Rd :=
  match acc with
  | .ok bs => (match xlate s j p.1 false with
    | .fault k g a => .fault k g a
    | .at_ h => if s.hostBad h p.2 then .poison else .ok (bs ++ mread s.w.host h p.2))
  | e => e

theorem jobRead_eq (s : State) (j dva n : Nat) : jobRead s j dva n = (piecesOf dva n).foldl (readPiece s j) (.ok []) := rfl

/-- A piece is read where those before it are and its address leads to host memory without poison. -/
theorem readPiece_ok {j : Nat} {acc : Rd} {p : Nat × Nat} : readPiece s j acc p = .ok bs ↔
    ∃ b x, acc = .ok b ∧ xlate s j p.1 false = .at_ x ∧ s.hostBad x p.2 = false ∧ b ++ mread s.w.host x p.2 = bs := by
  cases acc with
  | ok b =>
    simp only [readPiece]
    cases xlate s j p.1 false with
    | at_ x => cases bad : s.hostBad x p.2 <;> simp [bad]
    | fault k g a => simp
  | fault k g a => simp [readPiece]
  | poison => simp [readPiece]

/-- The pieces of a read cover what it asks for. -/
theorem sum_pieces (k a n : Nat) (enough : n = 0 ∨ n + a % 4096 ≤ 4096 * k) : ((pieces k a n).map Prod.snd).sum = n := by
  induction k generalizing a n with
  | zero => simp [pieces]; omega
  | succ k ih =>
    unfold pieces
    split
    · rename_i zero
      simp [zero]
    · dsimp only
      have rest : n - min n (4096 - a % 4096) = 0 ∨
          n - min n (4096 - a % 4096) + (a + min n (4096 - a % 4096)) % 4096 ≤ 4096 * k := by
        rcases le_total n (4096 - a % 4096) with within | beyond
        · left; omega
        · right
          rw [min_eq_right beyond]
          omega
      rw [List.map_cons, List.sum_cons, ih _ _ rest]
      omega

theorem length_readPieces {j : Nat} {l : List (Nat × Nat)} {acc : Rd} (read : l.foldl (readPiece s j) acc = .ok bs) :
    ∃ b, acc = .ok b ∧ bs.length = b.length + (l.map Prod.snd).sum := by
  induction l generalizing acc with
  | nil => exact ⟨bs, read, by simp⟩
  | cons p l ih =>
    obtain ⟨b', piece, length⟩ := ih read
    obtain ⟨b, x, before, _, _, joined⟩ := readPiece_ok.mp piece
    refine ⟨b, before, ?_⟩
    rw [length, ← joined, List.length_append, mread_length, List.map_cons, List.sum_cons]
    omega

theorem length_pktRead {j a : Nat} (read : pktRead s j a n = .ok bs) : bs.length = n := by
  unfold pktRead at read
  split at read
  · unfold busRead at read
    split at read
    · cases read
    · split at read
      · cases read
      · cases read
        exact mread_length _ _ _
  · rw [jobRead_eq] at read
    obtain ⟨b, empty, length⟩ := length_readPieces read
    cases empty
    rw [length, piecesOf, sum_pieces _ _ _ (.inr (by omega))]
    simp

/-- The state with another table of jobs and other commands in flight. -/
def withJobs (jobs : Tab Job) (inflight : List Run) (s : State) : State := s.onW (fun w => { w with jobs := jobs, inflight := inflight })

theorem readPieces_withJobs {j : Nat} {jobs : Tab Job} {inflight : List Run} {l : List (Nat × Nat)} {acc : Rd}
    (read : l.foldl (readPiece s j) acc = .ok bs) : l.foldl (readPiece (withJobs jobs inflight s) j) acc = .ok bs := by
  induction l generalizing acc with
  | nil => exact read
  | cons p l ih =>
    obtain ⟨b', piece, _⟩ := length_readPieces (l := l) read
    obtain ⟨b, x, before, leads, clean, joined⟩ := readPiece_ok.mp piece
    have leads' : xlate (withJobs jobs inflight s) j p.1 false = .at_ x := xlate_eq_at_iff.mpr ((xlate_eq_at_iff (s := s)).mp leads)
    have same : readPiece (withJobs jobs inflight s) j acc p = readPiece s j acc p :=
      (readPiece_ok.mpr ⟨b, x, before, leads', clean, joined⟩).trans piece.symm
    rw [List.foldl_cons, same]
    exact ih read

/-- What a job's mappings let it read does not depend on what its settings or the commands in flight are. -/
theorem pktRead_withJobs {j a : Nat} {jobs : Tab Job} {inflight : List Run} (read : pktRead s j a n = .ok bs) :
    pktRead (withJobs jobs inflight s) j a n = .ok bs := by
  unfold pktRead at read ⊢
  split at read
  · rename_i bus
    rw [if_pos bus]
    exact read
  · rename_i job
    rw [if_neg job]
    exact readPieces_withJobs read

/-! ### COLL_RUN (R383) -/

theorem firstBad_none_of_ok {l : List (Nat × Bool)} (ok : ∀ e ∈ l, e.2 = true) : firstBad l = none := by
  induction l with
  | nil => rfl
  | cons e r ih =>
    obtain ⟨o, b⟩ := e
    obtain rfl : b = true := ok _ List.mem_cons_self
    unfold firstBad
    rw [ih (fun e mem => ok e (List.mem_cons_of_mem _ mem))]
    rfl

/-- A declaration that a COLL_RUN may read or write: a tensor of the collective's format. -/
def collDecl (s : State) (j fmt x : Nat) : Bool := match s.decl j x with | some d => d.kind = 0 && d.fmt == fmt | none => false

/-- A declaration of at least `n` elements. -/
def collCount (s : State) (j x n : Nat) : Bool := match s.decl j x with | some d => decide (n ≤ d.count) | none => false

/-- The checks of a COLL_RUN's descriptor and of the declarations it names. -/
def collRunChecks (s : State) (j : Nat) (bs : Bytes) : List (Nat × Bool) :=
  let c := parseColl bs
  collChecks bs 0 (planExt s.w.topo.jobPlan) false ++
    [(4, collDecl s j c.fmt c.src && collCount s j c.src (if c.op = 3 then c.count / max c.size 1 else c.count)),
      (8, c.dst == 0 || (collDecl s j c.fmt c.dst && collCount s j c.dst (if c.op = 2 then c.count / max c.size 1 else c.count)))]

/-- The data that came before the COLL_RUN of a serial was issued here. -/
def earlyData (s : State) (v : Inv) : List Bytes := match getInv s v with | some e => e.segs.map (fun (x : Nat × Bytes) => x.2) | none => []

/-- The Reel engine without an invocation. -/
def dropInv (v : Inv) (s : State) : State := s.onW (fun w => { w with reel := { w.reel with invs := w.reel.invs.filter (fun x => !sameInv x v) } })

theorem dropInv_fresh (v : Inv) (fresh : s.w.reel.invs = []) : dropInv v s = s := by
  unfold dropInv
  rw [State.onW, fresh, List.filter_nil, ← fresh]

/-- The invocation of a COLL_RUN as it waits. -/
def runInv (h : Hdr) (n : Nat) (bs : Bytes) : Inv := { job := h.job, serial := n, desc := bs }

/-- The state in which the job has taken the serial of its next COLL_RUN. -/
def serialTaken (h : Hdr) (n : Nat) (s : State) : State := s.modJob h.job (fun b => { b with collSerial := n })

/-- What COLL_RUN does with the descriptor it has read. -/
def collRunRead (h : Hdr) (s : State) (bs : Bytes) : Cmd :=
  match firstBad (collRunChecks s h.job bs) with
  | some o => badRec s o
  | none =>
    if (s.job h.job).run.isSome || !(s.job h.job).waiting.isEmpty then failC s 0x30
    else if s.w.topo.jobPlan.isNone then failC s 0x60
    else .later (dropInv (runInv h ((s.job h.job).collSerial + 1) bs) (serialTaken h ((s.job h.job).collSerial + 1) s))
      ((s.job h.job).collSerial + 1) (earlyData s (runInv h ((s.job h.job).collSerial + 1) bs)).length

theorem runCollRun_eq (h : Hdr) (addr : Nat) :
    runCollRun h addr = startCmd (.collRun h addr) 0x0402 h (fun s => withRead s h.job addr 64 16 (collRunRead h s)) := by
  unfold runCollRun
  refine congrArg (startCmd _ _ h) (funext fun s => congrArg (withRead s h.job addr 64 16) (funext fun bs => ?_))
  extract_lets c b okDecl cnt srcN dstN n v early s1
  have checks : collChecks bs 0 (planExt s.w.topo.jobPlan) false ++ [(4, okDecl c.src && cnt c.src srcN),
      (8, c.dst == 0 || (okDecl c.dst && cnt c.dst dstN))] = collRunChecks s h.job bs := rfl
  rw [checks]
  unfold collRunRead
  cases firstBad (collRunChecks s h.job bs) with
  | none => rfl
  | some o => rfl

section passes

variable {src dst : Nat} {ds dd : Decl}

theorem collRunChecks_passed (pass : firstBad (collChecks bs 0 (planExt s.w.topo.jobPlan) false) = none) (ofSrc : (parseColl bs).src = src)
    (ofDst : (parseColl bs).dst = dst) (declSrc : s.decl h.job src = some ds) (declDst : s.decl h.job dst = some dd)
    (kinds : ds.kind = 0 ∧ dd.kind = 0) (fmts : ds.fmt = (parseColl bs).fmt ∧ dd.fmt = (parseColl bs).fmt)
    (counts : (parseColl bs).count ≤ ds.count ∧ (parseColl bs).count ≤ dd.count) (op : (parseColl bs).op ≠ 3) :
    firstBad (collRunChecks s h.job bs) = none := by
  obtain ⟨kindSrc, kindDst⟩ := kinds
  obtain ⟨fmtSrc, fmtDst⟩ := fmts
  obtain ⟨countSrc, countDst⟩ := counts
  have share : (if (parseColl bs).op = 2 then (parseColl bs).count / max (parseColl bs).size 1 else (parseColl bs).count) ≤ dd.count := by
    split
    · exact (Nat.div_le_self _ _).trans countDst
    · exact countDst
  refine firstBad_none_of_ok (fun e mem => ?_)
  simp only [collRunChecks, ofSrc, ofDst, List.mem_append, List.mem_cons, List.not_mem_nil, or_false] at mem
  rcases mem with early | rfl | rfl
  · exact ok_of_firstBad_none pass e early
  · simp [collDecl, collCount, declSrc, kindSrc, fmtSrc, countSrc, op]
  · simp [collDecl, collCount, declDst, kindDst, fmtDst, share]

end passes

section accepted

variable (pass : firstBad (collRunChecks s h.job bs) = none)
include pass

theorem collRunRead_busy (running : (s.job h.job).run ≠ none) : collRunRead h s bs = failC s 0x30 := by
  unfold collRunRead
  rw [pass]
  exact if_pos (by simp [Option.isSome_iff_ne_none.mpr running])

variable (idle : (s.job h.job).run = none) (nothing : (s.job h.job).waiting = [])
include idle nothing

theorem collRunRead_alone (unplanned : s.w.topo.jobPlan = none) : collRunRead h s bs = failC s 0x60 := by
  unfold collRunRead
  rw [pass]
  exact (if_neg (by simp [idle, nothing])).trans (if_pos (by simp [unplanned]))

theorem collRunRead_accepts (planned : s.w.topo.jobPlan ≠ none) (fresh : s.w.reel.invs = []) : collRunRead h s bs =
    .later (serialTaken h ((s.job h.job).collSerial + 1) s) ((s.job h.job).collSerial + 1) 0 := by
  have early (v : Inv) : earlyData s v = [] := by simp [earlyData, getInv, fresh]
  have drop (v : Inv) (m : Nat) : dropInv v (serialTaken h m s) = serialTaken h m s := dropInv_fresh v fresh
  unfold collRunRead
  rw [pass]
  dsimp only
  rw [if_neg (by simp [idle, nothing]), if_neg (by simpa using planned), early, drop]
  rfl

end accepted

/-! ### From its acceptance to its invocation (R376, R383) -/

theorem collGo_refused {st d : Nat} (ready : Ready 0x0402 h s) (read : pktRead (counted h s) h.job addr 64 = .ok bs)
    (own : collRunRead h (counted h s) bs = failC (counted h s) st d) : collGo h addr s = finish 0x0402 h s st d 0xFF [] (counted h s) := by
  have answered : runCollRun h addr s = finish 0x0402 h s st d 0xFF [] (counted h s) := by
    rw [runCollRun_eq]
    exact startCmd_done ready ((withRead_ok read).trans own)
  have none_new : (finish 0x0402 h s st d 0xFF [] (counted h s)).w.inflight.find?
      (fun r => r.op = 0x0402 && r.hdr == h && !s.w.inflight.contains r) = none := by
    refine List.find?_eq_none.mpr (fun r mem => ?_)
    have before : r ∈ s.w.inflight := (answers_complete (accepts 0x0402 h s 0 0) (counted h s)).inflight mem
    simp [before]
  unfold collGo
  rw [answered]
  dsimp only
  rw [none_new]

theorem collGo_accepted {m : Nat} (ready : Ready 0x0402 h s) (read : pktRead (counted h s) h.job addr 64 = .ok bs)
    (own : collRunRead h (counted h s) bs = .later (serialTaken h m (counted h s)) m 0) (fresh : s.w.reel.invs = [])
    (alone : ∀ r ∈ s.w.inflight, r.hdr ≠ h) :
    collGo h addr s = startDue (putInv (runInv h m bs) (runsOn 0x0402 h s m 0 (serialTaken h m (counted h s)))) := by
  have accepted : runCollRun h addr s = runsOn 0x0402 h s m 0 (serialTaken h m (counted h s)) := by
    rw [runCollRun_eq]
    exact startCmd_later ready ((withRead_ok read).trans own)
  have found : (runsOn 0x0402 h s m 0 (serialTaken h m (counted h s))).w.inflight.find?
      (fun r => r.op = 0x0402 && r.hdr == h && !s.w.inflight.contains r) = some (accepts 0x0402 h s m 0) := by
    have older : s.w.inflight.find? (fun r => r.op = 0x0402 && r.hdr == h && !s.w.inflight.contains r) = none :=
      List.find?_eq_none.mpr (fun r mem => by simp [alone r mem])
    have new : accepts 0x0402 h s m 0 ∉ s.w.inflight := fun mem => alone _ mem rfl
    have last : [accepts 0x0402 h s m 0].find? (fun r => r.op = 0x0402 && r.hdr == h && !s.w.inflight.contains r) = some (accepts 0x0402 h s m 0) :=
      List.find?_cons_of_pos (by
        rw [Bool.and_eq_true, Bool.and_eq_true, Bool.not_eq_true', ← Bool.not_eq_true, List.contains_iff_mem]
        exact ⟨⟨rfl, beq_self_eq_true h⟩, new⟩)
    exact List.find?_append.trans ((congrArg (Option.or · _) older).trans last)
  have again : pktRead (runsOn 0x0402 h s m 0 (serialTaken h m (counted h s))) h.job addr 64 = .ok bs :=
    pktRead_withJobs (s := counted h s) read
  unfold collGo
  rw [accepted, fresh]
  dsimp only
  rw [found]
  dsimp only
  rw [again]
  rfl

theorem sameInv_self (v : Inv) : sameInv v v = true := by simp [sameInv]

/-- The invocation alone in the engine leaves it as it was when it is taken out. -/
theorem dropInv_putInv (fresh : s.w.reel.invs = []) : dropInv v (putInv v s) = s := by
  unfold dropInv putInv
  rw [State.onW, State.onW, fresh]
  dsimp only
  rw [List.filter_nil, List.nil_append, List.filter_cons_of_neg (by simp [sameInv_self]), List.filter_nil, ← fresh]

/-- A COLL_RUN that waits alone is due. -/
theorem runsDue_putInv {m : Nat} (fresh : s.w.reel.invs = []) (whole : bs.length = 64) : runsDue (putInv (runInv h m bs) s) = [runInv h m bs] := by
  have alone : (putInv (runInv h m bs) s).w.reel.invs = [runInv h m bs] := by simp [putInv, fresh]
  rw [runsDue, alone]
  exact List.filter_cons_of_pos (by simp [runInv, whole])

theorem reelRoom_putInv {m : Nat} (fresh : s.w.reel.invs = []) : reelRoom (putInv (runInv h m bs) s) = true := by
  have alone : (putInv (runInv h m bs) s).w.reel.invs = [runInv h m bs] := by simp [putInv, fresh]
  rw [reelRoom, alone]
  simp [runInv]

/-- The invocation of a COLL_RUN as it starts. -/
def runStarted (h : Hdr) (m : Nat) (bs : Bytes) (s : State) : State :=
  invStart { runInv h m bs with bad := declBad s h.job (parseColl bs).src } ((declCodes s h.job (parseColl bs).src).take (parseColl bs).count) s

theorem startRun_putInv {m : Nat} (fresh : s.w.reel.invs = []) (op : (parseColl bs).op ≠ 3) :
    startRun (runInv h m bs) (putInv (runInv h m bs) s) = runStarted h m bs s := by
  have drop : dropInv (runInv h m bs) (putInv (runInv h m bs) s) = s := dropInv_putInv fresh
  unfold startRun
  extract_lets c x
  have codes : x = (declCodes s h.job (parseColl bs).src).take (parseColl bs).count := congrArg (List.take · _) (if_neg op)
  rw [codes]
  change invStart { runInv h m bs with bad := declBad (putInv (runInv h m bs) s) h.job (parseColl bs).src } _
    (dropInv (runInv h m bs) (putInv (runInv h m bs) s)) = _
  rw [drop]
  rfl

/-- A COLL_RUN that finds the engine free and runs beside no step starts at once, and nothing else starts with it. -/
theorem startDue_putInv {m : Nat} (fresh : s.w.reel.invs = []) (whole : bs.length = 64) (op : (parseColl bs).op ≠ 3)
    (held : s.w.holder = none ∨ s.w.holder = some h.job) (idle : (s.job h.job).run = none) :
    startDue (putInv (runInv h m bs) s) = runStarted h m bs s := by
  have first : FirstRun { runInv h m bs with bad := declBad s h.job (parseColl bs).src } s := ⟨by simp [getInv, fresh], rfl, rfl, rfl⟩
  have keeps : KeepsRuns _ s (runStarted h m bs s) := keepsRuns_invStart _ _ s
  have holder := keeps.holder first
  have run := keeps.idle first idle
  have started : forAll (runsDue (putInv (runInv h m bs) s)) (fun v s => if reelRoom s then startRun v s else s) (putInv (runInv h m bs) s) =
      runStarted h m bs s := by
    rw [runsDue_putInv fresh whole]
    exact (if_pos (reelRoom_putInv fresh)).trans (startRun_putInv fresh op)
  unfold startDue
  rw [started]
  generalize runStarted h m bs s = t at holder run
  dsimp only
  rw [holder]
  rcases held with no | own
  · rw [no]
  · rw [own]
    dsimp only
    rw [run]

/-! ### Data of collectives (R380) -/

section data

variable {j stage mb serial crc pass first units fmt rank : Nat} {comp : Bool} {d data : Bytes}

theorem exec_reelData (meaning : reelReceive j stage mb serial crc pass first units fmt comp rank data s = t) :
    exec (.reelDataReceive j stage mb serial crc pass first units fmt comp rank data) s = .next (startDue t) := by
  have world : OnlyWorld s t := meaning ▸ onlyWorld_reelReceive _ _ _ _ _ _ _ _ _ _ _ _ s
  exact (world.trans (onlyWorld_startDue t)).runs
    (f := fun s => startDue (reelReceive j stage mb serial crc pass first units fmt comp rank data s)) (congrArg startDue meaning)

variable (live : s.live j = true)
include live

/-- Data for a stage whose descriptor the job's set has with another CRC fails the step. -/
theorem reelReceive_otherCrc (set_ : stage ≠ 0xFFFF) (own : ownDesc s j stage serial = some d) (other : crc32 d ≠ crc) :
    reelReceive j stage mb serial crc pass first units fmt comp rank data s =
      failStep j (s.stepOf j) { status := 0x11, detail := 2 ^ 31, unit := 0x06, stage := stage } [] (flt0 0x3603 0x06 j (s.stepOf j) s) := by
  unfold reelReceive
  rw [if_neg (by simp [live]), own]
  exact (if_pos (by simpa using other)).trans (if_neg set_)

/-- Data for a stage the job's set has not is dropped. -/
theorem reelReceive_unknown (set_ : stage ≠ 0xFFFF) (own : ownDesc s j stage serial = none) :
    reelReceive j stage mb serial crc pass first units fmt comp rank data s = s := by
  unfold reelReceive
  rw [if_neg (by simp [live]), own]
  exact if_pos (by simpa using set_)

/-- Data of a COLL_RUN not issued here yet waits for it with what its message said. -/
theorem reelReceive_early (own : ownDesc s j 0xFFFF serial = none) (fresh : s.w.reel.invs = []) :
    reelReceive j 0xFFFF mb serial crc pass first units fmt comp rank data s =
      putInv { job := j, stage := 0xFFFF, mb := mb, serial := serial, segs := [(2 ^ 40,
        layout [(4, crc), (1, pass), (8, first), (4, units), (1, fmt), (1, b2n comp), (2, rank)] ++ data)] } s := by
  have none_yet (v : Inv) : getInv s v = none := by simp [getInv, fresh]
  unfold reelReceive
  rw [if_neg (by simp [live]), own]
  refine (if_neg (by simp)).trans ?_
  rw [none_yet]
  rfl

/-- A segment of an all-to-all joins the invocation of its stage. -/
theorem reelReceive_segment (own : ownDesc s j stage serial = some d) (op : (parseColl d).op = 5) (whole : data.length = (parseColl d).seg)
    (fresh : s.w.reel.invs = []) : reelReceive j stage mb serial (crc32 d) 6 first units fmt false rank data s =
      invPump { job := j, stage := stage, mb := mb, serial := serial, op := 5, desc := d, segs := [(rank, data)] } s := by
  have none_yet (v : Inv) : getInv s v = none := by simp [getInv, fresh]
  have length : dataLen (s.job j) (parseColl d) first units fmt false data.length = data.length := by simp [dataLen, op, whole]
  have all : data.take data.length = data := List.take_length
  have clean : data.drop data.length = [] := List.drop_length
  unfold reelReceive
  rw [if_neg (by simp [live]), own]
  dsimp only
  rw [if_neg (by simp), if_neg (by simp), if_neg (by omega), if_neg (by simp), if_neg (by simp [op]), if_pos op, none_yet, length, all, clean, op]
  rfl

end data

theorem exec_collRun_refused {st d : Nat} (ready : Ready 0x0402 h s) (read : pktRead (counted h s) h.job addr 64 = .ok bs)
    (own : collRunRead h (counted h s) bs = failC (counted h s) st d) :
    exec (.collRun h addr) s = .next (finish 0x0402 h s st d 0xFF [] (counted h s)) :=
  OnlyWorld.runs (f := collGo h addr) ((onlyWorld_counted h s).trans (onlyReply_finish _ _ _ _ _ _ _ _).world) (collGo_refused ready read own)

/-- The job that takes a serial still runs no step. -/
theorem idle_serialTaken {m : Nat} (idle : (s.job h.job).run = none) : ((serialTaken h (m + 1) s).job h.job).run = none := by
  have taken : (serialTaken h (m + 1) s).job h.job = { s.job h.job with collSerial := m + 1 } :=
    tget_tput_of_ne s.w.jobs h.job (fun default => Nat.succ_ne_zero m (congrArg Job.collSerial default))
  rw [taken]
  exact idle

theorem exec_collRun_starts (ready : Ready 0x0402 h s) (read : pktRead (counted h s) h.job addr 64 = .ok bs)
    (pass : firstBad (collRunChecks (counted h s) h.job bs) = none) (op : (parseColl bs).op ≠ 3) (idle : (s.job h.job).run = none)
    (nothing : (s.job h.job).waiting = []) (planned : s.w.topo.jobPlan ≠ none) (fresh : s.w.reel.invs = [])
    (alone : ∀ r ∈ s.w.inflight, r.hdr ≠ h) (held : s.w.holder = none ∨ s.w.holder = some h.job) :
    exec (.collRun h addr) s = .next (runStarted h ((s.job h.job).collSerial + 1) bs
      (runsOn 0x0402 h s ((s.job h.job).collSerial + 1) 0 (serialTaken h ((s.job h.job).collSerial + 1) (counted h s)))) := by
  have world : OnlyWorld s (runsOn 0x0402 h s ((s.job h.job).collSerial + 1) 0 (serialTaken h ((s.job h.job).collSerial + 1) (counted h s))) :=
    ((onlyWorld_counted h s).trans (.modJob _ _ _)).trans (.onW _ _)
  have goes := collGo_accepted ready read (collRunRead_accepts pass idle nothing planned fresh) fresh alone
  have starts := startDue_putInv (m := (s.job h.job).collSerial + 1) (h := h)
    (s := runsOn 0x0402 h s ((s.job h.job).collSerial + 1) 0 (serialTaken h ((s.job h.job).collSerial + 1) (counted h s)))
    fresh (length_pktRead read) op held (idle_serialTaken idle)
  exact OnlyWorld.runs (f := collGo h addr) (world.trans (onlyWorld_invStart _ _ _)) (goes.trans starts)

end

/-- Settles O42: COLL_COMPRESS check by check, COLL_RUN through its acceptance to its invocation, and the data of collectives by what the
module knows of its descriptor. -/
theorem collectivesAreSetRunAndReceived : Obligations.CollectivesAreSetRunAndReceived := by
  unfold Obligations.CollectivesAreSetRunAndReceived
  refine ⟨?_, ?_, ?_, ?_, ?_, ?_, ?_, ?_, ?_⟩
  · rintro h tensor mode k block _ s ready named nonzero moded known entries blocks unstaged unset rfl
    refine exec_collCompress ready (.onW _ _) ?_
    have new : ¬ compressStands tensor mode (compressEntry tensor mode k block) (s.job h.job) = true := by
      rw [compressStands_unstaged unstaged]
      rintro (stands | ⟨_, off⟩)
      · exact absurd (unset.symm.trans stands) nofun
      · exact moded off
    have kept : (s.job h.job).stCompress.filter (fun x => x.1 != tensor) = (s.job h.job).stCompress :=
      List.filter_eq_self.mpr (fun x mem => by simpa using unstaged x mem)
    refine (compressOwn_inRange (s := counted h s) named nonzero known entries blocks).trans ((if_neg new).trans ?_)
    exact congrArg (fun l => Cmd.done ((counted h s).setJob h.job { s.job h.job with
      stCompress := l ++ [compressEntry tensor mode k block] }) 0 0 0xFF []) kept
  · rintro h tensor mode k block _ s ready named nonzero known entries blocks unstaged rfl stands
    have same := (compressStands_unstaged (e := compressEntry tensor mode k block) unstaged).mpr stands
    exact exec_collCompress_same ready ((compressOwn_inRange (s := counted h s) named nonzero known entries blocks).trans (if_pos same))
  · intro h tensor mode k block s ready un
    exact exec_collCompress_same ready (compressOwn_unnamed un)
  · intro h tensor mode k block s ready named nonzero
    exact ⟨fun above => exec_collCompress_same ready (compressOwn_mode named nonzero above),
      fun topk outside => exec_collCompress_same ready (compressOwn_entries named nonzero topk outside),
      fun sign other => exec_collCompress_same ready (compressOwn_block named nonzero sign other)⟩
  · rintro h addr src dst bs ds dd s ready read checks ofSrc ofDst _ declSrc declDst kindSrc kindDst fmtSrc fmtDst countSrc countDst op
    have pass : firstBad (collRunChecks (counted h s) h.job bs) = none :=
      collRunChecks_passed checks ofSrc ofDst declSrc declDst ⟨kindSrc, kindDst⟩ ⟨fmtSrc, fmtDst⟩ ⟨countSrc, countDst⟩ op
    refine ⟨fun running => exec_collRun_refused ready read (collRunRead_busy pass running),
      fun idle nothing unplanned => exec_collRun_refused ready read (collRunRead_alone pass idle nothing unplanned),
      fun idle nothing planned fresh alone held => ?_⟩
    subst ofSrc
    exact exec_collRun_starts ready read pass op idle nothing planned fresh alone held
  · intro j stage mb serial first units fmt rank d data s live _ own op whole fresh
    exact exec_reelData (reelReceive_segment live own op whole fresh)
  · intro j stage mb serial crc pass first units fmt comp rank d data s live set_ own other
    exact exec_reelData (reelReceive_otherCrc live set_ own other)
  · intro j stage mb serial crc pass first units fmt comp rank data s live set_ own
    exact exec_reelData (reelReceive_unknown live set_ own)
  · intro j mb serial crc pass first units fmt rank comp data s live own fresh
    exact exec_reelData (reelReceive_early live own fresh)

end Sys2Proof.Machine
end
